-- ==== Sys2Proof/Word.lean ====
section
/-! DEFINITION. The word types of the ONV-2524 (R10: every multi-byte field is little-endian, words count 32 bits). -/

namespace Sys2Proof

/-- One byte of a packet, record or memory. -/
abbrev Byte := BitVec 8

/-- One 32-bit word: the unit of every packet, record and register map (R10). -/
abbrev W32 := BitVec 32

/-- A 64-bit field (R10). -/
abbrev W64 := BitVec 64

end Sys2Proof
end

