-- ==== Sys2Proof/Syntax.lean ====
section
/-! DEFINITION. The commands and events of the ONV-2524: one constructor of `Instr` per row of spec/opcode_table.json,
in the table's order.  The table gives no operands; each constructor's operands are what its rule says the step is
about (a queue, a slot, a register access) and, for an event that brings something in from outside the device
(a host read's result, a fabric packet, a sensor sample), what it brings. -/

namespace Sys2Proof

/-- A read of a queue's doorbell record in host memory: its tail and cpl_head words (R302). -/
structure DoorbellRead where
  queue   : Nat
  tail    : Nat
  cplHead : Nat
  deriving DecidableEq, Repr

/-- One 64-bit word of a summary in host memory (R304, R306): what the plain read returned, and what the AtomicOp Swap with 0
returned where it was issued. -/
structure SummaryWord where
  plain   : BitVec 64
  swapped : BitVec 64
  deriving DecidableEq, Repr

/-- A read of a summary and of the queue records behind it (R306): the words, the records read for the bits the plain read
showed, and those read again for the bits the Swaps returned. -/
structure SummaryRead where
  words : List SummaryWord
  first : List DoorbellRead := []
  again : List DoorbellRead := []
  deriving DecidableEq, Repr

/-- A tide beacon as it arrives at a port (R57), with what the receiver's link engine measured of it. -/
structure Beacon where
  port        : Nat
  tide        : Nat
  generation  : Nat
  srcRank     : Nat
  periodUnits : Nat
  slackPct    : Nat
  ebbPct      : Nat
  hops        : Nat
  residenceNs : Nat
  /-- Signed offset of the local boundary from the disciplined estimate, in ns (R51 offset_ns, R62). -/
  offsetNs    : Int
  /-- Whether the body verifies under the harbour key and the per-hop fields under the hop key (R479). -/
  authentic   : Bool
  deriving DecidableEq, Repr

/-- A fabric packet (R469) as its destination's link engine hands it up: header fields, opened payload, and whether
the AES-256-GCM tag verified under the key its window names (R481, R482). -/
structure FabricPacket where
  dst     : Nat
  src     : Nat
  cls     : Nat
  hops    : Nat
  detour  : Bool
  type    : Nat
  window  : Nat
  offset  : Nat
  length  : Nat
  seq     : Nat
  op      : W32
  payload : List Byte
  tagOk   : Bool
  deriving DecidableEq, Repr

/-- The far end's message of the link handshake (R478). -/
structure Handshake where
  port      : Nat
  harbour   : W32
  address   : Nat
  farPort   : Nat
  lcState   : Nat
  spareMap  : W32
  /-- The rate code the lanes trained at (R465, R500), and whether at half width. -/
  rate      : Nat
  half      : Bool
  /-- The far certificate chain verifies to the fused vendor root (R478 step 2). -/
  chainOk   : Bool
  /-- The far signature over the transcript verifies (R478 step 3). -/
  sigOk     : Bool
  /-- The X25519 shared secret followed by the transcript digest (R478 step 4). -/
  secret    : List Byte
  /-- Links between other devices, by the fabric addresses of their ends, as the link-control frames that came by now
  give them (R473). -/
  links     : List (Nat × Nat) := []
  deriving DecidableEq, Repr

/-- One rank's input to a collective as the fabric delivers it (R250, R251, R494): its stored elements, fine codes and
coarse scale; the amax code it exchanged and, from rank 0, the coarse scale of the output (R495). -/
structure RankInput where
  rank      : Nat
  elems     : List Nat
  fines     : List Nat
  coarse    : W32
  amax      : Nat
  outCoarse : W32
  /-- The digest of the rank's module, which comes with the first collective of a run (R230). -/
  digest    : Option (List Byte) := none
  deriving DecidableEq, Repr

/-- How a collective ended on the fabric (R252): with every rank's input delivered, or with a code; where a rank withholds,
with the address of the device that it came from (R40). -/
inductive CollResult where
  | delivered (ins : List RankInput)
  | failed    (code : Nat) (origin : Option Nat := none)
  deriving DecidableEq, Repr

/-- A group-control packet (R485): a rank's request to rank 0, the nonce rank 0 sends, its refusal, or an abort. -/
inductive GroupControl where
  | request (groupId : Nat) (listDigest charterDigest : List Byte) (rank : Nat)
  | nonce   (groupId : Nat) (nonce : Nat)
  | refuse  (groupId : Nat) (code : Nat)
  /-- A collective of the group is aborted: a check failed on the device `origin` (R40). -/
  | abort   (groupId step op origin : Nat)
  /-- A collective of the group met a packet of another operation (R487). -/
  | mismatch (groupId step op : Nat)
  deriving DecidableEq, Repr

/-- What the spec leaves to timing inside a construct (R657): records that issue before their order where nothing holds them
back, and, for a record, those still in flight when it issues. -/
structure Sched where
  order   : List Nat := []
  overlap : List (Nat × Nat) := []
  deriving DecidableEq, Repr

/-- A construct of the step's program as it issues: its record, and the schedule inside it (R206, R207, R657). -/
structure ConstructAt where
  op    : Nat
  sched : Sched := {}
  deriving DecidableEq, Repr

/-- The runs, and the contexts' transfers, whose data crossed a seam in this tide (R26). -/
structure SeamReaders where
  runs : List Nat := []
  ctxs : List Nat := []
  deriving DecidableEq, Repr

/-- The generation a host link trained at, and whether the link partner supports flit mode (R290). -/
structure LinkMode where
  gen  : Nat
  flit : Bool
  deriving DecidableEq, Repr

/-- What the origin of a packet knows of its target when no acknowledgement has come (R477, R482, R489): nothing, that the
tag fails there, or that the target refuses it. -/
inductive SendReport where
  | silent | tagFails | refused
  deriving DecidableEq, Repr

/-- One sealed 4 KiB snapshot unit as the keeper receives it (R508, R515). -/
structure HavenUnit where
  keeperCtx  : Nat
  source     : Nat
  sourceCtx  : Nat
  generation : Nat
  unit       : Nat
  units      : Nat
  bytes      : List Byte
  deriving DecidableEq, Repr

/-- What the keeper's haven window returns to a RESTORE (R523): whether every unit arrived and opened under its tag,
the shard's tensors by (plan slot, tensor), the scale entries, stream records, positions and digests (R512). -/
structure ShardTensor where
  plan   : Nat
  tensor : Nat
  bytes  : List Byte
  coarse : W32
  expMax : Int
  deriving DecidableEq, Repr

structure ShardScale where
  plan     : Nat
  tensor   : Nat
  slots    : List Nat
  lastStep : Nat
  deriving DecidableEq, Repr

structure ShardPlan where
  plan     : Nat
  digest   : List Byte
  position : Nat
  streams  : List (Nat × Nat)
  deriving DecidableEq, Repr

structure Shard where
  generation : Nat
  tensors    : List ShardTensor
  scales     : List ShardScale
  plans      : List ShardPlan
  bytes      : Nat
  deriving DecidableEq, Repr

/-- The answer of a haven pull (R522, R523). -/
inductive PullResult where
  | shard      (s : Shard)
  | incomplete
  deriving DecidableEq, Repr

/-- The two ways the 50 ns detector's peers reset the device (R583). -/
inductive ResetCause where
  | perst
  | hotReset
  | flrPf0
  deriving DecidableEq, Repr

/-- What the boot finds (R605, R608, R587): the strap, REFCLK's frequency, and which firmware slots verify. -/
structure BootFacts where
  bifur      : Bool
  refclkHz   : Nat
  slotAOk    : Bool
  slotBOk    : Bool
  deriving DecidableEq, Repr

/-- The NAND geometry one hub's channels report at training (R453, R454, R455) and its bad blocks (R462). -/
structure FlashGeom where
  channels      : List Nat := []
  chipEnables   : Nat := 1
  luns          : Nat := 1
  planes        : Nat := 1
  slotsPerPage  : Nat := 4
  pagesPerBlock : Nat := 1
  blocks        : Nat := 0
  endurance     : Nat := 1
  /-- The rate the channels trained at, in MT/s, and the page read time tR, in ns (R454). -/
  rate          : Nat := 3600
  readNs        : Nat := 0
  /-- Plane index and block number of every block recorded bad. -/
  bad           : List (Nat × Nat) := []
  /-- Erase counts kept in the channels' metadata (R437): plane index, block, count. -/
  erases        : List (Nat × Nat × Nat) := []
  deriving DecidableEq, Repr

/-- A retry or failure report of stage 5 (R607, R608): every unit trained, with the clusters (tile and number) and the
scratchpad banks (one tile for each) that failed self-test and that spares cover; or the unit that failed three times. -/
inductive Stage5Result where
  | trained (flash : List FlashGeom) (clusters : List (Nat × Nat)) (banks : List Nat)
  | failed  (unit : Nat)
  deriving DecidableEq, Repr

/-- The lost metadata lines of R427. -/
inductive LostLine where
  | macLine       (granule16 : Nat)
  | counterBlock  (block : Nat)
  | blockTagLine  (block : Nat)
  | level1        (node : Nat)
  | level1TagLine (node : Nat)
  | level2        (node : Nat)
  | level2TagLine (node : Nat)
  | rootWord
  | system        (both : Bool)
  deriving DecidableEq, Repr

/-- A power reading of every rail, in mW (R599): the tile rails CT0 to CT15, then the other rails in the order of R614. -/
structure PowerReading where
  tileMw   : List Nat
  railMw   : List Nat
  /-- Each tile rail's current exceeds its 1 ms maximum (R626). -/
  overMax  : List Bool
  deriving DecidableEq, Repr

/-- A temperature report: hottest junction of each die by its R9 encoding, and of each stack, in °C (R602, R621). -/
structure ThermalReading where
  dies   : List (Nat × Nat)
  stackTemps : List (Nat × Nat)
  /-- Corrected reads of scratchpad banks since the last report, one entry each, by tile and bank (R502, R525). -/
  banks  : List (Nat × Nat) := []
  deriving DecidableEq, Repr

/-- A request of the SPDM responder (R535). -/
inductive SpdmMsg where
  | getVersion
  | getCapabilities
  | negotiateAlgorithms
  | getDigests
  | getCertificate (slot : Nat)
  | challenge (nonce : List Byte)
  | getMeasurements (index : Nat) (nonce : List Byte)
  | keyExchange (mutualAuth : Bool) (session : Nat)
  | finish (session : Nat)
  | heartbeat (session : Nat)
  | keyUpdate (session : Nat)
  | endSession (session : Nat)
  | pskExchange
  | setCertificate
  | other (code : Nat)
  deriving DecidableEq, Repr

/-- An MCTP control request (R643). -/
inductive MctpControl where
  | setEid (eid : BitVec 8)
  | getEid
  | getVersionSupport
  | getMessageTypeSupport
  | getVendorMessageSupport
  | other (cmd : Nat)
  deriving DecidableEq, Repr

/-- A PLDM type 2 request (R648). -/
inductive PldmPlatform where
  | getPdrRepositoryInfo
  | getPdr (record : Nat)
  | getSensorReading (sensor : Nat)
  | getStateSensorReadings (sensor : Nat)
  | setEventReceiver (eid : BitVec 8)
  | pollForEvent
  | other (cmd : Nat)
  deriving DecidableEq, Repr

/-- One arrival of update data (R653): a chunk, or the end of the component with its image's checks. -/
inductive UpdateData where
  | chunk (offset : Nat) (bytes : List Byte)
  | complete (sigOk namesDevice : Bool) (digest : List Byte) (version : BitVec 31)
  deriving DecidableEq, Repr

/-- The IDE_KM message kinds (R293). -/
inductive IdeKm where
  | keyProg (link stream : Nat) (keySet : Nat)
  | keySetGo (link stream : Nat) (keySet : Nat)
  | keySetStop (link stream : Nat)
  | query (link : Nat)
  /-- Which selective stream carries a VF's traffic (R294). -/
  | bindVf (fn stream : Nat)
  deriving DecidableEq, Repr

/-- The life-cycle request of a secured vendor message (R646). -/
structure LcRequestMsg where
  secured   : Bool
  cmdWord   : W32
  data      : List W32
  transport : Nat
  deriving DecidableEq, Repr

/-- Where SNAPSHOT takes place: on the coordinator as a command, on another rank as the schedule arrives, or on the coordinator
again as that rank's answer comes: it holds the schedule, or its context has no source binding (R511). -/
inductive SnapshotAt where
  | queue (q : Nat)
  | rank  (job interval firstTide : Nat) (stop : Bool)
  | reply (job rank : Nat) (bound : Bool)
  deriving DecidableEq, Repr

/-- Where SNAPSHOT_DECISION arrives: at a rank, or at the keeper of a rank that abandons the generation (R513, R514, R517). -/
inductive DecisionAt where
  | rank   (job : Nat)
  | keeper (ctx source sourceCtx generation : Nat)
  deriving DecidableEq, Repr

/-- Where SNAPSHOT_COMPLETE takes place: on the coordinator once every rank has reported, or where COMPLETE arrives, on
another rank or on a keeper (R515). -/
inductive CompleteAt where
  | coordinator (job : Nat)
  | rank        (job : Nat)
  | keeper      (ctx source sourceCtx generation : Nat)
  deriving DecidableEq, Repr

/-- The job substitution a takeover sends to a surviving rank (R519 step 2). -/
structure Substitution where
  groupId  : Nat
  rank     : Nat
  failed   : Nat
  spare    : Nat
  nonce    : Nat
  restore  : Nat
  /-- The rank list with the spare in it. -/
  ranks    : List Nat
  spareCtx  : Nat
  keeper    : Nat
  keeperCtx : Nat
  /-- 0, or the code the coordinator refuses the takeover with (R518). -/
  code     : Nat
  /-- Ranks that earlier takeovers replaced, for the coordinator rule (R511). -/
  lost     : List Nat := []
  deriving DecidableEq, Repr

/-- A spare's takeover request at the coordinator (R519 step 1). -/
structure TakeoverRequest where
  groupId       : Nat
  rank          : Nat
  failed        : Nat
  spare         : Nat
  keeper        : Nat
  keeperCtx     : Nat
  spareCtx      : Nat
  charterDigest : List Byte
  chainOk       : Bool
  deriving DecidableEq, Repr

/-- The commands and events of the device: one constructor per row of spec/opcode_table.json, in its order. -/
inductive Instr where
  | fenceSignal (q : Nat)
  | fenceWait (q : Nat)
  | fenceWaitTimeout (q : Nat)
  | mapPages (q : Nat)
  | unmapPages (q : Nat)
  | pageInvalidate (entry : Nat)
  | quotaSet (q : Nat)
  | quotaGraceExpiry (slot : Nat)
  | putTensor (q : Nat)
  | getTensor (q : Nat)
  | stage (q : Nat)
  | loadPlan (q : Nat)
  | loadPlanComplete (core : Nat)
  | unloadPlan (q : Nat)
  | runPlan (q : Nat)
  | charterCreate (q : Nat)
  | charterKey (q : Nat)
  | charterBind (q : Nat)
  | charterAdmit (q : Nat)
  | charterClose (q : Nat)
  | groupOpen (q : Nat)
  | groupOpenTimeout (group : Nat)
  | groupControlReceive (src : Nat) (m : GroupControl)
  | groupClose (q : Nat)
  | snapshot (w : SnapshotAt)
  | secureNowRequest (job rank : Nat) (nsBeforeBoundary : Nat)
  | snapshotVote (job rank : Nat) (freeze : Bool)
  | snapshotDecision (w : DecisionAt) (freeze : Bool)
  | fillDone (slot : Nat)
  | havenUnitReceive (u : HavenUnit)
  | drainConfirmed (slot : Nat)
  | snapshotComplete (w : CompleteAt)
  | restore (q : Nat) (r : PullResult)
  | havenBind (q : Nat)
  | havenUnbind (q : Nat)
  | havenBindTimeout (slot : Nat)
  | takeover (q : Nat)
  | takeoverSubstitution (m : Substitution)
  | drainTileUnforced (q : Nat)
  | drainTileForced (q : Nat)
  | drainTileReturn (q : Nat)
  | setOppoint (q : Nat)
  | commandDecode (q : Nat) (packet : List W32)
  /-- The summary's words in order; the records read with the Swap, and those read after it (R306). -/
  | allQueueSummaryPoll (fn : Nat) (r : SummaryRead)
  | classPSummaryPoll (fn : Nat) (r : SummaryRead)
  | summarySwapFail (fn : Nat)
  | completionSpaceFreed (q : Nat) (cplHead : Nat)
  | queueEnable (fn : Nat)
  | queueDisable (fn : Nat)
  | contextOpen
  | contextClose
  | tideStart
  | tideStop
  | tideNumberLoRead
  | setupLock
  | fabricTrainEnable (train : Bool)
  | registerWrite (fn : Nat) (offset : Nat) (size : Nat) (value : W64)
  | lcTransition (target : Nat)
  | lcTransitionDone
  | tokenLockoutExpiry
  | debugOpen
  | debugClose
  | tideBoundary
  | floodEnd
  | ebbStart
  | retirementComplete (key : Nat)
  | quarantineEnd (key : Nat)
  | fwSelfcheckFail (component : Nat)
  | stepEnd (run : Nat) (ranNs : Nat)
  | spillLimitAbort (run : Nat)
  | classPStepStart (q : Nat)
  | classPCommit (run : Nat)
  | pMeterSpent (tile : Nat)
  | mxContract (run op : Nat) (overlap : List Nat)
  | vEw (run op : Nat)
  | vReduce (run op : Nat)
  | vScan (run op : Nat)
  | vSegscan (run op : Nat)
  | vSummary (run op : Nat)
  | gGather (run op : Nat)
  | gScatter (run op : Nat)
  | tReshape (run op : Nat)
  | tTranspose (run op : Nat)
  | tSlice (run op : Nat)
  | sRequant (run op : Nat)
  | sSetscale (run op : Nat)
  | sGetscale (run op : Nat)
  | sReset (run op : Nat)
  | nDraw (run op : Nat)
  | nRound (run op : Nat)
  | mPrefetch (run op : Nat)
  | mRelease (run op : Nat)
  | fReduce (run op : Nat) (r : CollResult)
  | fGather (run op : Nat) (r : CollResult)
  | fAlltoall (run op : Nat) (r : CollResult)
  | fSend (run op : Nat) (r : CollResult)
  | fRecv (run op : Nat) (r : CollResult)
  | cBranch (run : Nat) (c : ConstructAt)
  | cLoop (run : Nat) (c : ConstructAt) (rs : List CollResult)
  | verificationEpoch (reports : List Nat)
  | integrityCheckFail (frame granule epoch : Nat) (runs ctxs : List Nat)
  | quarantineScanDone (region : Nat) (failed : List (Nat × Nat))
  | treeLineLost (region : Nat) (line : LostLine)
  | eccUncorrectableLine (frame granule : Nat) (runs ctxs : List Nat)
  | repairLands (frame granule : Nat) (data : List Byte)
  | repairDeadline (frame granule : Nat)
  | frameRemapDone (frame : Nat)
  | scrubberPass (hub : Nat) (corrected : List (Nat × Nat))
  | reencryptSweepDone (region : Nat)
  | arbStarvation (unit req : Nat)
  | seamFlitFail (seam : Nat) (dir : Bool) (flit : Nat) (readers : SeamReaders)
  | promotionStart (extent plan : Nat)
  | promotionDone (extent : Nat)
  | promotionReadFail (extent : Nat) (mirror : Option (List Byte))
  | settlementStart (extent : Nat)
  | settlementDone (extent : Nat)
  | garbageCollection (hub : Nat)
  | wearLevelRelocate (hub : Nat)
  | readDisturbRelocate (hub superblock : Nat)
  | patrolRead (hub superblock ladderStep : Nat) (bitErrorsHigh : Bool)
  | retentionRelocate (hub superblock : Nat)
  | nandProgramFail (hub plane block : Nat)
  | beaconReceive (b : Beacon)
  | tideNumberReport (next : Nat)
  | tideHoldover
  | tideUnlocked
  | backupTakeover
  | linkDelayMeasure (port roundTripNs : Nat)
  | linkHandshake (h : Handshake)
  | harbourKeyReceive (port : Nat) (key : List Byte) (authentic : Bool)
  | laneDegrade (port lane rate : Nat)
  | portRetrain (port replays : Nat)
  | packetReceive (p : FabricPacket)
  | packetResend (id : Nat) (report : SendReport)
  | evacuationStop (slot : Nat)
  | coreFault (die core : Nat)
  | keySlotFreed (engineClass : Nat)
  | refclkLoss
  | forcingTakeover
  | refclkReturn
  | powerOnReset
  | deviceReset (cause : ResetCause)
  | functionLevelReset (fn : Nat)
  | bringup (f : BootFacts)
  | neapServiceReady
  | springServiceEntry (r : Stage5Result)
  | thermalTrip
  | powerSample (p : PowerReading)
  | thermalSample (t : ThermalReading)
  | droopStretch (tile : Nat)
  | tdispLockInterface (fn : Nat)
  | tdispStartInterface (fn : Nat)
  | tdispStopInterface (fn : Nat)
  | ideKmMessage (m : IdeKm)
  | spdmRequest (transport : Nat) (m : SpdmMsg)
  | mctpControl (transport : Nat) (m : MctpControl)
  | pldmPlatformRequest (transport : Nat) (m : PldmPlatform)
  | requestUpdate (transport component maxTransfer : Nat)
  | updateComponentData (d : UpdateData)
  | activateFirmware
  | lcRequest (m : LcRequestMsg)
  | lcRead (transport : Nat)
  | getCounters (transport first count : Nat)
  | getEvents (transport first count : Nat)
  | takeoverRequestReceive (m : TakeoverRequest)
  | takeoverTimeout (slot : Nat)
  | havenBindReceive (slot partner partnerCtx : Nat)
  | evacuationHold (job rank : Nat)
  | d3hotTransition (fn : Nat) (d3hot : Bool)
  | hostLinkRetrain (link : Nat) (mode : LinkMode) (width : Nat)
  | dynamicAddressAssignment (addr : BitVec 7)
  deriving DecidableEq, Repr

end Sys2Proof
end

