-- ==== Sys2Proof/Decode.lean ====
section
/-! DEFINITION. Reading a command from a word of the opcode table.  spec/opcode_table.json gives none of its rows any
bits, so no word spells a command.  The device's own packet decoding (R309) is in Machine/Packet.lean. -/

namespace Sys2Proof

/-- The command a word of `nbits` bits spells: none, since the table gives no row a bit. -/
def decodeTableWord (_nbits _w : Nat) : Option Instr := none

end Sys2Proof
end

