-- ==== Sys2Proof/Machine/Bits.lean ====
section
/-! DEFINITION. Sparse tables, bit fields and byte order: the plain helpers every other file uses (R10). -/

namespace Sys2Proof.Machine

/-- A table of many like entries of which most hold their default: entries by rising key, none equal to the default. -/
abbrev Tab (α : Type) := List (Nat × α)

/-- The entry at key `k`, or the default `d` where none is listed. -/
def Tab.get {α : Type} (d : α) : Tab α → Nat → α
  | [], _ => d
  | (k', v) :: t, k => if k' = k then v else Tab.get d t k

/-- The table without any entry at `k`. -/
def Tab.erase {α : Type} : Tab α → Nat → Tab α
  | [], _ => []
  | (k', v) :: t, k => if k' = k then Tab.erase t k else (k', v) :: Tab.erase t k

/-- The table with `(k, v)` placed before the first greater key. -/
def Tab.insert {α : Type} (k : Nat) (v : α) : Tab α → Tab α
  | [] => [(k, v)]
  | (k', v') :: t => if k < k' then (k, v) :: (k', v') :: t else (k', v') :: Tab.insert k v t

/-- The table with entry `k` set to `v`; a default value is not listed. -/
def Tab.set {α : Type} [DecidableEq α] (d : α) (t : Tab α) (k : Nat) (v : α) : Tab α :=
  if v = d then Tab.erase t k else Tab.insert k v (Tab.erase t k)

/-- The table with `f` applied to entry `k`. -/
def Tab.upd {α : Type} [DecidableEq α] (d : α) (t : Tab α) (k : Nat) (f : α → α) : Tab α :=
  Tab.set d t k (f (Tab.get d t k))

/-- Bits [lo+w-1:lo] of `n`. -/
def bitsOf (n lo w : Nat) : Nat := n / 2 ^ lo % 2 ^ w

/-- Bit `i` of `n`. -/
def bitOf (n i : Nat) : Bool := n / 2 ^ i % 2 == 1

def boolNat (b : Bool) : Nat := if b then 1 else 0

/-- Bits [lo+w-1:lo] of a register word. -/
def field (x : W32) (lo w : Nat) : Nat := bitsOf x.toNat lo w

/-- Two's complement of a `w`-bit field as an integer. -/
def signed (w n : Nat) : Int := if n % 2 ^ w < 2 ^ (w - 1) then (n % 2 ^ w : Nat) else (n % 2 ^ w : Nat) - (2 ^ w : Nat)

/-- The words of a little-endian byte string (R10), the last padded with zeros. -/
def wordsOfBytes : List Byte → List W32
  | [] => []
  | [a] => [BitVec.ofNat 32 a.toNat]
  | [a, b] => [BitVec.ofNat 32 (a.toNat + 256 * b.toNat)]
  | [a, b, c] => [BitVec.ofNat 32 (a.toNat + 256 * b.toNat + 65536 * c.toNat)]
  | a :: b :: c :: d :: t =>
    BitVec.ofNat 32 (a.toNat + 256 * b.toNat + 65536 * c.toNat + 16777216 * d.toNat) :: wordsOfBytes t

/-- The `n` little-endian bytes of a number (R10). -/
def bytesOfNat : Nat → Nat → List Byte
  | 0, _ => []
  | n + 1, x => BitVec.ofNat 8 x :: bytesOfNat n (x / 256)

/-- The number a little-endian byte string holds (R10). -/
def natOfBytes : List Byte → Nat
  | [] => 0
  | b :: t => b.toNat + 256 * natOfBytes t

/-- The bytes of a word list (R10). -/
def bytesOfWords : List W32 → List Byte
  | [] => []
  | w :: t => bytesOfNat 4 w.toNat ++ bytesOfWords t

/-- Word `i` of a word list; 0 past its end. -/
def wordAt (l : List W32) (i : Nat) : Nat := (l.getD i 0).toNat

/-- The 64-bit value in words `i` and `i + 1`, low word first (R10). -/
def dwordAt (l : List W32) (i : Nat) : Nat := wordAt l i + 4294967296 * wordAt l (i + 1)

/-- Whether words [i, i+n) are all zero. -/
def zeroWords (l : List W32) (i n : Nat) : Bool := ((l.drop i).take n).all (· == 0)

/-- The list with element `i` replaced. -/
def setAt {α : Type} (l : List α) (i : Nat) (v : α) : List α := l.set i v

/-- ceil(a ÷ b). -/
def ceilDiv (a b : Nat) : Nat := (a + b - 1) / b

/-- The list padded at its end with `v` to at least `n` elements. -/
def padTo {α : Type} (v : α) (n : Nat) (l : List α) : List α := l ++ List.replicate (n - l.length) v

/-- Whether no element stands twice. -/
def noDup (l : List Nat) : Bool :=
  match l with
  | [] => true
  | a :: t => !t.contains a && noDup t

/-- `n` saturated at `m`. -/
def satAt (m n : Nat) : Nat := if n > m then m else n

/-- The sum of a list. -/
def sumNat (l : List Nat) : Nat := l.foldl (· + ·) 0

/-- The greatest element of a list; 0 of none. -/
def maxNat (l : List Nat) : Nat := l.foldl max 0

end Sys2Proof.Machine
end

