-- ==== Sys2Proof/Machine/Codes.lean ====
section
/-! DEFINITION. The error and notice codes the device raises (R654), under their own names. -/

namespace Sys2Proof.Machine

/-- DESC_MALFORMED (R654). -/
def Code.descMalformed : Nat := 0x0101

/-- RING_FORMAT_UNSUPPORTED (R654). -/
def Code.ringFormatUnsupported : Nat := 0x0102

/-- PAYLOAD_SHORT (R654). -/
def Code.payloadShort : Nat := 0x0103

/-- QUEUE_DISABLED (R654). -/
def Code.queueDisabled : Nat := 0x0104

/-- CONTEXT_UNKNOWN (R654). -/
def Code.contextUnknown : Nat := 0x0105

/-- CLASS_MISMATCH (R654). -/
def Code.classMismatch : Nat := 0x0106

/-- QUEUE_OVERFLOW (R654). -/
def Code.queueOverflow : Nat := 0x0107

/-- P_BUDGET (R654). -/
def Code.pBudget : Nat := 0x0108

/-- TENSOR_ACCESS (R654). -/
def Code.tensorAccess : Nat := 0x0109

/-- MAP_FAULT (R654). -/
def Code.mapFault : Nat := 0x0201

/-- OBJECT_FREED (R654). -/
def Code.objectFreed : Nat := 0x0202

/-- FENCE_LEAP (R654). -/
def Code.fenceLeap : Nat := 0x0203

/-- QUOTA_EXCEEDED (R654). -/
def Code.quotaExceeded : Nat := 0x0205

/-- QUOTA_OVER (notice, R654). -/
def Code.quotaOver : Nat := 0x0206

/-- UPSTREAM_ERROR (R654). -/
def Code.upstreamError : Nat := 0x0207

/-- FENCE_TIMEOUT (R654). -/
def Code.fenceTimeout : Nat := 0x0208

/-- FENCE_NOT_OWNED (R654). -/
def Code.fenceNotOwned : Nat := 0x0209

/-- LOAD_FORMAT (R654). -/
def Code.loadFormat : Nat := 0x0301

/-- LOAD_LEVEL_UNSUPPORTED (R654). -/
def Code.loadLevelUnsupported : Nat := 0x0302

/-- LOAD_BUDGET (R654). -/
def Code.loadBudget : Nat := 0x0303

/-- LOAD_SCRATCH (R654). -/
def Code.loadScratch : Nat := 0x0304

/-- LOAD_MEMORY (R654). -/
def Code.loadMemory : Nat := 0x0305

/-- LOAD_UNBOUNDED (R654). -/
def Code.loadUnbounded : Nat := 0x0306

/-- LOAD_RESERVATION (R654). -/
def Code.loadReservation : Nat := 0x0307

/-- LOAD_CHARTER (R654). -/
def Code.loadCharter : Nat := 0x0308

/-- LOAD_SIGNATURE (R654). -/
def Code.loadSignature : Nat := 0x0309

/-- LOAD_PLACEMENT (R654). -/
def Code.loadPlacement : Nat := 0x030A

/-- PLAN_SUSPENDED (R654). -/
def Code.planSuspended : Nat := 0x030B

/-- ACC_CONFLICT (R654). -/
def Code.accConflict : Nat := 0x0401

/-- ACC_OVERFLOW (notice, R654). -/
def Code.accOverflow : Nat := 0x0402

/-- INVALID_OPERAND (notice, R654). -/
def Code.invalidOperand : Nat := 0x0403

/-- LANE_FAULT (R654). -/
def Code.laneFault : Nat := 0x0404

/-- STEP_OVERRUN (notice, R654). -/
def Code.stepOverrun : Nat := 0x0405

/-- P_RESERVATION_SPENT (notice, R654). -/
def Code.pReservationSpent : Nat := 0x0406

/-- STEP_TIMEOUT (R654). -/
def Code.stepTimeout : Nat := 0x0407

/-- NONFINITE_OUTPUT (R654). -/
def Code.nonfiniteOutput : Nat := 0x0408

/-- SCALE_INVALID (R654). -/
def Code.scaleInvalid : Nat := 0x0409

/-- ACC_SCALE_MISMATCH (R654). -/
def Code.accScaleMismatch : Nat := 0x040A

/-- ACC_INEXACT (notice, R654). -/
def Code.accInexact : Nat := 0x040B

/-- SEGMENT_MISMATCH (R654). -/
def Code.segmentMismatch : Nat := 0x040C

/-- LOOP_BOUND (R654). -/
def Code.loopBound : Nat := 0x040D

/-- ECC_UNCORRECTABLE (R654). -/
def Code.eccUncorrectable : Nat := 0x0501

/-- INTEGRITY_ALARM (R654). -/
def Code.integrityAlarm : Nat := 0x0502

/-- TREE_LOST (R654). -/
def Code.treeLost : Nat := 0x0503

/-- SHARED_POISON (R654). -/
def Code.sharedPoison : Nat := 0x0504

/-- KEY_RETIRED (R654). -/
def Code.keyRetired : Nat := 0x0506

/-- KEYID_EXHAUSTED (R654). -/
def Code.keyidExhausted : Nat := 0x0507

/-- TIER_LATE (notice, R654). -/
def Code.tierLate : Nat := 0x0601

/-- DEEP_READ_FAIL (R654). -/
def Code.deepReadFail : Nat := 0x0602

/-- DEEP_FULL (R654). -/
def Code.deepFull : Nat := 0x0603

/-- DEEP_WORN (R654). -/
def Code.deepWorn : Nat := 0x0604

/-- LINK_DOWN (R654). -/
def Code.linkDown : Nat := 0x0701

/-- PEER_LOST (R654). -/
def Code.peerLost : Nat := 0x0702

/-- FABRIC_AUTH (R654). -/
def Code.fabricAuth : Nat := 0x0703

/-- REMOTE_FAULT (R654). -/
def Code.remoteFault : Nat := 0x0704

/-- GROUP_EXHAUSTED (R654). -/
def Code.groupExhausted : Nat := 0x0705

/-- ROLLBACK (R654). -/
def Code.rollback : Nat := 0x0801

/-- HAVEN_INCOMPLETE (R654). -/
def Code.havenIncomplete : Nat := 0x0802

/-- RNG_RESYNC (notice, R654). -/
def Code.rngResync : Nat := 0x0803

/-- EVACUATED (R654). -/
def Code.evacuated : Nat := 0x0804

/-- HAVEN_UNBOUND (R654). -/
def Code.havenUnbound : Nat := 0x0805

/-- HAVEN_MISMATCH (R654). -/
def Code.havenMismatch : Nat := 0x0806

/-- SYSTEM_LOST (R654). -/
def Code.systemLost : Nat := 0x0807

/-- CORE_FAULT (R654). -/
def Code.coreFault : Nat := 0x0808

/-- SNAPSHOT_SKIPPED (notice, R654). -/
def Code.snapshotSkipped : Nat := 0x0809

/-- CHARTER_DENIED (R654). -/
def Code.charterDenied : Nat := 0x0901

/-- ATTEST_FAIL (R654). -/
def Code.attestFail : Nat := 0x0902

/-- DEBUG_DENIED (R654). -/
def Code.debugDenied : Nat := 0x0903

/-- LIFECYCLE_TOKEN (R654). -/
def Code.lifecycleToken : Nat := 0x0904

/-- SEAM_FAULT (R654). -/
def Code.seamFault : Nat := 0x0905

/-- CHARTER_INVALID (R654). -/
def Code.charterInvalid : Nat := 0x0906

/-- CHARTER_EXHAUSTED (R654). -/
def Code.charterExhausted : Nat := 0x0907

/-- ENVELOPE_FAIL (R654). -/
def Code.envelopeFail : Nat := 0x0908

/-- LIFECYCLE_REFUSED (R654). -/
def Code.lifecycleRefused : Nat := 0x0909

/-- FUSE_FAULT (R654). -/
def Code.fuseFault : Nat := 0x090A

/-- CLOCK_LOSS (R654). -/
def Code.clockLoss : Nat := 0x0A01

/-- THERMAL_LIMIT (R654). -/
def Code.thermalLimit : Nat := 0x0A02

/-- POWER_LIMIT (R654). -/
def Code.powerLimit : Nat := 0x0A03

/-- NEAP_ONLY (R654). -/
def Code.neapOnly : Nat := 0x0A04

/-- TIDE_HOLDOVER (notice, R654). -/
def Code.tideHoldover : Nat := 0x0A05

/-- TIDE_UNLOCKED (R654). -/
def Code.tideUnlocked : Nat := 0x0A06

/-- The notices of R654: codes that never break a fence (R13). -/
def Code.notices : List Nat :=
  [Code.quotaOver, Code.accOverflow, Code.invalidOperand, Code.stepOverrun,
   Code.pReservationSpent, Code.accInexact, Code.tierLate, Code.rngResync,
   Code.snapshotSkipped, Code.tideHoldover]

/-- Whether a code is a notice (R13). -/
def Code.isNotice (c : Nat) : Bool := Code.notices.contains c

/-- The withholding codes of R42 that are so whatever raised them. -/
def Code.withholding : List Nat :=
  [Code.integrityAlarm, Code.seamFault, Code.sharedPoison, Code.eccUncorrectable, Code.treeLost, Code.keyRetired,
   Code.deepReadFail, Code.coreFault, Code.clockLoss, Code.rollback, Code.systemLost]

end Sys2Proof.Machine
end

