-- ==== Sys2Proof/Machine/Numbers.lean ====
section
/-! DEFINITION. Exact values: fractions of integers, the values a lane or element can hold, and exact comparison. -/

namespace Sys2Proof.Machine

/-- An exact fraction; `den` is positive.  Fractions are not reduced: compare them with `Frac.eq` and `Frac.le`. -/
structure Frac where
  num : Int
  den : Nat := 1
  deriving DecidableEq, Repr

def Frac.ofNat (n : Nat) : Frac := { num := (n : Int) }
def Frac.ofInt (n : Int) : Frac := { num := n }

/-- 2^e. -/
def Frac.pow2 : Int → Frac
  | .ofNat n => { num := ((2 ^ n : Nat) : Int) }
  | .negSucc n => { num := 1, den := 2 ^ (n + 1) }

def Frac.mul (a b : Frac) : Frac := { num := a.num * b.num, den := a.den * b.den }
def Frac.add (a b : Frac) : Frac :=
  if a.den = b.den then { num := a.num + b.num, den := a.den }
  else { num := a.num * (b.den : Int) + b.num * (a.den : Int), den := a.den * b.den }
def Frac.neg (a : Frac) : Frac := { a with num := -a.num }
def Frac.sub (a b : Frac) : Frac := a.add b.neg
def Frac.abs (a : Frac) : Frac := { a with num := (a.num.natAbs : Int) }
def Frac.isZero (a : Frac) : Bool := a.num == 0
def Frac.isNeg (a : Frac) : Bool := decide (a.num < 0)
def Frac.lt (a b : Frac) : Bool := decide (a.num * (b.den : Int) < b.num * (a.den : Int))
def Frac.le (a b : Frac) : Bool := decide (a.num * (b.den : Int) ≤ b.num * (a.den : Int))
def Frac.eq (a b : Frac) : Bool := decide (a.num * (b.den : Int) = b.num * (a.den : Int))

/-- a ÷ b for a `b` that is not zero. -/
def Frac.div (a b : Frac) : Frac :=
  { num := (if b.num < 0 then -a.num else a.num) * (b.den : Int), den := a.den * b.num.natAbs }

/-- `a` with common powers of two taken out. -/
def Frac.reduce (a : Frac) : Frac :=
  let g := Nat.gcd a.num.natAbs a.den
  if g = 0 then a else { num := a.num.sign * ((a.num.natAbs / g : Nat) : Int), den := a.den / g }

/-- floor(log2 a) for a positive `a`. -/
def Frac.log2Floor (a : Frac) : Int :=
  let n := a.num.natAbs
  let k : Int := (n.log2 : Int) - (a.den.log2 : Int)
  if Frac.le (Frac.pow2 k) a.abs then k else k - 1

/-- ceil(log2 a) for a positive `a`. -/
def Frac.log2Ceil (a : Frac) : Int :=
  let k := a.log2Floor
  if Frac.le a.abs (Frac.pow2 k) then k else k + 1

/-- The value an element or lane holds (R87): NaN, an infinity with whether it is negative, or a finite value. -/
inductive Val where
  | nan
  | inf (neg : Bool)
  | fin (x : Frac)
  deriving DecidableEq, Repr

def Val.zero : Val := .fin { num := 0 }
def Val.one : Val := .fin { num := 1 }
def Val.ofInt (n : Int) : Val := .fin { num := n }
def Val.isNan : Val → Bool
  | .nan => true
  | _ => false
def Val.isFin : Val → Bool
  | .fin _ => true
  | _ => false
/-- The finite value, or 0. -/
def Val.frac : Val → Frac
  | .fin x => x
  | _ => { num := 0 }
def Val.isZero : Val → Bool
  | .fin x => x.isZero
  | _ => false
def Val.isNeg : Val → Bool
  | .nan => false
  | .inf n => n
  | .fin x => x.isNeg
def Val.neg : Val → Val
  | .nan => .nan
  | .inf n => .inf (!n)
  | .fin x => .fin x.neg
def Val.abs : Val → Val
  | .nan => .nan
  | .inf _ => .inf false
  | .fin x => .fin x.abs

/-- a + b exactly; ∞ − ∞ is NaN (R112). -/
def Val.add : Val → Val → Val
  | .nan, _ => .nan
  | _, .nan => .nan
  | .inf a, .inf b => if a = b then .inf a else .nan
  | .inf a, .fin _ => .inf a
  | .fin _, .inf b => .inf b
  | .fin a, .fin b => .fin (a.add b)

/-- a × b exactly; 0 × ∞ is NaN (R112). -/
def Val.mul : Val → Val → Val
  | .nan, _ => .nan
  | _, .nan => .nan
  | .inf a, .inf b => .inf (a != b)
  | .inf a, .fin b => if b.isZero then .nan else .inf (a != b.isNeg)
  | .fin a, .inf b => if a.isZero then .nan else .inf (a.isNeg != b)
  | .fin a, .fin b => .fin (a.mul b)

/-- The order of R117 on values that are not NaN: −∞ below every finite value, +∞ above. -/
def Val.ltOrd : Val → Val → Bool
  | .inf true, .inf true => false
  | .inf true, _ => true
  | _, .inf true => false
  | .inf false, _ => false
  | _, .inf false => true
  | .fin a, .fin b => a.lt b
  | _, _ => false

def Val.eqOrd : Val → Val → Bool
  | .inf a, .inf b => a == b
  | .fin a, .fin b => a.eq b
  | _, _ => false

end Sys2Proof.Machine
end

