-- ==== Sys2Proof/Machine/Convert.lean ====
section
/-! DEFINITION. Element formats and output conversion (chapter 03): patterns to values, fine scales, and the one rounding
procedure of R103 that every tensor write uses. -/

namespace Sys2Proof.Machine

/-! ### Formats (R86, R87, R92) -/

def Fmt.e2m1 : Nat := 0
def Fmt.e3m2 : Nat := 1
def Fmt.e2m3 : Nat := 2
def Fmt.e4m3 : Nat := 3
def Fmt.e5m2 : Nat := 4
def Fmt.bf16 : Nat := 5
def Fmt.fp16 : Nat := 6
def Fmt.fp32 : Nat := 7
def Fmt.int8 : Nat := 8
def Fmt.int4 : Nat := 9

/-- Width in bits (R86). -/
def Fmt.width : Nat → Nat
  | 0 => 4 | 1 => 6 | 2 => 6 | 3 => 8 | 4 => 8 | 5 => 16 | 6 => 16 | 7 => 32 | 8 => 8 | _ => 4

/-- INT8 or INT4. -/
def Fmt.isInt (f : Nat) : Bool := f == 8 || f == 9

/-- Coarse and fine scales (R86). -/
def Fmt.isScaled (f : Nat) : Bool := f ≤ 4 || f == 8 || f == 9

/-- A 16-bit format. -/
def Fmt.is16 (f : Nat) : Bool := f == 5 || f == 6

/-- Exponent bits, mantissa bits and bias of a float format (R87). -/
def Fmt.emb : Nat → Nat × Nat × Nat
  | 0 => (2, 1, 1) | 1 => (3, 2, 3) | 2 => (2, 3, 1) | 3 => (4, 3, 7) | 4 => (5, 2, 15)
  | 5 => (8, 7, 127) | 6 => (5, 10, 15) | _ => (8, 23, 127)

/-- The output groups of R109. -/
inductive FmtGroup where
  | a | b | c | d
  deriving DecidableEq, Repr

def Fmt.group (f : Nat) : FmtGroup :=
  if f = 3 then .b else if Fmt.isInt f then .d else if f ≤ 2 then .c else .a

/-- The pattern of the largest finite magnitude (R87, R92). -/
def Fmt.maxPattern : Nat → Nat
  | 0 => 0x7 | 1 => 0x1F | 2 => 0x1F | 3 => 0x7E | 4 => 0x7B | 5 => 0x7F7F | 6 => 0x7BFF | 7 => 0x7F7FFFFF
  | 8 => 127 | _ => 7

/-- The canonical NaN of a format that has one (R87). -/
def Fmt.nanPattern : Nat → Nat
  | 3 => 0x7F | 4 => 0x7E | 5 => 0x7FC0 | 6 => 0x7E00 | _ => 0x7FC00000

/-- The magnitude of a float pattern without its sign (R87): an integer times 2^`e`. -/
def Fmt.magnitude (f p : Nat) : Nat × Int :=
  let (_, m, bias) := Fmt.emb f
  let ex := p / 2 ^ m
  let fr := p % 2 ^ m
  if ex = 0 then (fr, 1 - (bias : Int) - (m : Int)) else (2 ^ m + fr, (ex : Int) - (bias : Int) - (m : Int))

/-- The value of a pattern before scaling (R87, R90, R91, R92). -/
def Fmt.decode (f p : Nat) : Val :=
  if Fmt.isInt f then .ofInt (signed (Fmt.width f) p)
  else
    let w := Fmt.width f
    let neg := bitOf p (w - 1)
    let mag := p % 2 ^ (w - 1)
    let (eb, m, _) := Fmt.emb f
    if Fmt.group f = .a && mag / 2 ^ m = 2 ^ eb - 1 then
      (if mag % 2 ^ m = 0 then .inf neg else .nan)
    else if f = 3 && mag = 0x7F then .nan
    else
      let (n, e) := Fmt.magnitude f mag
      let x := (Frac.ofNat n).mul (Frac.pow2 e)
      .fin (if neg then x.neg else x)

/-- The largest finite magnitude (R87, R103). -/
def Fmt.maxFinite (f : Nat) : Frac :=
  if Fmt.isInt f then .ofNat (Fmt.maxPattern f)
  else let (n, e) := Fmt.magnitude f (Fmt.maxPattern f); (Frac.ofNat n).mul (Frac.pow2 e)

/-- The spacing of the top binade (R104). -/
def Fmt.ulpTop (f : Nat) : Frac :=
  if Fmt.isInt f then .ofNat 1 else Frac.pow2 (Fmt.magnitude f (Fmt.maxPattern f)).2

/-- The pattern with its sign set. -/
def Fmt.withSign (f : Nat) (neg : Bool) (p : Nat) : Nat := if neg then p + 2 ^ (Fmt.width f - 1) else p

/-- A pattern as an operation that moves it writes it: a NaN is canonical (R90), a zero has its sign clear (R113). -/
def Fmt.canonical (f p : Nat) : Nat :=
  let v := Fmt.decode f p
  if v.isNan then Fmt.nanPattern f else if v.isZero then 0 else p

/-! ### Rounding (R102 to R110) -/

/-- The conversion fields of an operation (R102). -/
structure Conv where
  /-- 0 nearest even, 1 toward zero, 2 stochastic. -/
  mode     : Nat := 0
  saturate : Bool := false
  wrap     : Bool := false
  deriving DecidableEq, Repr

/-- floor(a ÷ b) and whether the remainder's double is below, at or above `b`: 0, 1 or 2, with 3 for an exact quotient. -/
def divRem (a b : Nat) : Nat × Nat :=
  let q := a / b
  let r := a % b
  (q, if r = 0 then 3 else if 2 * r < b then 0 else if 2 * r = b then 1 else 2)

/-- A multiple of 2^`qe` near a magnitude `x`, in units of 2^`qe` (R104 to R106): nearest even, the lower, or by the
16-bit draw `u`. -/
def roundUnits (mode u : Nat) (x : Frac) (qe : Int) : Nat :=
  let y := x.mul (Frac.pow2 (-qe))
  let n := y.num.natAbs
  let (q, r) := divRem n y.den
  match mode with
  | 0 => if r = 2 || (r = 1 && q % 2 = 1) then q + 1 else q
  | 1 => q
  | _ => if u < (n % y.den) * 65536 / y.den then q + 1 else q

/-- The exponent of the spacing of representable magnitudes around a positive `x` (R87): subnormals included. -/
def Fmt.unitExp (f : Nat) (x : Frac) : Int :=
  if Fmt.isInt f then 0
  else let (_, m, bias) := Fmt.emb f
       (max x.log2Floor (1 - (bias : Int))) - (m : Int)

/-- What a rounding of a finite value gives: a pattern, or an overflow with its sign. -/
inductive Rounded where
  | pattern (p : Nat)
  | overflow (neg : Bool)
  deriving DecidableEq, Repr

/-- A finite value in a float format (R104 to R106, R108). -/
def Fmt.roundFloat (f mode u : Nat) (x : Frac) : Rounded :=
  let a := x.abs
  let neg := x.isNeg
  if a.isZero then .pattern 0
  else
    let top := Fmt.maxFinite f
    if top.lt a then
      match mode with
      | 1 => .pattern (Fmt.withSign f neg (Fmt.maxPattern f))
      | 0 =>
        if (a.sub top).lt ((Fmt.ulpTop f).mul { num := 1, den := 2 })
        then .pattern (Fmt.withSign f neg (Fmt.maxPattern f)) else .overflow neg
      | _ =>
        let r := (a.sub top).div (Fmt.ulpTop f)
        if u < r.num.natAbs * 65536 / r.den then .overflow neg
        else .pattern (Fmt.withSign f neg (Fmt.maxPattern f))
    else
      let (_, m, bias) := Fmt.emb f
      let qe := Fmt.unitExp f a
      let q := roundUnits mode u a qe
      let p := (qe - (1 - (bias : Int) - (m : Int))).toNat * 2 ^ m + q
      .pattern (if p = 0 then 0 else Fmt.withSign f neg p)

/-- An integer format's pattern of a finite value (R104 to R106, R110); toward zero nothing overflows (R105). -/
def Fmt.roundInt (f : Nat) (c : Conv) (u : Nat) (x : Frac) : Nat :=
  let q := roundUnits c.mode u x.abs 0
  let q := if c.mode = 1 then min q (2 ^ (Fmt.width f - 1) - 1) else q
  let n : Int := if x.isNeg then -(q : Int) else (q : Int)
  let w := Fmt.width f
  let lo : Int := -((2 ^ (w - 1) : Nat) : Int)
  let hi : Int := ((2 ^ (w - 1) : Nat) : Int) - 1
  let n := if c.wrap then n else max lo (min hi n)
  (n % ((2 ^ w : Nat) : Int)).toNat

/-- One element's pattern, and whether it is a NaN or infinity the format cannot hold (R109 to R111, R113). -/
def Fmt.encode (f : Nat) (c : Conv) (u : Nat) : Val → Nat × Bool
  | .nan =>
    match Fmt.group f with
    | .a | .b => (Fmt.nanPattern f, false)
    | _ => (0, true)
  | .inf neg =>
    match Fmt.group f with
    | .a => (Fmt.withSign f neg ((2 ^ (Fmt.emb f).1 - 1) * 2 ^ (Fmt.emb f).2.1), false)
    | .b => (0x7F, false)
    | _ => (0, true)
  | .fin x =>
    if Fmt.isInt f then (Fmt.roundInt f c u x, false)
    else match Fmt.roundFloat f c.mode u x with
    | .pattern p => (p, false)
    | .overflow neg =>
      match Fmt.group f with
      | .a =>
        if c.saturate then (Fmt.withSign f neg (Fmt.maxPattern f), false)
        else (Fmt.withSign f neg ((2 ^ (Fmt.emb f).1 - 1) * 2 ^ (Fmt.emb f).2.1), false)
      | .b => if c.saturate then (Fmt.withSign f neg 0x7E, false) else (0x7F, false)
      | _ => (Fmt.withSign f neg (Fmt.maxPattern f), false)

/-- The largest finite magnitude of a block (R103). -/
def blockMax (l : List Val) : Frac :=
  l.foldl (fun acc v => match v with
    | .fin x => if acc.lt x.abs then x.abs else acc
    | _ => acc) { num := 0 }

/-- The fine scale a block is written with (R103). -/
def Fmt.fineScale (f : Nat) (l : List Val) : Int :=
  let a := blockMax l
  if a.isZero then 0 else max (-31) (min 31 (a.div (Fmt.maxFinite f)).log2Ceil)

/-- A converted block: patterns, the stored 6-bit fine code, and the positions that raise NONFINITE_OUTPUT. -/
structure Block where
  patterns : List Nat
  fine     : Nat
  bad      : List Nat
  deriving DecidableEq, Repr

/-- The 6-bit code of a fine scale (R97). -/
def fineCode (f : Int) : Nat := (f % 64).toNat

/-- The code of a null block (R98). -/
def nullCode : Nat := 32

/-- One output block of values already divided by the output's coarse scale, with one draw each (R103, R111, R114,
R115). -/
def Fmt.convertBlock (f : Nat) (c : Conv) (l : List (Val × Nat)) : Block :=
  let fs := if Fmt.isScaled f then Fmt.fineScale f (l.map Prod.fst) else 0
  let down := Frac.pow2 (-fs)
  let enc := l.map fun v => Fmt.encode f c v.2 (match v.1 with
    | .fin x => .fin (x.mul down)
    | v => v)
  let ps := enc.map Prod.fst
  { patterns := ps
    fine := if ps.all (· == 0) then nullCode else fineCode fs
    bad := (enc.zipIdx.filter fun e => e.1.2).map Prod.snd }

/-! ### Reading (R98, R99, R101) -/

/-- The 32-bit pattern of a value rounded to FP32, nearest even. -/
def f32Bits (v : Val) : Nat := (Fmt.encode 7 {} 0 v).1

/-- The value of an FP32 pattern. -/
def f32Val (p : Nat) : Val := Fmt.decode 7 (p % 4294967296)

/-- A value rounded once to FP32, nearest even (R101). -/
def Val.toF32 (v : Val) : Val :=
  match v with
  | .fin _ => f32Val (f32Bits v)
  | v => v

/-- The exact value of an element under its fine scale, before the coarse scale (R98, R99): a null block reads +0. -/
def Fmt.elemValue (f p fine : Nat) : Val :=
  if Fmt.isScaled f then
    (if fine = nullCode then .zero
     else match Fmt.decode f p with
      | .fin x => .fin (x.mul (Frac.pow2 (signed 6 fine)))
      | v => v)
  else Fmt.decode f p

/-- A coarse scale is valid: positive and finite (R95, R96). -/
def coarseValid (c : W32) : Bool :=
  match f32Val c.toNat with
  | .fin x => !x.isZero && !x.isNeg
  | _ => false

/-- A lane's FP32 value of an element (R101). -/
def Fmt.laneValue (f p fine : Nat) (coarse : W32) : Val :=
  ((Fmt.elemValue f p fine).mul (f32Val coarse.toNat)).toF32

/-! ### Packing (R93, R94, R100) -/

/-- Little-endian `w`-bit fields of a byte string as numbers, `n` of them: the packing of R93 for every width. -/
def unpackBits (w n : Nat) (bs : List Byte) : List Nat :=
  let v := natOfBytes bs
  (List.range n).map fun i => v / 2 ^ (w * i) % 2 ^ w

/-- The bytes of `w`-bit fields (R93); a last short group is padded with zeros. -/
def packBits (w : Nat) (l : List Nat) : List Byte :=
  let v := (l.zipIdx).foldl (fun acc p => acc + (p.1 % 2 ^ w) * 2 ^ (w * p.2)) 0
  bytesOfNat (packedBytes w l.length) v
where
  /-- Bytes of `n` packed fields: 6-bit fields come in 3-byte groups of four. -/
  packedBytes (w n : Nat) : Nat := if w = 6 then 3 * ceilDiv n 4 else ceilDiv (w * n) 8

end Sys2Proof.Machine
end

