-- ==== Sys2Proof/Machine/Elem.lean ====
section
/-! DEFINITION. Element-wise functions of the lanes (R182 to R189, R241): exact results, correctly rounded roots and
transcendental functions, comparisons and integer arithmetic. -/

namespace Sys2Proof.Machine

/-! ### Roots (R185) -/

/-- The integer square root by bits from 2^(k−1) down. -/
def isqrtBits : Nat → Nat → Nat → Nat
  | 0, _, r => r
  | k + 1, n, r => if (r + 2 ^ k) * (r + 2 ^ k) ≤ n then isqrtBits k n (r + 2 ^ k) else isqrtBits k n r

/-- floor(√n). -/
def isqrt (n : Nat) : Nat := isqrtBits (n.log2 / 2 + 1) n 0

/-- A value that rounds to FP32 as √x does, for a positive `x`: at least 64 bits of the root, the last one sticky. -/
def sqrtSticky (x : Frac) : Frac :=
  let s := (x.den.log2 + 140) / 2
  let n := x.num.natAbs * 2 ^ (2 * s) / x.den
  let r := isqrt n
  let exact := r * r * x.den == x.num.natAbs * 2 ^ (2 * s)
  { num := ((2 * r + boolNat (!exact) : Nat) : Int), den := 2 ^ (s + 1) }

/-! ### Transcendental functions by bounds (R185; log 12) -/

/-- Σ_{i<n} z^(2i+1) ÷ (2i+1) in units of 2^−q, for z = a ÷ 2^q: twice it is log((1+z) ÷ (1−z)). -/
def atanhSum (q a sq : Nat) : Nat → Nat → Nat → Nat
  | 0, _, _ => 0
  | n + 1, i, t => t / (2 * i + 1) + atanhSum q a sq n (i + 1) (t * sq / 2 ^ q)

/-- 2 × atanh(a ÷ 2^q) in units of 2^−q, for a ÷ 2^q at most 1/3. -/
def twoAtanh (q a : Nat) : Nat := 2 * atanhSum q a (a * a / 2 ^ q) (q / 3 + 2) 0 a

/-- log 2 in units of 2^−q. -/
def logTwo (q : Nat) : Nat := twoAtanh q (2 ^ q / 3)

/-- Σ_{i<n} r^i ÷ i! in units of 2^−q. -/
def expSum (q r : Nat) : Nat → Nat → Nat → Nat
  | 0, _, _ => 0
  | n + 1, i, t => t + expSum q r n (i + 1) (t * r / 2 ^ q / (i + 1))

/-- `n` squarings in units of 2^−q. -/
def squares (q : Nat) : Nat → Nat → Nat
  | 0, x => x
  | n + 1, x => squares q n (x * x / 2 ^ q)

/-- The error allowed on each bound, in units of 2^−q. -/
def slackUnits : Nat := 2 ^ 48

/-- Bounds of exp(x), for |x| below 256 (log 12). -/
def expBounds (q : Nat) (x : Frac) : Frac × Frac :=
  let xf : Int := (x.num * ((2 ^ q : Nat) : Int)) / (x.den : Int)
  let l : Int := (logTwo q : Int)
  let k : Int := xf / l
  let r : Nat := (xf - k * l).toNat
  let y := squares q 8 (expSum q (r / 256) (q / 8 + 4) 0 (2 ^ q))
  let s := Frac.pow2 (k - (q : Int))
  ((Frac.ofNat (y - slackUnits)).mul s, (Frac.ofNat (y + slackUnits)).mul s)

/-- Bounds of log(x) for a positive x (log 12). -/
def logBounds (q : Nat) (x : Frac) : Frac × Frac :=
  let e := x.log2Floor
  let m := x.mul (Frac.pow2 (-e))
  let a := (m.num.natAbs - m.den) * 2 ^ q / (m.num.natAbs + m.den)
  let y : Int := e * (logTwo q : Int) + (twoAtanh q a : Int)
  let s := Frac.pow2 (-(q : Int))
  ((Frac.ofInt (y - (slackUnits : Int))).mul s, (Frac.ofInt (y + (slackUnits : Int))).mul s)

/-- tanh of a positive x from bounds of exp(2x). -/
def tanhBounds (q : Nat) (x : Frac) : Frac × Frac :=
  let b := expBounds q (x.mul { num := 2 })
  let f (e : Frac) : Frac := (e.sub { num := 1 }).div (e.add { num := 1 })
  (f b.1, f b.2)

/-- sigmoid from bounds of exp(x). -/
def sigmoidBounds (q : Nat) (x : Frac) : Frac × Frac :=
  let b := expBounds q x
  let f (e : Frac) : Frac := e.div (e.add { num := 1 })
  (f b.1, f b.2)

/-- The FP32 value both bounds round to, the precision rising until they agree (log 12). -/
def roundBounds (f : Nat → Frac × Frac) : List Nat → Val
  | [] => Val.toF32 (.fin (f 480).1)
  | q :: qs =>
    let b := f q
    let lo := Val.toF32 (.fin b.1)
    if f32Bits lo = f32Bits (.fin b.2) then lo else roundBounds f qs

/-- The precisions tried. -/
def precisions : List Nat := [480, 1440]

/-! ### Float functions (R185, R186, R241) -/

def laneSqrt : Val → Val
  | .nan => .nan
  | .inf n => if n then .nan else .inf false
  | .fin x => if x.isZero then .zero else if x.isNeg then .nan else .fin (sqrtSticky x)

def laneRcp : Val → Val
  | .nan => .nan
  | .inf _ => .zero
  | .fin x => if x.isZero then .inf false else .fin ((Frac.ofNat 1).div x)

def laneRsqrt : Val → Val
  | .nan => .nan
  | .inf n => if n then .nan else .zero
  | .fin x =>
    if x.isZero then .inf false else if x.isNeg then .nan else .fin (sqrtSticky ((Frac.ofNat 1).div x))

def laneDiv : Val → Val → Val
  | .nan, _ => .nan
  | _, .nan => .nan
  | .inf _, .inf _ => .nan
  | .inf a, .fin b => .inf (a != b.isNeg)
  | .fin _, .inf _ => .zero
  | .fin a, .fin b => if b.isZero then (if a.isZero then .nan else .inf a.isNeg) else .fin (a.div b)

def laneExp : Val → Val
  | .nan => .nan
  | .inf n => if n then .zero else .inf false
  | .fin x =>
    if x.isZero then .one
    else if (Frac.ofNat 100).lt x then .inf false
    else if x.lt (Frac.ofInt (-120)) then .zero
    else roundBounds (fun q => expBounds q x) precisions

def laneLog : Val → Val
  | .nan => .nan
  | .inf n => if n then .nan else .inf false
  | .fin x =>
    if x.isZero then .inf true else if x.isNeg then .nan
    else if x.eq (Frac.ofNat 1) then .zero
    else roundBounds (fun q => logBounds q x) precisions

def laneTanh : Val → Val
  | .nan => .nan
  | .inf n => if n then .ofInt (-1) else .one
  | .fin x =>
    if x.isZero then .zero
    else
      let y := if (Frac.ofNat 60).lt x.abs then Val.one else roundBounds (fun q => tanhBounds q x.abs) precisions
      if x.isNeg then y.neg else y

def laneSigmoid : Val → Val
  | .nan => .nan
  | .inf n => if n then .zero else .one
  | .fin x =>
    if (Frac.ofNat 120).lt x then .one
    else if x.lt (Frac.ofInt (-120)) then .zero
    else roundBounds (fun q => sigmoidBounds q x) precisions

/-- max and min (R118). -/
def laneMax (a b : Val) : Val := if a.isNan || b.isNan then .nan else if a.ltOrd b then b else a
def laneMin (a b : Val) : Val := if a.isNan || b.isNan then .nan else if b.ltOrd a then b else a

/-- The predicates of R117: 0 eq, 1 ne, 2 lt, 3 le, 4 gt, 5 ge, 6 uo. -/
def comparePred (p : Nat) (a b : Val) : Bool :=
  if a.isNan || b.isNan then p == 6
  else match p with
  | 0 => a.eqOrd b
  | 1 => !a.eqOrd b
  | 2 => a.ltOrd b
  | 3 => a.ltOrd b || a.eqOrd b
  | 4 => b.ltOrd a
  | 5 => b.ltOrd a || a.eqOrd b
  | _ => false

/-- A value counts as non-zero: every value but zero, NaN included (R187, R196). -/
def Val.nonzero (v : Val) : Bool := !v.isZero

/-- A float-mode function on lane values, before its rounding to FP32 (R182, R241). -/
def floatFn (fn pred : Nat) (xs : List Val) : Val :=
  let a := xs.getD 0 .zero
  let b := xs.getD 1 .zero
  let c := xs.getD 2 .zero
  match fn with
  | 0x00 => a.add b
  | 0x01 => a.add b.neg
  | 0x02 => a.mul b
  | 0x03 => (a.mul b).add c
  | 0x04 => laneDiv a b
  | 0x05 => laneMin a b
  | 0x06 => laneMax a b
  | 0x07 => a.abs
  | 0x08 => a.neg
  | 0x09 => laneRcp a
  | 0x0A => laneSqrt a
  | 0x0B => laneRsqrt a
  | 0x0C => laneExp a
  | 0x0D => laneLog a
  | 0x0E => laneTanh a
  | 0x0F => laneSigmoid a
  | 0x10 => if comparePred pred a b then .one else .zero
  | 0x11 => if a.nonzero then b else c
  | _ => a

/-- A function's arity (R241); 0 for a code that is none. -/
def fnArity (fn : Nat) : Nat :=
  if [0x00, 0x01, 0x02, 0x04, 0x05, 0x06, 0x10, 0x20, 0x21, 0x22, 0x23, 0x24, 0x25, 0x26, 0x27, 0x29, 0x2A].contains fn
  then 2
  else if [0x03, 0x11].contains fn then 3
  else if [0x07, 0x08, 0x09, 0x0A, 0x0B, 0x0C, 0x0D, 0x0E, 0x0F, 0x12, 0x28].contains fn then 1
  else 0

/-! ### Integer lanes (R188, R189) -/

def int32Min : Int := -2147483648
def int32Max : Int := 2147483647

/-- An integer-mode input: an integer in INT32 range, or none (cause 1, R193). -/
def Val.toInt32 : Val → Option Int
  | .fin x =>
    let q := x.num / (x.den : Int)
    if x.num % (x.den : Int) = 0 && int32Min ≤ q && q ≤ int32Max then some q else none
  | _ => none

/-- An integer in INT32 by wrap (R189). -/
def wrap32 (n : Int) : Int :=
  let m := n % 4294967296
  if m < 2147483648 then m else m - 4294967296

/-- The overflow field at INT32 (R189). -/
def overflow32 (wrap : Bool) (n : Int) : Int :=
  if int32Min ≤ n && n ≤ int32Max then n else if wrap then wrap32 n else max int32Min (min int32Max n)

/-- A bitwise operation on INT32 values. -/
def bits32 (f : Nat → Nat → Nat) (a b : Int) : Int := wrap32 (f (a % 4294967296).toNat (b % 4294967296).toNat : Nat)

/-- Division truncating toward zero (R189). -/
def quotTrunc (a b : Int) : Int :=
  let q : Int := ((a.natAbs / b.natAbs : Nat) : Int)
  if decide (a < 0) = decide (b < 0) then q else -q

/-- An integer-mode function: its value, or a lane-fault cause (R189, R193, R241). -/
def intFn (fn : Nat) (wrap : Bool) (a b : Int) : Except Nat Int :=
  match fn with
  | 0x20 => .ok (overflow32 wrap (a + b))
  | 0x21 => .ok (overflow32 wrap (a - b))
  | 0x22 => .ok (overflow32 wrap (a * b))
  | 0x23 => if b = 0 then .error 2 else .ok (overflow32 wrap (quotTrunc a b))
  | 0x24 => if b = 0 then .error 2 else .ok (a - b * quotTrunc a b)
  | 0x25 => .ok (bits32 Nat.land a b)
  | 0x26 => .ok (bits32 Nat.lor a b)
  | 0x27 => .ok (bits32 Nat.xor a b)
  | 0x28 => .ok (-a - 1)
  | 0x29 => .ok (wrap32 (a * ((2 ^ (b % 32).toNat : Nat) : Int)))
  | _ => .ok (a / ((2 ^ (b % 32).toNat : Nat) : Int))

end Sys2Proof.Machine
end

