-- ==== Sys2Proof/Machine/Types.lean ====
section
/-! DEFINITION. The data the state is made of: commands under way, modules, plans, runs, regions and outputs. -/

namespace Sys2Proof.Machine

/-! ### Modules (R217 to R257) -/

/-- A TENSORS entry with its extents (R224, R225). -/
structure TensorDecl where
  format     : Nat := 7
  dims       : List Nat := []
  blockAxis  : Nat := 0
  tierHint   : Nat := 0
  domain     : Nat := 0
  readOnly   : Bool := false
  hostWrite  : Bool := false
  hostRead   : Bool := false
  dimsIndex  : Nat := 0
  rank       : Nat := 0
  scaleIndex : Nat := 0xFFFF
  deriving DecidableEq, Repr

/-- A SCALES record (R227). -/
structure ScaleRec where
  policy   : Nat := 2
  histLen  : Nat := 1
  margin   : Nat := 0
  coarse   : W32 := 0x3F800000
  seed     : List Nat := []
  /-- hist_len_m1, coarse and seed_count as they stand in the record, for the checks of R227. -/
  rawHist  : Nat := 0
  rawSeeds : Nat := 0
  deriving DecidableEq, Repr

/-- A STREAMS entry (R228). -/
structure StreamDecl where
  identity : Nat
  isOpen   : Bool
  seed     : Nat
  deriving DecidableEq, Repr

/-- A STEPS entry (R231). -/
structure StepDecl where
  firstOp     : Nat
  opCount     : Nat
  span        : Nat
  regionCount : Nat
  firstRegion : Nat
  deriving DecidableEq, Repr

/-- A REGIONS entry (R232). -/
structure RegionDecl where
  rows : Nat
  cols : Nat
  deriving DecidableEq, Repr

/-- An operation record (R234): its words are kept as they stand; `deps` are the last dep_count words. -/
structure OpRec where
  opcode : Nat
  conv   : W32
  out    : Nat
  mask   : Nat
  /-- The words between word 2 and the dependencies. -/
  words  : List W32
  deps   : List Nat
  deriving DecidableEq, Repr

/-- An INTENTS entry (R257). -/
structure Intent where
  tensor : Nat
  tier   : Nat
  first  : Nat
  last   : Nat
  deriving DecidableEq, Repr

/-- A parsed module (R211). -/
structure Module where
  level      : Nat := 2
  hasDomains : Bool := false
  hasIntents : Bool := false
  domains    : List Nat := []
  tensors    : List TensorDecl := []
  scales     : List ScaleRec := []
  streams    : List StreamDecl := []
  groups     : List Nat := []
  steps      : List StepDecl := []
  regions    : List RegionDecl := []
  ops        : List OpRec := []
  state      : List Nat := []
  intents    : List Intent := []
  /-- Signature entries: public key and signature (R221). -/
  signatures : List (List Byte × List Byte) := []
  /-- SHA-512 over bytes 0 to body_len − 1 (R221). -/
  digest     : List Byte := []
  deriving DecidableEq, Repr

/-- An operand word with its value word (R236). -/
inductive Operand where
  | tensor (i : Nat)
  | slot   (i : Nat)
  | f32    (bits : W32)
  | i32    (v : Int)
  deriving DecidableEq, Repr

/-! ### Codes and completions (R315, R316) -/

/-- A code raised by a command or step, before it is fitted into a completion's entries (R315, R316).
`index` is the full linear index, a cause code (R193) or, with UPSTREAM_ERROR, the original code. -/
structure CodeEntry where
  code  : Nat
  op    : Nat := 0xFFFF
  step  : Nat := 0xFFFFFFFF
  index : Option Nat := none
  deriving DecidableEq, Repr

/-- A break of a fence (R354, R651): its code and origin, the step and operation, the index of its code, and the cause of a
lane fault's pair (R194). -/
structure FenceBreak where
  code       : Nat
  originSlot : Nat
  originCode : Nat
  step       : Nat := 0xFFFFFFFF
  op         : Nat := 0xFFFF
  index      : Nat := 0
  cause      : Option Nat := none
  deriving DecidableEq, Repr

/-- A change one command makes to a fence: a signal of `value`, or a break with its code and origin (R352, R354). -/
structure FenceOp where
  slot   : Nat
  queue  : Nat
  seq    : Nat
  ctx    : Nat := 0
  value  : W32 := 0
  brk    : Option FenceBreak := none
  deriving DecidableEq, Repr

/-! ### Commands under way (R309) -/

/-- A decoded command packet (R309). -/
structure Cmd where
  opcode       : Nat := 0
  format       : Nat := 0
  chain        : Bool := false
  isSealed     : Bool := false
  context      : Nat := 0
  payloadUnits : Nat := 0
  resultUnits  : Nat := 0
  cmdId        : W32 := 0
  signal       : Option Nat := none
  signalSlot   : Nat := 0
  signalValue  : W32 := 0
  /-- Valid waits not yet met: entry number, slot and value (R353). -/
  waits        : List (Nat × Nat × W32) := []
  /-- The fence slot and origin code of the wait that found its fence BROKEN (R354, R355). -/
  upstream     : Option (Nat × Nat) := none
  charter      : Option Nat := none
  pBudget      : Nat := 0
  payload      : List W32 := []
  /-- It was gathered over a LOAD_PLAN chain (R314). -/
  chained      : Bool := false
  /-- cmd_head: units consumed through this command (R315). -/
  head         : Nat := 0
  /-- Ring order within its queue, for the order of R354. -/
  seq          : Nat := 0
  /-- Boundaries passed since it was fetched, for R327. -/
  boundaries   : Nat := 0
  /-- The map epoch captured at begin (R347). -/
  epoch        : Nat := 0
  /-- The function it was fetched through, and that function's era then (R295). -/
  fn           : Nat := 0
  era          : Nat := 0
  deriving DecidableEq, Repr

/-- A completion packet not yet written because the ring lacks space (R318), or being written. -/
structure Completion where
  cmd      : Cmd
  broken   : Bool
  codes    : List CodeEntry
  tide     : Nat
  result   : List W32
  deriving DecidableEq, Repr

/-- A RUN_PLAN that has begun (R322). -/
structure RunCmd where
  queue     : Nat := 0
  cmd       : Cmd := {}
  ctx       : Nat := 0
  plan      : Nat := 0
  cls       : Nat := 0
  first     : Nat := 0
  count     : Nat := 0
  /-- The first tide in which a step of it may start (R65, R308). -/
  due       : Nat := 0
  started   : Nat := 0
  committed : Nat := 0
  progress  : Option (Nat × W32) := none
  codes     : List CodeEntry := []
  /-- The error that broke the run, if any. -/
  broken    : Option CodeEntry := none
  deriving DecidableEq, Repr

/-! ### Steps under way -/

/-- An Exact Sum Register's contents, as R129 and R137 lay them out. -/
structure Esr where
  sig     : BitVec 240 := 0
  anchor  : Int := 0
  posInf  : Bool := false
  negInf  : Bool := false
  nan     : Bool := false
  inexact : Bool := false
  deriving DecidableEq, Repr

/-- A partial-sum region's entry (R140), with its wide partials in row-major order.  `kP` is k_P × 2^47 (R130). -/
structure Region where
  live     : Bool := false
  anchor   : Int := 0
  kP       : Nat := 0
  /-- Operations in flight with whether exclusive (R143). -/
  inFlight : List (Nat × Bool) := []
  partials : List Esr := []
  /-- An INVALID_OPERAND-relevant history: a NaN element entered from an input (R148). -/
  nanIn    : Bool := false
  deriving DecidableEq, Repr

/-- A scalar slot's value, typed by its last writer (R233). -/
inductive Scalar where
  | f32 (bits : W32)
  | i32 (v : Int)
  deriving DecidableEq, Repr

inductive RunState where
  | running
  | ended
  deriving DecidableEq, Repr

/-- A step that has started and is not yet committed (R65 to R80). -/
structure Run where
  id        : Nat := 0
  ctx       : Nat := 0
  plan      : Nat := 0
  cls       : Nat := 0
  queue     : Nat := 0
  seq       : Nat := 0
  step      : Nat := 0
  /-- Index i within its RUN_PLAN (R322). -/
  idx       : Nat := 0
  /-- The data position it runs at (R174). -/
  position  : Nat := 0
  startTide : Nat := 0
  lastTide  : Nat := 0
  state     : RunState := .running
  /-- It did not end within its last tide (R70); aborted at its spill limit (R73). -/
  spilled   : Bool := false
  aborted   : Bool := false
  /-- The operation that waited on a promotion and the extent that came last (R448). -/
  late      : Option (Nat × Nat) := none
  /-- Bytes it has written, not yet committed, by physical address. -/
  overlay   : List Host.Cell := []
  /-- Coarse scales and exponent maxima its writes carry, by tensor (R167, R132). -/
  coarse    : Tab W32 := []
  expMax    : Tab Int := []
  slots     : Tab Scalar := []
  regions   : Tab Region := []
  /-- Operations ended; operations skipped or faulted (R145), whose marks stand through later trips. -/
  done      : List Nat := []
  skipped   : List Nat := []
  /-- Loops that stopped at their bound: the construct and its last record (R208). -/
  bounds    : List (Nat × Nat) := []
  /-- Collectives it has issued (R490), and their inputs that wait for a rank's credit: operation and rank. -/
  issued    : List Nat := []
  toSend    : List (Nat × Nat) := []
  codes     : List CodeEntry := []
  error     : Option CodeEntry := none
  /-- The withholding code it will meet at its ebb (R42). -/
  withhold  : Option Nat := none
  /-- amax codes of its writes by tensor (R159), tensors it resets (R246), streams it drew from (R176). -/
  amax      : Tab Nat := []
  resets    : List Nat := []
  drawn     : List Nat := []
  /-- Coarse scales fixed at its start for history tensors (R167). -/
  fixed     : Tab W32 := []
  /-- Runs whose uncommitted results it may read (R215, R166). -/
  reads     : List Nat := []
  /-- Tiles with results of this run that a collective, window or freeze made depend on a peer (R61). -/
  peer      : Bool := false
  /-- The verification epoch in which a class-P step ended, until every hub has verified it (R80). -/
  horizon   : Option Nat := none
  deriving DecidableEq, Repr

/-! ### Plans (R282) -/

/-- Where a tensor of a plan lives: frames of its pages in order (R270), or extents (R434). -/
structure Placed where
  firstPage : Nat := 0
  frames    : List Nat := []
  extents   : List Nat := []
  /-- Its current coarse scale (R95) and recorded exponent maximum (R132). -/
  coarse    : W32 := 0x3F800000
  expMax    : Int := 0
  /-- Its scale-table entry (R162), if it has one. -/
  entry     : Option Nat := none
  /-- The map epoch as of which a page under it is dead (R347, R349). -/
  dead      : Option Nat := none
  deriving DecidableEq, Repr

/-- A placement's tiles, the worst case of each step on them in ns, and the peak scratchpad bytes on each (R269, R271,
R275). -/
structure Placement where
  tiles   : List Nat := []
  budgets : List Frac := []
  scratch : List Nat := []
  deriving DecidableEq, Repr

/-- A loaded plan (R261, R282). -/
structure Plan where
  loaded     : Bool := false
  generation : Nat := 0
  ctx        : Nat := 0
  module     : Module := {}
  cls        : Nat := 0
  mask       : Nat := 0
  tiles      : List Nat := []
  share      : Nat := 0
  beta       : Nat := 0
  floor      : Nat := 0
  base       : Nat := 0
  neap       : Bool := false
  /-- Group handle and rank of each binding (R323). -/
  bindings   : List (Nat × Nat) := []
  tensors    : List Placed := []
  position   : Nat := 0
  /-- One more than the position of the last step committed (R512). -/
  saved      : Nat := 0
  /-- Worst-case duration of each step in ns at the floor, exact (R275). -/
  budgets    : List Frac := []
  /-- Peak scratchpad bytes on each tile of the placement, in its order (R271). -/
  scratch    : List Nat := []
  /-- Largest set of promotion frames counted against the quota (R270). -/
  promFrames : Nat := 0
  /-- Lead in tides of each T2-resting tensor's promotion (R273). -/
  leads      : List (Nat × Nat) := []
  /-- Stream keys (k0, k1) (R173) and the data position of each stream's last draw (R176). -/
  keys       : List (Nat × Nat) := []
  lastDraw   : Tab Nat := []
  /-- UNLOAD_PLAN commands that wait for the ebb at which it is unloaded (R284): queue and command. -/
  unloading  : List (Nat × Cmd) := []
  suspended  : Bool := false
  /-- A raise the power manager refused (R277). -/
  raiseCode  : Option Nat := none
  /-- New placement waiting for its switch (R287), and whether the pause has begun. -/
  moving     : Option Placement := none
  paused     : Bool := false
  deriving DecidableEq, Repr

/-- A load on a loader core (R266). -/
structure Load where
  queue   : Nat := 0
  cmd     : Cmd := {}
  ctx     : Nat := 0
  /-- The service state was neap when it started (R285). -/
  neap    : Bool := false
  deriving DecidableEq, Repr

/-! ### Outputs -/

/-- What one rank sends another of a collective (R469, R493 to R495): in phase 1 its input, or the chunk of it that the rank is
owed, in stored form or as exact terms; in phase 2 the owner's converted chunk.  Rank 0 adds the output's coarse scale, and the
first collective of a run the module's digest (R230). -/
structure CollMsg where
  groupId   : Nat
  step      : Nat
  op        : Nat
  phase     : Nat := 1
  chunk     : Nat := 0
  elems     : List Nat := []
  fines     : List Nat := []
  coarse    : W32 := 0x3F800000
  outCoarse : Option W32 := none
  digest    : Option (List Byte) := none
  /-- Payload bytes that carry the elements and fine codes. -/
  bytes     : Nat := 0
  deriving DecidableEq, Repr

/-- Link-control frames and fabric messages the device sends (R57, R56, R485, R513 to R521). -/
inductive FabMsg where
  | beacon (tide generation srcRank periodUnits slackPct ebbPct hops residenceNs : Nat)
  | tideReport (next : Nat)
  | harbourKey (key : List Byte)
  | handshake
  | group (m : GroupControl)
  | vote (job rank : Nat) (freeze : Bool)
  | decision (job : Nat) (freeze : Bool)
  | secureNow (job rank : Nat)
  | schedule (job interval firstTide : Nat) (stop : Bool)
  /-- A rank holds its job's schedule, or has no source binding (R511). -/
  | scheduleHeld (job rank : Nat) (bound : Bool)
  /-- The source gives up a generation: its keeper empties the slot (R517). -/
  | abandoned (sourceCtx generation : Nat)
  | havenUnit (u : HavenUnit)
  /-- A keeper refuses a drain (R508). -/
  | drainRefused (sourceCtx generation : Nat)
  | confirm (sourceCtx generation : Nat)
  | drained (job generation : Nat)
  | missed (job : Nat)
  | complete (job generation : Nat)
  | havenBind (ctx partnerCtx : Nat)
  | takeoverRequest (m : TakeoverRequest)
  | substitution (m : Substitution)
  | evacuated (job rank : Nat)
  | hold (job : Nat)
  | packet (p : FabricPacket)
  | ack (src seq : Nat)
  /-- Collective data (R493, R494). -/
  | collective (m : CollMsg)
  /-- A rank's amax code of a collective's output, exchanged before a write in the current form (R495). -/
  | collectiveAmax (groupId step op code : Nat)
  /-- A credit for one collective of a group (R490). -/
  | credit (groupId step op : Nat)
  | repairRead (frame granule : Nat)
  /-- The target refused a packet (R489). -/
  | refused (seq : Nat)
  /-- Read-only data mirrored to the keeper, by physical address (R509). -/
  | mirror (cells : List Host.Cell)
  deriving DecidableEq, Repr

/-- Payload bytes of the packets that carry a message (R469, R559). -/
def FabMsg.payloadBytes : FabMsg → Nat
  | .collective m => m.bytes
  | .packet p => p.payload.length
  | .havenUnit u => u.bytes.length
  | .mirror cells => cells.length
  | _ => 0

/-- What the SPDM responder can do (R535). -/
inductive SpdmCap where
  | cert | chal | measSigned | measFresh | keyEx | encrypt | mac | hbeat | keyUpd | chunk
  deriving DecidableEq, Repr

/-- Every capability of the responder. -/
def spdmCaps : List SpdmCap := [.cert, .chal, .measSigned, .measFresh, .keyEx, .encrypt, .mac, .hbeat, .keyUpd, .chunk]

/-- The algorithms the responder selects: base asymmetric, base hash, measurement hash, DHE and AEAD (R535). -/
inductive SpdmAlg where
  | ed25519 | sha512 | secp384r1 | aes256Gcm
  deriving DecidableEq, Repr

def spdmAlgs : List SpdmAlg := [.ed25519, .sha512, .sha512, .secp384r1, .aes256Gcm]

/-- Responses of the management endpoint (R535, R643 to R653). -/
inductive MgmtMsg where
  | spdm (what : Nat) (body : List Byte)
  | spdmError (code : Nat)
  | capabilities (l : List SpdmCap)
  | algorithms (l : List SpdmAlg)
  | control (cmd : Nat) (code : Nat) (body : List Byte)
  | pldm (cmd : Nat) (code : Nat) (body : List Nat)
  | vendor (cmd : Nat) (status : Nat) (body : List W32)
  | requestData (offset length : Nat)
  | verifyComplete (ok : Bool)
  | pollEvent (entry : Nat)
  | threshold (sensor level : Nat)
  deriving DecidableEq, Repr

/-- Everything the device sends, in order. -/
inductive Out where
  /-- A posted write to host memory through a function (R297, R317, R356). -/
  | hostWrite (fn : Nat) (addr : Nat) (words : List W32)
  | msix (fn vector : Nat)
  /-- A 64-bit AtomicOp Swap with 0 (R290, R306). -/
  | hostSwap (fn addr : Nat)
  | fabric (dst : Nat) (m : FabMsg)
  | port (port : Nat) (m : FabMsg)
  | mgmt (transport : Nat) (m : MgmtMsg)
  | avs (tile millivolts : Nat)
  | tdisp (fn : Nat) (nonce : Nat)
  | thermtrip
  deriving DecidableEq, Repr

/-- The outcome of one command at its end: the error that broke it, the other codes in order, and its result. -/
structure Ending where
  queue  : Nat
  cmd    : Cmd
  error  : Option CodeEntry := none
  /-- Origin slot and code, where the error is UPSTREAM_ERROR. -/
  origin : Option (Nat × Nat) := none
  codes  : List CodeEntry := []
  result : List W32 := []
  deriving DecidableEq, Repr

/-- What a gate holds: a message, or the end of a command whose result carries data (R424). -/
inductive HeldItem where
  | out    (o : Out)
  | ending (e : Ending)
  deriving DecidableEq, Repr

/-- An egress held at a gate until its epoch is verified (R424). -/
structure Held where
  ctx   : Nat
  epoch : Nat
  item  : HeldItem
  deriving DecidableEq, Repr

end Sys2Proof.Machine
end

