-- ==== Sys2Proof/Machine/Tensor.lean ====
section
/-! DEFINITION. Tensor values: shapes and linear indices, block order, the stored form, and reading values (chapters 03,
09). -/

namespace Sys2Proof.Machine

/-- The product of extents. -/
def countOf (dims : List Nat) : Nat := dims.foldl (· * ·) 1

/-- The position of a linear index in row-major order (R93). -/
def unravel : List Nat → Nat → List Nat
  | [], _ => []
  | _ :: t, i => i / countOf t :: unravel t (i % countOf t)

/-- The linear index of a position in row-major order. -/
def ravel : List Nat → List Nat → Nat
  | _ :: ds, x :: xs => x * countOf ds + ravel ds xs
  | _, _ => 0

/-- A tensor's value: patterns by linear index, fine codes by block, coarse scale and recorded exponent maximum. -/
structure TensorVal where
  format    : Nat := 7
  dims      : List Nat := []
  blockAxis : Nat := 0
  patterns  : List Nat := []
  fines     : List Nat := []
  coarse    : W32 := 0x3F800000
  expMax    : Int := 0
  deriving DecidableEq, Repr

/-- Blocks along one row of the block axis (R97, R100). -/
def blocksPerRow (dims : List Nat) (axis : Nat) : Nat := ceilDiv (dims.getD axis 1) 32

/-- The block that holds the element at a linear index, in block order (R94). -/
def blockOf (dims : List Nat) (axis i : Nat) : Nat :=
  let pos := unravel dims i
  ravel (dims.eraseIdx axis) (pos.eraseIdx axis) * blocksPerRow dims axis + pos.getD axis 0 / 32

/-- The number of blocks of a tensor; 0 for a format without fine scales. -/
def blockCount (format : Nat) (dims : List Nat) (axis : Nat) : Nat :=
  if Fmt.isScaled format then countOf (dims.eraseIdx axis) * blocksPerRow dims axis else 0

/-- The linear indices of block `b`, in order along the block axis. -/
def blockElems (dims : List Nat) (axis b : Nat) : List Nat :=
  let nb := blocksPerRow dims axis
  let row := unravel (dims.eraseIdx axis) (b / nb)
  let first := 32 * (b % nb)
  (List.range (min 32 (dims.getD axis 1 - first))).map fun j => ravel dims (row.insertIdx axis (first + j))

/-- Bytes of the element part and of the scale plane of a stored form, each padded to 64 (R93, R94, R324). -/
def storedSizes (format : Nat) (dims : List Nat) (axis : Nat) : Nat × Nat :=
  (64 * ceilDiv (packBits.packedBytes (Fmt.width format) (countOf dims)) 64,
   64 * ceilDiv (packBits.packedBytes 6 (blockCount format dims axis)) 64)

/-- Bytes of a tensor's stored form (R324). -/
def TensorDecl.storedBytes (t : TensorDecl) : Nat :=
  let s := storedSizes t.format t.dims t.blockAxis
  s.1 + s.2

/-- The recorded exponent of a 16-bit tensor with no non-zero finite element (R132). -/
def expMaxEmpty (format : Nat) : Int := if format = 5 then -133 else if format = 6 then -24 else 0

/-- A coarse scale of a tensor: an FP32 tensor always has 1.0 (R86, R95). -/
def TensorDecl.scaleFor (t : TensorDecl) (c : W32) : W32 := if t.format = 7 then 0x3F800000 else c

/-- The exponent of the largest finite magnitude of a 16-bit tensor (R132). -/
def expMaxOf (format : Nat) (patterns : List Nat) : Int :=
  if Fmt.is16 format then
    let a := blockMax (patterns.map (Fmt.decode format))
    if a.isZero then expMaxEmpty format else a.log2Floor
  else 0

/-- The value a stored form holds. -/
def TensorVal.ofStored (format : Nat) (dims : List Nat) (axis : Nat) (bytes : List Byte) (coarse : W32) (em : Int) :
    TensorVal :=
  let s := storedSizes format dims axis
  { format := format, dims := dims, blockAxis := axis, coarse := coarse, expMax := em
    patterns := unpackBits (Fmt.width format) (countOf dims) (bytes.take s.1)
    fines := unpackBits 6 (blockCount format dims axis) (bytes.drop s.1) }

/-- The stored form of a value (R324). -/
def TensorVal.stored (t : TensorVal) : List Byte :=
  let s := storedSizes t.format t.dims t.blockAxis
  padTo 0 s.1 (packBits (Fmt.width t.format) t.patterns) ++ padTo 0 s.2 (packBits 6 t.fines)

/-- The stored fine code of the element at a linear index. -/
def TensorVal.fineAt (t : TensorVal) (i : Nat) : Nat :=
  if Fmt.isScaled t.format then t.fines.getD (blockOf t.dims t.blockAxis i) 0 else 0

/-- The exact scaled value of every element (R98, R99), the coarse scale included. -/
def TensorVal.exact (t : TensorVal) : List Val :=
  let c := f32Val t.coarse.toNat
  t.patterns.zipIdx.map fun p => match Fmt.elemValue t.format p.1 (t.fineAt p.2) with
    | .fin x => .fin (x.mul c.frac)
    | v => v

/-- The lane's FP32 value of every element (R101, R181). -/
def TensorVal.lanes (t : TensorVal) : List Val := t.exact.map Val.toF32

/-- What part of a tensor, given by its linear indices, travels as (R494): its patterns, and the fine codes of the blocks it
touches. -/
def TensorVal.part (t : TensorVal) (ix : List Nat) : List Nat × List Nat :=
  (ix.map fun i => t.patterns.getD i 0,
   if Fmt.isScaled t.format then ((ix.map (blockOf t.dims t.blockAxis)).eraseDups).map fun b => t.fines.getD b 0 else [])

/-- The linear indices of chunk `c` of `n` (R493): a run of whole blocks in block order, or of groups of 32 elements where the
format has no fine scales; the earlier chunks take any block more. -/
def TensorVal.chunk (t : TensorVal) (n c : Nat) : List Nat :=
  let total := if Fmt.isScaled t.format then blockCount t.format t.dims t.blockAxis else ceilDiv (countOf t.dims) 32
  let start (k : Nat) : Nat := k * (total / n) + min k (total % n)
  ((List.range (start (c + 1) - start c)).map (start c + ·)).flatMap fun b =>
    if Fmt.isScaled t.format then blockElems t.dims t.blockAxis b
    else (List.range (min 32 (countOf t.dims - 32 * b))).map (32 * b + ·)

/-- A tensor of a shape holding +0 everywhere. -/
def TensorVal.zero (d : TensorDecl) (coarse : W32) : TensorVal :=
  { format := d.format, dims := d.dims, blockAxis := d.blockAxis, coarse := coarse
    patterns := List.replicate (countOf d.dims) 0
    fines := List.replicate (blockCount d.format d.dims d.blockAxis) 0
    expMax := expMaxEmpty d.format }

/-! ### Output conversion of a whole tensor (R103, R107) -/

/-- One result on its way to a tensor: its exact value, its draw, and whether it is an identity standing for an infinity
that the format lacks, which takes no part in choosing a scale (R157, R198). -/
structure Result where
  val      : Val
  identity : Bool := false
  deriving DecidableEq, Repr

/-- The largest finite magnitude among the results that count (R157). -/
def amaxOf (l : List Result) : Frac :=
  blockMax ((l.filter fun r => !r.identity).map Result.val)

/-- Convert one block: identities are left out of the block maximum and written as the largest finite pattern of their
sign (R103, R198). -/
def convertResults (f : Nat) (c : Conv) (cOut : Frac) (l : List (Result × Nat)) : Block :=
  let div (v : Val) : Val := match v with
    | .fin x => .fin (x.div cOut)
    | v => v
  let b := Fmt.convertBlock f c (l.map fun r => (if r.1.identity then Val.zero else div r.1.val, r.2))
  if l.any (·.1.identity) then
    let ps := (b.patterns.zip l).map fun p =>
      if p.2.1.identity then
        (if Fmt.isInt f then
          (if p.2.1.val.isNeg then 2 ^ Fmt.width f - Fmt.maxPattern f else Fmt.maxPattern f)
         else Fmt.withSign f p.2.1.val.isNeg (Fmt.maxPattern f))
      else p.1
    let fs := if Fmt.isScaled f then
      Fmt.fineScale f ((l.filter fun r => !r.1.identity).map fun r => div r.1.val) else 0
    { patterns := ps, fine := if ps.all (· == 0) then nullCode else fineCode fs
      bad := b.bad }
  else b

/-- Write results into a tensor of a declaration under a coarse scale: the value, and the first element that raises
NONFINITE_OUTPUT (R103, R107, R111). -/
def writeResults (d : TensorDecl) (c : Conv) (coarse : W32) (draw : Nat → Nat) (rs : List Result) :
    TensorVal × Option Nat :=
  let cOut := (f32Val coarse.toNat).frac
  if Fmt.isScaled d.format then
    let blocks := (List.range (blockCount d.format d.dims d.blockAxis)).map fun b =>
      let ix := blockElems d.dims d.blockAxis b
      (ix, convertResults d.format c cOut (ix.map fun i => (rs.getD i { val := .zero }, draw i)))
    let cells : Tab Nat := blocks.foldl (fun t b => (b.1.zip b.2.patterns).foldl (fun t p => Tab.insert p.1 p.2 t) t) []
    let bad := blocks.flatMap fun b => b.2.bad.map fun k => b.1.getD k 0
    ({ format := d.format, dims := d.dims, blockAxis := d.blockAxis, coarse := coarse
       patterns := cells.map Prod.snd
       fines := blocks.map fun b => b.2.fine }, bad.min?)
  else
    let enc := rs.zipIdx.map fun r =>
      let b := convertResults d.format c cOut [(r.1, draw r.2)]
      (b.patterns.getD 0 0, decide (b.bad ≠ []), r.2)
    let ps := enc.map fun e => e.1
    ({ format := d.format, dims := d.dims, blockAxis := d.blockAxis, coarse := coarse
       patterns := ps, fines := [], expMax := expMaxOf d.format ps },
     (enc.find? fun e => e.2.1).map fun e => e.2.2)

end Sys2Proof.Machine
end

