-- ==== Sys2Proof/Machine/Esr.lean ====
section
/-! DEFINITION. The Exact Sum Register (R129 to R138): block sums, truncation, overflow, the drain, and the value it
converts to (R148). -/

namespace Sys2Proof.Machine

def esrTop : Int := ((2 ^ 239 : Nat) : Int)

/-- The significand as an integer (R129). -/
def Esr.int (e : Esr) : Int := e.sig.toInt

def Esr.isInf (e : Esr) : Bool := e.posInf || e.negInf

/-- An exact value in units of 2^`a`, truncated toward zero, and whether bits were lost (R134). -/
def truncUnits (x : Frac) (a : Int) : Int × Bool :=
  let y := x.mul (Frac.pow2 (-a))
  let q := y.num.natAbs / y.den
  (if y.num < 0 then -(q : Int) else (q : Int), y.num.natAbs % y.den != 0)

/-- Adding `t` units: the register, and whether it overflowed (R135, R136). -/
def Esr.addUnits (e : Esr) (t : Int) : Esr × Bool :=
  if e.isInf then (e, false)
  else
    let v := e.int + t
    if v ≥ esrTop then ({ e with posInf := true }, true)
    else if v < -esrTop then ({ e with negInf := true }, true)
    else ({ e with sig := BitVec.ofInt 240 v }, false)

/-- Adding an exact value: truncated to the anchor, inexact if bits are lost (R134, R135). -/
def Esr.addFrac (e : Esr) (x : Frac) : Esr × Bool :=
  let (t, lost) := truncUnits x e.anchor
  Esr.addUnits { e with inexact := e.inexact || lost } t

/-- What one contribution raises besides its flags (R112, R135). -/
structure EsrNotes where
  invalid  : Bool := false
  overflow : Bool := false
  deriving DecidableEq, Repr

/-- One pair of a block (R128, R136): its effect on the flags, and its exact product. -/
def pairTerm (x y : Val) : Bool × Bool × Bool × Bool × Frac :=
  -- nan, invalid, +∞, −∞, product
  match x, y with
  | .nan, _ => (true, false, false, false, { num := 0 })
  | _, .nan => (true, false, false, false, { num := 0 })
  | .fin a, .fin b => (false, false, false, false, a.mul b)
  | x, y =>
    if x.isZero || y.isZero then (true, true, false, false, { num := 0 })
    else if x.isNeg = y.isNeg then (false, false, true, false, { num := 0 })
    else (false, false, false, true, { num := 0 })

/-- One block pair (R127, R128, R134 to R136): fine codes, element pairs before scaling, and e_P. -/
def Esr.addBlock (e : Esr) (fa fb : Nat) (scaledA scaledB : Bool) (eP : Int) (pairs : List (Val × Val)) : Esr × EsrNotes :=
  if (scaledA && fa == nullCode) || (scaledB && fb == nullCode) then (e, {})
  else
    let r := pairs.foldl (fun (acc : Esr × Bool × Frac) p =>
      let (n, i, pi, ni, x) := pairTerm p.1 p.2
      ({ acc.1 with nan := acc.1.nan || n, posInf := acc.1.posInf || pi, negInf := acc.1.negInf || ni },
       acc.2.1 || i, acc.2.2.add x)) (e, false, { num := 0 })
    let f := (if scaledA then signed 6 fa else 0) + (if scaledB then signed 6 fb else 0)
    let (e, ov) := r.1.addFrac (r.2.2.mul (Frac.pow2 (f + eP)))
    (e, { invalid := r.2.1, overflow := ov })

/-- The drain: a pass's register added into a wide partial, flags ORed (R138, R141). -/
def Esr.drain (p e : Esr) : Esr × Bool :=
  let m := { p with posInf := p.posInf || e.posInf, negInf := p.negInf || e.negInf, nan := p.nan || e.nan
                    inexact := p.inexact || e.inexact }
  m.addUnits e.int

/-- The result on finalise, with k_P × 2^47 (R148), and whether a NaN came from both infinities alone. -/
def Esr.result (e : Esr) (kP : Nat) : Val × Bool :=
  if e.nan then (.nan, false)
  else if e.posInf && e.negInf then (.nan, true)
  else if e.posInf then (.inf false, false)
  else if e.negInf then (.inf true, false)
  else (.fin (((Frac.ofInt (e.int * (kP : Int))).mul (Frac.pow2 (e.anchor - 47)))), false)

/-- The eight words of a wide partial (R137). -/
def Esr.words (e : Esr) : List W32 :=
  let s := e.sig.toNat
  (List.range 7).map (fun i => BitVec.ofNat 32 (s / 2 ^ (32 * i))) ++
  [BitVec.ofNat 32 (s / 2 ^ 224 + 65536 * (e.anchor % 4096).toNat + 2 ^ 28 * boolNat e.posInf +
     2 ^ 29 * boolNat e.negInf + 2 ^ 30 * boolNat e.nan + 2 ^ 31 * boolNat e.inexact)]

/-- The exact product of two coarse scales as k_P × 2^47 and e_P (R130); both scales are valid. -/
def coarseProduct (ca cb : W32) : Nat × Int :=
  let sig (c : W32) : Nat × Int := Fmt.magnitude 7 c.toNat
  let (na, wa) := sig ca
  let (nb, wb) := sig cb
  let n := na * nb
  let l := n.log2
  (n * 2 ^ (47 - l), wa + wb + (l : Int))

end Sys2Proof.Machine
end

