-- ==== Sys2Proof/Config.lean ====
section
/-! DEFINITION. What the spec leaves free or takes from outside itself: opaque constants nothing can evaluate.
Cryptographic primitives are named by the spec and defined elsewhere (log 6); random draws are a device secret (log 7);
the sluice codec's output size is internal (log 8); free values for results the spec does not state (log 9). -/

namespace Sys2Proof.Config

/-- The residence time a relay adds to its n-th output, a beacon, in ns (R57); log 9. -/
opaque residenceNs : Nat → Nat

/-- The route a forwarder takes among those R475 lets classes N and B choose by queue lengths, by outputs sent so far; log 9. -/
opaque egressChoice : Nat → Nat

/-- The share of engine time or hub bytes that a counter record's field carries: record number and field, 0 matrix, 1 vector or
2 hub (R559); log 9. -/
opaque counterUse : Nat → Nat → Nat

/-- The line a full counter cache gives up, by outputs sent so far (R410); log 54. -/
opaque cacheVictim : Nat → Nat

/-- SHA-512 (R16, R221, R534, R542); log 6. -/
opaque sha512 : List Byte → List Byte

/-- HKDF-SHA-512 with an empty salt: input keying material, info, output length in bytes (R537); log 6. -/
opaque hkdf : List Byte → List Byte → Nat → List Byte

/-- Ed25519 verification: public key, message, signature (R221, R541, R547, R576); log 6. -/
opaque ed25519Verify : List Byte → List Byte → List Byte → Bool

/-- Ed25519 public key of a 32-byte seed (R532); log 6. -/
opaque ed25519Public : List Byte → List Byte

/-- Ed25519 signature: seed, message (R532, R546); log 6. -/
opaque ed25519Sign : List Byte → List Byte → List Byte

/-- X25519: scalar, point (R478, R547); log 6. -/
opaque x25519 : List Byte → List Byte → List Byte

/-- X25519 public key of a scalar (R546); log 6. -/
opaque x25519Public : List Byte → List Byte

/-- AES-256 of one 16-byte block (R401, R402, R441); log 6. -/
opaque aes256 : List Byte → List Byte → List Byte

/-- GHASH over 16-byte blocks (R402); log 6. -/
opaque ghash : List Byte → List (List Byte) → List Byte

/-- AES-256-GCM sealing: key, nonce, additional data, plaintext; ciphertext and 16-byte tag (R481, R553); log 6. -/
opaque gcmSeal : List Byte → List Byte → List Byte → List Byte → List Byte × List Byte

/-- AES-256-GCM opening: key, nonce, additional data, ciphertext, tag; none where the tag fails (R547, R554); log 6. -/
opaque gcmOpen : List Byte → List Byte → List Byte → List Byte → List Byte → Option (List Byte)

/-- The n-th 256-bit draw from the device's random source (R479, R485, R538, R564); log 7. -/
opaque random : Nat → List Byte

/-- Stored units an extent's contents compress to, before the bound of 1,024 (R439); log 8. -/
opaque compressedUnits : List (Nat × Byte) → Nat

/-- The bytes in which a drain carries the scale entries, stream records and positions of a shard (R512, R515); log 8. -/
opaque shardRecords : List Nat → List Byte

/-- The bytes of the vendor root's public key, fused (R533); log 10. -/
opaque vendorRootKey : List Byte

/-- SHA-512 digest fused for the vendor debug authority (R576); log 10. -/
opaque vendorDebugDigest : List Byte

/-- SHA-512 digest of the wafer-test token in the boot ROM (R568); log 10. -/
opaque waferTokenDigest : List Byte

/-- SHA-512 digests fused for the tokens of transitions 2 to 5 (R568); log 10. -/
opaque tokenDigest : Nat → List Byte

/-- The fixed test root in the boot ROM (R564); log 10. -/
opaque testRoot : List Byte

/-- The vendor provisioning root and unique device secret, fused (R532, R564); log 10. -/
opaque provisioningRoot : List Byte

opaque deviceSecret : List Byte

/-- The part of an X.509 certificate that its issuer signs: of the provisioning authority's subject at layer 0 (DeviceID), of
Alias_1 and Alias_2 at layers 1 and 2, for a serial number and a public key; DER and the template are free (R533); log 10. -/
opaque certBody : Nat → Nat → List (BitVec 8) → List (BitVec 8)

/-- The provisioning authority's certificate that every L1 image carries, and the fused signature of the FIELD DeviceID
certificate (R533); log 10. -/
opaque authorityCert : List (BitVec 8)

opaque vendorSignature : List (BitVec 8)

/-- The bank and row that a hub's own arrangement gives the number L div 32 of a stack's channel (R368); log 59. -/
opaque dramPlace : Nat → Nat × Nat

/-- LDPC parity words over words 0 to 1,029 of a NAND slot (R441); log 61. -/
opaque ldpcParity : List (BitVec 32) → List (BitVec 32)

/-- Spare rows of one bank of a stack (R377); log 59. -/
opaque spareRows : Nat

/-- The Persuost PCI vendor identifier, which the spec does not number (R292); log 10. -/
opaque pciVendor : BitVec 16

/-- The device's 64-bit serial and the revision letter and digit, fused (R624, R633); log 10. -/
opaque serial : W64

opaque revision : BitVec 8

/-- Whether the part is an H-bin device (R6); log 10. -/
opaque binH : Bool

/-- Digest of the image that the boot flash holds for a measurement block: block number, plus 32 for slot B
(R532, R534, R652); log 10. -/
opaque bootDigest : Nat → List Byte

/-- The version number of the control-die runtime image in slot 0, A, or 1, B (R633); log 10. -/
opaque fwVersion : Nat → BitVec 31

end Sys2Proof.Config
end

