-- ==== Sys2Proof/Machine/Philox.lean ====
section
/-! DEFINITION. Random streams (R172 to R175): stream keys and Philox4x32-10 draws at data positions. -/

namespace Sys2Proof.Machine

def mod32 (n : Nat) : Nat := n % 4294967296

/-- One Philox round (R175). -/
def philoxRound (k0 k1 : Nat) : Nat × Nat × Nat × Nat → Nat × Nat × Nat × Nat
  | (x0, x1, x2, x3) =>
    let p0 := 0xD2511F53 * x0
    let p1 := 0xCD9E8D57 * x2
    (Nat.xor (Nat.xor (p1 / 4294967296) x1) k0, mod32 p1, Nat.xor (Nat.xor (p0 / 4294967296) x3) k1, mod32 p0)

/-- `n` rounds, the key advancing between them (R175). -/
def philoxRounds : Nat → Nat → Nat → Nat × Nat × Nat × Nat → Nat × Nat × Nat × Nat
  | 0, _, _, x => x
  | n + 1, k0, k1, x => philoxRounds n (mod32 (k0 + 0x9E3779B9)) (mod32 (k1 + 0xBB67AE85)) (philoxRound k0 k1 x)

/-- Philox4x32-10 (R175). -/
def philox (k0 k1 : Nat) (c : Nat × Nat × Nat × Nat) : List Nat :=
  let y := philoxRounds 10 k0 k1 c
  [y.1, y.2.1, y.2.2.1, y.2.2.2]

/-- The counter words for block `b` at data position `s` under a site (R174). -/
def drawCounter (b s site : Nat) : Nat × Nat × Nat × Nat :=
  (mod32 b, mod32 (b / 4294967296), mod32 s, s / 4294967296 % 16777216 + 16777216 * (site % 256))

/-- The 16-bit draw of element `e` (R174). -/
def draw16 (key : Nat × Nat) (s site e : Nat) : Nat :=
  let w := (philox key.1 key.2 (drawCounter (e / 8) s site)).getD (e % 8 / 2) 0
  if e % 2 = 0 then w % 65536 else w / 65536

/-- The 32-bit draw of element `e` (R174). -/
def draw32 (key : Nat × Nat) (s site e : Nat) : Nat :=
  (philox key.1 key.2 (drawCounter (e / 4) s site)).getD (e % 4) 0

/-- An open stream's key (R173). -/
def openKey (seed identity : Nat) : Nat × Nat := (Nat.xor (mod32 seed) identity, mod32 (seed / 4294967296))

/-- A sealed stream's key, from the domain's random-stream purpose key (R173). -/
def sealedKey (purpose : List Byte) (seed identity : Nat) : Nat × Nat :=
  let out := Config.hkdf purpose ("ONV-RNG".toUTF8.toList.map (fun b => BitVec.ofNat 8 b.toNat) ++ bytesOfNat 8 seed ++ bytesOfNat 4 identity) 8
  (natOfBytes (out.take 4), natOfBytes ((out.drop 4).take 4))

end Sys2Proof.Machine
end

