-- ==== Sys2Proof/Machine/OpEnv.lean ====
section
/-! DEFINITION. What one operation of a step sees and what it gives: operands (R233, R236), masks (R190 to R192), codes in
the order and number they are delivered (R112, R194), and its results before output conversion. -/

namespace Sys2Proof.Machine

/-- What an operation reads: its module, its tensors' values, the step's slots and regions, its data position and the
stream keys. -/
structure OpEnv where
  module   : Module
  tensor   : Nat → TensorVal
  slots    : Tab Scalar
  regions  : Tab Region
  position : Nat
  keys     : List (Nat × Nat)
  /-- The step's operation records. -/
  stepOps  : List OpRec := []

/-- A code an operation raises: the linear index it names and, for LANE_FAULT, its cause (R193, R194). -/
structure OpCode where
  code  : Nat
  index : Option Nat := none
  cause : Option Nat := none
  deriving DecidableEq, Repr

/-- What an operation gives. -/
structure OpOut where
  /-- Exact results for every output element, to be converted (R103). -/
  results : Option (List Result) := none
  /-- Patterns to copy unchanged if the write's coarse scale equals theirs (R245). -/
  raw     : Option TensorVal := none
  /-- The coarse scale s.setscale sets (R246). -/
  coarse  : Option W32 := none
  slot    : Option Scalar := none
  codes   : List OpCode := []
  /-- It faulted so that its dependents are skipped (R96, R145, R208, R252). -/
  skip    : Bool := false
  region  : Option (Nat × Region) := none
  reset   : Option Nat := none
  /-- Its draws do not make the rounding stochastic (R247). -/
  nearest : Bool := false
  deriving DecidableEq, Repr

def OpEnv.decl (e : OpEnv) (t : Nat) : TensorDecl := e.module.tensors.getD t {}

/-! ### Fields of a record (R234 to R236) -/

/-- Opcode-specific word `w` of a record, by its number in the record (3 is the first). -/
def OpRec.w (o : OpRec) (i : Nat) : Nat := wordAt o.words (i - 3)

/-- Bits [lo+n-1:lo] of word `i`. -/
def OpRec.f (o : OpRec) (i lo n : Nat) : Nat := bitsOf (o.w i) lo n

/-- The operand at position `i` of a word list, and the position after it (R236). -/
def operandAt (ws : List W32) (i : Nat) : Operand × Nat :=
  let w := wordAt ws i
  match bitsOf w 16 2 with
  | 0 => (.tensor (w % 65536), i + 1)
  | 1 => (.slot (w % 65536), i + 1)
  | 2 => (.f32 (ws.getD (i + 1) 0), i + 2)
  | _ => (.i32 (signed 32 (wordAt ws (i + 1))), i + 2)

/-- `n` operands from position `i`. -/
def operandsAt (ws : List W32) : Nat → Nat → List Operand
  | 0, _ => []
  | n + 1, i => let (o, j) := operandAt ws i; o :: operandsAt ws n j

/-- The `k`-th operand of a record whose first stands in word `first`. -/
def OpRec.operand (o : OpRec) (first : Nat) : Operand := (operandAt o.words (first - 3)).1

/-- The tensor index an operand word names (R236). -/
def OpRec.tensorAt (o : OpRec) (i : Nat) : Nat := o.w i % 65536

def OpRec.convFields (o : OpRec) : Conv :=
  { mode := field o.conv 0 2, saturate := bitOf o.conv.toNat 2, wrap := bitOf o.conv.toNat 3 }
def OpRec.zeroMode (o : OpRec) : Bool := bitOf o.conv.toNat 5
def OpRec.stream (o : OpRec) : Nat := field o.conv 8 8
def OpRec.site (o : OpRec) : Nat := field o.conv 16 8
def OpRec.streamValid (o : OpRec) : Bool := bitOf o.conv.toNat 4

/-! ### Reading operands -/

/-- A slot holds +0 when the step starts (R233). -/
def OpEnv.slot (e : OpEnv) (i : Nat) : Scalar := e.slots.get (.f32 0) i

/-- A scalar's exact value. -/
def Scalar.val : Scalar → Val
  | .f32 b => f32Val b.toNat
  | .i32 v => .ofInt v

/-- The lane value of a scalar read in float mode (R233, R236). -/
def Scalar.lane (s : Scalar) : Val := s.val.toF32

/-- The position an output position reads in an operand whose extents may be 1 (R236). -/
def broadcastPos (dims : List Nat) (pos : List Nat) : Nat :=
  ravel dims ((dims.zip pos).map fun p => if p.1 = 1 then 0 else p.2)

/-- An operand's values over an output shape: exact, or FP32 lanes (R181, R188, R236). -/
def OpEnv.read (e : OpEnv) (o : Operand) (dims : List Nat) (lanes : Bool) : List Val :=
  match o with
  | .tensor t =>
    let x := e.tensor t
    let vs := if lanes then x.lanes else x.exact
    if x.dims = dims then vs
    else (List.range (countOf dims)).map fun i => vs.getD (broadcastPos x.dims (unravel dims i)) .zero
  | .slot i => List.replicate (countOf dims) (if lanes then (e.slot i).lane else (e.slot i).val)
  | .f32 b => List.replicate (countOf dims) (f32Val b.toNat)
  | .i32 v => List.replicate (countOf dims) (if lanes then (Val.ofInt v).toF32 else .ofInt v)

/-- Which elements of the iteration shape are active (R190). -/
def OpEnv.active (e : OpEnv) (o : OpRec) (dims : List Nat) : List Bool :=
  if o.mask = 0xFFFF then List.replicate (countOf dims) true
  else (e.tensor o.mask).exact.map fun v => !v.isZero

/-- A code is kept once, with the lowest index it was raised at (R112, R149, R194). -/
def addCode (l : List OpCode) (c : OpCode) : List OpCode :=
  match l.find? (·.code == c.code) with
  | none => l ++ [c]
  | some o =>
    if decide ((c.index.getD 0) < (o.index.getD 0)) then l.map fun x => if x.code == c.code then c else x else l

/-- Outputs of a masked operation: an inactive element holds its prior value or +0 (R192). -/
def OpEnv.masked (e : OpEnv) (o : OpRec) (act : List Bool) (rs : List Result) : List Result :=
  if o.mask = 0xFFFF then rs
  else
    let prior := if o.zeroMode then [] else (e.tensor o.out).exact
    (rs.zip act).zipIdx.map fun p => if p.1.2 then p.1.1 else { val := prior.getD p.2 .zero }

/-- Tensors whose values an operation reads (R96): those whose coarse scale must be valid. -/
def OpEnv.scalesValid (e : OpEnv) (ts : List Nat) : Bool := ts.all fun t => coarseValid (e.tensor t).coarse

/-- The fixed-policy tensors a record writes have valid coarse scales (R96). -/
def OpEnv.outputValid (e : OpEnv) (ts : List Nat) : Bool :=
  ts.all fun t => (e.module.scales.getD (e.decl t).scaleIndex {}).policy ≠ 2 || coarseValid (e.tensor t).coarse

/-- An operation that faults with SCALE_INVALID (R96). -/
def OpOut.scaleInvalid : OpOut := { codes := [{ code := Code.scaleInvalid }], skip := true }

/-- The 16-bit draw of output element `i` (R107, R174). -/
def OpEnv.draw16 (e : OpEnv) (o : OpRec) (i : Nat) : Nat :=
  Machine.draw16 (e.keys.getD o.stream (0, 0)) e.position o.site i

/-- The 32-bit draw of output element `i` (R174). -/
def OpEnv.draw32 (e : OpEnv) (o : OpRec) (i : Nat) : Nat :=
  Machine.draw32 (e.keys.getD o.stream (0, 0)) e.position o.site i

/-- The tensors an operand list names. -/
def operandTensors (l : List Operand) : List Nat :=
  l.filterMap fun
    | .tensor t => if t = 0xFFFF then none else some t
    | _ => none

/-- The mask of a record, as a read. -/
def OpRec.maskReads (o : OpRec) : List Nat := if o.mask = 0xFFFF then [] else [o.mask]

/-- A merge-masked output is read (R96, R192). -/
def OpRec.mergeReads (o : OpRec) : List Nat := if o.mask = 0xFFFF || o.zeroMode then [] else [o.out]

end Sys2Proof.Machine
end

