-- ==== Sys2Proof/Machine/MatrixEval.lean ====
section
/-! DEFINITION. mx.contract (R121 to R150, R239, R240): anchors, passes, partial-sum regions and finalise. -/

namespace Sys2Proof.Machine

/-- Blocks of one pass (R124, R125). -/
def passBlocks (format : Nat) : Nat := if Fmt.is16 format then 64 else 256

/-- The contraction's operands: rows of A, columns of B, length, and whether each has a batch extent (R239). -/
structure ContractShape where
  rows   : Nat
  cols   : Nat
  len    : Nat
  batchA : Bool
  batchB : Bool
  deriving DecidableEq, Repr

def contractShape (a b : List Nat) : ContractShape :=
  { rows := a.getD (a.length - 2) 1, cols := b.getD (b.length - 1) 1, len := a.getD (a.length - 1) 0
    batchA := a.length == 3, batchB := b.length == 3 }

/-- The output's shape (R239). -/
def contractDims (a b : List Nat) : List Nat :=
  let s := contractShape a b
  (if s.batchA then [a.getD 0 1] else if s.batchB then [b.getD 0 1] else []) ++ [s.rows, s.cols]

/-- Element pairs and fine codes of block `k` of one dot product (R122, R127). -/
def contractBlock (a b : TensorVal) (va vb : List Val) (s : ContractShape) (bt i j k : Nat) :
    Nat × Nat × List (Val × Val) :=
  let ba := if s.batchA then bt else 0
  let bb := if s.batchB then bt else 0
  let n := min 32 (s.len - 32 * k)
  let ia (t : Nat) : Nat := (ba * s.rows + i) * s.len + 32 * k + t
  let ib (t : Nat) : Nat := (bb * s.len + 32 * k + t) * s.cols + j
  let nb := ceilDiv s.len 32
  (a.fines.getD ((ba * s.rows + i) * nb + k) 0, b.fines.getD ((bb * s.cols + j) * nb + k) 0,
   (List.range n).map fun t => (va.getD (ia t) .zero, vb.getD (ib t) .zero))

/-- One pass over consecutive blocks (R136, R138): the ESR starts clear. -/
def contractPass (anchor eP : Int) (sa sb : Bool) (blocks : List (Nat × Nat × List (Val × Val))) : Esr × EsrNotes :=
  blocks.foldl (fun (acc : Esr × EsrNotes) b =>
    let (e, n) := acc.1.addBlock b.1 b.2.1 sa sb eP b.2.2
    (e, { invalid := acc.2.invalid || n.invalid, overflow := acc.2.overflow || n.overflow }))
    ({ anchor := anchor }, {})

/-- The passes of one dot product, each drained into the partial (R138, R139, R141). -/
def contractDot (p : Esr) (anchor eP : Int) (sa sb : Bool) (perPass : Nat)
    (blocks : List (Nat × Nat × List (Val × Val))) : Esr × EsrNotes :=
  let passes := (List.range (ceilDiv blocks.length perPass)).map fun i => (blocks.drop (perPass * i)).take perPass
  passes.foldl (fun (acc : Esr × EsrNotes) bs =>
    let (e, n) := contractPass anchor eP sa sb bs
    let (q, ov) := acc.1.drain e
    (q, { invalid := acc.2.invalid || n.invalid, overflow := acc.2.overflow || n.overflow || ov })) (p, {})

/-- The default anchor of R130 and R132, or the explicit one of R133. -/
def contractAnchor (a b : TensorVal) (explicit : Bool) (val : Int) (eP : Int) : Int :=
  if Fmt.is16 a.format then (if explicit then val + eP else a.expMax + b.expMax + eP - 208) else eP - 94

/-- What a contraction brings to its region: anchor and k_P (R143); none for length 0. -/
structure ContractIssue where
  anchor : Int
  eP     : Int
  kP     : Nat
  deriving DecidableEq, Repr

/-- The issue check of R143 against the operations still in flight: a fault code, or the entry after issue. -/
def issueRegion (g : Region) (op : Nat) (init exclusive : Bool) (iss : Option ContractIssue) (n : Nat) :
    Except Nat Region :=
  if exclusive && !g.inFlight.isEmpty then .error Code.accConflict
  else if g.inFlight.any (·.2) then .error Code.accConflict
  else
    let g' := { g with inFlight := g.inFlight ++ [(op, exclusive)] }
    match iss with
    | none => .ok g'
    | some i =>
      if init || !g.live then
        .ok { g' with live := true, anchor := i.anchor, kP := i.kP
                      partials := List.replicate n { anchor := i.anchor } }
      else if i.anchor ≠ g.anchor || i.kP ≠ g.kP then .error Code.accScaleMismatch
      else .ok g'

/-- mx.contract at local index `op`, with the operations of its regions still in flight beside it (R143, R657). -/
def evalContract (e : OpEnv) (o : OpRec) (op : Nat) (overlap : List Nat) : OpOut :=
  let ta := o.tensorAt 3
  let tb := o.tensorAt 4
  let reg := o.f 5 0 8
  let accum := o.f 5 8 1 == 1
  let fin := o.f 5 9 1 == 1
  let explicit := o.f 5 10 1 == 1
  let empty := ta == 0xFFFF && tb == 0xFFFF
  let dims := if empty then (e.decl o.out).dims else contractDims (e.decl ta).dims (e.decl tb).dims
  let n := countOf dims
  let cols := dims.getD (dims.length - 1) 1
  if !empty && !e.scalesValid [ta, tb] then OpOut.scaleInvalid
  else
    let a := e.tensor ta
    let b := e.tensor tb
    let pr := coarseProduct a.coarse b.coarse
    let iss : Option ContractIssue :=
      if empty then none
      else some { anchor := contractAnchor a b explicit (signed 32 (o.w 6)) pr.2, eP := pr.2, kP := pr.1 }
    let g0 := e.regions.get {} reg
    let g0 := { g0 with inFlight := g0.inFlight.filter fun p => overlap.contains p.1 }
    let g1 : Except Nat Region :=
      if reg = 0xFF then
        .ok { live := true, anchor := (iss.map (·.anchor)).getD 0, kP := (iss.map (·.kP)).getD (2 ^ 47)
              partials := List.replicate n { anchor := (iss.map (·.anchor)).getD 0 } }
      else issueRegion g0 op (!accum) (!accum || fin) iss n
    match g1 with
    | .error code => { codes := [{ code := code, index := some reg }], skip := true }
    | .ok g =>
      let s := contractShape a.dims b.dims
      let va := a.patterns.map (Fmt.decode a.format)
      let vb := b.patterns.map (Fmt.decode b.format)
      let dot (q : Nat) (p : Esr) : Esr × EsrNotes :=
        if empty then (p, {})
        else
          let r := q / cols
          contractDot p g.anchor pr.2 (Fmt.isScaled a.format) (Fmt.isScaled b.format) (passBlocks a.format)
            ((List.range (ceilDiv s.len 32)).map
              (contractBlock a b va vb s (r / s.rows) (r % s.rows) (q % cols)))
      let ps := if g.live then g.partials else List.replicate n {}
      let done := ps.zipIdx.map fun p => (dot p.2 p.1, p.2)
      let notes := done.foldl (fun l x =>
        let l := if x.1.2.invalid then addCode l { code := Code.invalidOperand, index := some x.2 } else l
        if x.1.2.overflow then addCode l { code := Code.accOverflow, index := some x.2 } else l) []
      let parts := done.map (·.1.1)
      if !fin then { codes := notes, region := some (reg, { g with partials := parts }) }
      else
        let rs := parts.map fun p => if g.live then p.result g.kP else (.zero, false)
        let notes := (rs.zipIdx).foldl (fun l r =>
          if r.1.2 then addCode l { code := Code.invalidOperand, index := some r.2 } else l) notes
        let notes := (parts.zipIdx).foldl (fun l p =>
          if p.1.inexact then addCode l { code := Code.accInexact, index := some p.2 } else l) notes
        { results := some (rs.map fun r => { val := r.1 })
          codes := notes
          region := if reg = 0xFF then none
                    else some (reg, { inFlight := g.inFlight }) }

end Sys2Proof.Machine
end

