-- ==== Sys2Proof/Machine/State.lean ====
section
/-! DEFINITION. The state of one ONV-2524: every register, table, queue, counter and mode the spec gives it, as plain
data, and the queue of waiting commands.  Each field's comment ends with [rule; width; reset value]. -/

namespace Sys2Proof.Machine

/-- Why the machine stops. -/
inductive Fault where
  /-- An event names a frame that does not exist: bits [18:0] of a frame number above 393,215 are invalid (R27).
  Raised by the memory events that carry a frame number.  Safe: the device has no such frame. -/
  | frameAbsent (frame : Nat)
  /-- An event names a die, tile, hub, port, queue or slot outside the numbering of R8, R298, R333 or R464.
  Raised by the events that carry such a number.  Safe: the device has no such unit. -/
  | unitAbsent (n : Nat)
  deriving DecidableEq, Repr

/-- Why a command has no meaning here. -/
inductive Refusal where
  /-- No meaning has been written for the command.  Raised only by Dispatch's refused arms.  Safe. -/
  | notModelled (mnemonic : String)
  deriving DecidableEq, Repr

/-! ### Service, clocks and host link (chapters 09, 18) -/

inductive Service where
  | reset | boot | neap | spring | recovery
  deriving DecidableEq, Repr

/-- The select registers of one function (R629). -/
structure Selects where
  /-- QT_SEL.queue [R328; 12; 0] -/
  queue  : Nat := 0
  /-- FN_SEL.function [R329; 5; 0] -/
  fn     : Nat := 0
  /-- CTX_SEL.slot [R336; 12; 0] -/
  ctx    : Nat := 0
  /-- ARB_SEL.unit [R390; 6; 0] -/
  arb    : Nat := 0
  /-- ARB_REQ_SEL.req [R390; 7; 0] -/
  req    : Nat := 0
  /-- FAB_SEL.port [R500; 6; 0] -/
  port   : Nat := 0
  /-- DW_IN_SEL.input [R505; 4; 0] -/
  dwIn   : Nat := 0
  /-- DW_BLK_SEL.die [R505; 8; 0] -/
  dwBlk  : Nat := 0
  /-- OP_SEL.tile [R609; 4; 0] -/
  tile   : Nat := 0
  deriving DecidableEq, Repr

structure Sys where
  /-- GC_SERVICE.state [R609; 3; 0 reset] -/
  service    : Service := .reset
  /-- GC_SERVICE.cause [R609; 8; 0] -/
  cause      : BitVec 8 := 0
  /-- GC_CTRL.setup_lock [R609; 1; 0] -/
  setupLock  : Bool := false
  /-- GC_RESET_CAUSE bits: thermtrip, flr, hot_reset, perst, power_on [R609; 5; set at reset, power_on] -/
  resetCause : BitVec 5 := 1
  /-- CLK_STATUS.loss_count [R609; 8; 0] -/
  lossCount  : Nat := 0
  /-- CLK_STATUS.loss_seen [R609; 1; 0] -/
  lossSeen   : Bool := false
  /-- CLK_STATUS.holdover: REFCLK currently lost [R609, R589; 1; 0] -/
  clkLost    : Bool := false
  /-- CLK_STATUS.pll_locked [R609; 1; 0] -/
  pllLocked  : Bool := false
  /-- Asynchronous forcing logic holds every output [R590; 1; 0] -/
  forced     : Bool := false
  /-- Stacks in self-refresh [R589; 1; 0] -/
  selfRefresh : Bool := false
  /-- THERMTRIP_N driven low [R582, R604; 1; 0 released] -/
  tripped    : Bool := false
  /-- The previous power cycle ended in a thermal trip [R609; 1; 0] -/
  tripMemory : Bool := false
  /-- PCIE_BIFUR strap as sampled [R291; 1; 0 internal pull-down] -/
  bifur      : Bool := false
  /-- D3hot of PF0 and PF1 [R292; 1 each; 0] -/
  d3hot      : Bool × Bool := (false, false)
  /-- Trained generation and width of links 0 and 1; 0 while down [R290, R332; -; 0] -/
  link0      : Nat × Nat := (0, 0)
  link1      : Nat × Nat := (0, 0)
  /-- Each link runs in flit mode [R290; 1 each; 0] -/
  flit0      : Bool := false
  flit1      : Bool := false
  /-- Configuration requests answered with request-retry status [R292, R605; 1; 1] -/
  retryStatus : Bool := true
  /-- Select registers of PF0 [R629; -; 0] -/
  sel0       : Selects := {}
  /-- Select registers of PF1 [R629; -; 0] -/
  sel1       : Selects := {}
  /-- A unit failed stage 5 three times, so the device stays in neap service [R608; 1; 0] -/
  held       : Bool := false
  /-- Bin: true for H [R6, R633; 1; Fused] -/
  binH       : Bool := Config.binH
  /-- Revision letter and digit [R633; 8; Fused] -/
  revision   : BitVec 8 := Config.revision
  /-- Device serial [R633; 64; Fused] -/
  serial     : W64 := Config.serial
  /-- Draws taken from the random source: MODEL'S OWN counter for the opaque draws [R538; -; choice 0 (7)] -/
  draws      : Nat := 0
  /-- Boot nonce's draw number, from which K_boot derives [R538; -; choice 0 (7)] -/
  bootNonce  : Nat := 0
  /-- Hubs and fabric disabled, only Identity and life-cycle registers answer [R572, R564; 1; 0] -/
  locked     : Bool := false
  deriving DecidableEq, Repr

/-- One function's entry and MSI-X table. -/
structure Function where
  /-- FN_SUM_LO/HI: all-queue summary address [R329; 64; 0] -/
  sum        : W64 := 0
  /-- FN_PSUM_LO/HI: class-P summary address [R329; 64; 0] -/
  psum       : W64 := 0
  /-- FN_CTRL.tdi_state [R329; 2; 0] -/
  tdi        : Nat := 0
  /-- FN_CTRL.atomic_fail [R329; 1; 0] -/
  atomicFail : Bool := false
  /-- FN_CTRL.poll_enable [R329; 1; 0] -/
  pollEnable : Bool := false
  /-- The function has left RUN or taken a function-level reset and writes nothing (R295, R357) [R295; 1; 0] -/
  silent     : Bool := false
  /-- How often it has done so: the completions of commands fetched in an earlier era are not written [R295; -; 0 (the model's)] -/
  era        : Nat := 0
  /-- Selective IDE stream carrying the function's traffic [R294; -; none] -/
  ideStream  : Option Nat := none
  /-- Start-interface nonce's draw number returned at lock [R549; -; none] -/
  tdiNonce   : Option Nat := none
  /-- Owners for which the interface is admitted: charter slot and owner slot [R549; -; none] -/
  admitted   : List (Nat × Nat) := []
  /-- MSI-X entries: message address and data [R297; 96 each; choice 0 (2)] -/
  msixAddr   : Tab W64 := []
  msixData   : Tab W32 := []
  /-- Vectors unmasked; every vector is masked at reset [R584; 1 each; 0 (masked)] -/
  unmasked   : List Nat := []
  /-- Pending-bit array [R297; 1 each; choice 0 (2)] -/
  pendingBits : List Nat := []
  deriving DecidableEq, Repr

/-! ### Queues (chapter 09) -/

structure Queue where
  /-- QT_RING_LO/HI: command ring address, bits [63:12] [R328; 64; 0] -/
  ring     : W64 := 0
  /-- QT_CPL_LO/HI: completion ring address, bits [63:12] [R328; 64; 0] -/
  cpl      : W64 := 0
  /-- QT_DB_LO/HI: doorbell record address, bits [63:4] [R328; 64; 0] -/
  db       : W64 := 0
  /-- QT_CFG.psum_bit [R328; 9; 0] -/
  psumBit  : BitVec 9 := 0
  /-- QT_CFG.function [R328; 5; 0] -/
  function : BitVec 5 := 0
  /-- QT_CFG.format [R328; 2; 0] -/
  format   : BitVec 2 := 0
  /-- QT_CFG.class [R328; 2; 0] -/
  cls      : BitVec 2 := 0
  /-- QT_CFG.cpl_log2 [R328; 4; 0] -/
  cplLog2  : BitVec 4 := 0
  /-- QT_CFG.ring_log2 [R328; 4; 0] -/
  ringLog2 : BitVec 4 := 0
  /-- QT_BIND.vector [R328; 11; 0] -/
  vector   : BitVec 11 := 0
  /-- QT_BIND.context [R328; 16; 0] -/
  context  : BitVec 16 := 0
  /-- QT_CTRL.cfg_reject [R328; 1; 0] -/
  cfgReject : Bool := false
  /-- QT_CTRL.enable [R328; 1; 0] -/
  enable   : Bool := false
  /-- QT_STATUS.halted [R328; 1; 0] -/
  halted   : Bool := false
  /-- QT_STATUS.code [R328; 16; 0] -/
  code     : BitVec 16 := 0
  /-- Last tail found in the doorbell record [R302; 64; 0] -/
  tail     : Nat := 0
  /-- Command units consumed since enabled [R302, R315; 64; 0] -/
  consumed : Nat := 0
  /-- cpl_head as last read [R302; 64; 0] -/
  cplHead  : Nat := 0
  /-- Completion units written since enabled [R317; 64; 0] -/
  cplUnits : Nat := 0
  /-- Completion units reserved for fetched commands [R318; 64; 0] -/
  reserved : Nat := 0
  /-- Commands fetched and not begun, oldest first [R301; -; none] -/
  fetched  : List Cmd := []
  /-- Commands begun and not complete [R331; -; none] -/
  begun    : List Cmd := []
  /-- Completions waiting for completion-ring space, oldest first [R318; -; none] -/
  waitCpl  : List Completion := []
  /-- A LOAD_PLAN chain being gathered [R314; -; none] -/
  chain    : Option Cmd := none
  /-- Ring-order number of the next command [R354; -; 0] -/
  nextSeq  : Nat := 0
  deriving DecidableEq, Repr

/-! ### Contexts, mapping table, fences (chapter 10) -/

inductive CtxState where
  | closed | opened | suspended | closing
  deriving DecidableEq, Repr

structure Context where
  /-- CTX_TAG.tag [R336; 16; 0] -/
  tag       : BitVec 16 := 0
  /-- CTX_TAG.home_fn [R336; 5; 0] -/
  homeFn    : BitVec 5 := 0
  /-- CTX_VA.va_gib [R336; 18; 0] -/
  vaGib     : BitVec 18 := 0
  /-- CTX_MAP.map_grp_count [R336; 13; 0] -/
  mapCount  : BitVec 13 := 0
  /-- CTX_MAP.map_grp_base [R336; 12; 0] -/
  mapBase   : BitVec 12 := 0
  /-- CTX_FENCE.fence_grp_count [R336; 11; 0] -/
  fenceCount : BitVec 11 := 0
  /-- CTX_FENCE.fence_grp_base [R336; 10; 0] -/
  fenceBase : BitVec 10 := 0
  /-- CTX_REC_LO/HI: fence record array address, bits [63:4] [R336; 64; 0] -/
  recBase   : W64 := 0
  /-- CTX_QUOTA_T1.t1_frames: the initial quota [R336; 21; 0] -/
  initT1    : BitVec 21 := 0
  /-- CTX_QUOTA_T2.t2_extents: the initial quota [R336; 25; 0] -/
  initT2    : BitVec 25 := 0
  /-- T1 quota in force [R358, R360; 21; 0] -/
  quotaT1   : BitVec 21 := 0
  /-- T2 quota in force [R358, R360; 25; 0] -/
  quotaT2   : BitVec 25 := 0
  /-- CTX_CTRL.cfg_reject [R336; 1; 0] -/
  cfgReject : Bool := false
  /-- CTX_STATUS.code [R336; 16; 0] -/
  code      : BitVec 16 := 0
  /-- CTX_STATUS.charter and charter_bound [R336; 8 + 1; 0] -/
  charter   : Option Nat := none
  /-- CTX_STATUS.over_quota [R336; 1; 0] -/
  overQuota : Bool := false
  /-- CTX_STATUS.state [R336; 2; 0 CLOSED] -/
  state     : CtxState := .closed
  /-- CTX_STALE [R336; 32; 0] -/
  stale     : Nat := 0
  /-- CTX_USE_T1.t1_use [R336; 21; 0] -/
  useT1     : Nat := 0
  /-- CTX_USE_T2.t2_use [R336; 25; 0] -/
  useT2     : Nat := 0
  /-- Map epoch E [R347; 64; 0] -/
  epoch     : Nat := 0
  /-- Serial of this opening, from which its key branch derives [R531, R538; 64; 0] -/
  serial    : Nat := 0
  /-- A cut's tide t0, its grace g, and whether the copies were dropped [R361; -; none] -/
  grace     : Option (Nat × Nat × Bool) := none
  /-- The withholding code raised against it in this tide [R42; 16; none] -/
  withhold  : Option Nat := none
  /-- Further codes to deliver beside it [R85, R430; -; none] -/
  alsoCode  : Option Nat := none
  /-- The code of a check that failed for it in this tide: its egress is discarded until the ebb [R40, R425; 16; none] -/
  failed    : Option Nat := none
  /-- Its close has reached the retirement of its identifiers [R340; 1; 0] -/
  retiring  : Bool := false
  /-- Stopped by an evacuation [R521; 1; 0] -/
  evacuated : Bool := false
  /-- Rolled back: the generation a RESTORE must complete [R520; 64; none] -/
  rollback  : Option Nat := none
  /-- Held on every rank while a device of its job evacuates [R521; 1; 0] -/
  held      : Bool := false
  /-- SNAPSHOT_SKIPPED is due in the next committing step's completion [R517; 1; 0] -/
  skipDue   : Bool := false
  /-- It had a step running or spilling in this tide, with the tiles used [R647; 1 + 16; 0] -/
  active    : Bool := false
  tilesUsed : Nat := 0
  /-- Stored bytes read or programmed, payload bytes sent and peak scratchpad bytes of it in this tide [R559; -; 0] -/
  flashUse  : Nat := 0
  fabricUse : Nat := 0
  scratchUse : Nat := 0
  /-- Tiles that hold its random-stream key [R539; 16; none] -/
  rngTiles  : List Nat := []
  /-- Hubs' flash engines that hold the flash keys of its domains: hub and owner slot [R539; -; none] -/
  flashKeys : List (Nat × Nat) := []
  deriving DecidableEq, Repr

/-- A mapping-table entry (R342). -/
structure MapEntry where
  /-- Valid [R342; 1; 0] -/
  valid  : Bool := false
  /-- Hub preference, 4 for ANY [R342; 3; 0] -/
  pref   : Nat := 0
  /-- Alias source: context slot and its entry [R342, R345; -; none] -/
  aliasOf : Option (Nat × Nat) := none
  /-- Frame number [R342; 21; none] -/
  frame  : Option Nat := none
  /-- Map epoch as of which the page is dead [R347; 64; none] -/
  dead   : Option Nat := none
  /-- Twin frame of a state page in a bound source context [R510; 21; none] -/
  twin   : Option Nat := none
  /-- Its fill after a freeze is unfinished [R514; 1; 0] -/
  fill   : Bool := false
  deriving DecidableEq, Repr

inductive FenceState where
  | pending | signalled | broken
  deriving DecidableEq, Repr

structure Fence where
  /-- Value V [R351; 32; 0] -/
  value      : W32 := 0
  /-- State [R351; 2; 0 PENDING] -/
  state      : FenceState := .pending
  /-- Code of the break [R351, R356; 16; 0] -/
  code       : Nat := 0
  /-- Record sequence [R356; 8; 0] -/
  seq        : BitVec 8 := 0
  /-- Low 32 bits of the tide at the last change [R356; 32; choice 0 (2)] -/
  tide       : Nat := 0
  /-- origin_slot and origin_code [R356; 16 + 16; choice 0 (2)] -/
  originSlot : Nat := 0
  originCode : Nat := 0
  deriving DecidableEq, Repr

/-! ### Tide (chapter 02) -/

inductive Phase where
  | stopped | flood | slack | ebb
  deriving DecidableEq, Repr

structure Tide where
  /-- TIDE_CTRL.cfg_reject [R51; 1; 0] -/
  cfgReject   : Bool := false
  /-- TIDE_CTRL.run [R51; 1; 0] -/
  run         : Bool := false
  /-- TIDE_PERIOD.spill_limit [R51; 4; 0x3] -/
  spillLimit  : BitVec 4 := 3
  /-- TIDE_PERIOD.ebb_pct [R51; 4; 0x6] -/
  ebbPct      : BitVec 4 := 6
  /-- TIDE_PERIOD.slack_pct [R51; 5; 0x08] -/
  slackPct    : BitVec 5 := 8
  /-- TIDE_PERIOD.period_units [R51; 6; 0x03] -/
  periodUnits : BitVec 6 := 3
  /-- TIDE_ROLE.backup_rank [R51; 2; 0] -/
  backupRank  : BitVec 2 := 0
  /-- TIDE_ROLE.role [R51; 2; 0] -/
  role        : BitVec 2 := 0
  /-- TIDE_STATUS.generation [R51; 16; 0] -/
  generation  : BitVec 16 := 0
  /-- TIDE_STATUS.offset_ns [R51; 8; 0] -/
  offsetNs    : BitVec 8 := 0
  /-- TIDE_STATUS.hops [R51; 2; 0] -/
  hops        : BitVec 2 := 0
  /-- TIDE_STATUS.unlocked [R51; 1; 0] -/
  unlocked    : Bool := false
  /-- TIDE_STATUS.holdover [R51; 1; 0] -/
  holdover    : Bool := false
  /-- TIDE_STATUS.locked [R51; 1; 0] -/
  locked      : Bool := false
  /-- TIDE_STATUS.src_rank [R51; 1; 0] -/
  srcBackup   : Bool := false
  /-- Tide number [R53; 64; 0] -/
  number      : Nat := 0
  /-- TIDE_NUMBER_HI as latched [R51; 32; 0] -/
  numberHi    : W32 := 0
  /-- A tide has been run since reset [R56; 1; 0] -/
  ranAny      : Bool := false
  /-- Phase; stopped while TIDE_STATUS.running is 0 [R48, R55; -; stopped] -/
  phase       : Phase := .stopped
  /-- Waiting for a first valid beacon [R56; 1; 0] -/
  waiting     : Bool := false
  /-- This device is the beacon source, and its rank [R57, R63; 1 + 2; 0] -/
  source      : Bool := false
  srcRank     : Nat := 0
  /-- Port on which the last beacon accepted came [R58; -; none] -/
  srcPort     : Option Nat := none
  /-- Port towards the source whose beacon a waiting device has met and not accepted [R56; -; none] -/
  towards     : Option Nat := none
  /-- Beacons forwarded: 4 × generation + source rank, and the highest tide number forwarded of it [R57; -; none] -/
  relayed     : Tab Nat := []
  /-- A beacon was accepted at this tide's boundary [R61; 1; 0] -/
  gotBeacon   : Bool := false
  /-- It came of a source that a backup backs up: the master, and for rank 2 also backup 1 [R63; 1; 0] -/
  gotAbove    : Bool := false
  /-- Consecutive boundaries before this one without such a beacon [R63; -; 0] -/
  missed      : Nat := 0
  /-- Highest next-tide number reported to the source [R56; 64; 0] -/
  reported    : Nat := 0
  /-- Offset still to be slewed out, in ns [R62; -; 0] -/
  slew        : Int := 0
  /-- ns by which the current ebb is lengthened [R62; -; 0] -/
  ebbExtra    : Nat := 0
  /-- Started in neap service, so runs as standalone until restarted [R56, R607; 1; 0] -/
  neapTimer   : Bool := false
  /-- Ebbs since reset, for R421 [R421; -; 0] -/
  ebbs        : Nat := 0
  /-- Current verification epoch of the tide [R423; -; 0] -/
  epoch       : Nat := 0
  /-- Verified-through epoch of each hub [R423; -; 0] -/
  verified    : List Nat := [0, 0, 0, 0]
  /-- Actions 5 to 7 of this ebb wait for its snapshot freezes [R41; 1; 0] -/
  ebbRest     : Bool := false
  /-- Slack used by steps, counted by Dikewatch [R69; -; 0] -/
  slackUses   : Nat := 0
  deriving DecidableEq, Repr

/-! ### Tiles and seams (chapters 01, 04, 16, 18) -/

structure Tile where
  /-- In service: ID_TILES bit [R633; 1; 0] -/
  inService : Bool := false
  /-- Its rim is powered and out of reset: it forwards mesh traffic and presents its hub seams, whatever its core rail [R24, R388; 1; 0] -/
  rim       : Bool := false
  /-- Being drained [R286; 1; 0] -/
  draining  : Bool := false
  /-- Drained out of service by DRAIN_TILE or Dikewatch [R287; 1; 0] -/
  drained   : Bool := false
  /-- Returns to service at the next ebb [R327; 1; 0] -/
  returning : Bool := false
  /-- OP_STATUS.current [R609; 2; 0] -/
  current   : Nat := 0
  /-- OP_STATUS.requested [R609; 2; 0] -/
  requested : Nat := 0
  /-- OP_STATUS.busy [R609; 1; 0] -/
  busy      : Bool := false
  /-- Core-rail set point in mV [R592, R597; -; 550] -/
  millivolts : Nat := 550
  /-- Physical cluster behind each logical cluster 0 to 7 [R121, R269; 4 each; 0 to 7] -/
  clusters  : List Nat := [0, 1, 2, 3, 4, 5, 6, 7]
  /-- Spare scratchpad banks in use, of 64 [R525; 7; 0] -/
  spareBanks : Nat := 0
  /-- Corrected reads of scratchpad banks: bank and tide [R525; -; none] -/
  bankReads : List (Nat × Nat) := []
  /-- Class-P meter in ns, and whether spent in this tide [R77; -; 0] -/
  meter     : Nat := 0
  spent     : Bool := false
  /-- A scrub is due before another tenant's steps start [R556; 1; 0] -/
  dirty     : Option (List Nat) := none
  /-- Highest 1 ms core-rail power over the last 1,024 tides, in mW, by tide [R599; -; none] -/
  peaks     : List (Nat × Nat) := []
  /-- Newest core-rail power readings in mW, ten at most, newest first [R599; -; none] -/
  window    : List Nat := []
  /-- Points it is lowered by under the cap, and by heat [R601, R602; 2 each; 0] -/
  lowered   : Nat := 0
  heat      : Nat := 0
  /-- Rail above its 1 ms maximum on consecutive readings [R626; 2; 0] -/
  overReads : Nat := 0
  /-- Matrix clusters issue on alternate cycles [R602; 1; 0] -/
  gated     : Bool := false
  deriving DecidableEq, Repr

structure Seam where
  /-- Out of service [R26; 1; 0] -/
  down    : Bool := false
  /-- Consecutive failures of the same flit, by direction [R26; 3 each; 0] -/
  fails   : Nat × Nat := (0, 0)
  /-- Flit sequence numbers, the nonces of the seam keys, by direction: of the last flit known to have been sent [R25; 64 each; 0] -/
  seqs    : Nat × Nat := (0, 0)
  /-- Routes avoid it [R26; 1; 0] -/
  rerouted : Bool := false
  deriving DecidableEq, Repr

/-! ### Hubs: arbiters, frames, protection (chapters 11, 12) -/

/-- One arbiter's set-up and flags: unit 0 to 3 a hub, 8 to 55 a port (R390). -/
structure Arbiter where
  /-- ARB_REQ_CFG of each requester differing from its reset: class, tickets [R390, R391; 2 + 8; R391] -/
  cfg     : Tab (Option (Nat × Nat)) := []
  /-- ARB_THRESH [R390; 16; 0x00FA] -/
  thresh  : BitVec 16 := 0xFA
  /-- ARB_S_SHARE [R390; 5; 0x0F] -/
  sShare  : BitVec 5 := 0xF
  /-- ARB_STARVE_LO, _HI and _AG: flags of requesters 0 to 68 [R390; 69; 0] -/
  starve  : List Nat := []
  /-- ARB_LFSR [R390; 31; 0x2A5A_5A5A] -/
  lfsr    : BitVec 31 := 0x2A5A5A5A
  /-- Agents out of reset, requesters 64 to 68 [R388, R390; 5; 0] -/
  agents  : BitVec 5 := 0
  /-- Allowance meter of each plan slot, in 1/1,600 of a byte [R385; -; choice 0 (49)] -/
  meters  : Tab Nat := []
  /-- Service meter, in 1/1,600 of a byte [R385; -; choice 0 (49)] -/
  service : Nat := 0
  /-- Requester served last at each level, for the round robin [R385; 7; choice 68 (49)] -/
  turns   : Tab Nat := []
  /-- Requester of the last grant, and grants made [R385, R386; 7 + 64; none, 0] -/
  granted : Option Nat := none
  grants  : Nat := 0
  deriving DecidableEq, Repr

/-- A 1 GiB protection region (R30, R394). -/
structure MemRegion where
  /-- Binding: context slot, domain, read-only kind; none while free [R394; -; none] -/
  bound     : Option (Nat × Nat × Bool) := none
  /-- Generation [R400; 32; 0] -/
  generation : Nat := 0
  /-- Memory key identifier [R396; 12; 0 system] -/
  key       : Nat := 0
  /-- Identifier a re-encryption sweep moves it to [R414; 12; none] -/
  sweepTo   : Option Nat := none
  /-- Major mark [R407; 32; 0] -/
  majorMark : Nat := 0
  /-- Quarantined [R426; 1; 0] -/
  quarantine : Bool := false
  /-- Frames of it assigned to pages, copies or keeper slots [R394; -; none] -/
  frames    : List Nat := []
  /-- Frame epochs of a read-only region [R412; 16 each; 0 blank] -/
  epochs    : Tab Nat := []
  /-- Frames of a read-only region that a sweep under way has re-encrypted [R414; 1 each; none] -/
  swept     : List Nat := []
  deriving DecidableEq, Repr

/-- A counter block (R404): its major, its minors and the identifier its granules are encrypted under. -/
structure CounterBlock where
  /-- major [R404; 32; 0] -/
  major  : Nat := 0
  /-- minors of granules 0 to 63 [R404; 7 each; 0 unwritten] -/
  minors : Tab Nat := []
  /-- key_id [R404; 12; 0] -/
  key    : Nat := 0
  deriving DecidableEq, Repr

inductive KeyState where
  | free | active | retiring | quarantine
  deriving DecidableEq, Repr

/-- A memory key identifier, 1 to 4,095 (R396, R417). -/
structure KeyId where
  /-- State [R417; 2; FREE] -/
  state   : KeyState := .free
  /-- Binding it belongs to [R396; -; none] -/
  binding : Option (Nat × Nat × Bool) := none
  /-- Allocation serial [R396; 64; 0] -/
  serial  : Nat := 0
  /-- Eligible for retirement [R416, R417; 1; 0] -/
  eligible : Bool := false
  /-- Ebb at which its retirement began [R421; -; 0] -/
  began   : Nat := 0
  deriving DecidableEq, Repr

/-- A poisoned or unusable granule (R381, R384, R426, R428). -/
structure BadLine where
  /-- Code a read of it meets: ECC_UNCORRECTABLE, SHARED_POISON, INTEGRITY_ALARM or TREE_LOST [R381; 16; -] -/
  code    : Nat := 0
  /-- Reads of it are held for a repair [R382; 1; 0] -/
  holding : Bool := false
  /-- Runs and contexts with a held read [R382; -; none] -/
  runs    : List Nat := []
  ctxs    : List Nat := []
  deriving DecidableEq, Repr

/-- A row of a stack (R368, R377): the stack of the device, its channel and pseudo-channel, and a bank's row. -/
structure DramRow where
  /-- stack [R28; 5; -] -/
  stack   : Nat := 0
  /-- channel [R368; 5; -] -/
  channel : Nat := 0
  /-- pseudo-channel [R368; 1; -] -/
  pseudo  : Nat := 0
  /-- bank and row of the hub's arrangement [R368; -; -] -/
  bank    : Nat := 0
  row     : Nat := 0
  deriving DecidableEq, Repr

structure Hub where
  /-- Trained and in service [R605; 1; 0] -/
  up        : Bool := false
  /-- Pool frames taken of 2,048 [R378; 12; 0] -/
  poolUsed  : Nat := 0
  /-- Frames being copied into the pool [R378; -; none] -/
  copying   : List Nat := []
  /-- Redirect table: frames served from the pool [R378; -; none] -/
  redirect  : List Nat := []
  /-- Frames retired because the pool is spent [R379; -; none] -/
  retired   : List Nat := []
  /-- Ranges on the loss list, of 4,096 [R428; -; 0] -/
  losses    : Nat := 0
  /-- Corrected reads of rows: row, frame read, tide [R375, R377; -; none] -/
  rowErrors : List (DramRow × Nat × Nat) := []
  /-- Rows repaired softly, to be made permanent [R377; -; none] -/
  softRows  : List DramRow := []
  /-- Rows repaired permanently, at a bring-up into spring service [R377; -; none] -/
  hardRows  : List DramRow := []
  /-- Stacks with doubled refresh [R621; 6; none] -/
  refresh2x : List Nat := []
  /-- Scrub passes completed [R376; -; 0] -/
  scrubs    : Nat := 0
  /-- Counter cache, newest first: level 0 to 2, line key, dirty; at most 524,288 lines [R17, R410; 32 MiB; none] -/
  cache     : List (Nat × Nat × Bool) := []
  /-- System structures of which one copy was rebuilt [R429; -; 0] -/
  rebuilt   : Nat := 0
  deriving DecidableEq, Repr

/-- A scale-table entry (R162, R164). -/
structure ScaleEntry where
  /-- In use by a plan [R163; 1; 0] -/
  used     : Bool := false
  /-- hist_len_m1 + 1 [R164; 10; choice 1 (2)] -/
  len      : Nat := 1
  /-- margin [R164; 4; choice 0 (2)] -/
  margin   : Nat := 0
  /-- policy [R164; 2; choice 0 (2)] -/
  policy   : Nat := 0
  /-- format [R164; 4; choice 0 (2)] -/
  format   : Nat := 0
  /-- fill [R164; 11; 0] -/
  fill     : Nat := 0
  /-- head [R164; 10; 0] -/
  head     : Nat := 0
  /-- The ring of slots [R162; 8 each; choice 0 (2)] -/
  ring     : Tab Nat := []
  /-- Pending list: run and code, in step order [R165; -; none] -/
  pending  : List (Nat × Nat) := []
  /-- context slot, tensor [R164; 16 + 32; choice 0 (2)] -/
  ctx      : Nat := 0
  tensor   : Nat := 0
  /-- coarse [R164; 32; choice 0 (2)] -/
  coarse   : W32 := 0
  /-- last_step [R164; 64; choice 0 (2)] -/
  lastStep : Nat := 0
  deriving DecidableEq, Repr

/-! ### Deep tier (chapter 13) -/

inductive ExtState where
  | free | empty | filling | settling | resting | promoting | resident | lost
  deriving DecidableEq, Repr

/-- An extent: its map entry (R436), copy and requests (R444). -/
structure Extent where
  /-- state [R436, R442; 4; 0 FREE] -/
  state      : ExtState := .free
  /-- t1_compressed [R436; 1; 0] -/
  compressed : Bool := false
  /-- complete [R436; 1; 0] -/
  complete   : Bool := false
  /-- References, by plan slot, one entry each; refs is their number [R436, R443; 6; none] -/
  refs       : List Nat := []
  /-- context slot [R436; 12; 0] -/
  ctx        : Nat := 0
  /-- owner_slot [R436; 8; 0] -/
  owner      : Nat := 0
  /-- Settlement serial [R436, R441; 32; 0] -/
  serial     : Nat := 0
  /-- stored_units [R436; 11; 0] -/
  stored     : Nat := 0
  /-- superblock and start_slot [R436; 21 + 25; 0] -/
  superblock : Nat := 0
  startSlot  : Nat := 0
  /-- Stored contents, by byte offset in the extent's range [R439; -; none] -/
  contents   : List Host.Cell := []
  /-- Frames of its T1 copy [R434; 21 each; none] -/
  copy       : List Nat := []
  /-- 64-byte units written since FILLING began [R436; -; none] -/
  covered    : List Nat := []
  /-- Plans that hold it (R435) [R435; -; none] -/
  plans      : List Nat := []
  /-- Queued releases, by plan slot [R444; -; none] -/
  releases   : List Nat := []
  /-- The last plan was unloaded; freed when settlement and stages end [R444; 1; 0] -/
  freeing    : Bool := false
  /-- STAGE commands whose fence waits for its settlement: queue and command number [R451; -; none] -/
  stagers    : List (Nat × Nat) := []
  /-- Tide of its last use [R361; 64; 0] -/
  lastUse    : Nat := 0
  /-- The epoch that its settlement's writes to the deep tier wait for at the sluice's egress gate [R39, R424; 16; none] -/
  gate       : Option Nat := none
  deriving DecidableEq, Repr

/-- A superblock of one hub (R455). -/
structure Superblock where
  /-- Written: holds or has held programmed slots [R457; 1; 0] -/
  written   : Bool := false
  /-- Block taken in each plane [R455; -; none] -/
  blocks    : List Nat := []
  /-- Slots programmed, and of them valid [R457; -; 0] -/
  slots     : Nat := 0
  valid     : Nat := 0
  /-- Extents with their slots here [R455; -; none] -/
  extents   : List Nat := []
  /-- Page reads of its blocks since the last erase [R460; -; 0] -/
  reads     : Nat := 0
  deriving DecidableEq, Repr

structure Flash where
  /-- Trained geometry; no stored capacity without channels [R453, R454; -; none] -/
  geom     : FlashGeom := {}
  /-- Superblocks by number [R455; -; none] -/
  supers   : Tab Superblock := []
  /-- Open staging and relocation superblocks [R455; -; none] -/
  openStage : Option Nat := none
  openReloc : Option Nat := none
  /-- Next superblock number [R455; 21; 0] -/
  nextSuper : Nat := 0
  /-- Erase counts by plane × 2^24 + block [R459; 24; choice 0 (2), kept across reset R437] -/
  erases   : Tab Nat := []
  /-- Bad and retired blocks by plane × 2^24 + block [R459, R462; -; none] -/
  bad      : List Nat := []
  /-- Blocks in use by a superblock [R455; -; none] -/
  inUse    : List Nat := []
  /-- Worn until reset [R459; 1; 0] -/
  worn     : Bool := false
  /-- Blocks marked suspect by a REFCLK loss [R589; -; none] -/
  suspect  : List Nat := []
  /-- Serial counter of settlements [R441; 32; 0] -/
  serial   : Nat := 0
  /-- Sluice queue: extents waiting for promotion, by need tide [R445; -; none] -/
  sluice   : List (Nat × Nat) := []
  deriving DecidableEq, Repr

/-! ### Fabric (chapter 14) -/

structure Port where
  /-- FAB_PORT_CFG.max_rate [R500; 2; 0] -/
  maxRate  : BitVec 2 := 0
  /-- FAB_PORT_CFG.enable [R500; 1; 0] -/
  enable   : Bool := false
  /-- FAB_PORT_STATUS.state [R500; 3; 0 off] -/
  state    : Nat := 0
  /-- FAB_PORT_STATUS.far_address [R500; 10; 0] -/
  farAddr  : Nat := 0
  /-- FAB_PORT_STATUS.far_port [R500; 6; 0] -/
  farPort  : Nat := 0
  /-- Retrains by tide, for FAB_PORT_STATUS.retrains [R500; 4; 0] -/
  retrains : List Nat := []
  /-- Spare lanes in use, for FAB_PORT_STATUS.spares [R500; 2; none] -/
  spares   : List Nat := []
  /-- FAB_PORT_STATUS.half [R500; 1; 0] -/
  half     : Bool := false
  /-- FAB_PORT_STATUS.rate [R500; 2; 0] -/
  rate     : BitVec 2 := 0
  /-- Failing lanes [R468; 8; none] -/
  badLanes : List Nat := []
  /-- Far end's spare map [R468; 32; choice 0xFFFF_FFFF (2)] -/
  farSpares : W32 := 0xFFFFFFFF
  /-- Hop key in the link engine [R478; 256; none] -/
  hopKey   : Option (List Byte) := none
  /-- Measured one-way delay in ns [R59; -; 0] -/
  delayNs  : Nat := 0
  /-- FAB_DOWN bit [R500; 1; 0] -/
  downFlag : Bool := false
  deriving DecidableEq, Repr

inductive GroupState where
  | free | opening | opened | closing
  deriving DecidableEq, Repr

/-- A group slot (R483). -/
structure Group where
  /-- State [R483; -; free] -/
  state   : GroupState := .free
  /-- Generation of the handle [R483; 22; 0] -/
  generation : Nat := 0
  /-- group_id [R483; 64; choice 0 (2)] -/
  groupId : Nat := 0
  /-- Rank list: fabric addresses [R483; 10 each; none] -/
  ranks   : List Nat := []
  /-- This device's rank [R483; 10; choice 0 (2)] -/
  rank    : Nat := 0
  /-- Context slot that opened it [R486; 12; choice 0 (2)] -/
  ctx     : Nat := 0
  /-- Group nonce [R485; 64; choice 0 (2)] -/
  nonce   : Nat := 0
  /-- Link job key [R480; 256; none] -/
  key     : Option (List Byte) := none
  /-- Ranks that have matched, at rank 0 [R485; -; none] -/
  matched : List Nat := []
  /-- GROUP_OPEN awaiting its outcome: queue and command [R485; -; none] -/
  cmd     : Option (Nat × Cmd) := none
  deriving DecidableEq, Repr

/-- A packet awaiting its end-to-end acknowledgement (R477). -/
structure Unacked where
  /-- Destination, sequence and sends so far [R477; 10 + 64 + -; 0] -/
  dst   : Nat := 0
  seq   : Nat := 0
  sends : Nat := 0
  /-- The key it is sealed under, by the number `keyOfMsg` gives it [R477, R481; -; none] -/
  key   : Nat := 0
  /-- The context slot it was sent for, and what it carried [R477; -; none] -/
  ctx   : Nat := 0
  msg   : Option FabMsg := none
  deriving DecidableEq, Repr

/-- One entry of a fabric die's routing table (R473). -/
structure Route where
  /-- Ports that start a minimal route [R473; 48; none] -/
  minimal    : List Nat := []
  /-- Ports that start a non-minimal route [R473; 48; none] -/
  nonMinimal : List Nat := []
  deriving DecidableEq, Repr

structure Fabric where
  /-- FAB_ID.address [R500; 10; 0] -/
  address  : BitVec 10 := 0
  /-- FAB_HARBOUR [R500; 32; 0] -/
  harbour  : W32 := 0
  /-- FAB_CTRL.cfg_reject [R500; 1; 0] -/
  cfgReject : Bool := false
  /-- FAB_CTRL.train [R500; 1; 0] -/
  train    : Bool := false
  /-- FAB_SPARE_MAP0 to FAB_SPARE_MAP3 [R500; 32 each; 0xFFFF_FFFF] -/
  spareMap : Tab W32 := []
  /-- Ports 0 to 47 [R464; -; off] -/
  ports    : Tab Port := []
  /-- Ports go down at the next ebb [R500; 1; 0] -/
  dropAtEbb : Bool := false
  /-- Routing tables of the fabric dies by address [R473; -; none] -/
  routes   : Tab Route := []
  /-- Addresses to which classes P and S keep to a non-minimal route [R475; 10 each; none] -/
  detoured : List Nat := []
  /-- A link changed state since the last rewrite [R473; 1; 0] -/
  linkChange : Bool := false
  /-- Links of other devices learned from handshakes: address and far address [R473; -; none] -/
  known    : List (Nat × Nat) := []
  /-- Harbour key in the link engines [R479; 256; none] -/
  harbourKey : Option (List Byte) := none
  /-- Group slots 0 to 1,023 [R483; -; free] -/
  groups   : Tab Group := []
  /-- Packets awaiting acknowledgement, by number [R477; -; none] -/
  unacked  : Tab Unacked := []
  /-- Sequences accepted, by key and origin, within the window of 65,536 [R477, R481; -; none] -/
  seen     : List (Nat × Nat × Nat) := []
  /-- Next sequence by 1,024 × key + destination [R481; 64; 1] -/
  nextSeq  : Tab Nat := []
  /-- Credits that have come for collectives not yet issued here: group identity, step, operation, origin [R490; -; none] -/
  credits  : List (Nat × Nat × Nat × Nat) := []
  /-- Group requests that came before this device's own open: origin and request [R485; -; none] -/
  early    : List (Nat × GroupControl) := []
  /-- Tag failures and refusals counted for Dikewatch [R482, R489; -; 0] -/
  tagFails : Nat := 0
  refusals : Nat := 0
  deriving DecidableEq, Repr

/-! ### Resilience (chapter 15) -/

/-- One Dikewatch event: tide, input code, die (or the stack, for input 0) and amount (R502). -/
structure DwEvent where
  tide   : Nat
  input  : Nat
  die    : Nat
  amount : Nat
  deriving DecidableEq, Repr

structure Dikewatch where
  /-- DW_SCORE.score [R505; 10; 0] -/
  score     : Nat := 0
  /-- DW_SCORE.level [R505; 2; 0] -/
  level     : Nat := 0
  /-- DW_SCORE.top_input [R505; 4; 0] -/
  topInput  : Nat := 0
  /-- DW_SCORE.top_die [R505; 8; 0] -/
  topDie    : Nat := 0
  /-- DW_THRESH.evacuate, secure, watch [R505; 10 each; 0x380, 0x280, 0x180] -/
  evacuate  : BitVec 10 := 0x380
  secure    : BitVec 10 := 0x280
  watch     : BitVec 10 := 0x180
  /-- DW_IN_CFG by input: saturation, weight [R505; 16 + 10; R502] -/
  cfg       : Tab (Option (Nat × Nat)) := []
  /-- DW_EVENT.system_lost, evacuated, level_up [R505; 1 + 1 + 3; 0] -/
  systemLost : Bool := false
  evacuated : Bool := false
  levelUp   : BitVec 3 := 0
  /-- Events of the last 1,024 tides [R502; -; none] -/
  events    : List DwEvent := []
  /-- Block scores by die encoding [R503, R505; 10; 0] -/
  blocks    : Tab Nat := []
  /-- Corrected-symbol rate of each port in 1/256 of 2^−12 [R502; -; 0] -/
  fecMargin : Tab Nat := []
  /-- Hottest junction by die encoding, in °C [R502, R602; -; 0] -/
  temps     : Tab Nat := []
  /-- Tide in which the evacuate level was entered [R521; 64; none] -/
  evacSince : Option Nat := none
  /-- Pilot-core faults, which count as spare usage [R527; -; 0] -/
  pilotFaults : Nat := 0
  /-- Waits of steps on a promotion [R448; -; 0] -/
  promotionWaits : Nat := 0
  /-- Hubs whose board does not conform [R454; 4; none] -/
  nonConforming : List Nat := []
  /-- Times this device, a beacon source, yielded to a higher generation [R64; -; 0] -/
  yielded   : Nat := 0
  /-- The device has stopped for a lost system structure [R528; 1; 0] -/
  stopped   : Bool := false
  deriving DecidableEq, Repr

inductive SlotState where
  | empty | filling | drained | complete
  deriving DecidableEq, Repr

/-- One of a keeper's two slots for a source (R508). -/
structure KeeperSlot where
  /-- State [R508; -; EMPTY] -/
  state      : SlotState := .empty
  /-- Generation it holds [R512; 64; choice 0 (2)] -/
  generation : Nat := 0
  /-- Sealed units that have arrived [R508; -; none] -/
  units      : Tab (List Byte) := []
  /-- Frames charged to the keeper context [R508; 21 each; none] -/
  frames     : List Nat := []
  deriving DecidableEq, Repr

/-- A source a context keeps for (R506). -/
structure Keeping where
  source    : Nat
  sourceCtx : Nat
  bound     : Bool
  /-- Mirror of its read-only data, by the source's physical address [R509; -; none] -/
  mirror    : List Host.Cell := []
  slotA     : KeeperSlot := {}
  slotB     : KeeperSlot := {}
  deriving DecidableEq, Repr

/-- A context's haven binding as a source, and the sources it keeps for (R506). -/
structure Haven where
  /-- Partner's fabric address and context tag [R507; 10 + 16; none] -/
  partner    : Option (Nat × Nat) := none
  /-- mirror_ro [R507; 1; 0] -/
  mirrorRo   : Bool := false
  /-- Designated spare [R507; 10; none] -/
  spare      : Option Nat := none
  /-- Both sides have bound each other [R506; 1; 0] -/
  bound      : Bool := false
  /-- HAVEN_BIND or HAVEN_UNBIND command awaiting its outcome [R506, R507; -; none] -/
  cmd        : Option (Nat × Cmd) := none
  /-- Sources this context keeps for [R506; -; none] -/
  keeps      : List Keeping := []
  /-- Partner sides that bound before this one did [R506; -; none] -/
  offers     : List (Nat × Nat) := []
  /-- Generation frozen and draining, and whether its fill is done [R514, R515; 64; none] -/
  draining   : Option Nat := none
  /-- The shard frozen for that drain [R512; -; none] -/
  shard      : Option Shard := none
  /-- Frozen in this ebb: its drain starts in action 7 [R41; 1; 0] -/
  drainDue   : Bool := false
  /-- RESTORE under way: queue, command, shard [R523; -; none] -/
  restoring  : Option (Nat × Cmd × Shard) := none
  /-- TAKEOVER under way: queue and command [R519; -; none] -/
  takeover   : Option (Nat × Cmd) := none
  deriving DecidableEq, Repr

/-- A job (R511), numbered by its group slot, or 1,024 + context slot for a context alone. -/
structure Job where
  /-- Schedule installed, its interval and first tide [R511; 32 + 64; none] -/
  scheduled : Bool := false
  interval  : Nat := 0
  nextTide  : Nat := 0
  /-- SNAPSHOT awaiting the ranks: queue and command [R511; -; none] -/
  scheduling : Option (Nat × Cmd) := none
  /-- Ranks that hold the schedule it sent [R511; -; none] -/
  holders   : List Nat := []
  /-- The next allowed boundary is a candidate [R513; 1; 0] -/
  candidate : Bool := false
  /-- A secure-now request came too late for the next boundary; the one after is a candidate [R513, R529; 1; 0] -/
  candidateAfter : Bool := false
  /-- Progress fence: the queue that named it and its slot [R511; 12 + 16; none] -/
  progress  : Option (Nat × Nat) := none
  /-- Votes at this candidate, at the coordinator: rank and freeze [R513; -; none] -/
  votes     : List (Nat × Bool) := []
  /-- This rank's vote, until its decision comes [R513; 1; none] -/
  vote      : Option Bool := none
  /-- The decision to freeze is held while a class-P step of the job runs [R514; 1; 0] -/
  freezing  : Bool := false
  /-- Generation draining [R515; 64; none] -/
  current   : Option Nat := none
  /-- This rank reported it DRAINED [R515; 1; 0] -/
  drained   : Bool := false
  /-- Newest generation held as a restore point [R516; 64; none] -/
  restore   : Option Nat := none
  /-- Held by an evacuation [R521; 1; 0] -/
  held      : Bool := false
  /-- Ranks replaced by a takeover, for the coordinator rule [R511; -; none] -/
  lost      : List Nat := []
  /-- A substitution has come; the job is rolled back to this generation at the next ebb [R520; 64; none] -/
  substituted : Option Nat := none
  deriving DecidableEq, Repr

/-! ### Trust (chapters 16, 17) -/

inductive CharterState where
  | empty | keying | active | closing
  deriving DecidableEq, Repr

structure Release where
  tensor     : Nat
  digest     : Nat
  form       : Nat
  recipients : Nat
  deriving DecidableEq, Repr

/-- A charter slot (R541 to R545). -/
structure Charter where
  /-- State [R545; -; EMPTY] -/
  state    : CharterState := .empty
  /-- Charter digest [R542; 512; none] -/
  digest   : List Byte := []
  /-- nonce [R541; 64; choice 0 (2)] -/
  nonce    : Nat := 0
  /-- Owner public keys [R542; 256 each; none] -/
  owners   : List (List Byte) := []
  /-- Permitted module digests [R542; 512 each; none] -/
  digests  : List (List Byte) := []
  /-- Contributions: tensor, digest index, owner [R542; -; none] -/
  contribs : List (Nat × Nat × Nat) := []
  /-- Releases [R542; -; none] -/
  releases : List Release := []
  /-- module_signers [R541; 16; choice 0 (2)] -/
  signers  : Nat := 0
  /-- min_measure; none when all zero [R541; 512; none] -/
  minMeasure : Option (List Byte) := none
  /-- Owner domain keys delivered [R547; 256 each; none] -/
  keys     : Tab (List Byte) := []
  /-- Charter domain key [R538; 256; none] -/
  kChr     : Option (List Byte) := none
  /-- Highest seq accepted from each owner [R554; 64; 0] -/
  seqIn    : Tab Nat := []
  /-- Outgoing seq to each owner [R554; 64; 1] -/
  seqOut   : Tab Nat := []
  /-- Held by a measurement mismatch [R536; 1; 0] -/
  held     : Bool := false
  deriving DecidableEq, Repr

/-- A debug certificate in force (R574, R577). -/
structure DebugCert where
  owner   : Bool
  rights  : W32
  charter : List Byte
  key     : List Byte
  deriving DecidableEq, Repr

/-- Instructions of the JTAG port (R564, R575, R579). -/
inductive JtagInstr where
  | bypass | idcode
  /-- IEEE 1149.1 boundary scan, under BSCAN. -/
  | samplePreload | extest | clamp
  /-- Those of the other vendor rights. -/
  | fwDebug | trace | fuseRead | memTest | returnRead
  deriving DecidableEq, Repr

structure LifeCycle where
  /-- Ones in the three physical rows of intent flags I_1 to I_5 [R566; 64 each; fused 0, choice (11)] -/
  intents   : Tab (List Nat) := []
  /-- Ones in the three physical rows of commit flags C_1 to C_5 [R566; 64 each; fused 0, choice (11)] -/
  commits   : Tab (List Nat) := []
  /-- Root banks: field A, field B, return A, return B: 0 unprogrammed, 1 partial, 2 valid, 3 destroyed [R567; -; choice 0 (11)] -/
  banks     : Tab Nat := []
  /-- Draw numbers of the roots programmed [R567; -; choice 0 (11)] -/
  roots     : Tab Nat := []
  /-- Provisioning root and UDS destroyed [R568; 1 each; 0] -/
  provGone  : Bool := false
  udsGone   : Bool := false
  /-- Token digests, provisioning root fused; FIELD DeviceID signature fused [R568; 1 each; choice 0 (11)] -/
  tokensFused : Bool := false
  sigFused  : Bool := false
  /-- LC_STATE.state as selected at the last reset [R573; 3; Fused, choice 0 BLANK (11)] -/
  state     : Nat := 0
  /-- LC_STATE.pending [R573; 1; 0] -/
  pending   : Bool := false
  /-- LC_STATE.fuse_fault [R573; 1; Fused, 0] -/
  fuseFault : Bool := false
  /-- LC_STATE.token_fails [R573; 4; 0] -/
  tokenFails : Nat := 0
  /-- Requests not accepted for 100 ms [R569; 1; 0] -/
  lockout   : Bool := false
  /-- LC_STATUS.busy [R573; 1; 0] -/
  busy      : Bool := false
  /-- LC_STATUS.code [R573; 16; 0] -/
  code      : BitVec 16 := 0
  /-- Transition under way [R570; 3; none] -/
  transition : Option Nat := none
  /-- LC_BOOTCOUNT.boots [R573; 11; Fused, choice 0 (11)] -/
  boots     : Nat := 0
  /-- The counter was advanced in this boot [R576; 1; 0] -/
  advanced  : Bool := false
  /-- Draw number of the boot's challenge, LC_CHALLENGE0 to 7 [R573; 256; Drawn at reset] -/
  challenge : Nat := 0
  /-- LC_DATA words [R573; 32 each; 0] -/
  data      : Tab W32 := []
  /-- Certificates in force [R576; -; none] -/
  certs     : List DebugCert := []
  /-- Instruction of the JTAG port [R579; -; choice BYPASS (60)] -/
  jtag      : JtagInstr := .bypass
  /-- EXTEST drives the outputs [R575; 1; 0] -/
  driven    : Bool := false
  /-- Rights of the certificates that measurement block 28 holds, renewed at the ebb [R578; 32; 0] -/
  measured  : W32 := 0
  deriving DecidableEq, Repr

structure Trust where
  /-- Charter slots 0 to 255 [R545; -; EMPTY] -/
  charters  : Tab Charter := []
  /-- Queues whose head command waits for a key slot, by engine class [R539; -; none] -/
  keyWaits  : List (Nat × Nat) := []
  /-- Opening serial of the next context [R538; 64; choice 0 (2)] -/
  openSerial : Nat := 0
  /-- Allocation serial of the next identifier [R396; 64; choice 0 (2)] -/
  allocSerial : Nat := 0
  /-- Measurement digests by block 1 to 30 [R534; 512 each; images] -/
  measures  : Tab (List Byte) := []
  /-- SPDM version negotiated and secure sessions open [R535; -; none] -/
  spdmReady : Bool := false
  sessions  : List Nat := []
  /-- IDE streams with keys: link, stream, key set [R293; -; none] -/
  ide       : List (Nat × Nat × Nat) := []
  /-- Of these, the key sets in use [R293; -; none] -/
  ideLive   : List (Nat × Nat × Nat) := []
  deriving DecidableEq, Repr

/-! ### Power, errors, management (chapters 18, 20, 21) -/

structure Power where
  /-- PWR_CAP.cap_w as written; none while at the bin's design power [R609; 13; 4,200 or 4,800] -/
  cap        : Option Nat := none
  /-- Device power in mW at the last reading [R599; -; choice 0 (2)] -/
  powerMw    : Nat := 0
  /-- Sum and number of the readings of the present tide, and of the present second [R560, R601; -; 0] -/
  tideSum    : Nat × Nat := (0, 0)
  secSum     : Nat × Nat := (0, 0)
  /-- Sum and number of the hottest-junction reports of the present second [R560; -; 0] -/
  tempSum    : Nat × Nat := (0, 0)
  /-- Sums of the present second by sensor of R648: rails 2 to 29 in mW, dies 32 to 56 and stacks 64 to 87 in °C [R560; -; 0] -/
  sums       : Tab Nat := []
  /-- Their last 1 s averages, in W floored to 5 and in °C [R560, R648; -; 0] -/
  means      : Tab Nat := []
  /-- PWR_STATUS.power_w [R609; 13; 0] -/
  powerW     : Nat := 0
  /-- PWR_STATUS.temp_c [R609; 8; 0] -/
  tempC      : Nat := 0
  /-- PWR_STATUS.cap_active [R609; 1; 0] -/
  capActive  : Bool := false
  /-- PWR_STATUS.thermal_active [R609; 1; 0] -/
  thermalActive : Bool := false
  /-- PWR_STATUS.gating [R609; 1; 0] -/
  gating     : Bool := false
  /-- Temperatures of the 24 stacks [R648; -; 0] -/
  stackC     : Tab Nat := []
  /-- SET_OPPOINT commands waiting for their tiles: queue, command, mask, target [R594; -; none] -/
  waits      : List (Nat × Cmd × Nat × Nat) := []
  deriving DecidableEq, Repr

/-- An event-log entry (R650). -/
structure LogEntry where
  number : Nat
  code   : Nat
  kind   : Nat
  die    : Nat := 0xFF
  tide   : Nat := 0
  ctx    : Nat := 0
  queue  : Nat := 0xFFFF
  step   : Nat := 0xFFFFFFFF
  op     : Nat := 0xFFFF
  fence  : Nat := 0xFFFF
  detail : Nat := 0
  deriving DecidableEq, Repr

/-- A counter record (R647). -/
structure CounterRec where
  number : Nat
  tide   : Nat
  tag    : Nat
  tiles  : Nat
  /-- matrix, vector, hub, fabric, flash, scratch (R559). -/
  uses   : List Nat
  deriving DecidableEq, Repr

structure Errors where
  /-- ERR_SUMMARY [R634; 15; 0] -/
  summary : BitVec 15 := 0
  /-- ERR_MASK.enable [R634; 15; 0x7FFF] -/
  mask    : BitVec 15 := 0x7FFF
  /-- ERR_HALT code and queue [R634; 16 + 12; 0] -/
  haltCode  : Nat := 0
  haltQueue : Nat := 0
  /-- ERR_OVERQ.tag [R634; 16; 0] -/
  overTag : Nat := 0
  /-- Event-log entries written since reset, ERR_EVENTS [R634, R650; 32 of 64; 0] -/
  count   : Nat := 0
  /-- The event log's newest 262,144 entries, oldest first [R650; -; none] -/
  log     : List LogEntry := []
  deriving DecidableEq, Repr

inductive UpdatePhase where
  | idle | downloading | verified | activating
  deriving DecidableEq, Repr

structure Mgmt where
  /-- MG_CTRL.vdm_enable [R638; 1; 0] -/
  vdmEnable : Bool := false
  /-- MG_CTRL.i3c_enable [R638; 1; 1] -/
  i3cEnable : Bool := true
  /-- MG_I3C.static_addr [R638; 7; 0x4C] -/
  staticAddr : BitVec 7 := 0x4C
  /-- Values of MG_CTRL and MG_I3C in effect: i3c, vdm, address [R638; -; 1, 0, 0x4C] -/
  effective : Bool × Bool × BitVec 7 := (true, false, 0x4C)
  /-- MG_STATUS.vdm_active [R638; 1; 0] -/
  vdmActive : Bool := false
  /-- MG_STATUS.i3c_active and the dynamic address [R638, R642; 1 + 7; 0] -/
  dynAddr   : Option (BitVec 7) := none
  /-- MG_STATUS.eid [R638; 8; 0] -/
  eid       : BitVec 8 := 0
  /-- Event receiver set by SetEventReceiver: the transport it came on and its endpoint identifier [R648; 8; none] -/
  receiver  : Option (Nat × BitVec 8) := none
  /-- Counter records held, oldest first, and records written since reset [R647; 1,048,576 records; none] -/
  counters  : List CounterRec := []
  counterNo : Nat := 0
  /-- Requests outstanding: transport and message type [R644; -; none] -/
  busy      : List (Nat × Nat) := []
  /-- Firmware update: phase, component, transport, maximum transfer, bytes received [R653; -; idle] -/
  update    : UpdatePhase := .idle
  component : Nat := 0
  transport : Nat := 0
  maxXfer   : Nat := 0
  received  : Nat := 0
  /-- Digests of images that updates wrote, by 2 × component + slot, slot 0 being A [R652, R653; -; images of the boot flash] -/
  images    : Tab (List Byte) := []
  /-- Runtime versions by slot of images that updates wrote, ID_FW.version [R633; 31; Image] -/
  versions  : Tab (BitVec 31) := []
  /-- Components that run from slot B; ID_FW.slot for component 2 [R526, R605, R633; 1 each; Image, choice A (2)] -/
  slotB     : List Nat := []
  /-- Components whose new image takes effect at the next device reset [R652; -; none] -/
  atReset   : List Nat := []
  /-- Components whose inactive slot is marked invalid [R653; -; none] -/
  invalid   : List Nat := []
  /-- Components scheduled to swap at the next ebb [R526, R653; -; none] -/
  swaps     : List Nat := []
  /-- Components on trial: component, last tide of the self-check [R526; -; none] -/
  trials    : List (Nat × Nat) := []
  /-- Components returning to their previous slot at the next ebb [R526; -; none] -/
  returns   : List Nat := []
  deriving DecidableEq, Repr

/-! ### The device and its state -/

/-- Everything but the queue of waiting commands. -/
structure Dev where
  /-- Service state, clocks and host link [R583, R609; -; per field] -/
  sys      : Sys := {}
  /-- Functions by code 0 to 16 [R291; -; per field] -/
  fns      : Tab Function := []
  /-- Queues 0 to 4,095 [R298; -; per field] -/
  queues   : Tab Queue := []
  /-- Context slots 0 to 4,095 [R333; -; per field] -/
  ctxs     : Tab Context := []
  /-- Mapping-table entries 0 to 2,097,151 [R341; -; invalid] -/
  maps     : Tab MapEntry := []
  /-- Fence slots 0 to 65,535 [R350; -; per field] -/
  fences   : Tab Fence := []
  /-- Tide block [R51; -; per field] -/
  tide     : Tide := {}
  /-- Tiles CT0 to CT15 [R8; -; per field] -/
  tiles    : Tab Tile := []
  /-- Seams 0 to 107 [R20; -; per field] -/
  seams    : Tab Seam := []
  /-- Arbiters by unit [R390; -; per field] -/
  arbs     : Tab Arbiter := []
  /-- ARB_MESH_THRESH [R390; 16; 0x00FA] -/
  meshThresh : BitVec 16 := 0xFA
  /-- ARB_MESH_STARVE_LO/HI [R390; 44; 0] -/
  meshStarve : List Nat := []
  /-- Die served last by a mesh seam's arbiter, by 4 × seam + class [R23; -; none] -/
  meshTurns : Tab Nat := []
  /-- Hubs MH0 to MH3 [R8; -; per field] -/
  hubs     : Tab Hub := []
  /-- Protection regions by 716 × hub + index [R394; -; free] -/
  regions  : Tab MemRegion := []
  /-- Counter blocks by 131,072 × region + index [R404, R408; -; per field] -/
  counters : Tab CounterBlock := []
  /-- Tree nodes by 4,096 × region + index: 0 the root in the hub's root store, 1 to 32 level 2, 33 to 2,080 level 1
  [R17, R408, R409; 64 bytes each; 0] -/
  nodes    : Tab CounterBlock := []
  /-- Memory key identifiers 1 to 4,095 [R396; -; FREE] -/
  keys     : Tab KeyId := []
  /-- Poisoned and unusable granules by 16,384 × frame + granule [R381, R404; -; none] -/
  badLines : Tab BadLine := []
  /-- Scale-table entries 0 to 1,048,575 [R162; -; free] -/
  scales   : Tab ScaleEntry := []
  /-- Scale-table groups 0 to 4,095: context slot they are assigned to, and identifier [R399; -; free] -/
  groups   : Tab (Option (Nat × Nat)) := []
  /-- Stacked memory: plaintext bytes by 2 MiB × frame + offset; an unlisted byte reads 0 (R406, R412) [R27; 8 each; 0] -/
  mem      : List Host.Cell := []
  /-- Plan slots 0 to 1,023 [R282; -; free] -/
  plans    : Tab Plan := []
  /-- Loader cores 0 to 7, a load on each [R266; -; idle] -/
  loads    : Tab (Option Load) := []
  /-- Spare loader cores left, of 2 [R525; 2; 2] -/
  spareCores : Nat := 2
  /-- Loader cores that faulted with no spare left [R527; 3 each; none] -/
  coresDown : List Nat := []
  /-- RUN_PLAN commands begun and not complete, oldest first [R322; -; none] -/
  runCmds  : List RunCmd := []
  /-- Steps started and not yet committed, by number; and the next number [R65; -; none] -/
  runs     : Tab Run := []
  nextRun  : Nat := 1
  /-- Extents 0 to 16,777,215 [R433; -; FREE] -/
  extents  : Tab Extent := []
  /-- Flash of each hub [R455; -; per field] -/
  flash    : Tab Flash := []
  /-- Fabric [R500; -; per field] -/
  fabric   : Fabric := {}
  /-- Dikewatch [R505; -; per field] -/
  dike     : Dikewatch := {}
  /-- Haven bindings by context slot [R506; -; none] -/
  havens   : Tab Haven := []
  /-- Jobs by group slot, or 1,024 + context slot [R511; -; none] -/
  jobs     : Tab Job := []
  /-- Charters, keys, SPDM and IDE [R545; -; per field] -/
  trust    : Trust := {}
  /-- Life cycle and debug [R573; -; per field] -/
  life     : LifeCycle := {}
  /-- Power and temperature [R609; -; per field] -/
  power    : Power := {}
  /-- Error summary and event log [R634; -; per field] -/
  errors   : Errors := {}
  /-- Management endpoint and firmware update [R638; -; per field] -/
  mgmt     : Mgmt := {}
  /-- Egress held at gates [R424; -; none] -/
  held     : List Held := []
  /-- Tile-drain commands under way: queue, command, tile [R286; -; none] -/
  drains   : List (Nat × Cmd × Nat) := []
  /-- Both copies of a system structure are lost; the device has stopped [R528; 1; 0] -/
  lost     : Bool := false
  /-- Staging commands that wait on an extent, in arrival order: queue and command number [R444; -; none] -/
  stageQueue : List (Nat × Nat) := []
  /-- Everything the device has sent, oldest first: MODEL'S OWN record of its outputs [R297; -; choice none (2)] -/
  out      : List Out := []
  deriving DecidableEq, Repr

/-- The block's state: the device, and the commands waiting, first in first out. -/
structure State where
  /-- The device [R17; -; per field] -/
  dev     : Dev := {}
  /-- Commands waiting, first in first out: MODEL'S OWN [R301; -; choice none (2)] -/
  pending : List Instr := []
  deriving DecidableEq, Repr

/-- The machine right after a power-on reset (R583, R584). -/
def State.reset : State := {}

end Sys2Proof.Machine
end

