-- ==== Sys2Proof/Machine/Ops.lean ====
section
/-! DEFINITION. The named operations over the device's tables, its memory, its outputs and its random source.
Every meaning reads and writes the state through these. -/

namespace Sys2Proof.Machine

/-- The state with its device changed and its queue of waiting commands as it was. -/
def State.onDev (s : State) (f : Dev → Dev) : State := { s with dev := f s.dev }

/-- A message from another device reaches a device that has not stopped (R528). -/
def State.onLive (s : State) (f : Dev → Dev) : State := s.onDev fun d => if d.dike.stopped then d else f d

/-! ### Table access -/

def Dev.fn (d : Dev) (n : Nat) : Function := d.fns.get {} n
def Dev.modFn (d : Dev) (n : Nat) (f : Function → Function) : Dev := { d with fns := d.fns.upd {} n f }
def Dev.queue (d : Dev) (n : Nat) : Queue := d.queues.get {} n
def Dev.modQueue (d : Dev) (n : Nat) (f : Queue → Queue) : Dev := { d with queues := d.queues.upd {} n f }
def Dev.ctx (d : Dev) (n : Nat) : Context := d.ctxs.get {} n
def Dev.modCtx (d : Dev) (n : Nat) (f : Context → Context) : Dev := { d with ctxs := d.ctxs.upd {} n f }
def Dev.mapEntry (d : Dev) (n : Nat) : MapEntry := d.maps.get {} n
def Dev.modMap (d : Dev) (n : Nat) (f : MapEntry → MapEntry) : Dev := { d with maps := d.maps.upd {} n f }
def Dev.fence (d : Dev) (n : Nat) : Fence := d.fences.get {} n
def Dev.modFence (d : Dev) (n : Nat) (f : Fence → Fence) : Dev := { d with fences := d.fences.upd {} n f }
def Dev.tile (d : Dev) (n : Nat) : Tile := d.tiles.get {} n
def Dev.modTile (d : Dev) (n : Nat) (f : Tile → Tile) : Dev := { d with tiles := d.tiles.upd {} n f }
def Dev.seam (d : Dev) (n : Nat) : Seam := d.seams.get {} n
def Dev.modSeam (d : Dev) (n : Nat) (f : Seam → Seam) : Dev := { d with seams := d.seams.upd {} n f }
def Dev.arb (d : Dev) (n : Nat) : Arbiter := d.arbs.get {} n
def Dev.modArb (d : Dev) (n : Nat) (f : Arbiter → Arbiter) : Dev := { d with arbs := d.arbs.upd {} n f }
def Dev.hub (d : Dev) (n : Nat) : Hub := d.hubs.get {} n
def Dev.modHub (d : Dev) (n : Nat) (f : Hub → Hub) : Dev := { d with hubs := d.hubs.upd {} n f }
def Dev.region (d : Dev) (n : Nat) : MemRegion := d.regions.get {} n
def Dev.modRegion (d : Dev) (n : Nat) (f : MemRegion → MemRegion) : Dev := { d with regions := d.regions.upd {} n f }
def Dev.counterBlock (d : Dev) (n : Nat) : CounterBlock := d.counters.get {} n
def Dev.modCounter (d : Dev) (n : Nat) (f : CounterBlock → CounterBlock) : Dev :=
  { d with counters := d.counters.upd {} n f }
def Dev.node (d : Dev) (n : Nat) : CounterBlock := d.nodes.get {} n
def Dev.modNode (d : Dev) (n : Nat) (f : CounterBlock → CounterBlock) : Dev := { d with nodes := d.nodes.upd {} n f }
def Dev.keyId (d : Dev) (n : Nat) : KeyId := d.keys.get {} n
def Dev.modKey (d : Dev) (n : Nat) (f : KeyId → KeyId) : Dev := { d with keys := d.keys.upd {} n f }
def Dev.badLine (d : Dev) (n : Nat) : BadLine := d.badLines.get {} n
def Dev.modBadLine (d : Dev) (n : Nat) (f : BadLine → BadLine) : Dev := { d with badLines := d.badLines.upd {} n f }
def Dev.scaleEntry (d : Dev) (n : Nat) : ScaleEntry := d.scales.get {} n
def Dev.modScale (d : Dev) (n : Nat) (f : ScaleEntry → ScaleEntry) : Dev := { d with scales := d.scales.upd {} n f }
def Dev.plan (d : Dev) (n : Nat) : Plan := d.plans.get {} n
def Dev.modPlan (d : Dev) (n : Nat) (f : Plan → Plan) : Dev := { d with plans := d.plans.upd {} n f }
def Dev.load (d : Dev) (n : Nat) : Option Load := d.loads.get none n
def Dev.setLoad (d : Dev) (n : Nat) (l : Option Load) : Dev := { d with loads := d.loads.set none n l }
def Dev.runOf (d : Dev) (n : Nat) : Run := d.runs.get {} n
def Dev.modRun (d : Dev) (n : Nat) (f : Run → Run) : Dev := { d with runs := d.runs.upd {} n f }
def Dev.extent (d : Dev) (n : Nat) : Extent := d.extents.get {} n
def Dev.modExtent (d : Dev) (n : Nat) (f : Extent → Extent) : Dev := { d with extents := d.extents.upd {} n f }
def Dev.flashOf (d : Dev) (n : Nat) : Flash := d.flash.get {} n
def Dev.modFlash (d : Dev) (n : Nat) (f : Flash → Flash) : Dev := { d with flash := d.flash.upd {} n f }
def Dev.modFabric (d : Dev) (f : Fabric → Fabric) : Dev := { d with fabric := f d.fabric }
def Dev.port (d : Dev) (n : Nat) : Port := d.fabric.ports.get {} n
def Dev.modPort (d : Dev) (n : Nat) (f : Port → Port) : Dev :=
  d.modFabric fun x => { x with ports := x.ports.upd {} n f }
def Dev.group (d : Dev) (n : Nat) : Group := d.fabric.groups.get {} n
def Dev.modGroup (d : Dev) (n : Nat) (f : Group → Group) : Dev :=
  d.modFabric fun x => { x with groups := x.groups.upd {} n f }
def Dev.haven (d : Dev) (n : Nat) : Haven := d.havens.get {} n
def Dev.modHaven (d : Dev) (n : Nat) (f : Haven → Haven) : Dev := { d with havens := d.havens.upd {} n f }
def Dev.job (d : Dev) (n : Nat) : Job := d.jobs.get {} n
def Dev.modJob (d : Dev) (n : Nat) (f : Job → Job) : Dev := { d with jobs := d.jobs.upd {} n f }
def Dev.modTrust (d : Dev) (f : Trust → Trust) : Dev := { d with trust := f d.trust }
def Dev.charter (d : Dev) (n : Nat) : Charter := d.trust.charters.get {} n
def Dev.modCharter (d : Dev) (n : Nat) (f : Charter → Charter) : Dev :=
  d.modTrust fun x => { x with charters := x.charters.upd {} n f }
def Dev.modSys (d : Dev) (f : Sys → Sys) : Dev := { d with sys := f d.sys }
def Dev.modTide (d : Dev) (f : Tide → Tide) : Dev := { d with tide := f d.tide }
def Dev.modDike (d : Dev) (f : Dikewatch → Dikewatch) : Dev := { d with dike := f d.dike }
def Dev.modLife (d : Dev) (f : LifeCycle → LifeCycle) : Dev := { d with life := f d.life }
def Dev.modPower (d : Dev) (f : Power → Power) : Dev := { d with power := f d.power }
def Dev.modErrors (d : Dev) (f : Errors → Errors) : Dev := { d with errors := f d.errors }
def Dev.modMgmt (d : Dev) (f : Mgmt → Mgmt) : Dev := { d with mgmt := f d.mgmt }
def Dev.modRunCmds (d : Dev) (f : List RunCmd → List RunCmd) : Dev := { d with runCmds := f d.runCmds }

/-- Fold a device change over a list. -/
def Dev.each {α : Type} (d : Dev) (l : List α) (f : Dev → α → Dev) : Dev := l.foldl f d

/-- The device, changed where `c` holds. -/
def Dev.when (d : Dev) (c : Bool) (f : Dev → Dev) : Dev := if c then f d else d

/-- The keys of a table. -/
def Tab.keys {α : Type} (t : Tab α) : List Nat := t.map Prod.fst

/-! ### Memory (R27, R406, R412) -/

/-- The byte at a physical address; an unlisted byte reads 0 (R406, R412). -/
def Mem.read : List Host.Cell → Nat → Byte
  | [], _ => 0
  | (a', v) :: t, a => if a' = a then v else Mem.read t a

/-- The memory with byte `a` set to `v`, in canonical form: addresses rising, no entry zero. -/
def Mem.write (a : Nat) (v : Byte) : List Host.Cell → List Host.Cell
  | [] => if v = 0 then [] else [(a, v)]
  | (a', v') :: t =>
    if a < a' then (if v = 0 then (a', v') :: t else (a, v) :: (a', v') :: t)
    else if a = a' then (if v = 0 then t else (a, v) :: t)
    else (a', v') :: Mem.write a v t

/-- The canonical form: addresses strictly rising from at least `lo`, no byte zero. -/
def Mem.wfFrom (lo : Nat) : List Host.Cell → Bool
  | [] => true
  | (a, v) :: t => decide (lo ≤ a) && decide (v ≠ 0) && Mem.wfFrom (a + 1) t

/-- The canonical form of memory. -/
def Mem.wf (m : List Host.Cell) : Bool := Mem.wfFrom 0 m

/-- The memory with a list of cells written, in order. -/
def Mem.writeAll (cells : List Host.Cell) (m : List Host.Cell) : List Host.Cell :=
  cells.foldl (fun m c => Mem.write c.1 c.2 m) m

/-- The memory with every byte of [a, a+n) zero. -/
def Mem.clear (a n : Nat) (m : List Host.Cell) : List Host.Cell := m.filter fun c => c.1 < a || a + n ≤ c.1

def frameBytes : Nat := 2097152

/-- A frame number names a frame: its low 19 bits are at most 393,215 and its hub one of 0 to 3 (R27). -/
def frameExists (f : Nat) : Bool := f < 2097152 && f % 524288 < 393216

/-- The hub of a frame (R27). -/
def hubOf (f : Nat) : Nat := f / 524288

/-- The stack that holds 4 KiB unit `u` of frame `f` (R28). -/
def stackOf (f u : Nat) : Nat := 6 * hubOf f + (u + f % 524288) % 6

/-- Frames of the system reserve, never mapped to a context (R29). -/
def frameReserved (f : Nat) : Bool := 389120 ≤ f % 524288

/-- Overlay bytes keep zeros: a zero there hides a non-zero byte below. -/
def Ovl.set (o : List Host.Cell) (a : Nat) (v : Byte) : List Host.Cell := Tab.insert a v (Tab.erase o a)

/-- The byte at `a` through an overlay. -/
def Ovl.read : List Host.Cell → List Host.Cell → Nat → Byte
  | [], m, a => Mem.read m a
  | (a', v) :: t, m, a => if a' = a then v else Ovl.read t m a

/-! ### Outputs -/

/-- The device sends `o`. -/
def Dev.emit (d : Dev) (o : Out) : Dev := { d with out := d.out ++ [o] }

/-- A function exists: PF1 only when bifurcated, VF1 to VF15 as codes 2 to 16 (R291). -/
def Dev.fnExists (d : Dev) (fn : Nat) : Bool := fn == 0 || (fn == 1 && d.sys.bifur) || (2 ≤ fn && fn ≤ 16)

/-- BAR0's registers answer (R605, R608): neap or spring service. -/
def Dev.regsUp (d : Dev) : Bool := (d.sys.service == .neap || d.sys.service == .spring) && !d.sys.forced

/-- The function's D3hot (R292). -/
def Dev.inD3hot (d : Dev) (fn : Nat) : Bool :=
  (fn == 0 && d.sys.d3hot.1) || (fn == 1 && d.sys.d3hot.2)

/-- The function writes: not in D3hot (R292), nor out of RUN after having been silenced (R295). -/
def Dev.fnWrites (d : Dev) (fn : Nat) : Bool := !d.inD3hot fn && !(d.fn fn).silent

/-- The host port's limits (R290): bytes of payload in one request, bytes of one read request, reads outstanding on a link,
and how many of those are kept for class P. -/
def maxPayload : Nat := 512

def maxReadRequest : Nat := 4096

def readTags : Nat := 512

def classPTags : Nat := 32

/-- What a function's configuration space reports (R292): vendor and device identifier, and class code. -/
def pciIdentity : BitVec 16 × BitVec 16 × BitVec 24 := (Config.pciVendor, 0x2524, 0x120000)

/-- The answer to a configuration request (R292): none is request-retry status. -/
def Dev.configAnswer (d : Dev) (fn : Nat) : Option (BitVec 16 × BitVec 16 × BitVec 24) :=
  if d.sys.retryStatus || !d.fnExists fn then none else some pciIdentity

/-- A write's words in requests of at most the maximum payload. -/
def payloads (addr : Nat) (words : List W32) : List (Nat × List W32) :=
  (List.range (ceilDiv words.length (maxPayload / 4))).map fun i =>
    (addr + maxPayload * i, (words.drop (maxPayload / 4 * i)).take (maxPayload / 4))

/-- A posted write to host memory through a function. -/
def Dev.hostWrite (d : Dev) (fn addr : Nat) (words : List W32) : Dev :=
  if d.fnWrites fn then d.each (payloads addr words) fun d p => d.emit (.hostWrite fn p.1 p.2) else d

/-- The vectors of a function (R291). -/
def vectorsOf (fn : Nat) : Nat := if fn < 2 then 2048 else 64

/-- An MSI-X message of a function's vector; a masked vector only sets its pending bit (R297; log 14). -/
def Dev.msix (d : Dev) (fn vec : Nat) : Dev :=
  if !d.fnWrites fn then d
  else if (d.fn fn).unmasked.contains vec then d.emit (.msix fn vec)
  else d.modFn fn fun f => if f.pendingBits.contains vec then f else { f with pendingBits := f.pendingBits ++ [vec] }

/-- One draw of the random source (log 7). -/
def Dev.draw (d : Dev) : List Byte × Dev :=
  (Config.random d.sys.draws, d.modSys fun x => { x with draws := x.draws + 1 })

/-- The 64-bit number in a draw's first eight bytes. -/
def drawNat (b : List Byte) : Nat := natOfBytes (b.take 8)

/-! ### Tags and slots (R333, R334) -/

/-- The slot of the open context with a tag: a slot not CLOSED (R333). -/
def Dev.ctxOfTag (d : Dev) (tag : Nat) : Option Nat :=
  (d.ctxs.find? fun p => p.2.state != .closed && p.2.tag.toNat == tag).map Prod.fst

/-- The slots of contexts that are not CLOSED. -/
def Dev.openCtxs (d : Dev) : List Nat := (d.ctxs.filter fun p => p.2.state != .closed).map Prod.fst

/-- The tide timer runs (R55): TIDE_STATUS.running. -/
def Dev.tideRunning (d : Dev) : Bool := d.tide.phase != .stopped

/-- The low 32 bits of the tide number. -/
def Dev.tideLow (d : Dev) : Nat := d.tide.number % 4294967296

/-- The job number of a context: its group's slot, or 1,024 plus its own (R511). -/
def Dev.groupsOf (d : Dev) (c : Nat) : List Nat :=
  (d.fabric.groups.filter fun p => (p.2.state == .opened || p.2.state == .opening) && p.2.ctx == c).map Prod.fst

end Sys2Proof.Machine
end

