-- ==== Sys2Proof/Machine/Flags.lean ====
section
/-! DEFINITION. Flags and events: the error summary and vector 0 (R634 to R637), the event log (R650, R651), and the
Dikewatch events every unit reports (R502). -/

namespace Sys2Proof.Machine

/-- ERR_SUMMARY bits (R634). -/
inductive ErrBit where
  | queueHalt | atomicFail | tdisp | arbiter | fabric | dikewatch | clock | power | thermal | overQuota
  | lockWrite | coreFault | systemLost | lifecycle | seam
  deriving DecidableEq, Repr

/-- The bit's number (R634). -/
def ErrBit.num : ErrBit → Nat
  | .queueHalt => 0 | .atomicFail => 1 | .tdisp => 2 | .arbiter => 3 | .fabric => 4 | .dikewatch => 5
  | .clock => 6 | .power => 7 | .thermal => 8 | .overQuota => 9 | .lockWrite => 10 | .coreFault => 11
  | .systemLost => 12 | .lifecycle => 13 | .seam => 14

/-- The ring's newest `n` elements. -/
def newest {α : Type} (n : Nat) (l : List α) : List α := l.drop (l.length - n)

/-- An event-log entry is written under the next number (R650); the device names a device event to the event
receiver (R649). -/
def Dev.logEvent (d : Dev) (kind code : Nat) (die : Nat := 0xFF) (ctx : Nat := 0) (queue : Nat := 0xFFFF)
    (step : Nat := 0xFFFFFFFF) (op : Nat := 0xFFFF) (fence : Nat := 0xFFFF) (detail : Nat := 0) : Dev :=
  let n := d.errors.count
  let e : LogEntry := { number := n, code := code, kind := kind, die := die, tide := d.tide.number, ctx := ctx,
                        queue := queue, step := step, op := op, fence := fence, detail := detail }
  let d := d.modErrors fun x => { x with count := n + 1, log := newest 262144 (x.log ++ [e]) }
  match kind, d.mgmt.receiver with
  | 2, some (t, _) => d.emit (.mgmt t (.pollEvent n))
  | _, _ => d

/-- The 32-byte form of an event-log entry (R650). -/
def LogEntry.words (e : LogEntry) : List W32 :=
  [BitVec.ofNat 32 (e.code + 65536 * e.kind + 16777216 * e.die),
   BitVec.ofNat 32 (e.number % 16777216 + 16777216 * (e.detail / 4294967296 % 256)),
   BitVec.ofNat 32 e.tide, BitVec.ofNat 32 (e.tide / 4294967296),
   BitVec.ofNat 32 (e.ctx + 65536 * e.queue), BitVec.ofNat 32 e.step,
   BitVec.ofNat 32 (e.op + 65536 * e.fence), BitVec.ofNat 32 e.detail]

/-- A summary event (R635, R636): its bit is set, it is logged, and a rise of an enabled bit signals vector 0 of PF0. -/
def Dev.errEvent (d : Dev) (b : ErrBit) (code : Nat := 0) (die : Nat := 0xFF) (ctx : Nat := 0)
    (queue : Nat := 0xFFFF) : Dev :=
  let rise := !bitOf d.errors.summary.toNat b.num
  let d := d.modErrors fun x => { x with summary := x.summary ||| BitVec.ofNat 15 (2 ^ b.num) }
  let d := d.logEvent 2 code die ctx queue (detail := b.num)
  if rise && bitOf d.errors.mask.toNat b.num then d.msix 0 0 else d

/-- The counted Dikewatch inputs (R502); inputs 5, 7 and 9 are measured at the ebb. -/
inductive DwInput where
  | stackErrors | scratchErrors | flash | integrity | links | droop | overruns
  deriving DecidableEq, Repr

/-- The input's code (R502). -/
def DwInput.code : DwInput → Nat
  | .stackErrors => 0 | .scratchErrors => 1 | .flash => 2 | .integrity => 3 | .links => 4 | .droop => 6
  | .overruns => 8

/-- An event is reported to Dikewatch (R502): `unit` is the die's encoding, or the stack for input 0. -/
def Dev.dwEvent (d : Dev) (input : DwInput) (unit : Nat) (amount : Nat := 1) : Dev :=
  d.modDike fun x =>
    { x with events := x.events ++ [{ tide := d.tide.number, input := input.code, die := unit, amount := amount }] }

end Sys2Proof.Machine
end

