-- ==== Sys2Proof/Machine/Stack.lean ====
section
/-! DEFINITION. Where data lands in a stack, and the paths that serve it (R28, R365 to R370): channel, pseudo-channel and row of
a byte, and the bulk path and gather lane. -/

namespace Sys2Proof.Machine

/-! ### The organisation of the stacks (R365) -/

/-- Channels of a stack, and pseudo-channels of a channel (R365). -/
def stackChannels : Nat := 32

def channelPseudos : Nat := 2

/-- 4 KiB units of one stack (R367): 128 GiB. -/
def stackUnits : Nat := 65536 * 512

/-! ### Where a 4 KiB unit lands (R367, R368) -/

/-- Units of the frame `i` of a group of six that lie in stack `j` of the hub (R367). -/
def unitsIn (j i : Nat) : Nat := if (j + 6 - i % 6) % 6 ≤ 1 then 86 else 85

/-- The stack-local number L of unit `u` of frame `f` of its hub (R367). -/
def localUnit (f u : Nat) : Nat :=
  let j := (u + f) % 6
  let r := (j + 6 - f % 6) % 6
  512 * (f / 6) + sumNat ((List.range (f % 6)).map (unitsIn j)) + (u - r) / 6

/-- The frame that serves a frame number: its frame of the repair pool, where it has been remapped (R378). -/
def Dev.servedFrame (d : Dev) (f : Nat) : Nat :=
  let x := d.hub (hubOf f)
  if x.redirect.contains f then 524288 * hubOf f + 391168 + x.redirect.idxOf f else f

/-- The row of a stack that serves byte `b` of a frame (R28, R367, R368): its stack, channel and pseudo-channel, and the bank
and row that the hub's own arrangement gives L div 32. -/
def Dev.rowOf (d : Dev) (f b : Nat) : DramRow :=
  let p := d.servedFrame f
  let l := localUnit (p % 524288) (b / 4096)
  let (bank, row) := Config.dramPlace (l / stackChannels)
  { stack := stackOf p (b / 4096), channel := l % stackChannels, pseudo := b % 4096 / 2048, bank := bank, row := row }

/-! ### The hub code (R374) -/

/-- What the hub code makes of the bit errors in 64 bytes of stored data. -/
inductive EccOutcome where
  | clean | corrected | uncorrectable
  deriving DecidableEq, Repr

/-- Errors by data pin of the pseudo-channel and beat of the burst: those of one pin, and any two bits, are corrected; those of two
pins are detected; of others the rule says nothing. -/
def eccOutcome (errors : List (Nat × Nat)) : Option EccOutcome :=
  let bits := errors.eraseDups
  let pins := (bits.map Prod.fst).eraseDups
  if bits.isEmpty then some .clean
  else if pins.length ≤ 1 || bits.length ≤ 2 then some .corrected
  else if pins.length = 2 then some .uncorrectable
  else none

/-! ### Bulk path and gather lane (R369, R370) -/

/-- The path that serves an access. -/
inductive HubPath where
  | bulk | lane
  deriving DecidableEq, Repr

/-- An access of `n` bytes at byte `a`, cut at the boundaries of the 128-byte granules; an access of 128 bytes or more that
starts at one is whole (R369). -/
def accessPieces (a n : Nat) : List (Nat × Nat) :=
  if 128 ≤ n || a % 128 + n ≤ 128 then [(a, n)]
  else [(a, 128 - a % 128), (a + (128 - a % 128), n - (128 - a % 128))]

/-- The path of one piece (R369): a piece of 65 to 127 bytes inside one granule goes by the gather lane (log 59). -/
def pathOf (n : Nat) : HubPath := if 128 ≤ n then .bulk else .lane

/-- The paths of an access. -/
def accessPaths (a n : Nat) : List HubPath := (accessPieces a n).map fun p => pathOf p.2

/-- Efficiency of the bulk path in percent for a run of contiguous bytes (R369): that of the size at or below it. -/
def bulkEfficiency (n : Nat) : Nat :=
  if 2048 ≤ n then 100 else if 1024 ≤ n then 80 else if 512 ≤ n then 60 else if 256 ≤ n then 40 else 25

end Sys2Proof.Machine
end

