-- ==== Sys2Proof/Machine/Tree.lean ====
section
/-! DEFINITION. Counter trees and counter caches (R403, R407 to R410, R414, R418): the nodes over a mutable region's counter
blocks, the lines a hub's cache holds, and their write-back. -/

namespace Sys2Proof.Machine

/-- The node above a line (R408), with the child's place in it: a line is a level 0 to 3 and a key, 131,072 × region + block at
level 0, 4,096 × region + 33 + node at level 1, 4,096 × region + 1 + node at level 2, 4,096 × region at the root. -/
def parentLine (level key : Nat) : Nat × Nat × Nat :=
  match level with
  | 0 => let i := key % 131072; (1, 4096 * (key / 131072) + 33 + i / 64, i % 64)
  | 1 => let i := key % 4096 - 33; (2, 4096 * (key / 4096) + 1 + i / 64, i % 64)
  | _ => (3, 4096 * (key / 4096), key % 4096 - 1)

/-- The region of a line. -/
def lineRegion (level key : Nat) : Nat := if level = 0 then key / 131072 else key / 4096

/-- A node counts a write-back of a child (R408): a minor past 127 raises the major and clears the minors. -/
def CounterBlock.countChild (x : CounterBlock) (i : Nat) : CounterBlock :=
  if x.minors.get 0 i < 127 then { x with minors := x.minors.set 0 i (x.minors.get 0 i + 1) }
  else { x with major := x.major + 1, minors := [] }

/-- A line is placed in its hub's cache, newest first; a dirty line stays dirty (R410). -/
def Dev.placeLine (d : Dev) (level key : Nat) (dirty : Bool) : Dev :=
  d.modHub (lineRegion level key / 716) fun h =>
    let was := h.cache.any fun c => c.1 == level && c.2.1 == key && c.2.2
    { h with cache := (level, key, dirty || was) :: h.cache.filter fun c => !(c.1 == level && c.2.1 == key) }

/-- A dirty line is written back (R410): its parent counts it, and is brought into the cache. -/
def Dev.writeBack (d : Dev) (level key : Nat) : Dev :=
  let (l, k, i) := parentLine level key
  let d := d.modNode k fun x => x.countChild i
  if l = 3 then d else d.placeLine l k true

/-- A full cache gives up lines until it holds at most 524,288 (R410); which one is internal (log 54). -/
def Dev.evictLines (d : Dev) (h : Nat) : Nat → Dev
  | 0 => d
  | n + 1 =>
    let c := (d.hub h).cache
    if c.length ≤ 524288 then d
    else
      let victim := Config.cacheVictim d.out.length % c.length
      match (c.drop victim).head? with
      | none => d
      | some (l, k, dirty) =>
        let d := d.modHub h fun x => { x with cache := x.cache.filter fun y => !(y.1 == l && y.2.1 == k) }
        (if dirty then d.writeBack l k else d).evictLines h n

/-- A counter block has changed: its line and its path are in the cache, the block's dirty (R410). -/
def Dev.touchBlock (d : Dev) (k : Nat) : Dev :=
  let (_, k1, _) := parentLine 0 k
  let (_, k2, _) := parentLine 1 k1
  let d := ((d.placeLine 2 k2 false).placeLine 1 k1 false).placeLine 0 k true
  d.evictLines (k / 131072 / 716) 524289

/-- The lines of a region at one level leave the cache, the dirty ones written back. -/
def Dev.flushLevel (d : Dev) (r level : Nat) : Dev :=
  let h := r / 716
  let mine := (d.hub h).cache.filter fun c => c.1 == level && lineRegion level c.2.1 == r
  let d := d.modHub h fun x => { x with cache := x.cache.filter fun c => !(c.1 == level && lineRegion level c.2.1 == r) }
  d.each mine.reverse fun d c => if c.2.2 then d.writeBack level c.2.1 else d

/-- A region's lines are flushed (R410, R414, R418): written back where dirty, then invalidated, from the blocks upwards. -/
def Dev.flushRegion (d : Dev) (r : Nat) : Dev := ((d.flushLevel r 0).flushLevel r 1).flushLevel r 2

/-- A region's tree starts again: no line of it is cached and every node counts from zero (R400, R414). -/
def Dev.resetTree (d : Dev) (r : Nat) : Dev :=
  let d := d.modHub (r / 716) fun x => { x with cache := x.cache.filter fun c => lineRegion c.1 c.2.1 != r }
  { d with nodes := d.nodes.filter fun n => n.1 / 4096 != r }

end Sys2Proof.Machine
end

