-- ==== Sys2Proof/Machine/Frames.lean ====
section
/-! DEFINITION. Frames and protection regions (R27 to R34, R394 to R409, R417): bindings and their identifiers, the frame a
page takes, the counters of what is written, and the return of frames. -/

namespace Sys2Proof.Machine

/-- A binding (R394): context slot, owner slot of the domain (0xFF the context's own branch), read-only kind. -/
abbrev Binding := Nat × Nat × Bool

/-- Why no frame was assigned. -/
inductive NoFrame where
  | quota | keys | frames
  deriving DecidableEq, Repr

/-! ### Regions (R30, R394) -/

/-- Frames from the start of a region to the start of the next of its kind: data, MAC and counter-block frames (R30). -/
def regionPitch (ro : Bool) : Nat := if ro then 544 else 548

/-- Data frames of a region of a kind: 512, or what the short last one of its hub holds (R30). -/
def regionData (r : Nat) (ro : Bool) : Nat :=
  let last := if ro then 715 else 710
  if r % 716 < last then 512 else if r % 716 = last then (if ro then 150 else 36) else 0

/-- All frames of a region of a kind, with those of its metadata (R30). -/
def regionSize (r : Nat) (ro : Bool) : Nat :=
  let last := if ro then 715 else 710
  if r % 716 < last then regionPitch ro else if r % 716 = last then (if ro then 160 else 40) else 0

/-- The first frame of a region within its hub, as a region of a kind (log 15). -/
def regionStart (r : Nat) (ro : Bool) : Nat := regionPitch ro * (r % 716)

/-- A region is bound read-only. -/
def Dev.regionRo (d : Dev) (r : Nat) : Bool :=
  match (d.region r).bound with
  | some b => b.2.2
  | none => false

/-- The region of a frame: the read-only region bound over it, or else the mutable one that its place falls in (log 15). -/
def Dev.regionOf (d : Dev) (f : Nat) : Nat :=
  let o := 716 * hubOf f + f % 524288 / 544
  if d.regionRo o then o else 716 * hubOf f + f % 524288 / 548

/-- The position of a frame in its region. -/
def Dev.frameIx (d : Dev) (f : Nat) : Nat := f % 524288 % regionPitch (d.regionRo (d.regionOf f))

/-- The frame at a position of a region. -/
def Dev.regionFrame (d : Dev) (r i : Nat) : Nat := 524288 * (r / 716) + regionStart r (d.regionRo r) + i

/-- The regions of a hub. -/
def hubRegions (h : Nat) : List Nat := (List.range 716).map fun i => 716 * h + i

/-- A free region that may be bound to a kind: no region of the other kind is bound over its frames (R30, R394). -/
def Dev.regionOpen (d : Dev) (ro : Bool) (r : Nat) : Bool :=
  (d.region r).bound.isNone && regionSize r ro != 0 && !(d.regions.any fun q =>
    q.2.bound.isSome && q.1 / 716 == r / 716 && d.regionRo q.1 != ro &&
      decide (regionStart q.1 (!ro) < regionStart r ro + regionSize r ro) &&
      decide (regionStart r ro < regionStart q.1 (!ro) + regionSize q.1 (!ro)))

/-- The data frames of a region, as one of a kind, that no page, copy or keeper slot holds and the hub has not retired. -/
def Dev.freeIn (d : Dev) (ro : Bool) (r : Nat) : List Nat :=
  ((List.range (regionData r ro)).map (524288 * (r / 716) + regionStart r ro + ·)).filter fun f =>
    !(d.region r).frames.contains f && !(d.hub (r / 716)).retired.contains f

/-- Free frames of a binding in a hub: those of its regions, and 512 for each free region of its kind (R394). -/
def Dev.freeFrames (d : Dev) (b : Binding) (h : Nat) : Nat :=
  sumNat ((hubRegions h).map fun r =>
    if (d.region r).bound == some b then (d.freeIn b.2.2 r).length
    else if d.regionOpen b.2.2 r then 512
    else 0)

/-- Hubs that are trained (R34). -/
def Dev.hubsUp (d : Dev) : List Nat := (List.range 4).filter fun h => (d.hub h).up

/-- The hub, of those listed, with the most free frames; ties to the lower number (R31). -/
def Dev.roomiest (d : Dev) (b : Binding) : List Nat → Nat
  | [] => 0
  | h :: t => let k := d.roomiest b t
    if t.isEmpty || d.freeFrames b k ≤ d.freeFrames b h then h else k

/-! ### Identifiers (R396, R398, R417) -/

/-- Identifiers in state FREE. -/
def Dev.freeKeyCount (d : Dev) : Nat := 4095 - (d.keys.filter fun k => k.2.state != .free).length

/-- The lowest FREE identifier. -/
def Dev.freeKey (d : Dev) : Nat :=
  (((List.range (d.keys.length + 1)).map (· + 1)).find? fun k => (d.keyId k).state == .free).getD 1

/-- The ACTIVE identifiers of a binding. -/
def Dev.bindingKeys (d : Dev) (b : Binding) : List Nat :=
  (d.keys.filter fun k => k.2.state == .active && k.2.binding == some b).map Prod.fst

/-- Allocation of an identifier under the next allocation serial (R396, R398). -/
def Dev.allocKey (d : Dev) (b : Binding) : Dev × Nat :=
  let k := d.freeKey
  let d := d.modKey k fun x =>
    { x with state := .active, binding := some b, serial := d.trust.allocSerial, eligible := false, began := 0 }
  (d.modTrust fun x => { x with allocSerial := x.allocSerial + 1 }, k)

/-- The identifier of a binding, allocated at its first need; refused when only the kept 16 are free (R398). -/
def Dev.keyFor (d : Dev) (b : Binding) : Option (Dev × Nat) :=
  match (d.bindingKeys b).getLast? with
  | some k => some (d, k)
  | none => if d.freeKeyCount ≤ 16 then none else some (d.allocKey b)

/-! ### Counters and epochs (R404 to R408, R412, R413) -/

/-- The key of a granule in the tables of lines. -/
def granuleKey (f g : Nat) : Nat := 16384 * f + g

/-- The key of the counter block over granule `g` of frame `f` (R404, R408). -/
def Dev.blockKey (d : Dev) (f g : Nat) : Nat := 131072 * d.regionOf f + 256 * d.frameIx f + g / 64

/-- A sweep of the region begins, under an identifier taken from those kept (R398, R407, R414). -/
def Dev.startSweep (d : Dev) (r : Nat) : Dev :=
  match (d.region r).bound, (d.region r).sweepTo with
  | some b, none => let (d, k) := d.allocKey b; d.modRegion r fun x => { x with sweepTo := some k }
  | _, _ => d

/-- The block's major is raised by one and the major mark with it; a major past its field starts a sweep (R405,
R407). -/
def Dev.raiseMajor (d : Dev) (f g : Nat) : Dev :=
  let k := d.blockKey f g
  let m := (d.counterBlock k).major + 1
  if m ≥ 4294967296 then d.startSweep (d.regionOf f)
  else
    let d := d.modCounter k fun x => { x with major := m }
    d.modRegion (d.regionOf f) fun x => { x with majorMark := max x.majorMark m }

/-- A block is re-encrypted under a sweep's identifier (R414): major 0, minor 1 for every written granule. -/
def CounterBlock.sweep (x : CounterBlock) (id : Nat) : CounterBlock :=
  { major := 0, key := id, minors := x.minors.map fun p => (p.1, if p.2 = 127 then 127 else 1) }

/-- The block is swept first where the region's sweep has not reached it (R414). -/
def Dev.sweepFirst (d : Dev) (f g : Nat) : Dev :=
  match (d.region (d.regionOf f)).sweepTo with
  | some id => if (d.counterBlock (d.blockKey f g)).key = id then d else d.modCounter (d.blockKey f g) fun x => x.sweep id
  | none => d

/-- One granule of a mutable region is written (R404, R405, R430): its block's counters. -/
def Dev.countGranule (d : Dev) (f g : Nat) : Dev :=
  let k := d.blockKey f g
  let i := g % 64
  let m := (d.counterBlock k).minors.get 0 i
  let d := d.sweepFirst f g
  if m = 126 then
    if (d.counterBlock k).minors.get 0 i = 1 then d
    else
      let d := (d.raiseMajor f g).sweepFirst f g
      d.modCounter k fun x => { x with minors := x.minors.map fun p => (p.1, if p.2 = 127 then 127 else 1) }
  else
    let n := (d.counterBlock k).minors.get 0 i
    let id := (d.region (d.regionOf f)).sweepTo.getD (d.region (d.regionOf f)).key
    d.modCounter k fun x => { x with key := id, minors := x.minors.set 0 i (if n = 127 then 1 else n + 1) }

/-- A region of which a tree node's counter has passed its field starts to be re-encrypted (R407, R414). -/
def Dev.sweepFullNodes (d : Dev) : Dev :=
  d.each ((d.nodes.filter fun n => decide (4294967296 ≤ n.2.major)).map Prod.fst) fun d n => d.startSweep (n / 4096)

/-- One granule of a mutable region is written: its block's counters, which the hub's cache then holds (R404, R410). -/
def Dev.countWrite (d : Dev) (f g : Nat) : Dev := ((d.countGranule f g).touchBlock (d.blockKey f g)).sweepFullNodes

/-- Minors of the granules listed set to 0 or 127, block by block; a block of which one was written first advances its major, once
(R406). -/
def Dev.setMinors (d : Dev) (f : Nat) (gs : List Nat) (v : Nat) : Dev :=
  d.each (gs.map (· / 64)).eraseDups fun d b =>
    let k := d.blockKey f (64 * b)
    let mine := (gs.filter fun g => g / 64 == b).map (· % 64)
    let d := if mine.any fun i => let m := (d.counterBlock k).minors.get 0 i; 1 ≤ m && m ≤ 126 then
        let d := d.raiseMajor f (64 * b)
        d.modCounter k fun x => { x with minors := x.minors.map fun p => (p.1, if p.2 = 127 then 127 else 1) }
      else d
    ((d.modCounter k fun x => { x with minors := mine.foldl (fun m i => m.set 0 i v) x.minors }).touchBlock k).sweepFullNodes

/-- Granules of a frame that its counter blocks list. -/
def Dev.listedGranules (d : Dev) (f : Nat) : List Nat :=
  (d.counters.filter fun p => d.blockKey f 0 ≤ p.1 && p.1 < d.blockKey f 0 + 256).flatMap fun p =>
    p.2.minors.map fun q => 64 * (p.1 - d.blockKey f 0) + q.1

/-- The frame belongs to a read-only region. -/
def Dev.frameReadOnly (d : Dev) (f : Nat) : Bool :=
  match (d.region (d.regionOf f)).bound with
  | some b => b.2.2
  | none => false

/-- A writer opens a read-only frame before its first write to it (R413); an epoch past its field starts a sweep, and a
frame not yet swept is swept first (R414). -/
def Dev.openFrame (d : Dev) (f : Nat) : Dev :=
  let r := d.regionOf f
  if !d.frameReadOnly f then d
  else
    let e := (d.region r).epochs.get 0 (d.frameIx f)
    let d := if e + 1 > 65535 then d.startSweep r else d
    let x := d.region r
    let first := x.sweepTo.isSome && !x.swept.contains f
    let e := if first && e ≠ 0 then 1 else e
    d.modRegion r fun x =>
      { x with epochs := x.epochs.set 0 (d.frameIx f) (e + 1), swept := if first then x.swept ++ [f] else x.swept }

/-- A frame is blank: all its granules unwritten, every byte zero (R406, R412). -/
def Dev.blankFrame (d : Dev) (f : Nat) : Dev :=
  let d := if d.frameReadOnly f then
      d.modRegion (d.regionOf f) fun x => { x with epochs := x.epochs.set 0 (d.frameIx f) 0 }
    else d.setMinors f (d.listedGranules f) 0
  { d with mem := Mem.clear (frameBytes * f) frameBytes d.mem
           badLines := d.badLines.filter fun p => p.1 / 16384 != f }

/-- An identifier under which no line is encrypted or decrypted (R417, R419): any that is not ACTIVE, but identifier 0. -/
def Dev.idRefused (d : Dev) (k : Nat) : Bool := k != 0 && (d.keyId k).state != .active

/-- Accesses to the frame are refused: its region stands under such an identifier (R419). -/
def Dev.frameRefused (d : Dev) (f : Nat) : Bool := d.idRefused (d.region (d.regionOf f)).key

/-- A scale-table entry stands under such an identifier (R162, R179, R419). -/
def Dev.entryRefused (d : Dev) (e : Nat) : Bool := (d.groups.get none (e / 256)).any fun g => d.idRefused g.2

/-- A write of cells brings a granule back to use (R381, R384, R428): a poisoned line needs its whole granule written. -/
def Dev.restores (d : Dev) (cells : List Host.Cell) (g : Nat) : Bool :=
  let code := (d.badLine g).code
  (code != 0x0501 && code != 0x0504) || 128 ≤ (((cells.filter fun c => c.1 / 128 == g).map Prod.fst).eraseDups).length

/-- Bytes are written into stacked memory by one writer: frames opened, counters advanced, lines returned to use (R381,
R404, R413, R428); a write to a frame whose accesses are refused is discarded (R419). -/
def Dev.writeMem (d : Dev) (cells : List Host.Cell) : Dev :=
  let cells := cells.filter fun c => !d.frameRefused (c.1 / frameBytes)
  let gs := (cells.map fun c => c.1 / 128).eraseDups
  let fs := (gs.map (· / 16384)).eraseDups
  let d := d.each fs Dev.openFrame
  let d := d.each gs fun d g =>
    let d := if d.frameReadOnly (g / 16384) then d else d.countWrite (g / 16384) (g % 16384)
    if d.restores cells g then { d with badLines := d.badLines.erase g } else d
  { d with mem := Mem.writeAll cells d.mem }

/-! ### Frames for pages (R31, R342, R358, R394) -/

/-- A frame of the binding in a hub: the lowest free one of its regions, or of the lowest free region of its kind, which the
hub then binds to it (R394). -/
def Dev.takeFrame (d : Dev) (b : Binding) (h : Nat) : Except NoFrame (Dev × Nat) :=
  match (hubRegions h).find? fun r => (d.region r).bound == some b && !(d.freeIn b.2.2 r).isEmpty with
  | some r =>
    let f := (d.freeIn b.2.2 r).headD 0
    .ok (d.modRegion r fun x => { x with frames := x.frames ++ [f] }, f)
  | none =>
    match (hubRegions h).find? fun r => d.regionOpen b.2.2 r && !(d.freeIn b.2.2 r).isEmpty with
    | none => .error .frames
    | some r =>
      match d.keyFor b with
      | none => .error .keys
      | some (d, k) =>
        let f := (d.freeIn b.2.2 r).headD 0
        .ok (d.modRegion r fun x => { x with bound := some b, key := k, frames := [f] }, f)

/-- Over-quota flag (R358): each time it becomes set, the summary and ERR_OVERQ say so (R359, R634). -/
def Dev.checkQuota (d : Dev) (c : Nat) : Dev :=
  let x := d.ctx c
  let above := decide (x.useT1 > x.quotaT1.toNat) || decide (x.useT2 > x.quotaT2.toNat)
  let d := d.modCtx c fun y => { y with overQuota := above }
  if above && !x.overQuota then
    (d.modErrors fun e => { e with overTag := x.tag.toNat }).errEvent .overQuota Code.quotaOver (ctx := x.tag.toNat)
  else d

/-- A frame charged to a context (R342, R358), blank (R406). -/
def Dev.assignFrame (d : Dev) (b : Binding) (h : Nat) : Except NoFrame (Dev × Nat) :=
  if (d.ctx b.1).useT1 ≥ (d.ctx b.1).quotaT1.toNat then .error .quota
  else match d.takeFrame b h with
  | .error e => .error e
  | .ok (d, f) => .ok ((d.blankFrame f).modCtx b.1 fun x => { x with useT1 := x.useT1 + 1 }, f)

/-- The hub of a page (R31, R34): its preference, or the roomiest trained hub. -/
def Dev.hubForPage (d : Dev) (b : Binding) (pref : Nat) : Nat := if pref < 4 then pref else d.roomiest b d.hubsUp

/-- A page takes a frame at a command's first write to it (R31). -/
def Dev.assignPage (d : Dev) (b : Binding) (e : Nat) : Except NoFrame Dev :=
  if (d.mapEntry e).frame.isSome then .ok d
  else match d.assignFrame b (d.hubForPage b (d.mapEntry e).pref) with
  | .error x => .error x
  | .ok (d, f) => .ok (d.modMap e fun x => { x with frame := some f })

/-- A frame leaves its context's use and its region (R348). -/
def Dev.freeFrame (d : Dev) (c f : Nat) : Dev :=
  let d := d.modRegion (d.regionOf f) fun x => { x with frames := x.frames.filter (· != f) }
  (d.modCtx c fun x => { x with useT1 := x.useT1 - 1 }).checkQuota c

/-- The slot whose window holds a mapping-table entry (R341). -/
def Dev.ctxOfEntry (d : Dev) (e : Nat) : Option Nat :=
  (d.ctxs.find? fun p => p.2.state != .closed && p.2.mapBase.toNat * 512 ≤ e &&
    e < (p.2.mapBase.toNat + p.2.mapCount.toNat) * 512).map Prod.fst

/-- Some valid entry or some extent's copy still holds the frame (R345). -/
def Dev.frameHeld (d : Dev) (f : Nat) : Bool :=
  d.maps.any (fun p => p.2.valid && p.2.frame == some f) || d.extents.any fun p => p.2.copy.contains f

/-- A frame that nothing names any longer leaves the use of the context its region is bound to (R345, R348). -/
def Dev.dropFrame (d : Dev) (f : Nat) : Dev :=
  if d.frameHeld f then d
  else match (d.region (d.regionOf f)).bound with
    | some b => d.freeFrame b.1 f
    | none => d

/-- A page's entry becomes invalid (R348): its frame and twin are released unless an alias names them (R345). -/
def Dev.invalidateEntry (d : Dev) (e : Nat) : Dev :=
  let x := d.mapEntry e
  (d.modMap e fun _ => {}).each (x.frame.toList ++ x.twin.toList) Dev.dropFrame

/-- Commands of a context that hold an epoch: begun and not retired, and RUN_PLANs under way (R347, R348). -/
def Dev.oldestEpoch (d : Dev) (c : Nat) : Option Nat :=
  let tag := (d.ctx c).tag.toNat
  ((d.queues.flatMap fun q => q.2.begun.filter fun k => k.context == tag).map Cmd.epoch).min?

/-- Every command of the context that captured an epoch before `e` has retired (R348). -/
def Dev.epochRetired (d : Dev) (c e : Nat) : Bool :=
  match d.oldestEpoch c with
  | some o => decide (e ≤ o)
  | none => true

/-- The entry of a context's page (R341). -/
def Context.entryOf (x : Context) (page : Nat) : Option Nat :=
  let base := x.vaGib.toNat * 512
  if base ≤ page && page < base + x.mapCount.toNat * 512 then some (x.mapBase.toNat * 512 + (page - base)) else none

/-- The page of a context at an address is usable by a command that captured an epoch (R347). -/
def MapEntry.liveAt (x : MapEntry) (epoch : Nat) : Bool :=
  x.valid && (match x.dead with
    | none => true
    | some e => decide (epoch < e))

/-! ### The scale table's groups (R163, R399) -/

/-- The groups assigned to a context. -/
def Dev.scaleGroups (d : Dev) (c : Nat) : List Nat :=
  (d.groups.filter fun p => (p.2.map Prod.fst) == some c).map Prod.fst

/-- Free entries of a context's groups, in order. -/
def Dev.freeEntries (d : Dev) (c : Nat) : List Nat :=
  (d.scaleGroups c).flatMap fun g => ((List.range 256).map (256 * g + ·)).filter fun e => !(d.scaleEntry e).used

/-- Whole groups no context holds. -/
def Dev.freeGroups (d : Dev) : List Nat := (List.range 4096).filter fun g => (d.groups.get none g) == none

/-- Groups are assigned until `n` entries are free for the context (R399); the number that could be had otherwise. -/
def Dev.takeEntries (d : Dev) (c n : Nat) : Except NoFrame (Dev × List Nat) :=
  let have' := d.freeEntries c
  if n ≤ have'.length then .ok (d, have'.take n)
  else
    let need := ceilDiv (n - have'.length) 256
    let free := d.freeGroups
    if free.length < need then .error .frames
    else match d.keyFor (c, 0xFF, false) with
    | none => .error .keys
    | some (d, k) =>
      let d := d.each (free.take need) fun d g => { d with groups := d.groups.set none g (some (c, k)) }
      .ok (d, (d.freeEntries c).take n)

end Sys2Proof.Machine
end

