-- ==== Sys2Proof/Machine/Tpf.lean ====
section
/-! DEFINITION. Reading a TPF module (R217 to R257): header, sections, entries and operation records, with the failures the
reading itself meets, and the refusal record (R280). -/

namespace Sys2Proof.Machine

/-- A refusal (R280): every field at "none" unless a check names it. -/
structure Refuse where
  code      : Nat
  stage     : Nat := 4
  resource  : Nat := 0
  step      : Nat := 0xFFFFFFFF
  op        : Nat := 0xFFFFFFFF
  tensor    : Nat := 0xFFFF
  sec       : Nat := 0
  entry     : Nat := 0xFFFFFFFF
  field     : Nat := 0xFFFF
  die       : Nat := 0xFF
  unit      : Nat := 0
  required  : Nat := 0
  available : Nat := 0
  deriving DecidableEq, Repr

/-- The ten words of a refusal record (R280). -/
def Refuse.words (r : Refuse) : List W32 :=
  [BitVec.ofNat 32 (r.code + 65536 * r.stage + 16777216 * r.resource), BitVec.ofNat 32 r.step, BitVec.ofNat 32 r.op,
   BitVec.ofNat 32 (r.tensor + 65536 * r.sec), BitVec.ofNat 32 r.entry,
   BitVec.ofNat 32 (r.field % 65536 + 65536 * r.die + 16777216 * r.unit),
   BitVec.ofNat 32 r.required, BitVec.ofNat 32 (r.required / 4294967296),
   BitVec.ofNat 32 r.available, BitVec.ofNat 32 (r.available / 4294967296)]

/-- The order among the failures of one check (R264): step, then operation, then tensor, each before none. -/
def Refuse.before (a b : Refuse) : Bool :=
  a.step < b.step || (a.step == b.step && (a.op < b.op || (a.op == b.op && a.tensor < b.tensor)))

/-- The first failure of one check (R264); of equal ones, the one found first. -/
def firstFailure : List Refuse → Option Refuse
  | [] => none
  | r :: t => match firstFailure t with
    | none => some r
    | some s => if s.before r then some s else some r

/-! ### Header and sections (R217 to R222) -/

/-- Consecutive groups of `n` words; a short last group is left out. -/
def groupsFrom (n : Nat) : Nat → List W32 → List (List W32)
  | 0, _ => []
  | k + 1, l => if n = 0 || l.length < n then [] else l.take n :: groupsFrom n k (l.drop n)

/-- The byte offset of the first non-zero reserved field among (word, low bit, width) (R222). -/
def reservedAt (ws : List W32) (l : List (Nat × Nat × Nat)) : Option Nat :=
  (l.find? fun r => bitsOf (wordAt ws r.1) r.2.1 r.2.2 != 0).map fun r => 4 * r.1 + r.2.1 / 8

/-- Byte `i` of a word list. -/
def byteAt (ws : List W32) (i : Nat) : Nat := bitsOf (wordAt ws (i / 4)) (8 * (i % 4)) 8

/-- Stage 1 (R217, R264): magic, body_len with the module's size, 64 MiB, level. -/
def headerCheck (ws : List W32) (size : Nat) : Option Refuse :=
  let bodyLen := wordAt ws 2
  let isSigned := bitOf (wordAt ws 3) 0
  let sigLen := wordAt ws (bodyLen / 4 + 1)
  let r (code field : Nat) : Option Refuse := some { code := code, stage := 1, field := field }
  if wordAt ws 0 ≠ 0x00465054 then r Code.loadFormat 0
  else if bodyLen % 8 ≠ 0 || bodyLen < 16 then r Code.loadFormat 8
  else if !isSigned && bodyLen ≠ size then r Code.loadFormat 8
  else if isSigned && (size < bodyLen + 8 || bodyLen + 8 + 8 * ceilDiv sigLen 8 ≠ size ||
      bitsOf (wordAt ws (bodyLen / 4)) 0 16 ≠ 0x7FFF) then r Code.loadFormat 8
  else if size > 67108864 then r Code.loadFormat 8
  else if bitsOf (wordAt ws 1) 0 8 ≠ 1 && bitsOf (wordAt ws 1) 0 8 ≠ 2 then r Code.loadLevelUnsupported 4
  else none

/-- A section of the body: its tag, its body's length in bytes, its body's words. -/
structure TpfSection where
  tag  : Nat
  len  : Nat
  body : List W32
  deriving DecidableEq, Repr

/-- The sections from the words after the header (R218, R219), with what is out of form. -/
def readSections : Nat → Nat → List W32 → List TpfSection × List Refuse
  | 0, _, _ => ([], [])
  | fuel + 1, last, ws =>
    if ws.isEmpty then ([], [])
    else
      let tag := bitsOf (wordAt ws 0) 0 16
      let len := wordAt ws 1
      let n := 2 * ceilDiv len 8
      let rest := ws.drop 2
      if ws.length < 2 || rest.length < n then ([], [{ code := Code.loadFormat, sec := tag, field := 4 }])
      else
        let body := rest.take n
        let bad : List Refuse :=
          (if bitsOf (wordAt ws 0) 16 16 ≠ 0 then [{ code := Code.loadFormat, sec := tag, field := 2 }] else []) ++
          (if (List.range (4 * n - len)).any (fun i => byteAt body (len + i) != 0)
            then [{ code := Code.loadFormat, sec := tag, field := 8 + len }] else []) ++
          (if tag ≤ last || (tag < 0x8000 && 0x000B < tag) then [{ code := Code.loadFormat, sec := tag, field := 0 }]
            else [])
        let (ss, rs) := readSections fuel (max last tag) (rest.drop n)
        ({ tag := tag, len := len, body := body } :: ss, bad ++ rs)

/-- The first section with a tag. -/
def sectionOf (ss : List TpfSection) (tag : Nat) : Option TpfSection := ss.find? (·.tag == tag)

/-- The words of a section's body, without padding; none of an absent one. -/
def sectionWords (ss : List TpfSection) (tag : Nat) : List W32 :=
  match sectionOf ss tag with
  | none => []
  | some s => s.body.take (s.len / 4)

/-- The entries of a fixed-entry section and its failures: the entry size (R218) and reserved fields (R222).
`names` says whether an entry is a tensor (1), a step (2) or neither. -/
def fixedEntries (ss : List TpfSection) (tag words names : Nat) (reserved : List (Nat × Nat × Nat)) :
    List (List W32) × List Refuse :=
  match sectionOf ss tag with
  | none => ([], [])
  | some s =>
    let es := groupsFrom words (s.len / 4) (s.body.take (s.len / 4))
    (es, (if s.len % (4 * words) ≠ 0 then [{ code := Code.loadFormat, sec := tag, field := 4 }] else []) ++
      es.zipIdx.filterMap fun e => (reservedAt e.1 reserved).map fun f =>
        { code := Code.loadFormat, sec := tag, entry := e.2, field := f
          tensor := if names = 1 then e.2 else 0xFFFF, step := if names = 2 then e.2 else 0xFFFFFFFF })

/-! ### Entries -/

/-- A TENSORS entry (R224), its extents from DIMS. -/
def readTensor (dims : List W32) (w : List W32) : TensorDecl :=
  let f (i lo n : Nat) := bitsOf (wordAt w i) lo n
  let rank := f 0 4 4
  let at' := wordAt w 1
  { format := f 0 0 4, rank := rank, blockAxis := f 0 8 3, tierHint := f 0 12 2, domain := f 0 14 4
    readOnly := f 0 18 1 == 1, hostWrite := f 0 19 1 == 1, hostRead := f 0 20 1 == 1
    dimsIndex := at', scaleIndex := f 2 0 16
    dims := if 1 ≤ rank && rank ≤ 8 && at' + rank ≤ dims.length then ((dims.drop at').take rank).map BitVec.toNat
            else [] }

/-- The SCALES records (R227) in order of appearance. -/
def readScales : Nat → Nat → List W32 → List ScaleRec × List Refuse
  | 0, _, _ => ([], [])
  | fuel + 1, k, ws =>
    if ws.isEmpty then ([], [])
    else
      let f (lo n : Nat) := bitsOf (wordAt ws 0) lo n
      let count := f 16 11
      let n := ceilDiv count 4
      if ws.length < 2 + n then ([], [{ code := Code.loadFormat, sec := 4, entry := k, field := 2 }])
      else
        let seeds := ws.drop 2
        let bad : List Refuse :=
          (if f 27 5 ≠ 0 then [{ code := Code.loadFormat, sec := 4, entry := k, field := 3 }] else []) ++
          (if (List.range (4 * n - count)).any (fun i => byteAt seeds (count + i) != 0)
            then [{ code := Code.loadFormat, sec := 4, entry := k, field := 8 + count }] else [])
        let r : ScaleRec :=
          { policy := f 0 2, histLen := f 2 10 + 1, margin := f 12 4, coarse := ws.getD 1 0
            seed := (List.range count).map (byteAt seeds), rawHist := f 2 10, rawSeeds := count }
        let (rs, es) := readScales fuel (k + 1) (ws.drop (2 + n))
        (r :: rs, bad ++ es)

/-- A STREAMS entry (R228). -/
def readStream (w : List W32) : StreamDecl :=
  { identity := wordAt w 0, isOpen := bitOf (wordAt w 1) 0, seed := dwordAt w 2 }

/-- A STEPS entry (R231). -/
def readStep (w : List W32) : StepDecl :=
  { firstOp := wordAt w 0, opCount := wordAt w 1, span := bitsOf (wordAt w 2) 0 4 + 1
    regionCount := bitsOf (wordAt w 2) 8 8, firstRegion := wordAt w 3 }

/-- An INTENTS entry (R257). -/
def readIntent (w : List W32) : Intent :=
  { tensor := bitsOf (wordAt w 0) 0 16, tier := bitsOf (wordAt w 0) 16 2, first := wordAt w 1, last := wordAt w 2 }

/-- The operation records (R234). -/
def readOps : Nat → Nat → List W32 → List OpRec × List Refuse
  | 0, _, _ => ([], [])
  | fuel + 1, k, ws =>
    if ws.isEmpty then ([], [])
    else
      let len := bitsOf (wordAt ws 0) 16 8
      let deps := bitsOf (wordAt ws 0) 24 4
      if len < 3 + deps || ws.length < len then ([], [{ code := Code.loadFormat, sec := 9, entry := k, field := 2 }])
      else
        let rec' := ws.take len
        let o : OpRec :=
          { opcode := bitsOf (wordAt ws 0) 0 16, conv := rec'.getD 1 0, out := bitsOf (wordAt ws 2) 0 16
            mask := bitsOf (wordAt ws 2) 16 16, words := (rec'.drop 3).take (len - 3 - deps)
            deps := (rec'.drop (len - deps)).map BitVec.toNat }
        let bad : List Refuse :=
          if bitsOf (wordAt ws 0) 28 4 ≠ 0 then [{ code := Code.loadFormat, sec := 9, entry := k, field := 3 }] else []
        let (os, es) := readOps fuel (k + 1) (ws.drop len)
        (o :: os, bad ++ es)

/-- A record-level failure is named by its step and local index (R264), where a step holds the record. -/
def nameRecord (steps : List StepDecl) (r : Refuse) : Refuse :=
  if r.sec = 9 && r.entry ≠ 0xFFFFFFFF then
    match steps.zipIdx.find? fun s => s.1.firstOp ≤ r.entry && r.entry < s.1.firstOp + s.1.opCount with
    | some s => { r with step := s.2, op := r.entry - s.1.firstOp }
    | none => r
  else r

/-- The steps cover OPS in step order, each record in one step (R231). -/
def coverSteps : Nat → Nat → List StepDecl → List Refuse
  | next, total, [] => if next < total then [{ code := Code.loadFormat, sec := 9, entry := next, field := 0 }] else []
  | _, total, s :: t =>
    coverSteps (s.firstOp + s.opCount) total t

/-- Failures of the STEPS entries (R231): coverage, counts, region references. -/
def stepFailures (regions total : Nat) : Nat → Nat → List StepDecl → List Refuse
  | _, _, [] => []
  | k, next, s :: t =>
    let f (field : Nat) : Refuse := { code := Code.loadFormat, sec := 7, entry := k, step := k, field := field }
    (if s.firstOp ≠ next then [f 0] else []) ++
    (if s.opCount = 0 || s.opCount > 65536 || s.firstOp + s.opCount > total then [f 4] else []) ++
    (if s.firstRegion + s.regionCount > regions then [f 12] else []) ++
    stepFailures regions total (k + 1) (s.firstOp + s.opCount) t

/-- Signature entries: public key and signature (R221). -/
def readSignatures (bs : List Byte) : Nat → List (List Byte × List Byte)
  | 0 => []
  | n + 1 => (bs.take 32, (bs.drop 32).take 64) :: readSignatures (bs.drop 96) n

/-- A module read from its bytes (R211 to R257), with the failures of the reading. -/
def readModule (bytes : List Byte) : Module × List Refuse :=
  let ws := wordsOfBytes bytes
  let bodyLen := wordAt ws 2
  let isSigned := bitOf (wordAt ws 3) 0
  let (ss, e0) := readSections (bodyLen / 8 + 1) 0 ((ws.take (bodyLen / 4)).drop 4)
  let sig := (bytes.drop bodyLen)
  let sigLen := if isSigned then wordAt ws (bodyLen / 4 + 1) else 0
  let head : List Refuse :=
    (if bitsOf (wordAt ws 1) 8 24 ≠ 0 then [{ code := Code.loadFormat, field := 5 }] else []) ++
    (if bitsOf (wordAt ws 3) 1 31 ≠ 0 then [{ code := Code.loadFormat, field := 12 }] else []) ++
    (if isSigned && (bitsOf (wordAt ws (bodyLen / 4)) 16 16 ≠ 0 || sigLen % 96 ≠ 0 ||
        ((sig.drop (8 + sigLen)).any (· != 0))) then [{ code := Code.loadFormat, sec := 0x7FFF, field := 2 }] else [])
  let need : List Refuse := ([2, 3, 7, 9].filter fun t => (sectionOf ss t).isNone).map fun t =>
    { code := Code.loadFormat, sec := t }
  let (tRaw, e2) := fixedEntries ss 2 4 1 [(0, 11, 1), (0, 21, 11), (2, 16, 16), (3, 0, 32)]
  let (dRaw, e3) := fixedEntries ss 3 1 0 []
  let dims := dRaw.map fun d => d.getD 0 0
  let scaleLen := ((sectionOf ss 4).map TpfSection.len).getD 0
  let (scales, e4) := readScales (scaleLen + 1) 0 (sectionWords ss 4)
  let (sRaw, e5) := fixedEntries ss 5 4 0 [(1, 1, 31)]
  let (gRaw, e6) := fixedEntries ss 6 2 0 [(0, 11, 21), (1, 0, 32)]
  let (stRaw, e7) := fixedEntries ss 7 4 2 [(2, 4, 4), (2, 16, 16)]
  let (rRaw, e8) := fixedEntries ss 8 2 0 []
  let opLen := ((sectionOf ss 9).map TpfSection.len).getD 0
  let (ops, e9) := readOps (opLen + 1) 0 (sectionWords ss 9)
  let (nRaw, e10) := fixedEntries ss 10 1 0 [(0, 16, 16)]
  let (iRaw, e11) := fixedEntries ss 11 4 0 [(0, 18, 14), (3, 0, 32)]
  let (oRaw, e1) := fixedEntries ss 1 1 0 [(0, 8, 24)]
  let steps := stRaw.map readStep
  let lens : List Refuse :=
    (if scaleLen % 4 ≠ 0 then [{ code := Code.loadFormat, sec := 4, field := 4 }] else []) ++
    (if opLen % 4 ≠ 0 then [{ code := Code.loadFormat, sec := 9, field := 4 }] else [])
  ({ level := bitsOf (wordAt ws 1) 0 8
     hasDomains := (sectionOf ss 1).isSome, hasIntents := (sectionOf ss 11).isSome
     domains := oRaw.map fun w => bitsOf (wordAt w 0) 0 8
     tensors := tRaw.map (readTensor dims)
     scales := scales
     streams := sRaw.map readStream
     groups := gRaw.map fun w => bitsOf (wordAt w 0) 0 11
     steps := steps
     regions := rRaw.map fun w => { rows := wordAt w 0, cols := wordAt w 1 }
     ops := ops
     state := nRaw.map fun w => bitsOf (wordAt w 0) 0 16
     intents := iRaw.map readIntent
     signatures := readSignatures (sig.drop 8) (sigLen / 96)
     digest := Config.sha512 (bytes.take bodyLen) },
   (head ++ e0 ++ need ++ e1 ++ e2 ++ e3 ++ e4 ++ e5 ++ e6 ++ e7 ++ e8 ++ e9 ++ e10 ++ e11 ++ lens ++
     stepFailures rRaw.length ops.length 0 0 steps ++
     coverSteps 0 ops.length steps).map (nameRecord steps))

/-! ### Records and their nesting (R253 to R255) -/

/-- The operations of step `i`. -/
def Module.stepOps (m : Module) (i : Nat) : List OpRec :=
  let s := m.steps.getD i { firstOp := 0, opCount := 0, span := 1, regionCount := 0, firstRegion := 0 }
  (m.ops.drop s.firstOp).take s.opCount

def Module.span (m : Module) (i : Nat) : Nat := ((m.steps[i]?).map StepDecl.span).getD 1

def Module.tensor (m : Module) (t : Nat) : TensorDecl := m.tensors.getD t {}

/-- A tensor's scale record; 0xFFFF is the fixed policy with coarse scale 1.0 (R224). -/
def Module.scaleOf (m : Module) (t : Nat) : ScaleRec :=
  let k := (m.tensor t).scaleIndex
  if k = 0xFFFF then {} else m.scales.getD k {}

/-- The scale policy of a tensor (R154). -/
def Module.policyOf (m : Module) (t : Nat) : Nat := (m.scaleOf t).policy

def OpRec.isBranch (o : OpRec) : Bool := o.opcode == 0x0900
def OpRec.isLoop (o : OpRec) : Bool := o.opcode == 0x0901
def OpRec.isCollective (o : OpRec) : Bool := 0x0800 ≤ o.opcode && o.opcode ≤ 0x0804

/-- Selector and arm lengths of a c.branch (R238). -/
def OpRec.branch (o : OpRec) : Operand × List Nat :=
  let (s, j) := operandAt o.words 0
  let arms := wordAt o.words j % 16 + 1
  (s, ((o.words.drop (j + 1)).take arms).map BitVec.toNat)

/-- Form, max_trips, trip count or condition, and body length of a c.loop (R238). -/
def OpRec.loop (o : OpRec) : Bool × Nat × Operand × Nat :=
  let (t, j) := operandAt o.words 2
  (bitOf (wordAt o.words 0) 0, wordAt o.words 1, t, wordAt o.words j)

/-- Lengths of the arms or the body of a construct; none for another operation (R253). -/
def OpRec.lengths (o : OpRec) : List Nat :=
  if o.isBranch then o.branch.2 else if o.isLoop then [o.loop.2.2.2] else []

/-- A construct whose records are being passed: its index, the arm, the records left in it, the arms to come. -/
structure OpenArm where
  construct : Nat
  arm       : Nat
  left      : Nat
  more      : List Nat

/-- The next arm that holds records. -/
def nextArm : Nat → List Nat → Option (Nat × Nat × List Nat)
  | _, [] => none
  | a, n :: t => if n = 0 then nextArm (a + 1) t else some (a + 1, n, t)

/-- Constructs whose records are all passed are left. -/
def settleArms : List OpenArm → List OpenArm
  | [] => []
  | f :: t =>
    if f.left ≠ 0 then f :: t
    else match nextArm f.arm f.more with
      | some (a, n, m) => { f with arm := a, left := n, more := m } :: t
      | none => settleArms t

/-- The lengths cut to what is left of the enclosing arm. -/
def clipLengths : Nat → List Nat → List Nat
  | _, [] => []
  | n, a :: t => min a n :: clipLengths (n - min a n) t

/-- For each record: its enclosing constructs and arms, innermost first, and whether it overruns (R253, R254). -/
def nesting : Nat → List OpenArm → List OpRec → List (List (Nat × Nat) × Bool)
  | _, _, [] => []
  | i, open', o :: t =>
    let st := settleArms open'
    let st' := st.map fun f => { f with left := f.left - 1 }
    let left := match st' with
      | [] => t.length
      | f :: _ => f.left
    let lens := o.lengths
    let st'' := match clipLengths left lens with
      | [] => st'
      | n :: m => { construct := i, arm := 0, left := n, more := m } :: st'
    (st.map fun f => (f.construct, f.arm), decide (sumNat lens > left)) :: nesting (i + 1) st'' t

/-- The nesting of a step's records. -/
def nestOf (ops : List OpRec) : List (List (Nat × Nat) × Bool) := nesting 0 [] ops

/-! ### Reads, writes and dependence (R214) -/

/-- Operations whose `out` is a scalar slot (R234). -/
def OpRec.writesSlot (o : OpRec) : Bool := o.opcode == 0x0213 || o.opcode == 0x0502

/-- Operations that write neither a tensor nor a slot (R234). -/
def OpRec.writesNothing (o : OpRec) : Bool :=
  o.opcode == 0x0503 || o.opcode == 0x0700 || o.opcode == 0x0701 || o.opcode == 0x0803 || o.isBranch || o.isLoop

/-- Whether a record draws from its stream (R172). -/
def OpRec.draws (o : OpRec) : Bool :=
  !o.writesSlot && !o.writesNothing && o.streamValid &&
  (o.opcode == 0x0600 || o.opcode == 0x0601 || o.conv.toNat % 4 == 2)

/-- The operands of a record (R238). -/
def OpRec.operands (o : OpRec) : List Operand :=
  match o.opcode with
  | 0x0100 => [o.operand 3, o.operand 4]
  | 0x0200 => operandsAt o.words (fnArity (o.f 3 0 8)) 1
  | 0x0210 | 0x0211 | 0x0213 => [o.operand 4]
  | 0x0212 | 0x0300 | 0x0301 => [o.operand 4, o.operand 5]
  | 0x0400 | 0x0401 | 0x0402 | 0x0500 | 0x0501 | 0x0502 | 0x0503 | 0x0601 | 0x0700 | 0x0701 => [o.operand 3]
  | 0x0600 => if o.f 3 0 1 = 1 then [o.operand 4] else []
  | 0x0800 | 0x0801 | 0x0802 => [o.operand 4]
  | 0x0803 => [o.operand 5]
  | 0x0900 => [o.branch.1]
  | 0x0901 => [o.loop.2.2.1]
  | _ => []

/-- Tensors a record writes (R214). -/
def OpRec.writes (o : OpRec) : List Nat :=
  if o.writesSlot || o.writesNothing || o.out = 0xFFFF then []
  else if o.opcode = 0x0100 && o.f 5 9 1 = 0 then []
  else [o.out]

/-- Tensors a record reads (R214, R238). -/
def OpRec.reads (o : OpRec) : List Nat :=
  operandTensors o.operands ++ o.maskReads ++
  (if o.opcode = 0x0301 || o.opcode = 0x0501 then [o.out] else []) ++
  (if o.mask ≠ 0xFFFF && !o.zeroMode && o.opcode ≠ 0x0213 then [o.out] else [])

/-- Record `j` is one that record `i > j` depends on directly (R214). -/
def dependsOn (i j : OpRec) (jIndex : Nat) : Bool :=
  i.reads.any j.writes.contains || i.writes.any (fun t => j.reads.contains t || j.writes.contains t) ||
  i.deps.contains jIndex

/-- Scalar slots a record reads and writes (R233, R238). -/
def OpRec.slotReads (o : OpRec) : List Nat :=
  o.operands.filterMap fun
    | .slot i => some i
    | _ => none

def OpRec.slotWrites (o : OpRec) : List Nat := if o.writesSlot then [o.out] else []

/-- Record `k` must follow record `j < k` for a step's results to be those of index order (R213): it depends on it (R214), or a
slot that one of them writes is the other's. -/
def follows (ops : List OpRec) (j k : Nat) : Bool :=
  match ops[k]?, ops[j]? with
  | some a, some b =>
    dependsOn a b j || a.slotReads.any b.slotWrites.contains ||
      a.slotWrites.any fun s => b.slotReads.contains s || b.slotWrites.contains s
  | _, _ => false

/-- The region an mx.contract names (R239). -/
def OpRec.region (o : OpRec) : Option Nat :=
  if o.opcode = 0x0100 && o.f 5 0 8 ≠ 0xFF then some (o.f 5 0 8) else none

/-- For each record, every record it depends on, directly or through others (R214). -/
def dependencyClosure (ops : List OpRec) : List (List Nat) :=
  (ops.zipIdx.foldl (fun (acc : List (OpRec × List Nat)) o =>
    let direct := acc.zipIdx.filter fun p => dependsOn o.1 p.1.1 p.2
    acc ++ [(o.1, (direct.flatMap fun p => p.2 :: p.1.2).eraseDups)]) []).map Prod.snd

/-- Tensors an operation of the module writes. -/
def Module.written (m : Module) : List Nat := (m.ops.flatMap OpRec.writes).eraseDups

end Sys2Proof.Machine
end

