-- ==== Sys2Proof/Machine/Store.lean ====
section
/-! DEFINITION. Tensors of a loaded plan in memory (R270, R324, R434): where each byte of a stored form lies, reading it
through the results of uncommitted steps (R215), and the scale-table entry that goes with it. -/

namespace Sys2Proof.Machine

/-- The value at key `k` of a table without a default. -/
def Tab.find {α : Type} : Tab α → Nat → Option α
  | [], _ => none
  | (k', v) :: t, k => if k' = k then some v else Tab.find t k

/-- The table with `(k, v)`, whatever it held at `k`. -/
def Tab.put {α : Type} (t : Tab α) (k : Nat) (v : α) : Tab α := Tab.insert k v (Tab.erase t k)

/-- Pages of a stored form: 2 MiB each (R27, R270). -/
def TensorDecl.pages (t : TensorDecl) : Nat := max 1 (ceilDiv t.storedBytes frameBytes)

/-- An extent's copy is readable (R442). -/
def ExtState.readable : ExtState → Bool
  | .filling | .settling | .resident => true
  | _ => false

/-- The frame behind page `i` of a placed tensor, if one holds it now. -/
def Dev.pageFrame (d : Dev) (p : Placed) (i : Nat) : Option Nat :=
  if p.extents.isEmpty then p.frames[i]?
  else
    let x := d.extent (p.extents.getD (i / 2) 0)
    if x.state.readable && !x.compressed then x.copy[i % 2]? else none

/-- The physical address of byte `b` of a stored form. -/
def Dev.addrOf (d : Dev) (p : Placed) (b : Nat) : Option Nat :=
  (d.pageFrame p (b / frameBytes)).map fun f => frameBytes * f + b % frameBytes

/-- One byte of a stored form as a reader sees it; a compressed copy reads as its contents (R440), what holds no copy
reads 0 (R442). -/
def Dev.tensorByte (d : Dev) (ovl : List Host.Cell) (p : Placed) (b : Nat) : Byte :=
  match d.addrOf p b with
  | some a => Ovl.read ovl d.mem a
  | none =>
    match p.extents[b / (2 * frameBytes)]? with
    | some e =>
      let x := d.extent e
      if x.compressed && x.state.readable then Mem.read x.contents (b % (2 * frameBytes)) else 0
    | none => 0

/-- `n` bytes of a stored form from byte `b`. -/
def Dev.tensorBytes (d : Dev) (ovl : List Host.Cell) (p : Placed) (b n : Nat) : List Byte :=
  (List.range n).map fun i => d.tensorByte ovl p (b + i)

/-- The cells that bytes written at offset `b` of a stored form change. -/
def Dev.tensorCells (d : Dev) (p : Placed) (b : Nat) (bytes : List Byte) : List Host.Cell :=
  bytes.zipIdx.filterMap fun x => (d.addrOf p (b + x.2)).map fun a => (a, x.1)

/-! ### What a run sees (R215) -/

/-- The runs whose uncommitted results a run reads, latest first. -/
def Dev.chain (d : Dev) (r : Run) : List Run :=
  ((d.runs.filter fun p => r.reads.contains p.1 && p.2.state == .ended).map Prod.snd).reverse

/-- The bytes written by a run and by the runs it reads, latest first. -/
def Dev.runOverlay (d : Dev) (r : Run) : List Host.Cell := r.overlay ++ (d.chain r).flatMap Run.overlay

/-- A tensor's coarse scale as a run sees it. -/
def Dev.coarseIn (d : Dev) (r : Run) (t : Nat) : W32 :=
  match (r :: d.chain r).findSome? fun x => if x.plan = r.plan then x.coarse.find t else none with
  | some c => c
  | none => (((d.plan r.plan).tensors)[t]?.map Placed.coarse).getD 0x3F800000

/-- A tensor's recorded exponent maximum as a run sees it (R132). -/
def Dev.expMaxIn (d : Dev) (r : Run) (t : Nat) : Int :=
  match (r :: d.chain r).findSome? fun x => if x.plan = r.plan then x.expMax.find t else none with
  | some c => c
  | none => (((d.plan r.plan).tensors)[t]?.map Placed.expMax).getD 0

/-- A tensor's value as a run sees it. -/
def Dev.tensorIn (d : Dev) (r : Run) (t : Nat) : TensorVal :=
  let p := d.plan r.plan
  let decl := p.module.tensor t
  let place := p.tensors.getD t {}
  TensorVal.ofStored decl.format decl.dims decl.blockAxis (d.tensorBytes (d.runOverlay r) place 0 decl.storedBytes)
    (decl.scaleFor (d.coarseIn r t)) (d.expMaxIn r t)

/-- A tensor's committed value. -/
def Dev.committedTensor (d : Dev) (plan t : Nat) : TensorVal :=
  let p := d.plan plan
  let decl := p.module.tensor t
  let place := p.tensors.getD t {}
  TensorVal.ofStored decl.format decl.dims decl.blockAxis (d.tensorBytes [] place 0 decl.storedBytes)
    (decl.scaleFor place.coarse) place.expMax

/-- A placed tensor of a plan, changed. -/
def Dev.modPlaced (d : Dev) (plan t : Nat) (f : Placed → Placed) : Dev :=
  d.modPlan plan fun p => { p with tensors := p.tensors.modify t f }

/-- A page under a tensor of the plan is dead to a command that captured a map epoch: the command fails with OBJECT_FREED
(R347, R349). -/
def Plan.deadTo (p : Plan) (epoch : Nat) : Bool := p.tensors.any fun t => t.dead.any fun e => decide (e ≤ epoch)

/-- A plan handle (R282). -/
def Plan.handle (p : Plan) (slot : Nat) : Nat := slot + 1024 * (p.generation % 4194304)

/-- The loaded plan a handle names in a context (R282). -/
def Dev.planOf (d : Dev) (ctx handle : Nat) : Option Nat :=
  let slot := handle % 1024
  let p := d.plan slot
  if p.loaded && p.handle slot == handle && p.ctx == ctx then some slot else none

end Sys2Proof.Machine
end

