-- ==== Sys2Proof/Machine/TpfCheck.lean ====
section
/-! DEFINITION. The form rules of TPF (R223 to R260): the checks of the loader's stages 2, 3 and 4 on a module that has been
read. -/

namespace Sys2Proof.Machine

def Module.policy (m : Module) (t : Nat) : Nat := m.policyOf t

/-- A failing field, by byte offset, of one record or entry: code, offset and tensor. -/
abbrev FieldFail := Nat × Nat × Nat

def bad (field : Nat) (tensor : Nat := 0xFFFF) : FieldFail := (Code.loadFormat, field, tensor)

def badIf (c : Bool) (field : Nat) (tensor : Nat := 0xFFFF) : List FieldFail := if c then [bad field tensor] else []

/-! ### Module-level entries -/

/-- One TENSORS entry (R86, R154, R224 to R226, R258). -/
def tensorFails (m : Module) (t : TensorDecl) : List FieldFail :=
  let rankBad := t.rank = 0 || t.rank > 8
  badIf (t.format > 9) 0 ++
  badIf rankBad 0 ++
  badIf (m.level = 1 && (t.format = 1 || t.format = 2)) 0 ++
  badIf (t.blockAxis ≥ t.rank || (!Fmt.isScaled t.format && t.blockAxis ≠ 0)) 1 ++
  badIf (!rankBad && (t.dims.length ≠ t.rank || t.dims.any (· == 0) || countOf t.dims > 1099511627776)) 4 ++
  badIf (t.tierHint = 3 && !t.readOnly) 1 ++
  badIf (if m.hasDomains then t.domain ≥ m.domains.length else t.domain ≠ 0) 1 ++
  (if t.scaleIndex = 0xFFFF then []
   else if t.scaleIndex ≥ m.scales.length then [bad 8]
   else
     let s := m.scales.getD t.scaleIndex {}
     badIf (t.format = 7 && (s.policy ≠ 2 || s.coarse ≠ 0x3F800000)) 8)

/-- One SCALES record (R154, R155, R227, R258). -/
def scaleFails (m : Module) (s : ScaleRec) : List FieldFail :=
  badIf (s.policy = 3) 0 ++
  badIf (s.policy ≠ 0 && s.rawHist ≠ 0) 0 ++
  badIf (s.policy = 2 && s.margin ≠ 0) 1 ++
  badIf (if s.policy = 0 then s.rawSeeds > s.histLen else s.rawSeeds ≠ 0) 2 ++
  badIf (m.level = 1 && s.rawSeeds ≠ 0) 2 ++
  badIf (if s.policy = 2 then !coarseValid s.coarse else s.coarse ≠ 0) 4

/-- Whether two intents of one tensor overlap (R257). -/
def Intent.overlaps (a b : Intent) : Bool := a.tensor == b.tensor && a.first ≤ b.last && b.first ≤ a.last

/-- Failures of a section's entries, as refusals. -/
def entryFails {α : Type} (sec : Nat) (tensorOf : Nat → α → Nat) (f : Nat → α → List FieldFail) (l : List α) :
    List Refuse :=
  l.zipIdx.flatMap fun e => (f e.2 e.1).map fun x =>
    { code := x.1, sec := sec, entry := e.2, field := x.2.1, tensor := tensorOf e.2 e.1 }

/-- Failures of every entry but steps and operations (R223 to R229, R256 to R258). -/
def moduleFails (m : Module) : List Refuse :=
  entryFails 2 (fun i _ => i) (fun _ t => tensorFails m t) m.tensors ++
  (if m.tensors.length > 65535 then [{ code := Code.loadFormat, sec := 2, entry := 65535 }] else []) ++
  entryFails 4 (fun _ _ => 0xFFFF) (fun _ s => scaleFails m s) m.scales ++
  entryFails 5 (fun _ _ => 0xFFFF) (fun i (s : StreamDecl) =>
    badIf ((m.streams.take i).any (·.identity == s.identity)) 0 ++ badIf (m.level = 1 && !s.isOpen) 4) m.streams ++
  (if m.streams.length > 256 then [{ code := Code.loadFormat, sec := 5, entry := 256 }] else []) ++
  entryFails 6 (fun _ _ => 0xFFFF) (fun _ n => badIf (n < 2 || 1024 < n) 0) m.groups ++
  (if m.groups.length > 16 then [{ code := Code.loadFormat, sec := 6, entry := 16 }] else []) ++
  (if m.domains.length > 16 then [{ code := Code.loadFormat, sec := 1, entry := 16 }] else []) ++
  (if m.level = 1 && m.hasDomains then [{ code := Code.loadFormat, sec := 1 }] else []) ++
  (if m.level = 1 && m.hasIntents then [{ code := Code.loadFormat, sec := 11 }] else []) ++
  (if m.steps.length > 65536 then [{ code := Code.loadFormat, sec := 7, entry := 65536 }] else []) ++
  entryFails 10 (fun _ t => t) (fun i t =>
    badIf (t ≥ m.tensors.length || (m.tensor t).readOnly || (m.state.take i).contains t) 0) m.state ++
  entryFails 11 (fun _ (x : Intent) => x.tensor) (fun i x =>
    badIf (x.tensor ≥ m.tensors.length || !(m.tensor x.tensor).readOnly) 0 ++
    badIf (x.tier ≠ 1 && x.tier ≠ 2) 2 ++
    badIf ((m.intents.take i).any x.overlaps) 4 ++
    badIf (x.last < x.first || x.last ≥ m.steps.length) 8) m.intents

/-! ### Operation records (R234 to R255) -/

/-- An opcode-specific word: an operand of the kinds listed, or a word of a mask of its defined bits. -/
inductive Item where
  | operand (kinds : List Nat)
  | word (defined : Nat)
  deriving DecidableEq, Repr

def Item.tensor : Item := .operand [0]
def Item.any : Item := .operand [0, 1, 2, 3]

/-- The opcode-specific words of a record (R238); none for an opcode not listed. -/
def opItems (o : OpRec) : Option (List Item) :=
  let w0 := wordAt o.words 0
  match o.opcode with
  | 0x0100 => some [.tensor, .tensor, .word 0x7FF, .word 0xFFFFFFFF]
  | 0x0200 => some (.word 0x7FF :: List.replicate (fnArity (w0 % 256)) .any)
  | 0x0210 => some [.word 0x177, .tensor]
  | 0x0211 => some [.word 0x377, .tensor]
  | 0x0212 => some [.word 0x777, .tensor, .tensor]
  | 0x0213 => some [.word 0x7, .tensor]
  | 0x0300 => some [.word 0x7, .tensor, .tensor]
  | 0x0301 => some [.word 0x17, .tensor, .tensor]
  | 0x0400 => some [.tensor]
  | 0x0401 => some [.tensor, .word 0xFFFFFFFF]
  | 0x0402 => some [.tensor, .word 0x7, .word 0xFFFFFFFF, .word 0xFFFFFFFF]
  | 0x0500 => some [.tensor]
  | 0x0501 => some [.operand [1, 2]]
  | 0x0502 => some [.tensor]
  | 0x0503 => some [.tensor]
  | 0x0600 => some (.word 0x1 :: if w0 % 2 = 1 then [.any] else [])
  | 0x0601 => some [.tensor]
  | 0x0700 => some [.tensor, .word 0x3, .word 0xFFFFFFFF]
  | 0x0701 => some [.tensor, .word 0x3]
  | 0x0800 => some [.word 0xFF13, .tensor]
  | 0x0801 => some [.word 0xFF07, .tensor]
  | 0x0802 => some [.word 0xFF07, .tensor]
  | 0x0803 => some [.word 0xFFFFFF00, .word 0xFFFFFFFF, .tensor]
  | 0x0804 => some [.word 0xFFFFFF00, .word 0xFFFFFFFF]
  | 0x0900 =>
    let (_, j) := operandAt o.words 0
    some (.operand [1, 3] :: .word 0xF :: List.replicate (wordAt o.words j % 16 + 1) (.word 0xFFFFFFFF))
  | 0x0901 =>
    some [.word 0x1, .word 0xFFFFFFFF, if bitOf w0 0 then .operand [1] else .operand [1, 3], .word 0xFFFFFFFF]
  | _ => none

/-- An operand word (R236, R260): reserved bits, kind, index. -/
def operandFails (m : Module) (o : OpRec) (kinds : List Nat) (w off : Nat) : List FieldFail :=
  let kind := bitsOf w 16 2
  let ix := w % 65536
  badIf (bitsOf w 18 14 ≠ 0) (off + 2) ++
  (if !kinds.contains kind then [bad (off + 2)]
   else match kind with
   | 0 => if ix < m.tensors.length || (o.opcode = 0x0100 && ix = 0xFFFF) then [] else [bad off ix]
   | 1 => badIf (ix > 255) off
   | _ => badIf (ix ≠ 0) off)

/-- The opcode-specific words in order, from position `p`: their failures and the position after them. -/
def walkItems (m : Module) (o : OpRec) : List Item → Nat → List FieldFail × Nat
  | [], p => ([], p)
  | .word d :: t, p =>
    let (fs, q) := walkItems m o t (p + 1)
    (badIf ((List.range 32).any fun b => bitOf (wordAt o.words p) b && !bitOf d b) (4 * (3 + p)) ++ fs, q)
  | .operand ks :: t, p =>
    let w := wordAt o.words p
    let n := if bitsOf w 16 2 ≥ 2 then 2 else 1
    let (fs, q) := walkItems m o t (p + n)
    (operandFails m o ks w (4 * (3 + p)) ++ fs, q)

/-- Extents broadcast to a shape (R236). -/
def broadcasts (s t : List Nat) : Bool := s.length == t.length && (s.zip t).all fun p => p.1 == p.2 || p.1 == 1

/-- The declaration an operand names, if it names one. -/
def Module.operandDecl (m : Module) (x : Operand) : Option (Nat × TensorDecl) :=
  match x with
  | .tensor i => (m.tensors[i]?).map fun d => (i, d)
  | _ => none

/-- The integer an FP32 immediate holds in INT32 range (R236). -/
def intImmediate (b : W32) : Bool := (f32Val b.toNat).toInt32.isSome

/-- mx.contract (R123, R126, R139, R142, R232, R239, R240). -/
def contractFails (m : Module) (s : StepDecl) (o : OpRec) : List FieldFail :=
  let a := o.tensorAt 3
  let b := o.tensorAt 4
  let region := o.f 5 0 8
  let accum := o.f 5 8 1 == 1
  let fin := o.f 5 9 1 == 1
  let explicit := o.f 5 10 1 == 1
  let val := signed 32 (o.w 6)
  let od := m.tensor o.out
  let outOk := o.out < m.tensors.length
  let rank := od.dims.length
  let noLen := a = 0xFFFF && b = 0xFFFF
  let reg := m.regions.getD (s.firstRegion + region) { rows := 0, cols := 0 }
  badIf (region ≠ 0xFF && region ≥ s.regionCount) 20 ++
  badIf (outOk && rank ≠ 2 && rank ≠ 3) 8 o.out ++
  (if noLen then
    badIf (outOk && region ≠ 0xFF && region < s.regionCount &&
      (reg.rows ≠ countOf od.dims.dropLast || reg.cols ≠ od.dims.getLastD 1)) 20 ++
    badIf (region = 0xFF || !accum || !fin) 20 ++ badIf (explicit) 20 ++ badIf (val ≠ 0) 24
   else if a = 0xFFFF then [bad 12]
   else if b = 0xFFFF then [bad 16]
   else
     let ta := m.tensor a
     let tb := m.tensor b
     let ra := ta.dims.length
     let rb := tb.dims.length
     let scaled := Fmt.isScaled ta.format && Fmt.isScaled tb.format
     let wide := Fmt.is16 ta.format && Fmt.is16 tb.format
     let k := ta.dims.getLastD 1
     let blocks := ceilDiv k 32
     let batch := (if ra = 3 then [ta.dims.headD 1] else []) ++ (if rb = 3 then [tb.dims.headD 1] else [])
     badIf (!scaled && !wide) 12 a ++
     badIf (ra ≠ 2 && ra ≠ 3) 12 a ++ badIf (rb ≠ 2 && rb ≠ 3) 16 b ++
     badIf (k ≠ tb.dims.getD (rb - 2) 1) 16 b ++
     badIf (Fmt.isScaled ta.format && ta.blockAxis ≠ ra - 1) 12 a ++
     badIf (Fmt.isScaled tb.format && tb.blockAxis ≠ rb - 2) 16 b ++
     badIf (batch.eraseDups.length > 1) 16 b ++
     badIf (outOk && od.dims ≠ batch.take 1 ++ [ta.dims.getD (ra - 2) 1, tb.dims.getLastD 1]) 8 o.out ++
     badIf (blocks > 16777216) 12 a ++
     badIf (region ≠ 0xFF && region < s.regionCount &&
       (reg.rows ≠ countOf (batch.take 1 ++ [ta.dims.getD (ra - 2) 1]) || reg.cols ≠ tb.dims.getLastD 1)) 20 ++
     badIf (region = 0xFF && (accum || !fin || blocks > (if wide then 64 else 256))) 20 ++
     badIf (explicit && !wide) 20 ++
     badIf (if explicit then val < -1024 || 1024 < val else val ≠ 0) 24)

/-- A function code of R241. -/
def fnKnown (fn : Nat) : Bool := fn ≤ 0x12 || (0x20 ≤ fn && fn ≤ 0x2A)

/-- The operands of an element-wise operation, each with its word's byte offset (R236). -/
def operandOffsets (ws : List W32) : Nat → Nat → List (Operand × Nat)
  | 0, _ => []
  | n + 1, p => let (x, q) := operandAt ws p; (x, 4 * (3 + p)) :: operandOffsets ws n q

/-- v.ew (R236, R241). -/
def ewFails (m : Module) (o : OpRec) : List FieldFail :=
  let fn := o.f 3 0 8
  let pred := o.f 3 8 3
  badIf (!fnKnown fn) 12 ++ badIf (pred > 6 || (fn ≠ 0x10 && pred ≠ 0)) 13 ++
  (operandOffsets o.words (fnArity fn) 1).flatMap fun x =>
    (match m.operandDecl x.1 with
      | some (i, d) => badIf (o.out < m.tensors.length && !broadcasts d.dims (m.tensor o.out).dims) x.2 i
      | none => []) ++
    (match x.1 with
      | .f32 b => badIf (fn ≥ 0x20 && !intImmediate b) (x.2 + 4)
      | _ => [])

/-- v.reduce, v.scan and v.segscan (R195, R198, R238, R242). -/
def scanFails (m : Module) (o : OpRec) : List FieldFail :=
  let op := o.f 3 0 3
  let axis := o.f 3 4 3
  badIf (op > 5 || (o.f 3 8 1 = 1 && op ≠ 0)) 12 ++
  match m.operandDecl (o.operand 4) with
  | none => []
  | some (i, d) =>
    if axis ≥ d.dims.length then [bad 12 i]
    else
      let want := if o.opcode = 0x0210 then d.dims.set axis 1 else d.dims
      badIf (o.out < m.tensors.length && (m.tensor o.out).dims ≠ want) 8 o.out ++
      badIf (o.opcode ≠ 0x0210 && d.dims.getD axis 1 > 16777216) 12 i ++
      (if o.opcode = 0x0212 then
        match m.operandDecl (o.operand 5) with
        | none => []
        | some (j, s) =>
          if o.f 3 10 1 = 1 then badIf (s.dims.length ≠ 1 || s.dims.headD 1 > 16777216) 20 j
          else badIf (!broadcasts s.dims d.dims || s.dims.getD axis 0 ≠ d.dims.getD axis 1) 20 j
       else [])

/-- g.gather and g.scatter (R243, R244). -/
def gatherFails (m : Module) (o : OpRec) : List FieldFail :=
  let axis := o.f 3 0 3
  let isScatter := o.opcode = 0x0301
  badIf (isScatter && o.f 3 4 1 = 1 && o.out < m.tensors.length && (m.tensor o.out).format ≠ 7) 12 o.out ++
  match m.operandDecl (o.operand 4), m.operandDecl (o.operand 5) with
  | some (i, s), some (j, x) =>
    badIf (x.dims.length ≠ 1) 20 j ++
    (if axis ≥ s.dims.length then [bad 12 i]
     else if o.out < m.tensors.length then
       let d := (m.tensor o.out).dims
       let n := x.dims.headD 1
       if isScatter then badIf (s.dims ≠ d.set axis n || d.length ≠ s.dims.length) 8 o.out
       else badIf (d ≠ s.dims.set axis n) 8 o.out
     else [])
  | _, _ => []

/-- t.reshape, t.transpose and t.slice (R245). -/
def layoutFails (m : Module) (o : OpRec) : List FieldFail :=
  match m.operandDecl (o.operand 3) with
  | none => []
  | some (i, d) =>
    if o.out ≥ m.tensors.length then []
    else
      let out := (m.tensor o.out).dims
      let n := d.dims.length
      if o.opcode = 0x0400 then badIf (countOf d.dims ≠ countOf out) 12 i
      else if o.opcode = 0x0401 then
        let perm := (List.range n).map fun k => bitsOf (o.w 4) (4 * k) 4
        badIf (!noDup perm || perm.any (· ≥ n) || o.w 4 / 2 ^ (4 * n) ≠ 0) 16 i ++
        badIf (out ≠ perm.map fun p => d.dims.getD p 1) 8 o.out
      else
        let axis := o.f 4 0 3
        badIf (o.w 6 = 0) 24 ++
        badIf (axis ≥ n || out.length ≠ n || out.set axis 0 ≠ d.dims.set axis 0 ||
          o.w 5 + o.w 6 * (out.getD axis 1 - 1) ≥ d.dims.getD axis 1) 16 i

/-- Output and input of one shape (R246, R247, R250). -/
def sameShape (m : Module) (o : OpRec) (at' : Nat) : List FieldFail :=
  match m.operandDecl (o.operand at') with
  | some (_, d) => badIf (o.out < m.tensors.length && d.dims ≠ (m.tensor o.out).dims) 8 o.out
  | none => []

/-- Collectives (R229, R250, R251). -/
def collectiveFails (m : Module) (o : OpRec) : List FieldFail :=
  let g := o.f 3 8 8
  let n := m.groups.getD g 2
  badIf (g ≥ m.groups.length) 13 ++
  match o.opcode with
  | 0x0800 => badIf (o.f 3 0 2 = 3) 12 ++ sameShape m o 4
  | 0x0803 | 0x0804 => badIf (g < m.groups.length && (o.w 4 = 0 || n ≤ o.w 4)) 16
  | _ =>
    match m.operandDecl (o.operand 4) with
    | none => []
    | some (i, d) =>
      let axis := o.f 3 0 3
      if axis ≥ d.dims.length then [bad 12 i]
      else
        let e := d.dims.getD axis 1
        if o.opcode = 0x0801 then
          badIf (o.out < m.tensors.length && (m.tensor o.out).dims ≠ d.dims.set axis (n * e)) 8 o.out
        else badIf (e % n ≠ 0) 12 i ++ badIf (o.out < m.tensors.length && (m.tensor o.out).dims ≠ d.dims) 8 o.out

/-- c.branch and c.loop (R206, R207, R253, R254); `ops` are the step's records, `k` this one's index. -/
def controlFails (ops : List OpRec) (nest : List (List (Nat × Nat) × Bool)) (k : Nat) (o : OpRec) : List FieldFail :=
  if o.isBranch then badIf (o.branch.2.length < 2) (12 + 4 * (operandAt o.words 0).2)
  else
    let (cond, maxTrips, x, len) := o.loop
    (if maxTrips = 0 then [(Code.loadUnbounded, 16, 0xFFFF)] else badIf (maxTrips > 65536) 16) ++
    (if cond then
      let last := ops.getD (k + len) { opcode := 0, conv := 0, out := 0, mask := 0, words := [], deps := [] }
      let direct := match nest[k + len]? with
        | some (e :: _, _) => e.1 == k
        | _ => false
      badIf (len = 0 || last.opcode ≠ 0x0213 || !direct || x ≠ .slot last.out) 20
     else [])

/-- The iteration shape of a v.* operation (R190). -/
def iterShape (m : Module) (o : OpRec) : List Nat :=
  if o.opcode = 0x0200 then (m.tensor o.out).dims
  else match m.operandDecl (o.operand 4) with
    | some (_, d) => d.dims
    | none => []

/-- The fields every record has: output, conversion word, mask (R225, R234, R235, R237); an mx.contract that does not finalise writes
no tensor, and names none or one of its output's shape (log 58). -/
def commonFails (m : Module) (o : OpRec) : List FieldFail :=
  let c := o.conv.toNat
  let noOutput := o.opcode = 0x0100 && o.f 5 9 1 = 0 && o.out = 0xFFFF
  (if o.writesSlot then badIf (o.out > 255) 8
   else if o.writesNothing then badIf (o.out ≠ 0xFFFF) 8
   else if noOutput then []
   else if o.out ≥ m.tensors.length then [bad 8 o.out]
   else badIf (m.tensor o.out).readOnly 8 o.out) ++
  badIf (bitsOf c 6 2 ≠ 0) 4 ++ badIf (bitsOf c 24 8 ≠ 0) 7 ++
  (if o.writesSlot || o.writesNothing || (o.opcode = 0x0100 && o.f 5 9 1 = 0) then
    badIf (c % 64 ≠ 0 || bitsOf c 8 16 ≠ 0) 4
   else
    badIf (c % 4 = 3 || (c % 4 = 2 && !o.streamValid)) 4 ++
    badIf (o.streamValid && o.stream ≥ m.streams.length) 5) ++
  (if o.mask = 0xFFFF then []
   else if !(0x0200 ≤ o.opcode && o.opcode ≤ 0x0213) then [bad 10]
   else if o.mask ≥ m.tensors.length then [bad 10 o.mask]
   else badIf ((m.tensor o.mask).format ≠ 8 || (m.tensor o.mask).dims ≠ iterShape m o) 10 o.mask)

/-- Level-1 limits on a record (R258); a c.branch is among the constructs of level 2 only, whatever its arms (log 58). -/
def levelFails (m : Module) (o : OpRec) : List FieldFail :=
  if m.level ≠ 1 then []
  else match o.opcode with
  | 0x0803 | 0x0804 | 0x0503 | 0x0900 => [bad 0]
  | 0x0600 => badIf (o.f 3 0 1 = 1) 12
  | 0x0210 | 0x0211 | 0x0212 => badIf (o.f 3 8 1 = 1) 13
  | 0x0800 => badIf (o.f 3 4 1 = 1) 12
  | _ => []

/-- The rules of one operation by itself. -/
def opFails (m : Module) (s : StepDecl) (ops : List OpRec) (nest : List (List (Nat × Nat) × Bool)) (k : Nat)
    (o : OpRec) : List FieldFail :=
  match opItems o with
  | none => [bad 0]
  | some items =>
    let (fs, p) := walkItems m o items 0
    fs ++ badIf (p ≠ o.words.length) 2 ++ commonFails m o ++ levelFails m o ++
    (match o.opcode with
      | 0x0100 => contractFails m s o
      | 0x0200 => ewFails m o
      | 0x0210 | 0x0211 | 0x0212 => scanFails m o
      | 0x0213 =>
        match m.operandDecl (o.operand 4) with
        | some (i, d) => badIf (countOf d.dims > 16777216) 16 i
        | none => []
      | 0x0300 | 0x0301 => gatherFails m o
      | 0x0400 | 0x0401 | 0x0402 => layoutFails m o
      | 0x0500 => sameShape m o 3
      | 0x0501 => badIf (o.out < m.tensors.length && m.policy o.out ≠ 2) 8 o.out
      | 0x0503 =>
        match m.operandDecl (o.operand 3) with
        | some (i, _) => badIf (m.policy i ≠ 0) 12 i
        | none => []
      | 0x0600 => badIf (!o.streamValid) 4 ++
        (if o.f 3 0 1 = 1 then
          match m.operandDecl (o.operand 4) with
          | some (i, d) => badIf (o.out < m.tensors.length && !broadcasts d.dims (m.tensor o.out).dims) 16 i
          | none => []
         else [])
      | 0x0601 => badIf (!(o.conv.toNat % 4 = 2 && o.streamValid)) 4 ++ sameShape m o 3
      | 0x0700 => badIf (o.f 4 0 2 > 1) 16 ++ badIf (o.w 5 ≤ k || ops.length ≤ o.w 5) 20
      | 0x0701 => badIf (o.f 4 0 2 > 1) 16
      | 0x0800 | 0x0801 | 0x0802 | 0x0803 | 0x0804 => collectiveFails m o
      | 0x0900 | 0x0901 => controlFails ops nest k o
      | _ => [])

/-- The send that meets a recv, or the recv that meets a send (R251). -/
def meets (m : Module) (a b : OpRec) : Bool :=
  let g := a.f 3 8 8
  a.f 3 8 16 == b.f 3 8 16 && a.f 3 16 16 == b.f 3 16 16 && a.w 4 + b.w 4 == m.groups.getD g 0

/-- The rules that look at other operations of the step: nesting, dependencies, sites, collectives (R172, R251, R254,
R255). -/
def stepOpFails (m : Module) (ops : List OpRec) (nest : List (List (Nat × Nat) × Bool)) (k : Nat) (o : OpRec) :
    List FieldFail :=
  let mine := (nest.getD k ([], false))
  (if mine.2 then [(Code.loadUnbounded, 0, 0xFFFF)] else []) ++
  (if (o.isBranch || o.isLoop) && mine.1.length ≥ 8 then [(Code.loadUnbounded, 0, 0xFFFF)] else []) ++
  (o.deps.zipIdx.flatMap fun d =>
    badIf (d.1 ≥ k || !(match (nest.getD d.1 ([], false)).1 with
      | [] => true
      | e :: _ => mine.1.contains e)) (12 + 4 * (o.words.length + d.2))) ++
  badIf (o.isCollective && mine.1.any fun e =>
    let c := ops.getD e.1 o
    c.isBranch || (c.isLoop && (c.loop.1 || (match c.loop.2.2.1 with
      | .i32 _ => false
      | _ => true)))) 0 ++
  badIf (o.draws && (ops.take k).any fun q => q.draws && q.stream == o.stream && q.site == o.site) 6 ++
  (if o.opcode = 0x0803 || o.opcode = 0x0804 then
    let other := if o.opcode = 0x0803 then 0x0804 else 0x0803
    let same := (ops.take k).filter fun q => q.opcode == o.opcode && q.w 3 == o.w 3 && q.w 4 == o.w 4
    let mates := ops.filter fun q => q.opcode == other && meets m o q
    badIf (o.f 3 8 8 < m.groups.length && mates.length ≤ same.length) 12 ++
    (match mates.head? with
      | some q =>
        let shape (x : OpRec) : Option (List Nat) :=
          if x.opcode = 0x0803 then (m.operandDecl (x.operand 5)).map fun d => d.2.dims
          else (m.tensors[x.out]?).map TensorDecl.dims
        badIf (decide (shape o ≠ shape q)) 12
      | none => [])
   else [])

/-- Failures of one step's records. -/
def stepFails (m : Module) (i : Nat) (s : StepDecl) : List Refuse :=
  let ops := m.stepOps i
  let nest := nestOf ops
  (if m.level = 1 && s.span ≠ 1 then [{ code := Code.loadFormat, sec := 7, entry := i, step := i, field := 8 }]
    else []) ++
  ops.zipIdx.flatMap fun o =>
    (opFails m s ops nest o.2 o.1 ++ stepOpFails m ops nest o.2 o.1).map fun x =>
      { code := x.1, sec := 9, entry := s.firstOp + o.2, step := i, op := o.2, field := x.2.1, tensor := x.2.2 % 65536 }

/-- Stage 4 (R260, R264): every form rule is one check. -/
def formCheck (m : Module) (reading : List Refuse) : Option Refuse :=
  firstFailure (reading ++ moduleFails m ++ m.steps.zipIdx.flatMap fun s => stepFails m s.2 s.1)

/-- Stage 2 (R221): every signature entry verifies over the digest. -/
def signatureCheck (m : Module) : Option Refuse :=
  (m.signatures.zipIdx.find? fun s => !Config.ed25519Verify s.1.1 m.digest s.1.2).map fun s =>
    { code := Code.loadSignature, stage := 2, sec := 0x7FFF, entry := s.2, field := 32 }

end Sys2Proof.Machine
end

