-- ==== Sys2Proof/Machine/Budget.lean ====
section
/-! DEFINITION. The loader's budget (R209, R269, R271 to R276, R373, R496): what each tile stages and writes back, the cost
of every node, the schedule of a step's graph, and the scratchpad it holds. -/

namespace Sys2Proof.Machine

/-! ### Sets of positions -/

/-- A box: for each axis, the indices in it. -/
abbrev Box := List (List Nat)

/-- Numbers from a to b − 1. -/
def span (a b : Nat) : List Nat := (List.range (b - a)).map (a + ·)

/-- The linear positions [lo, hi) of a shape as disjoint boxes. -/
def rangeBoxes : List Nat → Nat → Nat → List Box
  | [], lo, hi => if lo < hi then [[]] else []
  | _ :: t, lo, hi =>
    if hi ≤ lo then []
    else
      let c := countOf t
      let a := lo / c
      let b := (hi - 1) / c
      if a = b then (rangeBoxes t (lo - a * c) (hi - a * c)).map ([a] :: ·)
      else
        let head := if lo % c = 0 then [] else (rangeBoxes t (lo % c) c).map ([a] :: ·)
        let tail := if hi % c = 0 then [] else (rangeBoxes t 0 (hi % c)).map ([b] :: ·)
        let a' := if lo % c = 0 then a else a + 1
        let b' := if hi % c = 0 then b + 1 else b
        head ++ (if a' < b' then [span a' b' :: t.map List.range] else []) ++ tail

/-- Consecutive numbers joined into runs [lo, hi). -/
def joinRuns : List (Nat × Nat) → List (Nat × Nat)
  | [] => []
  | r :: t => match joinRuns t with
    | [] => [r]
    | q :: u => if r.1 ≤ q.1 && q.1 ≤ r.2 then (r.1, max r.2 q.2) :: u else r :: q :: u

/-- A run placed by its start. -/
def insertRun (r : Nat × Nat) : List (Nat × Nat) → List (Nat × Nat)
  | [] => [r]
  | q :: t => if r.1 ≤ q.1 then r :: q :: t else q :: insertRun r t

/-- The union of runs. -/
def unionRuns (l : List (Nat × Nat)) : List (Nat × Nat) := joinRuns (l.foldr insertRun [])

/-- The linear runs of a box. -/
def boxRuns : List Nat → Box → List (Nat × Nat)
  | _ :: ds, xs :: bs =>
    let c := countOf ds
    let inner := boxRuns ds bs
    if inner = [(0, c)] then joinRuns (xs.map fun x => (x * c, (x + 1) * c))
    else xs.flatMap fun x => inner.map fun r => (x * c + r.1, x * c + r.2)
  | _, _ => [(0, 1)]

/-- The bits of a stored form that hold the positions of boxes, and the fine scale of every block with one of them (R93,
R94, R272, R324). -/
def boxBits (t : TensorDecl) (bs : List Box) : List (Nat × Nat) :=
  let w := Fmt.width t.format
  let elems := (unionRuns (bs.flatMap (boxRuns t.dims))).map fun r => (r.1 * w, r.2 * w)
  if !Fmt.isScaled t.format then elems
  else
    let base := 8 * (storedSizes t.format t.dims t.blockAxis).1
    let dims := t.dims.eraseIdx t.blockAxis ++ [blocksPerRow t.dims t.blockAxis]
    let blocks := bs.map fun b => b.eraseIdx t.blockAxis ++ [((b.getD t.blockAxis []).map (· / 32)).eraseDups]
    elems ++ (unionRuns (blocks.flatMap (boxRuns dims))).map fun r => (base + 6 * r.1, base + 6 * r.2)

/-! ### What a load gives the budget -/

structure BudgetEnv where
  module : Module
  step   : Nat
  ops    : List OpRec
  /-- Tiles of the placement, their number, and the floor clock in MHz (R592). -/
  tiles  : List Nat
  clk    : Nat
  sigma  : Nat
  beta   : Nat
  /-- The hub of each page of a tensor (R32, R434). -/
  hubs   : Nat → List Nat
  /-- Tensors that rest in T2 (R440). -/
  resting : List Nat
  /-- Cost of a collective's traffic in ns, without the horizon (R496). -/
  fabric : OpRec → Frac

def BudgetEnv.n (e : BudgetEnv) : Nat := max 1 e.tiles.length
def BudgetEnv.multi (e : BudgetEnv) : Bool := e.n > 1
def Frac.plus (a b : Frac) : Frac := (a.add b).reduce
def Frac.max (a b : Frac) : Frac := if a.lt b then b else a
def Frac.ratio (a b : Nat) : Frac := ({ num := (a : Int), den := b } : Frac).reduce

/-- `c` half-cycles at the floor clock and share, in ns. -/
def BudgetEnv.halfCycles (e : BudgetEnv) (c : Nat) : Frac := Frac.ratio (c * 500 * 16) (e.clk * e.sigma)

/-- 2 µs where the step spans several tiles (R197, R201). -/
def BudgetEnv.combine (e : BudgetEnv) : Frac := if e.multi then Frac.ofNat 2000 else Frac.ofNat 0

/-! ### Placement of work (R269) -/

/-- Bands as nearly equal as possible, the earlier taking the extra. -/
def bandOf (n k i : Nat) : Nat × Nat :=
  let q := n / k
  let r := n % k
  let lo := i * q + min i r
  (lo, lo + q + (if i < r then 1 else 0))

/-- The largest divisor of t not above its square root. -/
def gridColumns (t : Nat) : Nat :=
  ((List.range t).map (· + 1)).foldl (fun best c => if t % c = 0 && c * c ≤ t then c else best) 1

/-- The block of tile `i` in an mx.contract's output: (batch, first row, last row) runs and its columns; and its count of
output tiles (R269). -/
def contractBlockOf (dims : List Nat) (t i : Nat) : List (Nat × Nat × Nat) × (Nat × Nat) × Nat :=
  let m := dims.getD (dims.length - 2) 1
  let n := dims.getLastD 1
  let perBatch := ceilDiv m 64
  let batches := countOf (dims.take (dims.length - 2))
  let c := gridColumns t
  let rows := bandOf (batches * perBatch) (t / c) (i / c)
  let cols := bandOf (ceilDiv n 32) c (i % c)
  (if cols.1 < cols.2 then
     (span rows.1 rows.2).map fun g => (g / perBatch, 64 * (g % perBatch), min m (64 * (g % perBatch) + 64))
   else [],
   (32 * cols.1, min n (32 * cols.2)), (rows.2 - rows.1) * (cols.2 - cols.1))

/-- Boxes of an operand or the output of an mx.contract on tile `i`. -/
def contractBoxes (e : BudgetEnv) (o : OpRec) (t i : Nat) : List Box :=
  let out := (e.module.tensor o.out).dims
  let a := o.tensorAt 3
  let b := o.tensorAt 4
  let dims := if a = 0xFFFF then out else contractDims (e.module.tensor a).dims (e.module.tensor b).dims
  let (segs, cols, _) := contractBlockOf dims e.n i
  let d := (e.module.tensor t).dims
  let batch (bt : Nat) : List (List Nat) := if d.length = 3 then [[bt]] else []
  let asA := if a = t then segs.map fun s => batch s.1 ++ [span s.2.1 s.2.2, List.range (d.getLastD 1)] else []
  let asB := if b = t && !segs.isEmpty then
      ((segs.map Prod.fst).eraseDups).map fun bt => batch bt ++ [List.range (d.getD (d.length - 2) 1), span cols.1 cols.2]
    else []
  let asOut := if o.writes.contains t then
      segs.map fun s => batch s.1 ++ [span s.2.1 s.2.2, span cols.1 cols.2]
    else []
  asA ++ asB ++ asOut

/-- Operations that sweep their input: reductions, scans, summaries. -/
def OpRec.sweeps (o : OpRec) : Bool := 0x0210 ≤ o.opcode && o.opcode ≤ 0x0213

/-- The shape whose linear range is divided among the tiles (R269): the input of a sweep, else the output. -/
def workShape (m : Module) (o : OpRec) (t : Nat) : List Nat :=
  if o.sweeps then match m.operandDecl (o.operand 4) with
    | some (_, d) => d.dims
    | none => []
  else if o.writes.isEmpty then (m.tensor t).dims
  else (m.tensor o.out).dims

/-- The positions of a tensor that tile `i`'s part of an operation reads or writes (R269, R272). -/
def tileBoxes (e : BudgetEnv) (o : OpRec) (t i : Nat) : List Box :=
  if o.opcode = 0x0100 then contractBoxes e o t i
  else
    let d := (e.module.tensor t).dims
    let shape := workShape e.module o t
    let part (dims : List Nat) : List Box :=
      let n := countOf dims
      let per := ceilDiv n e.n
      rangeBoxes dims (min n (i * per)) (min n ((i + 1) * per))
    if t = o.out && !o.sweeps then part d
    else if o.opcode = 0x0400 then part d
    else if o.opcode = 0x0401 then
      let perm := (List.range shape.length).map fun k => bitsOf (o.w 4) (4 * k) 4
      (part shape).map fun b => (List.range d.length).map fun a => b.getD (perm.idxOf a) []
    else if o.opcode = 0x0402 then
      let axis := o.f 4 0 3
      (part shape).map fun b => b.set axis ((b.getD axis []).map fun j => o.w 5 + o.w 6 * j)
    else if d.length = shape.length && ((d.zip shape).all fun p => p.1 = p.2 || p.1 = 1) then
      if o.sweeps && o.writes.contains t && d ≠ shape then part d
      else (part shape).map fun b => (b.zip d).map fun p => if p.2 = 1 then [0] else p.1
    else if (part shape).isEmpty then []
    else [d.map List.range]

/-- The bits of a tensor that tile `i` moves for the operations listed. -/
def tileBits (e : BudgetEnv) (t : Nat) (os : List OpRec) (i : Nat) : List (Nat × Nat) :=
  unionRuns (os.flatMap fun o => boxBits (e.module.tensor t) (tileBoxes e o t i))

def runBits (l : List (Nat × Nat)) : Nat := sumNat (l.map fun r => r.2 - r.1)

/-! ### Costs (R209, R276) -/

/-- Bits of runs in each hub: the runs are cut at page boundaries (R28, R32). -/
def hubBits (hubs : List Nat) (runs : List (Nat × Nat)) (h : Nat) : Nat :=
  sumNat (runs.map fun r =>
    sumNat ((span (r.1 / 16777216) ((r.2 - 1) / 16777216 + 1)).map fun p =>
      if hubs.getD p 0 = h then min r.2 (16777216 * (p + 1)) - max r.1 (16777216 * p) else 0))

/-- A staging or write-back node (R276): the tensors moved, each with the operations it is moved for. -/
def transferCost (e : BudgetEnv) (items : List (Nat × List OpRec)) (staging : Bool) : Frac :=
  let seams := (List.range e.n).map fun i => (List.range 4).map fun h =>
    sumNat (items.map fun x => hubBits (e.hubs x.1) (tileBits e x.1 x.2 i) h)
  let hub (h : Nat) : Nat := sumNat (seams.map fun s => s.getD h 0)
  let hubMax := maxNat ((List.range 4).map hub)
  let seamMax := maxNat (seams.map maxNat)
  let deep := if staging then items.filter fun x => e.resting.contains x.1 else []
  let deepMax := maxNat ((List.range 4).map fun h =>
    sumNat (deep.map fun x => sumNat ((List.range e.n).map fun i => hubBits (e.hubs x.1) (tileBits e x.1 x.2 i) h)))
  (Frac.ofNat 1000).plus
    (Frac.max (Frac.max (Frac.ratio (hubMax * 10) (8 * e.beta * 983)) (Frac.ratio seamMax 20000)) (Frac.ratio deepMax 32000))

/-- A write of the tensor may run in the current form, for the budget (R171). -/
def budgetCurrent (m : Module) (t : Nat) : Bool :=
  let s := m.scaleOf t
  s.policy == 1 || (s.policy == 0 && (s.seed.isEmpty || !m.state.contains t))

/-- The current form's extra for `n` elements on a tile (R171). -/
def currentCost (e : BudgetEnv) (o : OpRec) (n : Nat) : Frac :=
  if o.writes.any (budgetCurrent e.module) then (Frac.ratio (2 * ceilDiv n 2048 * 1000) e.clk).plus e.combine
  else Frac.ofNat 0

/-- Lanes-per-cycle divisor of an element-wise function (R183). -/
def fnSlow (fn : Nat) : Nat :=
  if [0x04, 0x09, 0x0A, 0x0B, 0x23, 0x24].contains fn then 4 else if 0x0C ≤ fn && fn ≤ 0x0F then 8 else 1

/-- Two records stand in different arms of one construct (R255). -/
def otherArm (nest : List (List (Nat × Nat) × Bool)) (j k : Nat) : Bool :=
  (nest.getD j ([], false)).1.any fun a => (nest.getD k ([], false)).1.any fun b => a.1 == b.1 && a.2 != b.2

/-- mx.contract (R126, R147, R269, R276): a drain waits for the operations of its region that may be in flight beside it, those that
only accumulate (R143). -/
def contractCost (e : BudgetEnv) (closure : List (List Nat)) (k : Nat) (o : OpRec) : Frac :=
  let a := e.module.tensor (o.tensorAt 3)
  let b := e.module.tensor (o.tensorAt 4)
  let dims := if o.tensorAt 3 = 0xFFFF then (e.module.tensor o.out).dims else contractDims a.dims b.dims
  let blocks := if o.tensorAt 3 = 0xFFFF then 0 else ceilDiv (a.dims.getLastD 1) 32
  let fast (t : TensorDecl) : Bool := t.format == 0 || t.format == 9
  let cpb := if Fmt.is16 a.format then 8 else if fast a && fast b then 1 else 2
  let passes := ceilDiv blocks (if Fmt.is16 a.format then 64 else 256)
  let cycles2 := blocks * cpb + 2 * passes + 128
  let region := o.f 5 0 8
  let nest := nestOf e.ops
  let shared (q : OpRec) : Bool := q.f 5 8 1 == 1 && q.f 5 9 1 == 0
  let sharers := if region = 0xFF || !shared o then 0 else (e.ops.zipIdx.filter fun p =>
    p.2 != k && p.1.opcode == 0x0100 && p.1.f 5 0 8 == region && shared p.1 &&
    !(closure.getD k []).contains p.2 && !(closure.getD p.2 []).contains k && !otherArm nest k p.2).length
  let most := maxNat ((List.range e.n).map fun i => (contractBlockOf dims e.n i).2.2)
  let perCluster := ceilDiv most 8
  let elems := maxNat ((List.range e.n).map fun i =>
    let (segs, cols, _) := contractBlockOf dims e.n i
    sumNat (segs.map fun s => (s.2.2 - s.2.1) * (cols.2 - cols.1)))
  (e.halfCycles (perCluster * (cycles2 + passes * sharers * 128))).plus (currentCost e o elems)

/-- What a write in the current form adds where the linear range of the output is divided among the tiles (R171, R269). -/
def currentExtra (e : BudgetEnv) (o : OpRec) : Frac := currentCost e o (ceilDiv (countOf (e.module.tensor o.out).dims) e.n)

/-- Vector work (R183, R201, R276). -/
def vectorCost (e : BudgetEnv) (o : OpRec) : Frac :=
  let n := ceilDiv (countOf (workShape e.module o o.out)) e.n
  let slow := if o.opcode = 0x0200 then fnSlow (o.f 3 0 8) else if o.sweeps && o.f 3 8 1 = 1 then 2 else 1
  let once := e.halfCycles (2 * ceilDiv (n * slow) 2048)
  let base := if o.sweeps && e.multi then (once.plus once).plus (Frac.ofNat 2000) else once
  base.plus (currentExtra e o)

/-- g.gather and g.scatter on the narrow path (R369, R373). -/
def gatherCost (e : BudgetEnv) (o : OpRec) : Frac :=
  let t := if o.opcode = 0x0301 then o.out else o.tensorAt 4
  let d := e.module.tensor t
  if o.opcode = 0x0300 && d.tierHint = 1 then Frac.ofNat 0
  else
    let axis := o.f 3 0 3
    let run := countOf (d.dims.drop (axis + 1)) * Fmt.width d.format
    let rows := countOf (d.dims.take (axis + 1))
    let runs := (e.module.tensor (o.tensorAt 5)).dims.headD 0 * countOf (d.dims.take axis)
    let touch := maxNat ((List.range (min rows 1024)).map fun k => (k * run % 1024 + run - 1) / 1024 + 1)
    let bytes := ceilDiv run 8
    let base := Frac.ofNat 3000
    if bytes ≤ 64 then
      base.plus (Frac.ratio (runs * touch * (if o.opcode = 0x0301 then 2 else 1) * 125) (2 * e.beta))
    else
      base.plus (Frac.ratio (runs * 128 * touch * 10 * 100) (bulkEfficiency bytes * e.beta * 983))

/-- The engines of R275: 0 matrix, 1 vector, 2 transfer, 3 fabric, 4 pilot; none for intents. -/
def OpRec.engine (o : OpRec) : Option Nat :=
  if o.opcode = 0x0100 then some 0
  else if o.opcode = 0x0300 || o.opcode = 0x0301 then some 2
  else if o.isCollective then some 3
  else if o.isBranch || o.isLoop then some 4
  else if o.opcode = 0x0700 || o.opcode = 0x0701 || o.opcode = 0x0503 then none
  else some 1

/-- A summary's cost (R197, R209). -/
def summaryCost (e : BudgetEnv) : Frac := (Frac.ratio (32 * 1000) e.clk).plus e.combine

/-- A node of a step's graph (R275): cost, engine, the nodes it waits for, and the operation it stands for. -/
structure Node where
  cost   : Frac
  engine : Option Nat
  deps   : List Nat
  op     : Option Nat
  /-- Tensors it brings into scratchpad, each with the operations it does so for; the tensor it writes back. -/
  stages : List (Nat × List OpRec) := []
  back   : Option Nat := none

/-- Ends of the nodes in order, each with the node that fixed its start; engines are used whole (R269, R275). -/
def scheduleNodes : List Node → List (Frac × Option Nat) → Tab (Frac × Nat) → List (Frac × Option Nat)
  | [], ends, _ => ends
  | n :: t, ends, free =>
    let ready := n.deps.foldl (fun (acc : Frac × Option Nat) k =>
      let x := (ends.getD k (Frac.ofNat 0, none)).1
      if acc.2.isNone || acc.1.lt x then (x, some k) else acc) (Frac.ofNat 0, none)
    let start := match n.engine.bind free.find with
      | some (f, k) => if ready.1.lt f then (f, some k) else ready
      | none => ready
    let fin := start.1.plus n.cost
    let free := match n.engine with
      | some g => free.put g (fin, ends.length)
      | none => free
    scheduleNodes t (ends ++ [(fin, start.2)]) free

def lastEnd (l : List (Frac × Option Nat)) : Frac := l.foldl (fun m x => Frac.max m x.1) (Frac.ofNat 0)

/-- The records of an operation and of everything in it. -/
def recordSpan (ops : List OpRec) (i : Nat) : List Nat := span i (i + 1 + sumNat ((ops[i]?.map OpRec.lengths).getD []))

/-- Tensors an operation brings into scratchpad before it (R272, R373): those it reads, but for a gather's table and a
scatter's output outside T0, and for operations that read no value. -/
def stagedReads (m : Module) (o : OpRec) : List Nat :=
  if [0x0502, 0x0503, 0x0700, 0x0701].contains o.opcode then []
  else
    let narrow := if o.opcode = 0x0300 then [o.tensorAt 4] else if o.opcode = 0x0301 then [o.out] else []
    (o.reads.eraseDups).filter fun t => !(narrow.contains t && (m.tensor t).tierHint ≠ 1)

/-- The graph of records [i, i+n): nodes, and the node of each operation.  `held` are T0 tensors already staged with
their node (none outside this block), `written` the tensors already in scratchpad as outputs. -/
structure Graph where
  nodes   : List Node := []
  at'     : List (Nat × Nat) := []
  held    : List (Nat × Option Nat) := []
  written : List Nat := []

/-- Costs of a construct from its arms' ends (R209). -/
def constructCost (e : BudgetEnv) (o : OpRec) (arms : List Frac) : Frac :=
  let summed (x : Operand) : Bool := match x with
    | .slot s => e.ops.any fun q => q.opcode == 0x0213 && q.out == s
    | _ => false
  let worst := arms.foldl Frac.max (Frac.ofNat 0)
  if o.isBranch then (if summed o.branch.1 then (summaryCost e).plus worst else worst)
  else
    let (cond, maxTrips, x, _) := o.loop
    let body := (worst.mul (Frac.ofNat maxTrips)).reduce
    if cond then body.plus (((summaryCost e).mul (Frac.ofNat maxTrips)).reduce)
    else if summed x then body.plus (summaryCost e) else body

/-- The graph of a run of records (R272, R275); `top` where write-backs stand. -/
def buildGraph (e : BudgetEnv) (closure : List (List Nat)) (top : Bool) : Nat → Nat → Nat → Graph → Graph
  | 0, _, _, g => g
  | fuel + 1, i, n, g =>
    match n, e.ops[i]? with
    | 0, _ => g
    | _, none => g
    | n + 1, some o =>
      let inside := recordSpan e.ops i
      let recs := inside.filterMap fun k => e.ops[k]?
      let len := inside.length - 1
      let isC := o.isBranch || o.isLoop
      -- staging
      let want := ((if isC then recs else [o]).flatMap (stagedReads e.module)).eraseDups
      let need := want.filter fun t => !g.written.contains t && !(g.held.any fun h => h.1 == t) &&
        (!isC || (e.module.tensor t).tierHint == 1)
      let items := need.map fun t =>
        (t, if (e.module.tensor t).tierHint = 1 then e.ops.filter fun q => (stagedReads e.module q).contains t else [o])
      let stage := g.nodes.length
      let g := if need.isEmpty then g
        else { g with nodes := g.nodes ++ [{ cost := transferCost e items true, engine := some 2, deps := [], op := none, stages := items }]
                      held := g.held ++ (need.filter fun t => (e.module.tensor t).tierHint == 1).map fun t => (t, some stage) }
      let stageDeps := (if need.isEmpty then [] else [stage]) ++
        (g.held.filter fun h => want.contains h.1).filterMap Prod.snd
      -- the operation itself
      let opDeps := (g.at'.filter fun p => inside.any fun k => (recordSpan e.ops p.1).any ((closure.getD k []).contains ·)).map Prod.snd
      let armStarts := o.lengths.zipIdx.map fun a => (i + 1 + sumNat (o.lengths.take a.2), a.1)
      let arms := armStarts.map fun a =>
        let h := buildGraph e closure false fuel a.1 a.2
          { held := g.held.map fun p => (p.1, none), written := g.written }
        lastEnd (scheduleNodes h.nodes [] [])
      let cost := if isC then constructCost e o arms
        else if o.opcode = 0x0100 then contractCost e closure i o
        else if o.opcode = 0x0300 || o.opcode = 0x0301 then (gatherCost e o).plus (currentExtra e o)
        else if o.isCollective then ((Frac.ofNat 2000).plus (e.fabric o)).plus (currentExtra e o)
        else if o.engine.isNone then Frac.ofNat 0
        else if o.opcode = 0x0213 || o.opcode = 0x0502 then (e.halfCycles 64).plus e.combine
        else vectorCost e o
      let me := g.nodes.length
      let g := { g with nodes := g.nodes ++ [{ cost := cost, engine := o.engine, deps := (stageDeps ++ opDeps).eraseDups
                                               op := some i }]
                        at' := g.at' ++ [(i, me)]
                        written := (g.written ++ recs.flatMap OpRec.writes).eraseDups }
      -- intents to T0
      let g := if o.opcode = 0x0700 && o.f 4 0 2 = 0 && !g.written.contains (o.tensorAt 3) &&
          !(g.held.any fun h => h.1 == o.tensorAt 3) then
          let t := o.tensorAt 3
          let users := e.ops.filter fun q => (stagedReads e.module q).contains t
          { g with nodes := g.nodes ++ [{ cost := transferCost e [(t, users)] true, engine := some 2, deps := [me]
                                          op := none, stages := [(t, users)] }]
                   held := g.held ++ [(t, some g.nodes.length)] }
        else if o.opcode = 0x0701 && o.f 4 0 2 = 0 then
          { g with held := g.held.filter fun h => h.1 != o.tensorAt 3 }
        else g
      -- write-backs
      let later := e.ops.drop (i + 1 + len)
      let backs := if !top then [] else
        ((e.ops.take (i + 1 + len)).flatMap OpRec.writes).eraseDups.filter fun t =>
          let t0 := (e.module.tensor t).tierHint == 1
          let touches (q : OpRec) : Bool := q.writes.contains t || (t0 && q.reads.contains t)
          recs.any touches && !later.any touches
      let g := backs.foldl (fun g t =>
        let writers := e.ops.filter fun q => q.writes.contains t
        let deps := (g.at'.filter fun p => ((recordSpan e.ops p.1).filterMap fun k => e.ops[k]?).any fun q =>
          q.writes.contains t || q.reads.contains t).map Prod.snd
        { g with nodes := g.nodes ++ [{ cost := transferCost e [(t, writers)] false, engine := some 2, deps := deps
                                        op := none, back := some t }] }) g
      buildGraph e closure top fuel (i + 1 + len) (n - len) g

/-- A step's worst case: exact ns, and the outermost operation of largest cost on the worst path (R275, R280). -/
structure StepBudget where
  exact : Frac
  op    : Nat

/-- ceil of a non-negative fraction. -/
def Frac.ceilNat (a : Frac) : Nat := ceilDiv a.num.toNat a.den

/-- The path that ends at node `k`, last first. -/
def pathTo (ends : List (Frac × Option Nat)) : Nat → Nat → List Nat
  | 0, k => [k]
  | fuel + 1, k => match (ends.getD k (Frac.ofNat 0, none)).2 with
    | some j => k :: pathTo ends fuel j
    | none => [k]

/-- The budget of a step (R275). -/
def stepBudget (e : BudgetEnv) : StepBudget :=
  let closure := dependencyClosure e.ops
  let g := buildGraph e closure true (e.ops.length + 1) 0 e.ops.length {}
  let ends := scheduleNodes g.nodes [] []
  let worst := lastEnd ends
  let last := (ends.zipIdx.find? fun x => x.1.1.eq worst).map Prod.snd
  let path := match last with
    | some k => (pathTo ends ends.length k).filterMap fun j => (g.nodes[j]?).bind fun (n : Node) => n.op.map fun o => (o, n.cost)
    | none => []
  let best := path.foldl (fun (acc : Option (Nat × Frac)) x => match acc with
    | none => some x
    | some y => if y.2.lt x.2 || (y.2.eq x.2 && x.1 < y.1) then some x else acc) none
  { exact := (Frac.ofNat 2000).plus worst, op := (best.map Prod.fst).getD 0xFFFFFFFF }

/-! ### Scratchpad (R137, R171, R271, R272) -/

/-- Bytes of scratchpad held from one time of a step's schedule to another. -/
structure Holding where
  lo    : Frac
  hi    : Frac
  bytes : Nat

/-- The most bytes held at one time. -/
def peakOf (l : List Holding) : Nat :=
  maxNat (l.map fun h => sumNat ((l.filter fun x => x.lo.le h.lo && (h.lo.lt x.hi || x.lo.eq h.lo)).map Holding.bytes))

/-- Bytes of a tensor that tile `i` moves for the operations listed. -/
def tileBytes (e : BudgetEnv) (t : Nat) (os : List OpRec) (i : Nat) : Nat := ceilDiv (runBits (tileBits e t os i)) 8

/-- What the nodes of a graph hold on tile `i` (R271): staged operands until the operation that reads them has ended, T0 tensors until
the step ends or an m.release, outputs (where `top`) until their write-back has ended, current-form staging while its operation
runs; `inner` is what a construct holds within. -/
def holdingsOf (e : BudgetEnv) (top : Bool) (i : Nat) (g : Graph) (ends : List (Frac × Option Nat)) (inner : Nat → Nat) :
    List Holding :=
  let zero := Frac.ofNat 0
  let fin (k : Nat) : Frac := (ends.getD k (zero, none)).1
  let start (k : Nat) : Frac := (fin k).sub ((g.nodes[k]?).map Node.cost |>.getD zero)
  let last := lastEnd ends
  let t0 (t : Nat) : Bool := (e.module.tensor t).tierHint == 1
  let nodes := g.nodes.zipIdx
  let releaseEnd (t k : Nat) : Option Frac := (nodes.find? fun n => decide (k < n.2) && (n.1.op.bind fun o => e.ops[o]?).any fun q =>
    q.opcode == 0x0701 && q.f 4 0 2 == 0 && q.tensorAt 3 == t).map fun n => fin n.2
  let backEnd (t : Nat) : Frac := ((nodes.find? fun n => n.1.back == some t).map fun n => fin n.2).getD last
  let stagedT (t : Nat) : Bool := g.nodes.any fun n => n.stages.any fun x => x.1 == t
  let recsOf (o : Nat) : List OpRec := (recordSpan e.ops o).filterMap fun k => e.ops[k]?
  nodes.flatMap fun (n : Node × Nat) =>
    let k := n.2
    (n.1.stages.map fun x =>
      { lo := start k, bytes := tileBytes e x.1 x.2 i
        hi := if t0 x.1 then (releaseEnd x.1 k).getD last
              else (nodes.filter fun m => m.1.op.isSome && m.1.deps.contains k).foldl (fun z m => Frac.max z (fin m.2)) (fin k) }) ++
    match n.1.op with
    | none => []
    | some oi =>
      let recs := recsOf oi
      let outs := if !top then [] else ((recs.flatMap OpRec.writes).eraseDups).filter fun t =>
        !(t0 t && stagedT t) && !(g.nodes.take k).any fun m => m.op.any fun j => (recsOf j).any fun q => q.writes.contains t
      (outs.map fun t => { lo := start k, hi := backEnd t, bytes := tileBytes e t (e.ops.filter fun q => q.writes.contains t) i }) ++
      match recs with
      | [o] => if o.writes.any (budgetCurrent e.module) then
          [{ lo := start k, hi := fin k, bytes := 6 * sumNat ((tileBoxes e o o.out i).map fun b => countOf (b.map List.length)) }]
        else []
      | _ => [{ lo := start k, hi := fin k, bytes := inner oi }]

/-- The peak of records [i, i+n) on a tile, by the schedule of R275, constructs inwards. -/
def blockPeak (e : BudgetEnv) (closure : List (List Nat)) (top : Bool) (tile : Nat) : Nat → Nat → Nat → Graph → Nat
  | 0, _, _, _ => 0
  | fuel + 1, i, n, g₀ =>
    let g := buildGraph e closure top (e.ops.length + 1) i n g₀
    let inner (oi : Nat) : Nat :=
      let lens := ((e.ops[oi]?).map OpRec.lengths).getD []
      maxNat (lens.zipIdx.map fun a => blockPeak e closure false tile fuel (oi + 1 + sumNat (lens.take a.2)) a.1
        { held := g.held.map fun p => (p.1, none), written := g.written })
    peakOf (holdingsOf e top tile g (scheduleNodes g.nodes [] []) inner)

/-- Bytes of a partial-sum region's partials on tile `i`: they lie where the contraction that names it computes its output (R137,
R232, R269). -/
def regionBytes (e : BudgetEnv) (k : Nat) (r : RegionDecl) (i : Nat) : Nat :=
  let dims := match e.ops.find? fun o => o.region == some k && o.tensorAt 3 != 0xFFFF with
    | some o => contractDims (e.module.tensor (o.tensorAt 3)).dims (e.module.tensor (o.tensorAt 4)).dims
    | none => [r.rows, r.cols]
  let (segs, cols, _) := contractBlockOf dims e.n i
  32 * sumNat (segs.map fun x => (x.2.2 - x.2.1) * (cols.2 - cols.1))

/-- Peak scratchpad of a step on tile `i` of the placement, in bytes (R271): its regions, and what its schedule holds. -/
def stepScratch (e : BudgetEnv) (i : Nat) : Nat :=
  let s := e.module.steps.getD e.step { firstOp := 0, opCount := 0, span := 1, regionCount := 0, firstRegion := 0 }
  let regions := sumNat ((((e.module.regions.drop s.firstRegion).take s.regionCount).zipIdx).map fun r => regionBytes e r.2 r.1 i)
  regions + blockPeak e (dependencyClosure e.ops) true i (e.ops.length + 1) 0 e.ops.length {}

end Sys2Proof.Machine
end

