-- ==== Sys2Proof/Machine/Deep.lean ====
section
/-! DEFINITION. The deep tier's capacity and extents (R433 to R435, R442 to R447, R454 to R459): what a hub can hold, how an
extent is allocated, promoted, released and dropped. -/

namespace Sys2Proof.Machine

def extentBytes : Nat := 4194304

/-- The hub of an extent (R433). -/
def extentHub (e : Nat) : Nat := e / 4194304

/-- Planes of a hub: trained channels × chip enables × LUNs × planes (R455). -/
def geomPlanes (g : FlashGeom) : Nat := g.channels.length * g.chipEnables * g.luns * g.planes

/-- Slots of one block (R455). -/
def geomBlockSlots (g : FlashGeom) : Nat := g.slotsPerPage * g.pagesPerBlock

/-- Slots in the good blocks of a hub (R457). -/
def Flash.goodSlots (f : Flash) : Nat := (geomPlanes f.geom * f.geom.blocks - f.bad.length) * geomBlockSlots f.geom

/-- Valid slots of a hub. -/
def Flash.validSlots (f : Flash) : Nat := sumNat (f.supers.map fun p => p.2.valid)

/-- Slots the hub still admits (R457). -/
def Flash.room (f : Flash) : Nat := f.goodSlots * 88 / 100 - f.validSlots

/-- The hub of greatest free stored capacity among those with channels; ties to the lower number (R434). -/
def Dev.roomiestFlash (d : Dev) : Nat :=
  (List.range 4).foldl (fun b h => if (d.flashOf b).room < (d.flashOf h).room then h else b) 0

/-- The lowest FREE extent of a hub. -/
def Dev.freeExtent (d : Dev) (h : Nat) : Option Nat :=
  let used := ((d.extents.filter fun p => extentHub p.1 == h && p.2.state != .free).map Prod.fst)
  if used.length ≥ 4194304 then none
  else ((List.range (used.length + 1)).map (4194304 * h + ·)).find? fun e => !used.contains e

/-- Frames a readable copy of an extent gives back when it is dropped (R348, R444). -/
def Dev.dropCopy (d : Dev) (e : Nat) : Dev :=
  let x := d.extent e
  let d := d.modExtent e fun x => { x with copy := [], compressed := false, covered := [], complete := false }
  d.each x.copy Dev.dropFrame

/-- The pages under an extent: mapping-table entries of its context. -/
def Dev.extentPages (d : Dev) (e : Nat) : List Nat :=
  let x := d.extent e
  match x.plans.findSome? fun p => ((d.plan p).tensors.find? fun t => t.extents.contains e) with
  | none => []
  | some t =>
    let i := t.extents.idxOf e
    ([t.firstPage + 2 * i, t.firstPage + 2 * i + 1].filterMap fun p => (d.ctx x.ctx).entryOf p)

/-- A g.gather or g.scatter of the module reads the tensor. -/
def Module.gathers (m : Module) (t : Nat) : Bool :=
  m.ops.any fun o => (o.opcode == 0x0300 || o.opcode == 0x0301) && o.reads.contains t

/-- A page under the extent is an alias source (R440). -/
def Dev.aliasSource (d : Dev) (e : Nat) : Bool :=
  let c := (d.extent e).ctx
  (d.extentPages e).any fun p => d.maps.any fun m => m.2.valid && m.2.aliasOf == some (c, p)

/-- A g.gather or g.scatter of a plan that holds the extent reads its tensor (R440). -/
def Dev.gathered (d : Dev) (e : Nat) : Bool :=
  (d.extent e).plans.any fun s =>
    let p := d.plan s
    (List.range p.tensors.length).any fun t => ((p.tensors.getD t {}).extents).contains e && p.module.gathers t

/-- The tensor of an extent and its place in it, by the first plan that holds it. -/
def Dev.extentTensor (d : Dev) (e : Nat) : Option (TensorDecl × Nat) :=
  (d.extent e).plans.findSome? fun s =>
    let p := d.plan s
    (List.range p.tensors.length).findSome? fun t =>
      if ((p.tensors.getD t {}).extents).contains e then
        some (p.module.tensor t, ((p.tensors.getD t {}).extents).idxOf e) else none

/-- Pages under extent `i` of a tensor. -/
def extentPageCount (t : TensorDecl) (i : Nat) : Nat := min 2 (t.pages - 2 * i)

/-- Frames of a promoted copy (R440): one where it is written compressed, else one for each of its pages. -/
def copyFrames (stored pages : Nat) (plain : Bool) : Nat := if stored ≤ 512 && plain then 1 else pages

/-- The copy of an extent would be written compressed (R440): nothing gathers from it, and it is no alias source. -/
def Dev.plainCopy (d : Dev) (e : Nat) : Bool := !d.gathered e && !d.aliasSource e

/-- Frames that a promotion of the extent needs (R358, R440). -/
def Dev.promotionOf (d : Dev) (e : Nat) : Nat :=
  match d.extentTensor e with
  | some (t, i) => copyFrames (d.extent e).stored (extentPageCount t i) (d.plainCopy e)
  | none => 0

/-- A promotion of the extent is in flight (R443): it is PROMOTING, its turn has come, and it has its frames. -/
def Extent.underWay (x : Extent) : Bool := x.state == .promoting && !x.copy.isEmpty

/-- A started step of the context reads the extent (R443). -/
def Dev.stepReads (d : Dev) (e : Nat) : Bool :=
  d.runs.any fun r => r.2.state == .running &&
    (let p := d.plan r.2.plan
     ((p.module.stepOps r.2.step).flatMap OpRec.reads).any fun t => ((p.tensors.getD t {}).extents).contains e)

/-- The copy is pinned (R443). -/
def Dev.pinned (d : Dev) (e : Nat) : Bool :=
  let x := d.extent e
  x.state == .promoting || x.state == .filling || x.state == .settling || d.stepReads e ||
    x.copy.any fun f => d.badLines.any fun b => b.1 / 16384 == f && b.2.holding

/-- A RESIDENT extent with no reference and no pin loses its copy (R444). -/
def Dev.settleRefs (d : Dev) (e : Nat) : Dev :=
  let x := d.extent e
  if x.state = .resident && x.refs.isEmpty && !d.pinned e then (d.dropCopy e).modExtent e fun x => { x with state := .resting }
  else d

/-- The last plan's unload: the copy is dropped, its slots become invalid and the extent is FREE (R441, R444). -/
def Dev.freeExtentNow (d : Dev) (e : Nat) : Dev :=
  let x := d.extent e
  let d := d.dropCopy e
  let d := if x.stored = 0 then d else
    d.modFlash (extentHub e) fun f =>
      { f with supers := f.supers.upd {} x.superblock fun s => { s with valid := s.valid - x.stored, extents := s.extents.filter (· != e) } }
  let d := d.modFlash (extentHub e) fun f => { f with sluice := f.sluice.filter fun q => q.1 != e }
  ((d.modExtent e fun _ => {}).modCtx x.ctx fun c => { c with useT2 := c.useT2 - 1 }).checkQuota x.ctx

/-- A plan's reference is released (R444, R447): at once, or queued while a promotion is in flight. -/
def Dev.releaseRef (d : Dev) (e plan : Nat) : Dev :=
  let x := d.extent e
  if !x.refs.contains plan then d
  else if x.state = .promoting then d.modExtent e fun x => { x with releases := x.releases ++ [plan] }
  else (d.modExtent e fun x => { x with refs := x.refs.filter (· != plan) }).settleRefs e

/-- Queued releases are applied at a change of state (R444); the last plan's unload does not wait for a promotion that is
only queued. -/
def Dev.applyReleases (d : Dev) (e : Nat) : Dev :=
  let x := d.extent e
  if x.state = .promoting && !(x.freeing && x.copy.isEmpty) then d
  else
    let d := (d.modExtent e fun x => { x with releases := [] }).each x.releases fun d p => d.releaseRef e p
    let y := d.extent e
    if y.freeing && y.state != .settling && y.stagers.isEmpty then d.freeExtentNow e else d.settleRefs e

/-- A plan no longer holds the extent (R284, R435, R444). -/
def Dev.unholdExtent (d : Dev) (e plan : Nat) : Dev :=
  let d := d.releaseRef e plan
  let d := d.modExtent e fun x => { x with plans := x.plans.filter (· != plan) }
  if (d.extent e).plans.isEmpty then (d.modExtent e fun x => { x with freeing := true }).applyReleases e else d

/-- A promotion is asked for a plan by a need tide (R444, R445): a reference, and for a RESTING extent, which is PROMOTING
from then on, a place in the sluice's queue.  Until its turn comes it has no frames. -/
def Dev.requestPromotion (d : Dev) (e plan need : Nat) : Dev :=
  let x := d.extent e
  let d := if x.refs.contains plan then d else d.modExtent e fun x => { x with refs := x.refs ++ [plan] }
  if x.state = .resting then
    (d.modExtent e fun x => { x with state := .promoting }).modFlash (extentHub e) fun f =>
      let (a, b) := f.sluice.span fun q => q.2 ≤ need
      { f with sluice := a ++ [(e, need)] ++ b }
  else d

/-- Tensors of a module that rest in T2: read_only with a T2 hint or intent (R270, R434). -/
def Module.deep (m : Module) : List Nat :=
  (List.range m.tensors.length).filter fun t =>
    (m.tensor t).readOnly && ((m.tensor t).tierHint == 3 || m.intents.any fun i => i.tensor == t && i.tier == 2)

/-- A step reads the tensor for the sluice: an operation reads it, or prefetches it to T1 (R273, R445). -/
def Module.stepNeeds (m : Module) (s t : Nat) : Bool :=
  (m.stepOps s).any fun o => o.reads.contains t || (o.opcode == 0x0700 && o.f 4 0 2 == 1 && o.tensorAt 3 == t)

/-- An intent of a tier spans a step. -/
def Module.intentAt (m : Module) (tier s t : Nat) : Bool :=
  m.intents.any fun i => i.tensor == t && i.tier == tier && i.first ≤ s && s ≤ i.last

end Sys2Proof.Machine
end

