-- ==== Sys2Proof/Machine/Keys.lean ====
section
/-! DEFINITION. The key tree (R537, R538, R480): every key is computed when it is needed. -/

namespace Sys2Proof.Machine

/-- The bytes of an ASCII label. -/
def ascii (s : String) : List Byte := s.toList.map fun c => BitVec.ofNat 8 c.toNat

/-- HKDF with a label and fields (R537); 32 bytes unless stated otherwise. -/
def hkdf (p : List Byte) (label : String) (fields : List Byte) (n : Nat := 32) : List Byte :=
  Config.hkdf p (ascii label ++ fields) n

/-- The first valid bank of a drawn root: banks 0, 1 field, 2, 3 return (R567). -/
def LifeCycle.bankRoot (l : LifeCycle) (a : Nat) : List Byte :=
  match [a, a + 1].find? fun b => l.banks.get 0 b == 2 with
  | some b => Config.random (l.roots.get 0 b)
  | none => []

/-- K_root, by the life-cycle state (R564). -/
def Dev.kRoot (d : Dev) : List Byte :=
  match d.life.state with
  | 0 | 1 => Config.testRoot
  | 2 => Config.provisioningRoot
  | 3 => d.life.bankRoot 0
  | 4 => d.life.bankRoot 2
  | _ => []

/-- K_dev (R538). -/
def Dev.kDev (d : Dev) : List Byte := hkdf d.kRoot "ONV-DEV" (bytesOfNat 8 d.sys.serial.toNat)

/-- K_boot (R538). -/
def Dev.kBoot (d : Dev) : List Byte := hkdf d.kDev "ONV-BOOT" (Config.random d.sys.bootNonce)

/-- K_ctx of a slot's opening (R538). -/
def Dev.kCtx (d : Dev) (c : Nat) : List Byte :=
  hkdf d.kBoot "ONV-CTX" (bytesOfNat 2 c ++ bytesOfNat 8 (d.ctx c).serial)

/-- K_chr of a charter whose owner keys are all delivered (R538). -/
def Charter.chrKey (x : Charter) : List Byte :=
  hkdf ((List.range x.owners.length).flatMap fun o => x.keys.get [] o) "ONV-CHR" x.digest

/-- The key of a context's group, by its rank list's group (R480). -/
def Dev.linkKey (d : Dev) (c groupId nonce : Nat) : List Byte :=
  let base := match (d.ctx c).charter with
    | some k => ((d.charter k).kChr).getD []
    | none => d.fabric.harbourKey.getD []
  Config.hkdf base (ascii "ONV-LINK" ++ bytesOfNat 8 groupId ++ bytesOfNat 8 nonce) 32

/-- The group of a context's job: its lowest open group (R511). -/
def Dev.groupOfCtx (d : Dev) (c : Nat) : Option Nat := (d.groupsOf c).min?

/-- The job domain key J of a context (R538). -/
def Dev.jobKey (d : Dev) (c : Nat) : List Byte :=
  match (d.ctx c).charter, d.groupOfCtx c with
  | some k, _ => ((d.charter k).kChr).getD []
  | none, some g => hkdf (d.fabric.harbourKey.getD []) "ONV-JOB" (bytesOfNat 8 (d.group g).groupId)
  | none, none => d.kCtx c

/-- The random-stream purpose key (R538). -/
def Dev.rngKey (d : Dev) (c : Nat) : List Byte := hkdf (d.jobKey c) "ONV-P-RNG" []

/-- The snapshot key of a job at a snapshot tide (R538). -/
def Dev.snapKey (d : Dev) (c tide : Nat) : List Byte :=
  let g := match d.groupOfCtx c with
    | some g => (d.group g).groupId
    | none => 0
  hkdf (d.jobKey c) "ONV-SNAP" (bytesOfNat 8 g ++ bytesOfNat 8 tide)

/-- The envelope key E_o (R538). -/
def Charter.envKey (x : Charter) (o : Nat) : List Byte := hkdf (x.keys.get [] o) "ONV-ENV" x.digest

/-- The flash purpose key of a context's domain, owner slot 0xFF the context's own branch (R538). -/
def Dev.flashKey (d : Dev) (c o : Nat) : List Byte :=
  let own := match (d.ctx c).charter with
    | some k => if o = 0xFF then d.kCtx c else (d.charter k).keys.get [] o
    | none => d.kCtx c
  hkdf (d.kBoot ++ own) "ONV-FLASH" (bytesOfNat 1 ((d.ctx c).charter.getD 0) ++ bytesOfNat 1 o)

/-- The memory keys K_enc ‖ K_mac of an identifier (R538). -/
def Dev.memKeys (d : Dev) (k : Nat) : List Byte :=
  match (d.keyId k).binding with
  | some (c, o, _) =>
    hkdf (d.kCtx c) "ONV-MEM" (bytesOfNat 1 o ++ bytesOfNat 2 k ++ bytesOfNat 8 (d.keyId k).serial) 64
  | none => []

/-! ### Engine classes and slots (R38, R539) -/

/-- The engine class a key's attribute names, by its 3-bit code (R539). -/
inductive KeyClass where
  | tile | hub | seam | link | sluice | snapshot | flash | none
  deriving DecidableEq, Repr

def KeyClass.code : KeyClass → Nat
  | .tile => 0 | .hub => 1 | .seam => 2 | .link => 3 | .sluice => 4 | .snapshot => 5 | .flash => 6 | .none => 7

/-- Key slots of one engine of a class (R539); a fabric die's link engines hold 1,024 group keys, the harbour key and a hop key for
each of the die's twelve ports. -/
def KeyClass.slots : KeyClass → Nat
  | .tile => 256 | .hub => 4096 | .seam => 2 | .link => 1037 | .sluice => 32 | .snapshot => 64 | .flash => 64 | .none => 0

/-- Random-stream keys that a tile holds, one for each context (R539). -/
def Dev.rngSlots (d : Dev) (t : Nat) : Nat := (d.ctxs.filter fun c => c.2.state != .closed && c.2.rngTiles.contains t).length

/-- Flash keys that a hub's flash engine holds, one for each owner domain (R539). -/
def Dev.flashSlots (d : Dev) (h : Nat) : Nat :=
  sumNat (d.ctxs.map fun c => if c.2.state = .closed then 0 else (c.2.flashKeys.filter fun k => k.1 == h).length)

/-- A plan's steps draw from random streams. -/
def Plan.usesStreams (p : Plan) : Bool := p.module.ops.any OpRec.draws

/-- Every tile of a plan that draws holds its context's random-stream key, or has a slot for it (R539). -/
def Dev.rngRoom (d : Dev) (ctx slot : Nat) : Bool :=
  !(d.plan slot).usesStreams || (d.plan slot).tiles.all fun t => (d.ctx ctx).rngTiles.contains t || decide (d.rngSlots t < KeyClass.tile.slots)

/-- The random-stream key is delivered to the tiles of a plan that draws (R38, R539). -/
def Dev.giveRng (d : Dev) (ctx slot : Nat) : Dev :=
  if (d.plan slot).usesStreams then
    d.modCtx ctx fun x => { x with rngTiles := x.rngTiles ++ (d.plan slot).tiles.filter fun t => !x.rngTiles.contains t }
  else d

/-- The flash engines of hubs hold a domain's flash key, or have a slot for it (R539). -/
def Dev.flashRoom (d : Dev) (ctx owner : Nat) (hubs : List Nat) : Bool :=
  hubs.all fun h => (d.ctx ctx).flashKeys.contains (h, owner) || decide (d.flashSlots h < KeyClass.flash.slots)

/-- A domain's flash key is delivered to the flash engines of hubs (R38, R539). -/
def Dev.giveFlash (d : Dev) (ctx owner : Nat) (hubs : List Nat) : Dev :=
  d.modCtx ctx fun x =>
    { x with flashKeys := x.flashKeys ++ (hubs.map fun h => (h, owner)).filter fun k => !x.flashKeys.contains k }

/-- A queue's head command waits for a key slot of a class (R539). -/
def Dev.waitKey (d : Dev) (cls q : Nat) : Dev :=
  d.modTrust fun t => { t with keyWaits := if t.keyWaits.contains (cls, q) then t.keyWaits else t.keyWaits ++ [(cls, q)] }

end Sys2Proof.Machine
end

