-- ==== Sys2Proof/Machine/Fence.lean ====
section
/-! DEFINITION. Fences (R350 to R357): signals by distance, breaks, waits and fence records, and the order in which the
changes of one ebb are applied (R364). -/

namespace Sys2Proof.Machine

/-- The context, not CLOSED, whose fence range holds slot `f` (R350). -/
def Dev.ctxOfFence (d : Dev) (f : Nat) : Option Nat :=
  (d.ctxs.find? fun p => p.2.state != .closed && p.2.fenceBase.toNat * 64 ≤ f &&
    f < (p.2.fenceBase.toNat + p.2.fenceCount.toNat) * 64).map Prod.fst

/-- Slot `f` lies in the range of context slot `c` (R350). -/
def Dev.ownsFence (d : Dev) (c f : Nat) : Bool :=
  (d.ctx c).fenceBase.toNat * 64 ≤ f && f < ((d.ctx c).fenceBase.toNat + (d.ctx c).fenceCount.toNat) * 64

/-- The state's encoding in a fence record (R356). -/
def FenceState.num : FenceState → Nat
  | .pending => 0 | .signalled => 1 | .broken => 2

/-- The words of fence `f`'s record (R356). -/
def Fence.record (x : Fence) : List W32 :=
  [x.value, BitVec.ofNat 32 (x.state.num + 256 * x.seq.toNat + 65536 * x.code), BitVec.ofNat 32 x.tide,
   BitVec.ofNat 32 (x.originSlot + 65536 * x.originCode)]

/-- The record of fence `f` is written through its context's home function, with its count raised; a CLOSING
context's records are not written (R340, R356, R357). -/
def Dev.writeRecord (d : Dev) (f : Nat) : Dev :=
  match d.ctxOfFence f with
  | none => d
  | some c =>
    let x := d.ctx c
    if x.state = .closing || !d.fnWrites x.homeFn.toNat then d
    else
      let d := d.modFence f fun v => { v with seq := v.seq + 1 }
      d.hostWrite x.homeFn.toNat ((x.recBase.toNat + 16 * (f - x.fenceBase.toNat * 64)) % 18446744073709551616)
        (d.fence f).record

/-- How a signal of `s` reads at a fence of value `v` (R352). -/
inductive SignalRead where
  | repeated | ahead | leap | stale
  deriving DecidableEq, Repr

/-- The distance rule (R352). -/
def signalRead (v s : W32) : SignalRead :=
  let dist := (s - v).toNat
  if dist = 0 then .repeated
  else if dist < 2147483648 then .ahead
  else if dist < 3221225472 then .leap
  else .stale

/-- A stale signal is counted in its fence's context, saturating (R336, R352). -/
def Dev.countStale (d : Dev) (f : Nat) : Dev :=
  match d.ctxOfFence f with
  | none => d
  | some c => d.modCtx c fun x => { x with stale := satAt 0xFFFFFFFF (x.stale + 1) }

/-- The outcome of a command's waits. -/
inductive WaitState where
  | met | unmet
  /-- A wait's fence is BROKEN: its slot and its origin code. -/
  | broken (slot originCode : Nat)
  deriving DecidableEq, Repr

/-- A wait for `w` is met (R353). -/
def Fence.meets (x : Fence) (w : W32) : Bool := x.state != .broken && (x.value - w).toNat < 2147483648

/-- The waits of a command (R311, R353, R354): the lowest-numbered broken one decides. -/
def Dev.waitState (d : Dev) (ws : List (Nat × Nat × W32)) : WaitState :=
  match ws.find? fun w => (d.fence w.2.1).state == .broken with
  | some w => .broken w.2.1 (d.fence w.2.1).originCode
  | none => if ws.all fun w => (d.fence w.2.1).meets w.2.2 then .met else .unmet

/-- The outcome of a command's waits, those already evaluated among them. -/
def Dev.cmdWaits (d : Dev) (c : Cmd) : WaitState :=
  match c.upstream with
  | some (f, o) => .broken f o
  | none => d.waitState c.waits

/-- A command's waits are evaluated (R353): one that is met stays met, and one that finds its fence BROKEN stays broken
(R355). -/
def Dev.evalWaits (d : Dev) (c : Cmd) : Cmd :=
  match c.upstream, d.waitState c.waits with
  | none, .broken f o => { c with upstream := some (f, o) }
  | none, _ => { c with waits := c.waits.filter fun w => !(d.fence w.2.1).meets w.2.2 }
  | some _, _ => c

/-- The waits of the commands at the heads of their queues are evaluated (R353). -/
def Dev.evalHeads (d : Dev) : Dev :=
  { d with queues := d.queues.map fun (x : Nat × Queue) => match x.2.fetched with
      | c :: cs => (x.1, { x.2 with fetched := d.evalWaits c :: cs })
      | [] => x }

/-- A fence changes; the waits at the heads of queues are evaluated against it before and after (R353). -/
def Dev.changeFence (d : Dev) (f : Nat) (g : Fence → Fence) : Dev := ((d.evalHeads).modFence f g).evalHeads

/-- A fence breaks, unless it is BROKEN already (R354); the break is logged (R651), a lane fault as a pair of entries
(R194). -/
def Dev.breakFence (d : Dev) (f : Nat) (b : FenceBreak) (ctx : Nat := 0) (queue : Nat := 0xFFFF) : Dev :=
  if (d.fence f).state = .broken then d
  else
    let d := d.changeFence f fun x =>
      { x with state := .broken, code := b.code, originSlot := b.originSlot, originCode := b.originCode, tide := d.tideLow }
    let d := d.logEvent 0 b.code 0xFF ctx queue b.step b.op f b.index
    match b.cause with
    | some k => d.logEvent 0 b.code 0xFF ctx queue b.step b.op f k
    | none => d

/-- A signal is applied by its distance (R352, R355); the answer says whether it leapt. -/
def Dev.signalFence (d : Dev) (f : Nat) (s : W32) (ctx : Nat := 0) (queue : Nat := 0xFFFF) : Dev × Bool :=
  let x := d.fence f
  match signalRead x.value s with
  | .repeated =>
    if x.state = .pending then
      (d.changeFence f fun x => { x with state := .signalled, tide := d.tideLow, originSlot := f, originCode := 0 }, false)
    else (d, false)
  | .ahead =>
    (d.changeFence f fun x => { x with value := s, state := .signalled, code := 0, tide := d.tideLow,
                                       originSlot := f, originCode := 0 }, false)
  | .leap => (d.breakFence f { code := Code.fenceLeap, originSlot := f, originCode := Code.fenceLeap } ctx queue, true)
  | .stale => (d.countStale f, false)

/-- Whether two fences differ in what a record announces: value, state or code (R356). -/
def fenceChanged (a b : Fence) : Bool := a.value != b.value || a.state != b.state || a.code != b.code

/-- One fence change is applied; a signal of a fence that the same ebb breaks counts as stale (R364). -/
def Dev.applyFenceOp (broken : List Nat) (d : Dev) (o : FenceOp) : Dev × Bool :=
  match o.brk with
  | some b => (d.breakFence o.slot b o.ctx o.queue, false)
  | none => if broken.contains o.slot then (d.countStale o.slot, false) else d.signalFence o.slot o.value o.ctx o.queue

/-- Insertion by queue number, then ring order (R354, R364). -/
def insertOp (o : FenceOp) : List FenceOp → List FenceOp
  | [] => [o]
  | p :: t => if o.queue < p.queue || (o.queue == p.queue && o.seq < p.seq) then o :: p :: t else p :: insertOp o t

/-- Fence changes in ascending queue number, then ring order. -/
def sortOps (l : List FenceOp) : List FenceOp := l.foldl (fun acc o => insertOp o acc) []

/-- The changes of one instant, applied in order (R354, R364): the device, the commands whose signal leapt, and the
fences whose record is due. -/
def Dev.applyFenceOps (d : Dev) (ops : List FenceOp) : Dev × List (Nat × Nat) × List Nat :=
  let ops := sortOps ops
  let broken := (ops.filter fun o => o.brk.isSome).map FenceOp.slot
  let slots := (ops.map FenceOp.slot).eraseDups
  let r := ops.foldl (fun (acc : Dev × List (Nat × Nat)) o =>
    let (d', leapt) := acc.1.applyFenceOp broken o
    (d', if leapt then acc.2 ++ [(o.queue, o.seq)] else acc.2)) (d, [])
  (r.1, r.2, slots.filter fun f => fenceChanged (d.fence f) (r.1.fence f))

end Sys2Proof.Machine
end

