-- ==== Sys2Proof/Machine/Complete.lean ====
section
/-! DEFINITION. Completion packets (R315 to R318): their words, their place in the ring, and the end of a command. -/

namespace Sys2Proof.Machine

/-- The units of a ring of `2^(12+n)` bytes (R302, R328). -/
def ringUnits (n : BitVec 4) : Nat := 2 ^ (6 + n.toNat)

/-- The step field of a code entry (R315). -/
def CodeEntry.indexWord (e : CodeEntry) : Nat :=
  match e.index with
  | none => 0xFFFFFFFF
  | some i => satAt 0xFFFFFFFE i

/-- The three words of a code entry (R315). -/
def CodeEntry.words (e : CodeEntry) : List W32 :=
  [BitVec.ofNat 32 (e.code + 65536 * (e.op % 65536)), BitVec.ofNat 32 e.step, BitVec.ofNat 32 e.indexWord]

/-- The context tag of a command's completion. -/
def Cmd.tag (c : Cmd) : Nat := c.context

/-- The 16 words of a completion header whose first unit is unit `at` of the queue's completion ring (R315, R317). -/
def completionHeader (q : Nat) (at' units : Nat) (c : Completion) : List W32 :=
  let n := min 3 c.codes.length
  let dropped := boolNat (decide (c.codes.length > 3))
  let phase := (at' / units + 1) % 2
  let fv := boolNat c.cmd.signal.isSome
  [BitVec.ofNat 32 (c.cmd.opcode + 256 * c.cmd.format + 4096 * boolNat c.broken + 8192 * fv + 65536 * c.cmd.tag),
   c.cmd.cmdId,
   BitVec.ofNat 32 (q + 4096 * n + 16384 * dropped + 2147483648 * phase),
   BitVec.ofNat 32 c.cmd.head,
   BitVec.ofNat 32 (c.cmd.signalSlot + 65536 * (c.result.length / 16)),
   c.cmd.signalValue,
   BitVec.ofNat 32 c.tide] ++
  padTo 0 9 ((c.codes.take 3).flatMap CodeEntry.words)

/-- Free units of a completion ring: its units less those written and not yet consumed (R318). -/
def Queue.freeUnits (x : Queue) : Nat := ringUnits x.cplLog2 - (x.cplUnits - x.cplHead)

/-- The units of a result, padded to a unit. -/
def unitsOf (ws : List W32) : List (List W32) :=
  (List.range (ceilDiv ws.length 16)).map fun i => padTo 0 16 ((ws.drop (16 * i)).take 16)

/-- A completion packet is written at the queue's next units, result units first and header last (R317). -/
def Dev.writeCompletion (d : Dev) (q : Nat) (c : Completion) : Dev :=
  let x := d.queue q
  let units := ringUnits x.cplLog2
  let n := x.cplUnits
  let us := unitsOf c.result
  let c := { c with result := us.flatten }
  let put (d : Dev) (k : Nat) (w : List W32) : Dev :=
    d.hostWrite x.function.toNat ((x.cpl.toNat + 64 * ((n + k) % units)) % 18446744073709551616) w
  let d := d.each (us.zipIdx) fun d u => put d (u.2 + 1) u.1
  let d := put d 0 (completionHeader q n units c)
  let used := 1 + us.length
  d.modQueue q fun x => { x with cplUnits := x.cplUnits + used, reserved := x.reserved - (1 + c.cmd.resultUnits) }

/-- The command's function left RUN after it was fetched, so no completion packet is written for it (R295). -/
def Dev.muted (d : Dev) (c : Cmd) : Bool := c.era != (d.fn c.fn).era

/-- A completion is written if the ring has the space, else it waits for it (R318, R332); a muted command's is not
written at all (R295). -/
def Dev.postCompletion (d : Dev) (q : Nat) (c : Completion) : Dev × Bool :=
  let x := d.queue q
  if d.muted c.cmd then (d, false)
  else if x.waitCpl.isEmpty && 1 + (unitsOf c.result).length ≤ x.freeUnits then (d.writeCompletion q c, true)
  else (d.modQueue q fun x => { x with waitCpl := x.waitCpl ++ [c] }, false)

/-- The code entries whose linear index a completion does not carry in full (R315), a lane fault's with the second entry of
its pair (R194). -/
def cappedCodes : List CodeEntry → List CodeEntry
  | [] => []
  | [a] => if 0xFFFFFFFE ≤ a.index.getD 0 then [a] else []
  | a :: b :: t =>
    if a.code = Code.laneFault then (if 0xFFFFFFFE ≤ a.index.getD 0 then [a, b] else []) ++ cappedCodes t
    else (if 0xFFFFFFFE ≤ a.index.getD 0 then [a] else []) ++ cappedCodes (b :: t)

/-- The codes that go into the event log with a completion (R651 kind 1): all of one that drops codes, else those capped. -/
def Dev.logCodes (d : Dev) (q : Nat) (c : Completion) : Dev :=
  d.each (if 3 < c.codes.length then c.codes else cappedCodes c.codes) fun d e =>
    d.logEvent 1 e.code 0xFF c.cmd.tag q e.step e.op 0xFFFF (e.index.getD 0)

/-- The fence change of an ending (R354). -/
def Ending.fenceOp (e : Ending) : List FenceOp :=
  match e.cmd.signal with
  | none => []
  | some f =>
    let o : FenceOp := { slot := f, queue := e.queue, seq := e.cmd.seq, ctx := e.cmd.tag, value := e.cmd.signalValue }
    match e.error with
    | none => [o]
    | some c =>
      let (os, oc) := e.origin.getD (f, c.code)
      [{ o with brk := some { code := c.code, originSlot := os, originCode := oc, step := c.step, op := c.op, index := c.index.getD 0
                              cause := if c.code = Code.laneFault then (e.codes.head?).bind CodeEntry.index else none } }]

/-- The completion of an ending: FENCE_LEAP first if its signal leapt (R354), QUOTA_OVER if its context is over quota
(R359). -/
def Dev.completionOf (d : Dev) (leapt : Bool) (e : Ending) : Completion :=
  let above := match d.ctxOfTag e.cmd.tag with
    | some c => (d.ctx c).overQuota
    | none => false
  { cmd := e.cmd
    broken := e.error.isSome || leapt
    codes := (if leapt then [{ code := Code.fenceLeap }] else []) ++ e.error.toList ++ e.codes ++
      (if above then [{ code := Code.quotaOver }] else [])
    tide := d.tideLow
    result := e.result }

/-- A command leaves its queue's lists. -/
def Dev.retire (d : Dev) (q seq : Nat) : Dev :=
  d.modQueue q fun x => { x with fetched := x.fetched.filter (·.seq != seq), begun := x.begun.filter (·.seq != seq) }

/-- The fence of a change lies in the range of its queue's context (R350); a command changes no other fence. -/
def Dev.fenceAllowed (d : Dev) (o : FenceOp) : Bool :=
  match d.ctxOfTag (d.queue o.queue).context.toNat with
  | some c => d.ownsFence c o.slot
  | none => false

/-- A progress signal of a RUN_PLAN that goes on leapt (R354): its completion is to carry FENCE_LEAP. -/
def Dev.noteLeaps (d : Dev) (leaps : List (Nat × Nat)) : Dev :=
  { d with runCmds := d.runCmds.map fun (x : RunCmd) =>
      if leaps.contains (x.queue, x.cmd.seq) then { x with codes := x.codes ++ [{ code := Code.fenceLeap }] } else x }

/-- Several commands end at one instant (R297, R354, R356, R364): fences, then completion packets, then fence records,
then one MSI-X message for each vector when `oneEach`, else one for each completion. -/
def Dev.endAll (d : Dev) (es : List Ending) (more : List FenceOp) (oneEach : Bool) : Dev :=
  let (d, leaps, changed) := d.applyFenceOps ((es.flatMap Ending.fenceOp ++ more).filter d.fenceAllowed)
  let d := d.noteLeaps leaps
  let r := es.foldl (fun (acc : Dev × List (Nat × Nat)) e =>
    let c := acc.1.completionOf (leaps.contains (e.queue, e.cmd.seq)) e
    let d := (acc.1.retire e.queue e.cmd.seq).logCodes e.queue c
    let (d, sent) := d.postCompletion e.queue c
    let x := d.queue e.queue
    (d, if sent then acc.2 ++ [(x.function.toNat, x.vector.toNat)] else acc.2)) (d, [])
  let d := r.1.each changed Dev.writeRecord
  d.each (if oneEach then r.2.eraseDups else r.2) fun d v => d.msix v.1 v.2

/-- One command ends by itself. -/
def Dev.finish (d : Dev) (e : Ending) : Dev := d.endAll [e] [] false

/-- One command succeeds. -/
def Dev.succeed (d : Dev) (q : Nat) (c : Cmd) (result : List W32 := []) (codes : List CodeEntry := []) : Dev :=
  d.finish { queue := q, cmd := c, result := result, codes := codes }

/-- One command fails with a code. -/
def Dev.failCmd (d : Dev) (q : Nat) (c : Cmd) (code : Nat) (index : Option Nat := none) (result : List W32 := []) : Dev :=
  d.finish { queue := q, cmd := c, error := some { code := code, index := index }, result := result }

/-- One command fails because a fence it waits on is BROKEN (R311, R354). -/
def Dev.failUpstream (d : Dev) (q : Nat) (c : Cmd) (slot originCode : Nat) : Dev :=
  d.finish { queue := q, cmd := c, origin := some (slot, originCode)
             error := some { code := Code.upstreamError, step := slot, index := some originCode } }

end Sys2Proof.Machine
end

