-- ==== Sys2Proof/Machine/Packet.lean ====
section
/-! DEFINITION. Command packets (R309 to R314, R319): the header's fields, the command table, and the checks of R656 that
need the packet alone. -/

namespace Sys2Proof.Machine

/-- A row of the command table (R319): the least format that has it, the classes it runs on (0 N, 1 B, 2 P, 3 S),
whether it acts only while the tide timer runs, and whether it fails in neap service. -/
structure CmdRow where
  opcode  : Nat
  least   : Nat
  classes : List Nat
  tide    : Bool := false
  neap    : Bool := false
  /-- It takes a parameter unit (R309). -/
  param   : Bool := true
  deriving DecidableEq, Repr

/-- Opcodes of R319, by name. -/
def Op.fenceSignal : Nat := 0x01
def Op.fenceWait : Nat := 0x02
def Op.mapPages : Nat := 0x10
def Op.unmapPages : Nat := 0x11
def Op.quotaSet : Nat := 0x12
def Op.putTensor : Nat := 0x20
def Op.getTensor : Nat := 0x21
def Op.stage : Nat := 0x22
def Op.loadPlan : Nat := 0x30
def Op.unloadPlan : Nat := 0x31
def Op.runPlan : Nat := 0x32
def Op.charterOpen : Nat := 0x40
def Op.charterClose : Nat := 0x41
def Op.groupOpen : Nat := 0x50
def Op.groupClose : Nat := 0x51
def Op.snapshot : Nat := 0x52
def Op.restore : Nat := 0x53
def Op.havenBind : Nat := 0x54
def Op.takeover : Nat := 0x55
def Op.drainTile : Nat := 0x60
def Op.setOppoint : Nat := 0x61

/-- The command table (R319). -/
def cmdTable : List CmdRow :=
  [{ opcode := 0x01, least := 1, classes := [0, 1, 2, 3], param := false },
   { opcode := 0x02, least := 1, classes := [0, 1, 2, 3] },
   { opcode := 0x10, least := 1, classes := [0, 1, 3], param := false },
   { opcode := 0x11, least := 1, classes := [0, 1, 3], param := false },
   { opcode := 0x12, least := 1, classes := [3] },
   { opcode := 0x20, least := 1, classes := [2, 0, 1] },
   { opcode := 0x21, least := 1, classes := [2, 0, 1] },
   { opcode := 0x22, least := 1, classes := [0, 1], neap := true },
   { opcode := 0x30, least := 1, classes := [0, 1] },
   { opcode := 0x31, least := 1, classes := [0, 1, 3], tide := true },
   { opcode := 0x32, least := 1, classes := [2, 0, 1], tide := true },
   { opcode := 0x40, least := 2, classes := [0, 1] },
   { opcode := 0x41, least := 2, classes := [0, 1, 3], tide := true },
   { opcode := 0x50, least := 3, classes := [0, 1], neap := true },
   { opcode := 0x51, least := 3, classes := [0, 1], tide := true, neap := true },
   { opcode := 0x52, least := 3, classes := [0, 1], tide := true, neap := true },
   { opcode := 0x53, least := 3, classes := [0, 1], tide := true, neap := true },
   { opcode := 0x54, least := 3, classes := [3], neap := true },
   { opcode := 0x55, least := 3, classes := [3], tide := true, neap := true },
   { opcode := 0x60, least := 2, classes := [3], tide := true },
   { opcode := 0x61, least := 2, classes := [3], tide := true }]

/-- The command of an opcode (R319). -/
def cmdRow (opcode : Nat) : Option CmdRow := cmdTable.find? (·.opcode == opcode)

/-- The wait in words `5 + 2i` and `6 + 2i` of a header (R309). -/
def waitField (w : List W32) (i : Nat) : Option (Nat × Nat × W32) :=
  if bitOf (wordAt w (5 + 2 * i)) 16 then some (i, bitsOf (wordAt w (5 + 2 * i)) 0 16, w.getD (6 + 2 * i) 0) else none

/-- The fields of a command packet (R309): header, then payload. -/
def parsePacket (w : List W32) : Cmd :=
  let f (i lo n : Nat) := bitsOf (wordAt w i) lo n
  { opcode := f 0 0 8
    format := f 0 8 4
    chain := bitOf (wordAt w 0) 12
    isSealed := bitOf (wordAt w 0) 13
    context := f 0 16 16
    payloadUnits := f 1 0 16
    resultUnits := f 1 16 16
    cmdId := w.getD 2 0
    signal := if bitOf (wordAt w 3) 16 then some (f 3 0 16) else none
    signalSlot := f 3 0 16
    signalValue := w.getD 4 0
    waits := (List.range 4).filterMap (waitField w)
    charter := if bitOf (wordAt w 13) 8 then some (f 13 0 8) else none
    pBudget := wordAt w 14
    payload := w.drop 16 }

/-- The reserved bits of a header are zero (R309, R656). -/
def headerReservedZero (w : List W32) : Bool :=
  bitsOf (wordAt w 0) 14 2 == 0 && bitsOf (wordAt w 3) 17 15 == 0 &&
  ([5, 7, 9, 11].all fun i => bitsOf (wordAt w i) 17 15 == 0) && bitsOf (wordAt w 13) 9 23 == 0 && wordAt w 15 == 0

/-- The limits of the formats on a header (R310). -/
def headerLimits (w : List W32) (c : Cmd) : Bool :=
  if c.format = 1 then
    decide (c.payloadUnits ≤ 4096) && decide (c.resultUnits ≤ 4096) && zeroWords w 7 6 && zeroWords w 13 2
  else decide (c.payloadUnits ≤ 16384) && decide (c.resultUnits ≤ 16384)

/-- Step 1 of the decode checks (R656): header form. -/
def headerForm (x : Queue) (w : List W32) (c : Cmd) : Option Nat :=
  if c.format ≠ x.format.toNat then some Code.descMalformed
  else if !headerReservedZero w then some Code.descMalformed
  else if !headerLimits w c then some Code.descMalformed
  else match cmdRow c.opcode with
  | none => some Code.descMalformed
  | some r =>
    if c.format < r.least then some Code.ringFormatUnsupported
    else if c.chain && c.opcode ≠ Op.loadPlan then some Code.descMalformed
    else if x.cls.toNat ≠ 3 && c.context ≠ 0 && c.context ≠ x.context.toNat then some Code.descMalformed
    else if c.pBudget ≠ 0 && !(c.opcode = Op.runPlan && x.cls.toNat = 2) then some Code.descMalformed
    else none

/-! ### Parameter units -/

/-- Word `i` of the parameter unit. -/
def Cmd.p (c : Cmd) (i : Nat) : Nat := wordAt c.payload i

/-- Bits [lo+n-1:lo] of word `i` of the parameter unit. -/
def Cmd.pf (c : Cmd) (i lo n : Nat) : Nat := bitsOf (c.p i) lo n

/-- Words `i` and `i + 1` of the parameter unit as 64 bits. -/
def Cmd.p64 (c : Cmd) (i : Nat) : Nat := dwordAt c.payload i

/-- Words [i, 16) of the parameter unit are zero. -/
def Cmd.zeroFrom (c : Cmd) (i : Nat) : Bool := zeroWords c.payload i (16 - i)

/-- Units of group bindings a LOAD_PLAN carries (R323). -/
def Cmd.bindingUnits (c : Cmd) : Nat := ceilDiv (c.pf 3 16 5) 8

/-- Units of the rank list of a GROUP_OPEN (R483). -/
def Cmd.rankUnits (c : Cmd) : Nat := ceilDiv (c.pf 2 0 11) 32

/-- The least payload units and result units a command requires, once its parameter unit is there (R309, R323, R483,
R518, R546, R547, R549); an unforced DRAIN_TILE those of its refusal record (R288).  RESTORE's depend on the plans loaded, of
which there are `plans` (R524). -/
def Cmd.needs (c : Cmd) (plans : Nat) : Nat × Nat :=
  if c.opcode = Op.loadPlan then
    (1 + c.bindingUnits + (if c.chained then 0 else ceilDiv (c.p 4) 64), 1)
  else if c.opcode = Op.groupOpen then (1 + (if c.pf 2 0 11 ≤ 1024 then c.rankUnits else 0), 1)
  else if c.opcode = Op.charterOpen then
    match c.pf 0 0 3 with
    | 0 => (1, 2)
    | 1 => (4, 0)
    | 3 => (2, 0)
    | _ => (1, 0)
  else if c.opcode = Op.takeover then (1, 1)
  else if c.opcode = Op.drainTile then (1, if c.pf 0 8 2 = 0 then 1 else 0)
  else if c.opcode = Op.restore then (1, 1 + ceilDiv plans 4)
  else (1, 0)

/-- The reserved bits and field ranges of a command's parameter unit (R321 to R327, R360, R483, R507, R511, R518, R522,
R544, R555, R594). -/
def Cmd.paramsOk (c : Cmd) (cls : Nat) : Bool :=
  let w := c.p
  let op := c.opcode
  if op = Op.fenceWait then c.pf 0 16 16 == 0 && c.zeroFrom 1
  else if op = Op.unloadPlan then c.zeroFrom 1
  else if op = Op.runPlan then
    c.pf 3 17 15 == 0 && c.zeroFrom 5 && decide (1 ≤ w 2) && decide (w 2 ≤ 65536) && (cls != 2 || w 2 == 1)
  else if op = Op.loadPlan then
    c.pf 1 16 16 == 0 && c.pf 2 18 2 == 0 && c.pf 2 22 2 == 0 && c.pf 3 7 9 == 0 && c.pf 3 21 11 == 0 && c.zeroFrom 5 &&
    ((List.range (c.pf 3 16 5)).all fun g => bitsOf (wordAt c.payload (16 + 2 * g + 1)) 11 21 == 0)
  else if op = Op.putTensor || op = Op.getTensor || op = Op.stage then 
    c.pf 1 17 15 == 0 && c.zeroFrom 6 && decide (c.p64 3 % 64 = 0) && (c.isSealed || decide (c.p 5 ≤ 1048576 - 128))
  else if op = Op.quotaSet then c.pf 0 21 11 == 0 && c.pf 1 25 7 == 0 && c.pf 2 16 16 == 0 && c.zeroFrom 3
  else if op = Op.charterOpen then
    c.pf 0 3 29 == 0 && c.pf 1 8 24 == 0 && c.pf 2 4 28 == 0 && c.zeroFrom 3 && decide (c.pf 0 0 3 ≤ 3) &&
    (c.pf 0 0 3 != 0 || w 1 == 0) && (c.pf 0 0 3 == 1 || c.pf 0 0 3 == 3 || w 2 == 0)
  else if op = Op.charterClose then c.pf 0 8 24 == 0 && c.zeroFrom 1
  else if op = Op.groupOpen then
    c.pf 2 11 21 == 0 && c.zeroFrom 3 && decide (2 ≤ c.pf 2 0 11) && decide (c.pf 2 0 11 ≤ 1024)
  else if op = Op.groupClose then c.zeroFrom 1
  else if op = Op.snapshot then c.pf 4 18 14 == 0 && c.zeroFrom 5
  else if op = Op.restore then c.zeroFrom 3
  else if op = Op.havenBind then
    c.pf 0 4 28 == 0 && c.pf 1 10 22 == 0 && c.pf 2 16 16 == 0 && c.pf 3 10 22 == 0 && c.zeroFrom 4 &&
    (c.pf 0 0 1 == 0 || (c.pf 0 1 1 == 0 && c.pf 0 3 1 == 0))
  else if op = Op.takeover then
    c.pf 2 11 21 == 0 && c.pf 3 10 6 == 0 && c.pf 3 26 6 == 0 && c.pf 4 10 6 == 0 && c.zeroFrom 5
  else if op = Op.drainTile then
    c.pf 0 10 22 == 0 && c.zeroFrom 1 && decide (c.pf 0 0 8 ≤ 15) && decide (c.pf 0 8 2 ≤ 2)
  else if op = Op.setOppoint then c.pf 0 18 14 == 0 && c.zeroFrom 1
  else true

/-- Step 7 of the decode checks (R656): what is missing, then what is out of form. -/
def Cmd.paramCheck (c : Cmd) (cls plans : Nat) : Option Nat :=
  match cmdRow c.opcode with
  | none => none
  | some r =>
    if !r.param then none
    else if c.payloadUnits = 0 then some Code.payloadShort
    else if c.payloadUnits < (c.needs plans).1 || c.resultUnits < (c.needs plans).2 then some Code.payloadShort
    else if !c.paramsOk cls then some Code.descMalformed
    else none

/-- The fence slots a command names: its signal, its waits and a RUN_PLAN's progress slot (R350, R656 step 6). -/
def Cmd.fences (c : Cmd) : List Nat :=
  c.signal.toList ++ c.waits.map (fun w => w.2.1) ++
  (if c.opcode = Op.runPlan && c.payloadUnits ≠ 0 && c.pf 3 16 1 = 1 then [c.pf 3 0 16] else [])

/-- The payload after `n` units, as bytes. -/
def Cmd.bytesFrom (c : Cmd) (n : Nat) : List Byte := bytesOfWords (c.payload.drop (16 * n))

end Sys2Proof.Machine
end

