-- ==== Sys2Proof/Machine/Scale.lean ====
section
/-! DEFINITION. The scale unit (R154 to R171): amax codes, the choice of a coarse exponent, and the scale table's rings and
pending lists. -/

namespace Sys2Proof.Machine

/-- The one-byte code of an amax (R158). -/
def amaxCode (a : Frac) : Nat :=
  if a.isZero then 0
  else ((max (-127) (min 127 a.log2Ceil)) + 128).toNat

/-- T = floor(log2 maxfinite) (R160). -/
def scaleT (format : Nat) : Int := (Fmt.maxFinite format).log2Floor

/-- The coarse exponent chosen from a set of codes (R161). -/
def chooseExp (format margin : Nat) (codes : List Nat) : Int :=
  let nz := codes.filter (· != 0)
  if nz.isEmpty then 0
  else max (-149) (min 127 (((maxNat nz : Nat) : Int) - 128 - scaleT format + (margin : Int)))

/-- The FP32 pattern of 2^k, k from −149 to 127 (R156). -/
def pow2Bits (k : Int) : W32 := BitVec.ofNat 32 (f32Bits (.fin (Frac.pow2 k)))

/-- The filled slots of an entry, oldest first (R162, R165). -/
def ScaleEntry.history (x : ScaleEntry) : List Nat :=
  (List.range x.fill).map fun i => x.ring.get 0 ((x.head + x.len - x.fill + i) % x.len)

/-- The set of codes a step starting now reads (R166): filled slots, then pending codes, the oldest dropping out. -/
def ScaleEntry.codeSet (x : ScaleEntry) : List Nat :=
  let l := x.history ++ x.pending.map Prod.snd
  l.drop (l.length - x.len)

/-- Append one code to the ring (R165). -/
def ScaleEntry.append (x : ScaleEntry) (code step : Nat) : ScaleEntry :=
  { x with ring := x.ring.set 0 x.head code, head := (x.head + 1) % x.len, fill := min x.len (x.fill + 1)
           lastStep := step }

/-- An entry as LOAD_PLAN writes it: the seed history in place (R163, R170). -/
def ScaleEntry.fresh (r : ScaleRec) (format ctx tensor : Nat) : ScaleEntry :=
  { used := true, len := r.histLen, margin := r.margin, policy := r.policy, format := format
    fill := r.seed.length, head := r.seed.length % r.histLen
    ring := r.seed.zipIdx.foldl (fun t p => t.set 0 p.2 p.1) []
    ctx := ctx, tensor := tensor, coarse := 0x3F800000 }

/-- The 32-byte header of an entry (R164), for the context's tag. -/
def ScaleEntry.header (x : ScaleEntry) (tag : Nat) : List W32 :=
  [BitVec.ofNat 32 ((x.len - 1) + 1024 * x.margin + 16384 * x.policy + 65536 * x.format),
   BitVec.ofNat 32 (x.fill + 2048 * x.head + 2097152 * boolNat (!x.pending.isEmpty) +
     4194304 * ((x.pending.getLast?.map Prod.snd).getD 0)),
   BitVec.ofNat 32 tag, BitVec.ofNat 32 x.tensor, x.coarse, 0,
   BitVec.ofNat 32 x.lastStep, BitVec.ofNat 32 (x.lastStep / 4294967296)]

end Sys2Proof.Machine
end

