-- ==== Sys2Proof/Machine/TideTime.lean ====
section
/-! DEFINITION. The lengths of a tide and its phases, in ns (R47, R48, R66), and the floor clocks (R592). -/

namespace Sys2Proof.Machine

/-- The period P (R47, R51). -/
def Tide.period (t : Tide) : Nat := (t.periodUnits.toNat + 1) * 250000

/-- slack_pct, values above 25 acting as 25 (R51). -/
def Tide.slackPart (t : Tide) : Nat := min 25 t.slackPct.toNat

/-- ebb_pct, clamped to 4 to 12 (R51). -/
def Tide.ebbPart (t : Tide) : Nat := max 4 (min 12 t.ebbPct.toNat)

/-- Slack S (R48). -/
def Tide.slack (t : Tide) : Nat := t.period * t.slackPart / 100

/-- Ebb E (R48). -/
def Tide.ebb (t : Tide) : Nat := max (t.period * t.ebbPart / 100) 40000

/-- Flood F (R48). -/
def Tide.flood (t : Tide) : Nat := t.period - t.slack - t.ebb

/-- The admission window of a step that spans `k` tides (R66). -/
def Tide.window (t : Tide) (k : Nat) : Nat := k * t.period - t.slack - t.ebb

/-- The frequency of an operating point in MHz (R592). -/
def opMHz (p : Nat) : Nat := if p = 0 then 300 else if p = 1 then 450 else if p = 2 then 600 else 700

/-- The core-rail voltage of an operating point in mV (R592). -/
def opMv (p : Nat) : Nat := if p = 0 then 550 else if p = 1 then 600 else if p = 2 then 660 else 740

/-- A tile's or hub's or other die's encoding (R9). -/
def dieOfHub (h : Nat) : Nat := 0x10 + h
def dieOfFd (f : Nat) : Nat := 0x20 + f
def dieOfCd : Nat := 0x30

/-- s_share as it acts, 5 to 30 (R390). -/
def Arbiter.share (a : Arbiter) : Nat := max 5 (min 30 a.sShare.toNat)

end Sys2Proof.Machine
end

