-- ==== Sys2Proof/Machine/Loader.lean ====
section
/-! DEFINITION. The loader (R261 to R289): the nine stages of checks, the placement of a plan's tensors, its admission, and
its unloading. -/

namespace Sys2Proof.Machine

/-- What a load asks for (R261). -/
structure Req where
  ctx        : Nat
  base       : Nat
  mask       : Nat
  cls        : Nat
  floor      : Nat
  share      : Nat
  beta       : Nat
  groupCount : Nat
  groups     : List (Nat × Nat)
  neap       : Bool

/-- The parameters of a LOAD_PLAN (R323). -/
def reqOf (l : Load) : Req :=
  let c := l.cmd
  { ctx := l.ctx, base := c.p64 0, mask := c.pf 2 0 16, cls := c.pf 2 16 2, floor := c.pf 2 20 2, share := c.pf 2 24 8
    beta := c.pf 3 0 7, groupCount := c.pf 3 16 5
    groups := (List.range (c.pf 3 16 5)).map fun g =>
      (wordAt c.payload (16 + 2 * g), bitsOf (wordAt c.payload (17 + 2 * g)) 0 11)
    neap := l.neap }

/-- The request that re-places a loaded plan on a mask (R286). -/
def reqOfPlan (p : Plan) (mask : Nat) : Req :=
  { ctx := p.ctx, base := p.base, mask := mask, cls := p.cls, floor := p.floor, share := p.share, beta := p.beta
    groupCount := p.bindings.length, groups := p.bindings, neap := p.neap }

/-- The module bytes of a LOAD_PLAN (R323). -/
def moduleBytes (c : Cmd) : List Byte := (c.bytesFrom (1 + c.bindingUnits)).take (c.p 4)

/-! ### Ledgers (R262, R263, R266) -/

/-- The plans whose shares and reservations stand in the ledgers, but for the plan being re-placed. -/
def Dev.plansBut (d : Dev) (self : Option Nat) : List (Nat × Plan) :=
  d.plans.filter fun p => p.2.loaded && some p.1 != self

/-- Plans on a tile, or moving onto it (R286). -/
def plansOn (l : List (Nat × Plan)) (t : Nat) : List (Nat × Plan) :=
  l.filter fun p => p.2.tiles.contains t || (p.2.moving.getD {}).tiles.contains t

/-- σ in use on a tile (R262). -/
def shareOn (l : List (Nat × Plan)) (t : Nat) : Nat :=
  sumNat ((plansOn l t).map fun p => if p.2.cls = 2 then 0 else p.2.share)

/-- ρ in use on a tile, in 1/256 (R75). -/
def rhoOn (l : List (Nat × Plan)) (t : Nat) : Nat :=
  sumNat ((plansOn l t).map fun p => if p.2.cls = 2 then p.2.share else 0)

/-- A context's tenant identity (R531). -/
def Dev.tenant (d : Dev) (c : Nat) : List Nat :=
  match (d.ctx c).charter with
  | some k => [1, k, (d.charter k).nonce]
  | none => [0, c, (d.ctx c).serial]

/-- The worst case of each step of a plan, in ns: where it is being moved (R286), of the old placement and the new. -/
def Plan.worstBudgets (p : Plan) : List Frac :=
  match p.moving with
  | some m => (List.range p.budgets.length).map fun s => Frac.max (p.budgets.getD s (Frac.ofNat 0)) (m.budgets.getD s (Frac.ofNat 0))
  | none => p.budgets

/-- Peak scratchpad bytes of a plan on a tile (R271), on the old placement or the new. -/
def Plan.scratchOn (p : Plan) (t : Nat) : Nat :=
  let m := p.moving.getD {}
  max (if p.tiles.contains t then p.scratch.getD (p.tiles.idxOf t) 0 else 0)
    (if m.tiles.contains t then m.scratch.getD (m.tiles.idxOf t) 0 else 0)

/-- The worst case of a plan's steps, in ns. -/
def Plan.worst (p : Plan) : Frac := p.worstBudgets.foldl Frac.max (Frac.ofNat 0)

/-- The step of a plan's worst case: the first of them. -/
def Plan.worstStep (p : Plan) : Nat := p.worstBudgets.idxOf p.worst

/-- The budget B of a class-P plan among others (R80). -/
def budgetP (p : Plan) (others : List (Nat × Plan)) : Frac :=
  others.foldl (fun b q => if q.2.cls = 2 && q.2.tiles.any p.tiles.contains then b.plus q.2.worst else b) p.worst

/-- The floor of a tile (R277). -/
def Dev.tileFloor (d : Dev) (t : Nat) : Nat := maxNat ((plansOn (d.plansBut none) t).map fun p => p.2.floor)

/-! ### Stage 3 (R550, R223, R259) -/

/-- The owner slot of a tensor's domain; 0xFF the context's own branch (R223). -/
def Module.ownerOf (m : Module) (t : Nat) : Nat := m.domains.getD (m.tensor t).domain 0xFF

/-- Stage 3 for the context a module is loaded into. -/
def charterCheck (d : Dev) (c : Nat) (m : Module) : Option Refuse :=
  let r : Refuse := { code := Code.loadCharter, stage := 3 }
  let owners (limit : Nat) : Option Refuse :=
    (m.domains.zipIdx.find? fun o => o.1 != 0xFF && decide (limit ≤ o.1)).map fun o =>
      { r with sec := 1, entry := o.2, field := 0 }
  match (d.ctx c).charter with
  | none => owners 0
  | some k =>
    let x := d.charter k
    let ix := x.digests.idxOf m.digest
    let signers := (List.range x.owners.length).filter fun o => bitOf x.signers o
    let tensors := (List.range m.tensors.length).map fun t => (t, m.tensor t, m.ownerOf t)
    let bad : Nat × TensorDecl × Nat → Bool := fun p =>
      (p.2.1.hostWrite && (p.2.2 == 0xFF || !x.contribs.contains (p.1, ix, p.2.2))) ||
      (p.2.1.hostRead && (p.2.2 == 0xFF || !x.releases.any fun e => e.tensor == p.1 && e.digest == ix))
    if x.state ≠ .active then some r
    else if ix ≥ x.digests.length then some r
    else if signers.any fun o => !m.signatures.any fun s => s.1 == x.owners.getD o [] then some { r with sec := 0x7FFF }
    else match owners x.owners.length with
    | some f => some f
    | none =>
      if m.level = 1 then some { r with field := 4 }
      else (tensors.find? bad).map fun p => { r with sec := 2, entry := p.1, tensor := p.1 }

/-! ### Stage 5 (R264, R267, R268, R68) -/

/-- The pages of a module's tensors from a base (R270): first page of each, and its number. -/
def layoutPages (m : Module) (base : Nat) : List (Nat × Nat) :=
  (m.tensors.foldl (fun (acc : List (Nat × Nat) × Nat) t => (acc.1 ++ [(acc.2, t.pages)], acc.2 + t.pages))
    ([], base / frameBytes)).1

/-- Two runs of pages meet. -/
def pagesMeet (a b : Nat × Nat) : Bool := a.1 < b.1 + b.2 && b.1 < a.1 + a.2

/-- A group binding serves a module's group (R323). -/
def bindingOk (d : Dev) (r : Req) (size : Nat) (b : Nat × Nat) : Bool :=
  let g := d.group (b.1 % 1024)
  g.state == .opened && g.generation % 4194304 == b.1 / 1024 && g.ctx == r.ctx && g.ranks.length == size && b.2 < size

/-- A tile of the mask can serve a load (R267, R268): in service, not being drained, in neap service CT5 or CT6. -/
def Dev.tileUsable (d : Dev) (r : Req) (t : Nat) : Bool :=
  let x := d.tile t
  bitOf r.mask t && x.inService && !x.draining && !x.drained && (!r.neap || t == 5 || t == 6)

/-- Stage 5: the tiles of the placement.  None of them where other owners' class-P reservations keep the load off every tile
it could use, which stage 8 refuses (R76). -/
def placementCheck (d : Dev) (r : Req) (m : Module) (self : Option Nat) : Except Refuse (List Nat) :=
  let fail (code : Nat) : Except Refuse (List Nat) := .error { code := code, stage := 5 }
  let others := d.plansBut self
  if r.neap && (r.floor != 0 || !(bitOf r.mask 5 || bitOf r.mask 6) || !m.groups.isEmpty || !m.deep.isEmpty) then
    fail Code.neapOnly
  else if !r.neap && r.floor = 0 then fail Code.neapOnly
  else if r.floor = 3 && !d.sys.binH then fail Code.powerLimit
  else if r.cls > 2 || r.share < 1 || r.share > (if r.cls = 2 then 64 else 16) || r.beta < 1 || r.beta > 95 ||
      r.base % frameBytes ≠ 0 || r.groupCount ≠ m.groups.length ||
      !(m.groups.zip r.groups).all (fun p => bindingOk d r p.1 p.2) then fail Code.loadPlacement
  else
    let mine' : Nat × Plan → Bool := fun p => d.tenant p.2.ctx == d.tenant r.ctx
    let usable := (List.range 16).filter (d.tileUsable r)
    let owned := usable.filter fun t => (plansOn others t).all mine'
    let reserved := usable.any fun t => (plansOn others t).all fun p => mine' p || p.2.cls == 2
    let tiles := owned.filter fun t => r.cls == 2 || shareOn others t + r.share ≤ 16
    let left := maxNat (owned.map fun t => 16 - shareOn others t)
    if owned.isEmpty && !(reserved && r.cls != 2) then
      .error { code := Code.loadPlacement, stage := 5, resource := 11, unit := 7, required := 1, available := 0 }
    else if tiles.isEmpty && !owned.isEmpty then
      .error { code := Code.loadPlacement, stage := 5, resource := 8, unit := 4, required := r.share, available := left
               die := (owned.find? fun t => 16 - shareOn others t == left).getD 0 }
    else
      let pages := layoutPages m r.base
      let mine := if r.cls = 2 then pages else m.written.map fun t => pages.getD t (0, 0)
      let meets := others.any fun p =>
        p.2.ctx == r.ctx && (p.2.cls == 2) != (r.cls == 2) &&
          (let theirs := layoutPages p.2.module p.2.base
           let theirs := if p.2.cls = 2 then theirs else p.2.module.written.map fun t => theirs.getD t (0, 0)
           mine.any fun a => theirs.any (pagesMeet a))
      if meets then fail Code.loadPlacement else .ok tiles

/-! ### Stage 6 (R264, R270, R434, R435, R510) -/

/-- A refusal of stage 6. -/
def memRefuse (resource unit required available : Nat) : Refuse :=
  { code := Code.loadMemory, stage := 6, resource := resource, unit := unit, required := required, available := available }

/-- The pages of a tensor that still need frames (R31): those of its mapping entries without one. -/
def Dev.framesNeeded (d : Dev) (es : List Nat) : List Nat := es.filter fun e => (d.mapEntry e).frame.isNone

/-- Pages take frames, those marked ANY striped over the hubs in turn from `pos` (R32); a hub without a free frame is
passed over. -/
def Dev.stripe (d : Dev) (b : Binding) (order : List Nat) : Nat → List Nat → Except NoFrame Dev
  | _, [] => .ok d
  | pos, e :: es =>
    let x := d.mapEntry e
    let turn := (order.drop (pos % max 1 order.length)) ++ order.take (pos % max 1 order.length)
    let (h, next) := if x.pref < 4 then (x.pref, pos)
      else match turn.find? fun h => d.freeFrames b h ≠ 0 with
        | some h => (h, pos + turn.idxOf h + 1)
        | none => (order.headD 0, pos + 1)
    match d.assignFrame b h with
    | .error x => .error x
    | .ok (d, f) => (d.modMap e fun x => { x with frame := some f }).stripe b order next es

/-- The tensors of a module without extents get their frames (R270), each from the roomiest hub on (R32). -/
def Dev.placeTensors (d : Dev) (c : Nat) (m : Module) (deep : List Nat) (entries : List (List Nat)) : Except NoFrame Dev :=
  ((List.range m.tensors.length).filter fun t => !deep.contains t).foldl (fun acc t =>
    match acc with
    | .error x => .error x
    | .ok d =>
      let b : Binding := (c, m.ownerOf t, (m.tensor t).readOnly)
      let start := d.roomiest b d.hubsUp
      let order := (d.hubsUp.filter (start ≤ ·)) ++ d.hubsUp.filter (· < start)
      d.stripe b order 0 (d.framesNeeded (entries.getD t []))) (.ok d)

/-- The pages of the state set take twins (R510). -/
def Dev.takeTwins (d : Dev) (c : Nat) (m : Module) (entries : List (List Nat)) : Except NoFrame Dev :=
  m.state.foldl (fun acc t => (entries.getD t []).foldl (fun acc e =>
    match acc with
    | .error x => .error x
    | .ok d =>
      let x := d.mapEntry e
      if x.twin.isSome then .ok d
      else match d.assignFrame (c, m.ownerOf t, false) (hubOf (x.frame.getD 0)) with
      | .error y => .error y
      | .ok (d, f) => .ok (d.modMap e fun x => { x with twin := some f })) acc) (.ok d)

/-- The context is the source side of a binding (R506). -/
def Dev.isSource (d : Dev) (c : Nat) : Bool := (d.haven c).partner.isSome && (d.haven c).bound

/-- The extents another plan of the context holds for a tensor of the same size on the same pages (R435). -/
def Dev.sharedExtents (d : Dev) (c : Nat) (t : TensorDecl) (first : Nat) : Option (List Nat) :=
  (d.plans.filter fun p => p.2.loaded && p.2.ctx == c).findSome? fun p =>
    (p.2.tensors.zip p.2.module.tensors).findSome? fun x =>
      if !x.1.extents.isEmpty && x.1.firstPage == first && x.2.storedBytes == t.storedBytes then some x.1.extents else none

/-- New extents for a tensor's pairs of pages (R434): the device and the extents, or the refusal. -/
def Dev.takeExtents (d : Dev) (c owner slot : Nat) : List (List Nat) → Nat → Except Refuse (Dev × List Nat)
  | [], _ => .ok (d, [])
  | pair :: rest, turn =>
    let pref (i : Nat) : Nat := match pair[i]? with
      | some e => (d.mapEntry e).pref
      | none => 4
    let withRoom := (List.range 4).map (fun i => (turn + i) % 4) |>.filter fun h => (d.flashOf h).goodSlots ≠ 0
    let h := if pref 0 < 4 then pref 0 else withRoom.headD 4
    let full := memRefuse 6 2 (2 * frameBytes * (1 + rest.length)) 0
    if pref 1 < 4 && pref 1 ≠ pref 0 then .error full
    else if h ≥ 4 || (d.flashOf h).goodSlots = 0 then .error full
    else match d.freeExtent h with
    | none => .error full
    | some e =>
      if (d.ctx c).useT2 ≥ (d.ctx c).quotaT2.toNat then
        .error (memRefuse 4 2 (2 * frameBytes * (1 + rest.length)) (2 * frameBytes * ((d.ctx c).quotaT2.toNat - (d.ctx c).useT2)))
      else
        let d := d.modExtent e fun _ => { state := .empty, ctx := c, owner := owner, plans := [slot] }
        let d := d.modCtx c fun x => { x with useT2 := x.useT2 + 1 }
        match d.takeExtents c owner slot rest (if pref 0 < 4 then turn else (h + 1) % 4) with
        | .error x => .error x
        | .ok (d, es) => .ok (d, e :: es)

/-- Consecutive pairs of a list. -/
def pairsOf : List Nat → List (List Nat)
  | a :: b :: t => [a, b] :: pairsOf t
  | [a] => [[a]]
  | [] => []

/-- The extents of every T2 tensor (R434, R435), by tensor. -/
def Dev.placeDeep (d : Dev) (c slot : Nat) (m : Module) (pages : List (Nat × Nat)) (entries : List (List Nat)) :
    Except Refuse (Dev × List (Nat × List Nat)) :=
  m.deep.foldl (fun acc t =>
    match acc with
    | .error x => .error x
    | .ok (d, l) =>
      match d.sharedExtents c (m.tensor t) (pages.getD t (0, 0)).1 with
      | some es =>
        if es.any fun e => (d.extent e).plans.length ≥ 63 then .error (memRefuse 6 2 (2 * frameBytes * es.length) 0)
        else .ok (d.each es fun d e => d.modExtent e fun x => { x with plans := x.plans ++ [slot] }, l ++ [(t, es)])
      | none =>
        match d.takeExtents c (m.ownerOf t) slot (pairsOf (entries.getD t [])) d.roomiestFlash with
        | .error x => .error x
        | .ok (d, es) => .ok (d, l ++ [(t, es)])) (.ok (d, []))

/-! ### The prefetch schedule (R270, R273) -/

/-- A promotion of the schedule: its tensor and extent, its start and end in 1/2,875 ns before or after the first step's
start, and the frames of its copy. -/
structure Promotion where
  tensor : Nat
  extent : Nat
  start  : Int
  stop   : Int
  frames : Nat
  deriving DecidableEq, Repr

/-- The step a tensor's promotion is for (R273): the first that reads it outside the span of a T2 intent. -/
def Module.needStep (m : Module) (t : Nat) : Option Nat :=
  (List.range m.steps.length).find? fun s => m.stepNeeds s t && !m.intentAt 2 s t

/-- Promotions of the tensors `order`, with their need times in ns, on one hub: one at a time, a tensor's extents together,
ended one slack length before the need, but never begun before the one before has ended (R273). -/
def Dev.hubPromotions (d : Dev) (m : Module) (placed : List Placed) (h : Nat) (order : List (Nat × Nat)) : List Promotion :=
  let units (e : Nat) : Nat := if (d.extent e).stored = 0 then 1024 else (d.extent e).stored
  let plain (t e : Nat) : Bool := !m.gathers t && !d.gathered e && !d.aliasSource e
  (order.foldl (fun (acc : Int × List Promotion) w =>
    let es := (placed.getD w.2 {}).extents.zipIdx.filter fun x => extentHub x.1 == h
    let whole : Int := ((sumNat (es.map fun x => units x.1) * 460800 : Nat) : Int)
    let first := max acc.1 ((((w.1 : Int) - (d.tide.slack : Int)) * 2875) - whole)
    es.foldl (fun (acc : Int × List Promotion) x =>
      let stop := acc.1 + ((units x.1 * 460800 : Nat) : Int)
      (stop, acc.2 ++ [{ tensor := w.2, extent := x.1, start := acc.1, stop := stop
                         frames := copyFrames (units x.1) (extentPageCount (m.tensor w.2) x.2) (plain w.2 x.1) }]))
      (if es.isEmpty then acc.1 else first, acc.2)) (-(2 : Int) ^ 62, [])).2

/-- The promotions of a plan ahead of its steps (R273), but for those of T1 intents at the first step, which start at
admission (R274). -/
def Dev.schedule (d : Dev) (m : Module) (placed : List Placed) : List Promotion :=
  let starts := (List.range m.steps.length).map fun s => sumNat ((m.steps.take s).map StepDecl.span) * d.tide.period
  let wants := (m.deep.filter fun t => !m.intentAt 1 0 t).filterMap fun t => (m.needStep t).map fun s => (starts.getD s 0, t)
  let order := wants.foldl (fun (acc : List (Nat × Nat)) w =>
    (acc.filter fun x => x.1 ≤ w.1) ++ [w] ++ acc.filter fun x => x.1 > w.1) []
  (List.range 4).flatMap fun h => d.hubPromotions m placed h order

/-- The promotions that start at a plan's admission (R274). -/
def Dev.atAdmission (d : Dev) (m : Module) (placed : List Placed) : List Promotion :=
  (List.range 4).flatMap fun h => d.hubPromotions m placed h ((m.deep.filter (m.intentAt 1 0)).map fun t => (0, t))

/-- Frames of the largest set of promotions in flight at once. -/
def inFlight (l : List Promotion) : Nat :=
  maxNat (l.map fun x => sumNat ((l.filter fun y => y.start ≤ x.start && x.start < y.stop).map Promotion.frames))

/-- Frames that a plan's promotions may need at once (R270). -/
def Dev.promotionFrames (d : Dev) (m : Module) (placed : List Placed) : Nat :=
  max (inFlight (d.schedule m placed)) (sumNat ((List.range 4).map fun h =>
    maxNat (((d.atAdmission m placed).filter fun x => extentHub x.extent == h).map Promotion.frames)))

/-- Leads in whole tides of a plan's promotions (R273), by tensor. -/
def Dev.promotionLeads (d : Dev) (m : Module) (placed : List Placed) : List (Nat × Nat) :=
  let starts := (List.range m.steps.length).map fun s => sumNat ((m.steps.take s).map StepDecl.span) * d.tide.period
  let l := d.schedule m placed
  m.deep.filterMap fun t => match m.needStep t, l.filter fun x => x.tensor == t with
    | some s, x :: xs =>
      let need : Int := ((starts.getD s 0 : Nat) : Int) * 2875
      some (t, maxNat ((x :: xs).map fun y => ceilDiv (need - y.start).toNat (2875 * max 1 d.tide.period)))
    | _, _ => none

/-- Promotion frames of the context's other plans that stand against its quota (R270), less those a copy under way has
already taken. -/
def Dev.promotionsOfOthers (d : Dev) (c : Nat) : Nat :=
  sumNat ((d.plans.filter fun p => p.2.loaded && p.2.ctx == c).map fun p => p.2.promFrames) -
    sumNat ((d.extents.filter fun x => x.2.ctx == c && x.2.underWay).map fun x => x.2.copy.length)

/-- What stage 6 gives: the device with everything taken, the plan slot, and each tensor's place. -/
structure Taken where
  dev    : Dev
  slot   : Nat
  placed : List Placed
  prom   : Nat

/-- The refusal of frames that could not be had. -/
def frameRefuse (d : Dev) (c n : Nat) (free : Nat) : NoFrame → Refuse
  | .quota => memRefuse 4 2 (frameBytes * n) (frameBytes * ((d.ctx c).quotaT1.toNat - (d.ctx c).useT1))
  | .keys => memRefuse 3 3 1 (d.freeKeyCount - 16)
  | .frames => memRefuse 3 2 (frameBytes * n) (frameBytes * free)

/-- Stage 6. -/
def memoryCheck (d : Dev) (r : Req) (m : Module) : Except Refuse Taken :=
  let x := d.ctx r.ctx
  let pages := layoutPages m r.base
  let slot := (List.range 1024).find? fun s => !(d.plan s).loaded
  let need := sumNat (pages.map Prod.snd)
  let live := (pages.flatMap fun p => (List.range p.2).map (p.1 + ·)).filter fun p => match x.entryOf p with
    | some e => (d.mapEntry e).valid && (d.mapEntry e).dead.isNone
    | none => false
  let entries := pages.map fun p => (List.range p.2).filterMap fun i => x.entryOf (p.1 + i)
  let deep := m.deep
  let plain := (List.range m.tensors.length).filter fun t => !deep.contains t
  let newFrames := (plain.flatMap fun t => d.framesNeeded (entries.getD t [])).length
  let freeAll := sumNat ((plain.map fun t => (r.ctx, m.ownerOf t, (m.tensor t).readOnly)).eraseDups.map fun b =>
    sumNat (d.hubsUp.map (d.freeFrames b)))
  let scaled := ((List.range m.tensors.length).filter fun t => m.policy t ≤ 1)
  if x.state = .suspended then .error (memRefuse 4 2 (frameBytes * newFrames) 0)
  else match slot with
  | none => .error (memRefuse 7 3 1 0)
  | some slot =>
    if live.length < need then
      let lacks := (List.range pages.length).find? fun t =>
        let p := pages.getD t (0, 0)
        !((List.range p.2).all fun i => live.contains (p.1 + i))
      .error { memRefuse 3 2 (frameBytes * need) (frameBytes * live.length) with tensor := lacks.getD 0xFFFF }
    else match d.placeTensors r.ctx m deep entries with
    | .error e => .error (frameRefuse d r.ctx newFrames freeAll e)
    | .ok d1 =>
      match (if d.isSource r.ctx then d1.takeTwins r.ctx m entries else .ok d1) with
      | .error e =>
        .error (match e with
          | .frames => memRefuse 4 2 (frameBytes * newFrames) (frameBytes * freeAll)
          | e => frameRefuse d1 r.ctx newFrames freeAll e)
      | .ok d2 =>
        match d2.takeEntries r.ctx scaled.length with
        | .error .keys => .error (memRefuse 3 3 1 (d2.freeKeyCount - 16))
        | .error _ => .error (memRefuse 5 3 scaled.length ((d2.freeEntries r.ctx).length + 256 * d2.freeGroups.length))
        | .ok (d3, scaleEntries) =>
          match d3.placeDeep r.ctx slot m pages entries with
          | .error e => .error e
          | .ok (d4, deepExtents) =>
            let placed := (List.range m.tensors.length).map fun t =>
              let s := m.scaleOf t
              ({ firstPage := (pages.getD t (0, 0)).1
                 frames := if deep.contains t then [] else (entries.getD t []).filterMap fun e => (d4.mapEntry e).frame
                 extents := ((deepExtents.find? fun p => p.1 == t).map Prod.snd).getD []
                 coarse := if s.policy = 2 then s.coarse else 0x3F800000
                 expMax := expMaxEmpty (m.tensor t).format
                 entry := (scaled.zip scaleEntries).findSome? fun p => if p.1 = t then some p.2 else none } : Placed)
            let prom := d4.promotionFrames m placed
            let used := (d4.ctx r.ctx).useT1 + d4.promotionsOfOthers r.ctx
            if prom ≠ 0 && used + prom > x.quotaT1.toNat then
              .error (memRefuse 4 2 (frameBytes * prom) (frameBytes * (x.quotaT1.toNat - used)))
            else .ok { dev := d4, slot := slot, placed := placed, prom := prom }

/-! ### Budgets (R273, R275, R496) -/

/-- A port's payload rate in tenths of GB/s (R467). -/
def Port.rate10 (p : Port) : Nat :=
  let r := if p.rate = 0 then 1992 else if p.rate = 1 then 996 else 498
  if p.half then r / 2 else r

/-- Ports that carry traffic (R500 state 3). -/
def Dev.portsUp (d : Dev) : List (Nat × Port) := d.fabric.ports.filter fun p => p.2.state == 3

/-- Links up between this device's basin and another: its own, and those the handshakes of others gave (R473). -/
def Dev.basinLinks (d : Dev) (o : Nat) : Nat :=
  let mine := d.fabric.address.toNat / 32
  (d.portsUp.filter fun p => p.2.farAddr / 32 == o).length +
    (d.fabric.known.filter fun k => k.1 / 32 == mine && k.2 / 32 == o).length

/-- The wire bytes of a tensor's stored form, and of `n` elements of it. -/
def wireBytes (t : TensorDecl) (n : Nat) : Nat :=
  ceilDiv (n * Fmt.width t.format) 8 + (if Fmt.isScaled t.format then ceilDiv n 32 else 0)

/-- The fabric cost of a collective in ns, without the 2 µs horizon (R496); unknown link rates count as 224 Gb/s. -/
def Dev.fabricCost (d : Dev) (r : Req) (m : Module) (o : OpRec) : Frac :=
  let (handle, me) := r.groups.getD (o.f 3 8 8) (0, 0)
  let g := d.group (handle % 1024)
  let n := max 2 g.ranks.length
  let basin := d.fabric.address.toNat / 32
  let peers := (List.range n).filter (· != me) |>.map fun k => g.ranks.getD k 0
  let inBasin := peers.filter fun a => a / 32 == basin
  let far := peers.filter fun a => a / 32 != basin
  let local' := g.ranks.filter fun a => a / 32 == basin
  let lat := if far.isEmpty then 550 else 1950
  let input := if o.opcode = 0x0804 then m.tensor o.out else m.tensor (o.tensorAt (if o.opcode = 0x0803 then 5 else 4))
  let output := m.tensor o.out
  let count := countOf input.dims
  let chunk := 32 * ceilDiv (ceilDiv count 32) n
  let exact := o.opcode == 0x0800 && o.f 3 0 2 == 0 && o.f 3 4 1 == 1
  let sendTo : List Nat := if o.opcode = 0x0803 || o.opcode = 0x0804 then [g.ranks.getD ((me + o.w 4) % n) 0] else peers
  let bytes (phase : Nat) : Nat :=
    if o.opcode = 0x0800 then
      (if phase = 0 then (if exact then 8 * chunk else wireBytes input chunk) else wireBytes output chunk)
    else if o.opcode = 0x0802 then wireBytes input (ceilDiv count n)
    else wireBytes input count
  let rate (p : Nat) : Nat := r.beta * p
  -- the ports up carry their own rates; a link that only the handshakes of others tell of counts as 224 Gb/s
  let ownRate := sumNat (d.portsUp.map fun p => p.2.rate10)
  let pairRate (o : Nat) : Nat :=
    let mine := d.portsUp.filter fun p => p.2.farAddr / 32 == o
    sumNat (mine.map fun p => p.2.rate10) + 1992 * (d.basinLinks o - mine.length)
  let above (b k : Nat) : Frac := Frac.ratio (b * 1000) (max 1 k)
  let phase (i : Nat) : Frac :=
    let b := bytes i
    let direct := (inBasin.filter sendTo.contains).foldl (fun acc a =>
      let p := ((d.portsUp.find? fun p => p.2.farAddr == a).map fun p => p.2.rate10).getD 1992
      Frac.max acc (above b (rate p))) (Frac.ofNat 0)
    let pair := ((far.map (· / 32)).eraseDups).foldl (fun acc o' =>
      let there := (far.filter fun a => a / 32 == o' && sendTo.contains a).length
      Frac.max acc (above (b * local'.length * there) (rate (max 1 (pairRate o'))))) (Frac.ofNat 0)
    let inject := above (b * sendTo.length) (rate (max 1 ownRate))
    (Frac.ofNat lat).plus (Frac.max direct (Frac.max pair inject))
  let phases := if o.opcode = 0x0800 then (phase 0).plus (phase 1) else phase 0
  let engine := if o.opcode = 0x0800 then Frac.ratio (chunk * (n - 1) * (if exact then 2 else 1)) 6550 else Frac.ofNat 0
  let round := if o.writes.any (budgetCurrent m) then Frac.ofNat (lat + 1000) else Frac.ofNat 0
  ((phases.plus engine).plus round).plus (Frac.ofNat 1000)

/-- The hubs of a placed tensor's pages (R32, R434). -/
def Placed.hubs (p : Placed) : List Nat :=
  if p.extents.isEmpty then p.frames.map hubOf else p.extents.flatMap fun e => [extentHub e, extentHub e]

/-- The budget environment of a step. -/
def budgetEnv (d : Dev) (r : Req) (m : Module) (tiles : List Nat) (placed : List Placed) (s : Nat) : BudgetEnv :=
  { module := m, step := s, ops := m.stepOps s, tiles := tiles, clk := opMHz r.floor
    sigma := if r.cls = 2 then 16 else r.share, beta := r.beta
    hubs := fun t => (placed.getD t {}).hubs, resting := m.deep, fabric := d.fabricCost r m }

/-! ### Stages 7 to 9 (R271, R75 to R80, R278, R279, R499) -/

def scratchLimit : Nat := 260046848

/-- Stage 7 (R271). -/
def scratchCheck (p : Plan) (others : List (Nat × Plan)) : Option Refuse :=
  (p.tiles.zip p.scratch).findSome? fun x =>
    let used := sumNat ((plansOn others x.1).map fun q => q.2.scratchOn x.1)
    if x.2 + used > scratchLimit then
      some { code := Code.loadScratch, stage := 7, resource := 2, die := x.1, unit := 2, required := x.2
             available := scratchLimit - used }
    else none

/-- k × ρ × F, in 1/256 ns. -/
def reserved256 (d : Dev) (k rho : Nat) : Nat := k * rho * d.tide.flood

/-- A step's budget fits its reduced window on a tile of reservation ρ (R278). -/
def stepFits (d : Dev) (budget : Frac) (k rho : Nat) : Bool :=
  Frac.le ((budget.mul (Frac.ofNat 256)).plus (Frac.ofNat (reserved256 d k rho))) (Frac.ofNat (256 * d.tide.window k))

/-- A class-P budget in 1/256 of flood, rounded up. -/
def floodShare (d : Dev) (b : Frac) : Nat := ceilDiv (256 * b.num.toNat) (b.den * max 1 d.tide.flood)

/-- A class-P budget fits the reservation ρ of a tile (R279). -/
def budgetFits (d : Dev) (b : Frac) (rho : Nat) : Bool :=
  Frac.le (b.mul (Frac.ofNat 256)) (Frac.ofNat (rho * d.tide.flood))

/-- A failure of stage 8 that displaces a plan: the plan's slot, and the refusal with its handle. -/
def displaced (q : Nat × Plan) (r : Refuse) : Nat × Refuse := (q.1, { r with entry := q.2.handle q.1 })

/-- The failure to report of a check: the lowest slot's where several plans would be displaced (R279), and among one plan's
own and others' failures the lowest step's (R264). -/
def lowestSlot (l : List (Nat × Refuse)) : Option Refuse :=
  (l.foldl (fun (acc : Option (Nat × Refuse)) x => match acc with
    | some a => if x.1 < a.1 then some x else some a
    | none => some x) none).map Prod.snd

/-- Stage 8 (R264): R75, R76, R80, the span.  A load without a tile is kept off all of them by other owners' reservations
(R76). -/
def reservationCheck (d : Dev) (p : Plan) (others : List (Nat × Plan)) : Option Refuse :=
  let r : Refuse := { code := Code.loadReservation, stage := 8, resource := 9, unit := 5 }
  let F := max 1 d.tide.flood
  let rho (t : Nat) : Nat := rhoOn others t + (if p.tiles.contains t then p.share else 0)
  if p.tiles.isEmpty then some { r with required := p.share }
  else if p.cls ≠ 2 then none
  else
    -- class-N and class-B plans left without room in their windows (R75), by slot
    let squeezed := others.filterMap fun q =>
      if q.2.cls = 2 then none
      else (List.range q.2.budgets.length).findSome? fun s =>
        let k := q.2.module.span s
        let b := q.2.worstBudgets.getD s (Frac.ofNat 0)
        (q.2.tiles.find? fun t => p.tiles.contains t && !stepFits d b k (rho t)).map fun t =>
          displaced q { r with die := t, step := s, required := p.share
                               available := 256 * (d.tide.window k - b.ceilNat) / (max 1 k * F) - rhoOn others t }
    -- class-P plans whose budget the new plan's step outgrows (R80), by slot
    let outgrown := others.filterMap fun q =>
      if q.2.cls ≠ 2 || !q.2.tiles.any p.tiles.contains then none
      else
        let b := budgetP q.2 ((others.filter fun o => o.1 != q.1) ++ [(1024, p)])
        (q.2.tiles.find? fun t => !budgetFits d b (rho t)).map fun t =>
          displaced q { r with die := t, step := q.2.worstStep, required := floodShare d b, available := rho t }
    let above := (p.tiles.find? fun t => rho t > 64).map fun t =>
      { r with die := t, required := p.share, available := 64 - rhoOn others t }
    let own :=
      let b := budgetP p others
      (p.tiles.find? fun t => !budgetFits d b (rho t)).map fun t =>
        { r with die := t, step := p.worstStep, required := floodShare d b, available := rho t }
    -- one check for R80: the plan's own budget and those of the plans it would displace, the lower step first
    let r80 : Option Refuse := match own, lowestSlot outgrown with
      | some a, some b => some (if b.step < a.step then b else a)
      | a, b => a.or b
    let spans := ((List.range p.module.steps.length).find? fun s => p.module.span s ≠ 1).map fun s => { r with step := s }
    if squeezed.isEmpty then above.or (r80.or spans) else lowestSlot (squeezed ++ outgrown)


def budgetCheck (d : Dev) (p : Plan) (others : List (Nat × Plan)) (ops : List Nat) : Option Refuse :=
  let r : Refuse := { code := Code.loadBudget, stage := 9 }
  let used := sumNat (others.map fun q => q.2.beta)
  let units := (d.hubsUp.map fun h => (h, dieOfHub h)) ++ d.portsUp.map fun x => (8 + x.1, dieOfFd (x.1 / 12))
  match units.find? fun u => used + p.beta > 100 - (d.arb u.1).share with
  | some u =>
    some { r with resource := 10, unit := 6, die := u.2, required := p.beta, available := 100 - (d.arb u.1).share - used }
  | none =>
    if p.cls = 2 then none
    else (List.range p.budgets.length).findSome? fun s =>
      let k := p.module.span s
      let b := p.budgets.getD s (Frac.ofNat 0)
      let rho := maxNat (p.tiles.map (rhoOn others))
      if stepFits d b k rho then none
      else some { r with resource := 1, unit := 1, step := s, op := ops.getD s 0xFFFFFFFF, die := p.tiles.headD 0
                         required := b.ceilNat, available := (256 * d.tide.window k - reserved256 d k rho) / 256 }

/-! ### Loading (R264, R265) -/

/-- A stream's key (R173). -/
def streamKey (purpose : List Byte) (s : StreamDecl) : Nat × Nat :=
  if s.isOpen then openKey s.seed s.identity else sealedKey purpose s.seed s.identity

/-- The plan a placement would make, with its budgets, the operation each names, and its scratchpad. -/
def candidate (d : Dev) (r : Req) (m : Module) (tiles : List Nat) (placed : List Placed) (prom : Nat) : Plan × List Nat :=
  let env := budgetEnv d r m tiles placed
  let steps := List.range m.steps.length
  let bs := steps.map fun s => stepBudget (env s)
  ({ loaded := true, ctx := r.ctx, module := m, cls := r.cls, mask := r.mask, tiles := tiles, share := r.share
     beta := r.beta, floor := r.floor, base := r.base, neap := r.neap, bindings := r.groups, tensors := placed
     budgets := bs.map StepBudget.exact
     scratch := (List.range tiles.length).map fun i => maxNat (steps.map fun s => stepScratch (env s) i)
     promFrames := prom, leads := d.promotionLeads m placed
     keys := m.streams.map (streamKey (d.rngKey r.ctx)) }, bs.map StepBudget.op)

/-- Stages 7 to 9 on a plan. -/
def lateStages (d : Dev) (p : Plan) (ops : List Nat) (self : Option Nat) : Option Refuse :=
  let others := d.plansBut self
  (scratchCheck p others).or ((reservationCheck d p others).or (budgetCheck d p others ops))

/-- All stages of a load: the device with the plan admitted and its slot, or the refusal (R264, R265). -/
def Dev.loadModule (d : Dev) (r : Req) (bytes : List Byte) (size : Nat) : Except Refuse (Dev × Nat) :=
  let (m, reading) := readModule bytes
  match headerCheck (wordsOfBytes bytes) size with
  | some f => .error f
  | none =>
    match (signatureCheck m).or ((charterCheck d r.ctx m).or (formCheck m reading)) with
    | some f => .error f
    | none =>
      match placementCheck d r m none with
      | .error f => .error f
      | .ok tiles =>
        match memoryCheck d r m with
        | .error f => .error f
        | .ok k =>
          let (p, ops) := candidate k.dev r m tiles k.placed k.prom
          match lateStages k.dev p ops none with
          | some f => .error f
          | none =>
            let d := k.dev.modPlan k.slot fun old => { p with generation := old.generation }
            let d := d.each ((List.range m.tensors.length).zip k.placed) fun d x =>
              match x.2.entry with
              | some e => d.modScale e fun _ => ScaleEntry.fresh (m.scaleOf x.1) (m.tensor x.1).format r.ctx x.1
              | none => d
            let d := d.each (m.deep.filter fun t => m.intentAt 1 0 t) fun d t =>
              d.each ((k.placed.getD t {}).extents) fun d e => d.requestPromotion e k.slot 0
            .ok (d, k.slot)

/-! ### Unloading (R284) -/

/-- A tile that a plan leaves empty is due its scrub (R284, R556). -/
def Dev.leaveTiles (d : Dev) (c : Nat) (tiles : List Nat) : Dev :=
  d.each tiles fun d t =>
    if (plansOn (d.plansBut none) t).isEmpty then d.modTile t fun x => { x with dirty := some (d.tenant c) } else d

/-- The effect of an unload at its ebb (R284): scale entries, extents, slot, ledgers, tiles. -/
def Dev.unloadPlan (d : Dev) (slot : Nat) : Dev :=
  let p := d.plan slot
  let d := d.each (p.tensors.filterMap Placed.entry) fun d e => d.modScale e fun _ => {}
  let d := d.each ((p.tensors.flatMap Placed.extents).eraseDups) fun d e => d.unholdExtent e slot
  let d := d.modPlan slot fun _ => { generation := p.generation + 1 }
  d.leaveTiles p.ctx p.tiles

end Sys2Proof.Machine
end

