-- ==== Sys2Proof/Machine/Mesh.lean ====
section
/-! DEFINITION. The package mesh (R20 to R26): the dies each seam joins, the routes of mesh traffic and their detours, and the
seam keys and flits. -/

namespace Sys2Proof.Machine

/-! ### The grid (R8, R21) -/

/-- The tiles a fabric die attaches to, in the order of R21. -/
def fdTiles (f : Nat) : List Nat :=
  (List.range 4).map fun k => if f = 0 then k else if f = 1 then 4 * k + 3 else if f = 2 then 12 + k else 4 * k

/-- The tiles the control die attaches to (R20). -/
def cdTiles : List Nat := [5, 6, 9, 10]

/-- The dies a seam joins: 0 to 63 the seam of tile s div 4 to hub s mod 4, then the mesh seams in the order of R389. -/
def seamDies (s : Nat) : List Nat :=
  let m := s - 64
  if s < 64 then [s / 4, dieOfHub (s % 4)]
  else if m < 12 then let t := 4 * (m / 3) + m % 3; [t, t + 1]
  else if m < 24 then [m - 12, m - 8]
  else if m < 40 then [(fdTiles ((m - 24) / 4)).getD ((m - 24) % 4) 0, dieOfFd ((m - 24) / 4)]
  else [cdTiles.getD (m - 40) 5, dieOfCd]

/-- The seam between two dies. -/
def seamOf (a b : Nat) : Option Nat := (List.range 108).find? fun s => (seamDies s).contains a && (seamDies s).contains b && a != b

/-- The hub a die is, if it is one. -/
def hubDie (a : Nat) : Option Nat := if 0x10 ≤ a && a < 0x14 then some (a - 0x10) else none

/-- The tiles by which a die's mesh traffic enters or leaves the grid. -/
def gateTiles (a : Nat) : List Nat :=
  if a < 16 then [a] else if a = dieOfCd then cdTiles else if 0x20 ≤ a && a < 0x24 then fdTiles (a - 0x20) else []

/-- Hops between two tiles of the grid. -/
def gridHops (a b : Nat) : Nat := (a / 4 - b / 4) + (b / 4 - a / 4) + (a % 4 - b % 4) + (b % 4 - a % 4)

/-- Numbers from `a` to `b`, in the direction of `b`. -/
def walk (a b : Nat) : List Nat := if a ≤ b then (List.range (b - a + 1)).map (a + ·) else (List.range (a - b + 1)).map (a - ·)

/-- Dimension order (R22): first along the row, then along the column. -/
def rowFirst (a b : Nat) : List Nat :=
  (walk (a % 4) (b % 4)).map (4 * (a / 4) + ·) ++ ((walk (a / 4) (b / 4)).drop 1).map fun r => 4 * r + b % 4

/-- Column-first order, which avoids a failed mesh seam (R26). -/
def colFirst (a b : Nat) : List Nat :=
  (walk (a / 4) (b / 4)).map (fun r => 4 * r + a % 4) ++ ((walk (a % 4) (b % 4)).drop 1).map (4 * (b / 4) + ·)

/-- Consecutive dies of a route. -/
def legs (l : List Nat) : List (Nat × Nat) := l.zip (l.drop 1)

/-! ### Routes (R22, R26) -/

/-- Routes have been led around the seam between two dies. -/
def Dev.ledAround (d : Dev) (a b : Nat) : Bool := (seamOf a b).any fun s => (d.seam s).rerouted

/-- The gate tiles whose seam to the die routes do not avoid. -/
def Dev.gates (d : Dev) (a : Nat) : List Nat := (gateTiles a).filter fun t => !d.ledAround a t

/-- The pair of gate tiles with the fewest hops between them, ties going to the lower-numbered tiles (R22). -/
def bestGates (l : List (Nat × Nat)) : Option (Nat × Nat) :=
  l.foldl (fun (best : Option (Nat × Nat)) p => match best with
    | none => some p
    | some q => if gridHops p.1 p.2 < gridHops q.1 q.2 then some p else best) none

/-- The tiles between two tiles: the row first, or the column first where the row-first path meets a seam to be avoided. -/
def Dev.gridPath (d : Dev) (a b : Nat) : List Nat :=
  if (legs (rowFirst a b)).any fun l => d.ledAround l.1 l.2 then colFirst a b else rowFirst a b

/-- The dies from a tile to a hub: over the tile's own hub seam, or, where routes avoid that, through the lowest-numbered
neighbouring tile whose seam serves (R26). -/
def Dev.toHub (d : Dev) (t h : Nat) : List Nat :=
  if !d.ledAround t (dieOfHub h) then [t, dieOfHub h]
  else match (List.range 16).find? fun u => gridHops t u == 1 && !d.ledAround u (dieOfHub h) && !d.ledAround t u with
  | some u => [t, u, dieOfHub h]
  | none => [t, dieOfHub h]

/-- The dies traffic passes from one die to another (R22): traffic for a hub leaves the grid at its first tile. -/
def Dev.route (d : Dev) (a b : Nat) : List Nat :=
  match hubDie a, hubDie b with
  | _, some h => match (d.gates a).min? with
    | some t => (if a = t then [] else [a]) ++ d.toHub t h
    | none => []
  | some h, none => match (d.gates b).min? with
    | some t => (d.toHub t h).reverse ++ (if b = t then [] else [b])
    | none => []
  | none, none => match bestGates ((d.gates a).flatMap fun t => (d.gates b).map fun u => (t, u)) with
    | some (t, u) => (if a = t then [] else [a]) ++ d.gridPath t u ++ (if b = u then [] else [b])
    | none => []

/-- The seams a route crosses. -/
def Dev.routeSeams (d : Dev) (a b : Nat) : List Nat := (legs (d.route a b)).filterMap fun l => seamOf l.1 l.2

/-- Traffic between two dies crosses the seam, in one direction or the other. -/
def Dev.crosses (d : Dev) (a b s : Nat) : Bool := (d.routeSeams a b).contains s || (d.routeSeams b a).contains s

/-! ### Flits (R25) -/

/-- The key of a seam and direction, derived at every boot (R25, R538). -/
def Dev.seamKey (d : Dev) (s : Nat) (dir : Bool) : List Byte :=
  hkdf d.kBoot "ONV-SEAM" (bytesOfNat 2 s ++ bytesOfNat 1 (boolNat dir))

/-- The nonce of a flit: its sequence number padded with zeros to 96 bits (R25). -/
def flitNonce (n : Nat) : List Byte := bytesOfNat 8 n ++ [0, 0, 0, 0]

/-- Flit `n` as it crosses a seam: its ciphertext and tag (R25, R35). -/
def Dev.sealFlit (d : Dev) (s : Nat) (dir : Bool) (n : Nat) (flit : List Byte) : List Byte × List Byte :=
  Config.gcmSeal (d.seamKey s dir) (flitNonce n) [] flit

/-- What the far end makes of a flit: none where its tag fails, and the flit is dropped (R26). -/
def Dev.openFlit (d : Dev) (s : Nat) (dir : Bool) (n : Nat) (ct tag : List Byte) : Option (List Byte) :=
  Config.gcmOpen (d.seamKey s dir) (flitNonce n) [] ct tag

end Sys2Proof.Machine
end

