-- ==== Sys2Proof/Machine/Arbiter.lean ====
section
/-! DEFINITION. Arbitration (R23, R385 to R392, R498): the requests that stand at each hub, port and mesh seam, the meters, and
what one cycle of every arbiter grants.  The requests follow from the state: the steps under way and the service agents' work.
One grant moves one granule of 128 bytes, and a cycle is one of the hub clock (log 49). -/

namespace Sys2Proof.Machine

/-! ### Requesters -/

/-- Class and tickets of a requester at reset (R391, R498). -/
def arbDefault (u r : Nat) : Nat × Nat :=
  if r < (if u < 4 then 64 else 20) then (r % 4, if r % 4 = 3 then 8 else 0)
  else if u < 4 then
    (match r with
     | 64 => (3, 40) | 65 => (3, 64) | 66 => (3, 80) | 67 => (3, 48) | 68 => (3, 24) | _ => (0, 0))
  else (match r with
     | 64 => (3, 48) | 65 => (3, 32) | _ => (0, 0))

/-- Class and tickets of a requester now (R390). -/
def Dev.arbCfg (d : Dev) (u r : Nat) : Nat × Nat := ((d.arb u).cfg.get none r).getD (arbDefault u r)

/-- The requester is present (R388, R391, R498): a seam channel of a tile whose rim is powered, an agent out of reset, a port's
requester; unit 56 stands for the mesh, whose seams are numbered by R389. -/
def Dev.reqPresent (d : Dev) (unit req : Nat) : Bool :=
  if unit < 4 then
    (req < 64 && (d.hub unit).up && (d.tile (req / 4)).rim) ||
      (64 ≤ req && req < 69 && bitOf (d.arb unit).agents.toNat (req - 64))
  else if unit < 56 then req < 20 || req = 64 || req = 65
  else req < 44

/-- A step under way with operations still to run. -/
def Dev.runAsks (d : Dev) (r : Run) : Bool :=
  r.state == .running && !(List.range ((d.plan r.plan).module.stepOps r.step).length).all r.done.contains

/-- The plan has a tensor in a frame of the hub. -/
def Plan.onHub (p : Plan) (h : Nat) : Bool := p.tensors.any fun t => t.frames.any fun f => hubOf f == h

/-- The plan slots that a tile's channel of class `v` asks a hub for. -/
def Dev.tileAsks (d : Dev) (h t v : Nat) : List Nat :=
  ((d.runs.filter fun r => r.2.cls == v && d.runAsks r.2 && (d.plan r.2.plan).tiles.contains t &&
    (d.plan r.2.plan).onHub h).map fun r => r.2.plan).eraseDups

/-- A service agent of a hub has work: scrubber (R376), tree walker (R414, R426), sluice (R445), haven drain (R515), flash
manager (R457). -/
def Dev.agentAsks (d : Dev) (h a : Nat) : Bool :=
  match a with
  | 0 => (d.hub h).up
  | 1 => d.regions.any fun r => r.1 / 716 == h && (r.2.quarantine || r.2.sweepTo.isSome)
  | 2 => !(d.flashOf h).sluice.isEmpty || d.extents.any fun e => extentHub e.1 == h && e.2.state == .promoting
  | 3 => d.havens.any fun x => x.2.draining.isSome && x.2.shard.isSome
  | _ => d.extents.any fun e => extentHub e.1 == h && e.2.state == .settling

/-- The port carries traffic of a step of class `v`: one with a collective still to run. -/
def Dev.portAsks (d : Dev) (v : Nat) : List Nat :=
  ((d.runs.filter fun r => r.2.cls == v && d.runAsks r.2 && (((d.plan r.2.plan).module.stepOps r.2.step).zipIdx.any fun o =>
    o.1.isCollective && !r.2.done.contains o.2)).map fun r => r.2.plan).eraseDups

/-- The plan slots a requester of an arbiter asks for; an agent or a channel that serves no plan asks for `none`. -/
def Dev.asks (d : Dev) (u r : Nat) : List (Option Nat) :=
  let agent (b : Bool) : List (Option Nat) := if b then [none] else []
  if u < 4 then
    (if r < 64 then (d.tileAsks u (r / 4) (r % 4)).map some else agent (d.agentAsks u (r - 64)))
  else if r < 4 then (if (d.port (u - 8)).state = 3 then (d.portAsks r).map some else [])
  else if r = 64 then agent (d.havens.any fun x => x.2.draining.isSome && x.2.shard.isSome)
  else if r = 65 then agent (d.badLines.any fun b => b.2.holding)
  else []

/-! ### Meters (R385) -/

/-- What a meter gains in a cycle for each percent of the unit's rate: 61.44 bytes at a hub, a port's rate at a port; in 1/1,600 of
a byte. -/
def Dev.percentFill (d : Dev) (u : Nat) : Nat := if u < 4 then 98304 else (d.port (u - 8)).rate10

/-- One grant of 128 bytes, in 1/1,600 of a byte. -/
def grantSize : Nat := 204800

/-- The meters after a cycle: filled at their percent, holding at most 2 µs, 3,200 cycles, of it. -/
def Dev.fillMeters (d : Dev) (u : Nat) : Dev :=
  let one := d.percentFill u
  let plans := d.plans.filter fun p => p.2.loaded
  d.modArb u fun a =>
    { a with service := min (3200 * a.share * one) (a.service + a.share * one)
             meters := plans.map fun p => (p.1, min (3200 * p.2.beta * one) (a.meters.get 0 p.1 + p.2.beta * one)) }

/-- The level a request stands at (R385, R391). -/
def Arbiter.level (a : Arbiter) (cls : Nat) (plan : Option Nat) : Nat :=
  let within := match plan with
    | some p => decide (grantSize ≤ a.meters.get 0 p)
    | none => true
  match cls with
  | 2 => 1
  | 3 => if grantSize ≤ a.service then 2 else 7
  | 0 => if within then 3 else 5
  | _ => if within then 4 else 6

/-! ### The choice (R385, R386) -/

/-- The pending requests of an arbiter: requester, plan and level. -/
def Dev.pendingReqs (d : Dev) (u : Nat) : List (Nat × Option Nat × Nat) :=
  ((List.range 69).filter (d.reqPresent u)).flatMap fun r =>
    (d.asks u r).map fun p => (r, p, (d.arb u).level (d.arbCfg u r).1 p)

/-- Round robin: the first requester after the last one served. -/
def nextTurn (last : Nat) (l : List Nat) : Option Nat :=
  (l.find? fun r => last < r).or l.head?

/-- 16 steps of the lottery register (R386). -/
def lfsrStep (x : BitVec 31) : BitVec 31 := (x <<< 1) ||| BitVec.ofNat 31 (boolNat (x.getLsbD 30 != x.getLsbD 27))

def lfsr16 (x : BitVec 31) : BitVec 31 := (List.range 16).foldl (fun x _ => lfsrStep x) x

/-- The requester whose running total of tickets first exceeds `pick`. -/
def drawTicket (tickets : Nat → Nat) (pick : Nat) : List Nat → Nat → Option Nat
  | [], _ => none
  | r :: t, sum => if pick < sum + tickets r then some r else drawTicket tickets pick t (sum + tickets r)

/-- The requester granted among those of one level, and the lottery register after it. -/
def Dev.chooseReq (d : Dev) (u level : Nat) (l : List Nat) : Option Nat × BitVec 31 :=
  let a := d.arb u
  let turn := nextTurn (a.turns.get 68 level) l
  if level ≠ 2 && level ≠ 7 then (turn, a.lfsr)
  else
    let x := lfsr16 a.lfsr
    let total := sumNat (l.map fun r => (d.arbCfg u r).2)
    if total = 0 then (turn, x)
    else (drawTicket (fun r => (d.arbCfg u r).2) ((x.toNat % 65536) * total / 65536) l 0, x)

/-- A grant is charged: to its plan's allowance where it stands within it, to the service meter at level 2; the MAC bytes of a
seam channel's access, 8 for a granule, to the service meter. -/
def Arbiter.charge (a : Arbiter) (u r level : Nat) (plan : Option Nat) : Arbiter :=
  let a := if level = 2 then { a with service := a.service - grantSize } else a
  let a := if u < 4 && r < 64 then { a with service := a.service - 12800 } else a
  match plan with
  | some p => if level = 3 || level = 4 then { a with meters := a.meters.put p (a.meters.get 0 p - grantSize) } else a
  | none => a

/-- One cycle of one arbiter: the meters fill, and the highest non-empty level is served. -/
def Dev.arbCycle (d : Dev) (u : Nat) : Dev :=
  let d := d.fillMeters u
  let reqs := d.pendingReqs u
  match (reqs.map fun q => q.2.2).min? with
  | none => d
  | some level =>
    let mine := reqs.filter fun q => q.2.2 == level
    let (pick, lfsr) := d.chooseReq u level (mine.map Prod.fst).eraseDups
    match pick with
    | none => d
    | some r =>
      let plan := ((mine.find? fun q => q.1 == r).map fun q => q.2.1).getD none
      d.modArb u fun a =>
        { a.charge u r level plan with lfsr := lfsr, turns := a.turns.put level r, granted := some r, grants := a.grants + 1 }

/-! ### Mesh seams (R23) -/

/-- The dies whose traffic of class `v` crosses a mesh seam: tiles of steps with a collective to run, towards the fabric dies
whose ports are up. -/
def Dev.meshAsks (d : Dev) (m v : Nat) : List Nat :=
  let fds := (d.portsUp.map fun p => p.1 / 12).eraseDups
  (List.range 16).filter fun t => (d.portAsks v).any (fun p => (d.plan p).tiles.contains t) &&
    fds.any fun f => (d.routeSeams t (dieOfFd f)).contains (64 + m)

/-- One cycle of a mesh seam's arbiter: classes in strict order, round robin inside a class. -/
def Dev.meshCycle (d : Dev) (m : Nat) : Dev :=
  match [2, 0, 1, 3].find? fun v => !(d.meshAsks m v).isEmpty with
  | none => d
  | some v => match nextTurn (d.meshTurns.get 99 (4 * m + v)) (d.meshAsks m v) with
    | none => d
    | some t => { d with meshTurns := d.meshTurns.put (4 * m + v) t }

/-! ### One cycle -/

/-- One cycle of every arbiter of a hub that is up, of a port that is up and of a mesh seam; nothing while the device does not
serve. -/
def Dev.arbTick (d : Dev) : Dev :=
  if !(d.sys.service == .neap || d.sys.service == .spring) || d.sys.forced || d.sys.clkLost then d
  else
    let d := d.each ((List.range 4).filter fun h => (d.hub h).up) Dev.arbCycle
    let d := d.each (d.portsUp.map fun p => 8 + p.1) Dev.arbCycle
    if d.runs.isEmpty then d else d.each (List.range 44) Dev.meshCycle

end Sys2Proof.Machine
end

