-- ==== Sys2Proof/Machine/Dike.lean ====
section
/-! DEFINITION. Dikewatch's measures and scores (R502, R503). -/

namespace Sys2Proof.Machine

/-- Saturation and weight of an input at reset (R502). -/
def dwDefault (i : Nat) : Nat × Nat :=
  match i with
  | 0 => (4096, 128) | 1 => (1024, 96) | 2 => (4096, 64) | 3 => (4, 256) | 4 => (16, 128)
  | 5 => (256, 96) | 6 => (16, 192) | 7 => (15, 256) | 8 => (64, 128) | _ => (100, 256)

/-- Saturation and weight in force (R505). -/
def Dikewatch.cfgOf (x : Dikewatch) (i : Nat) : Nat × Nat := (x.cfg.get none i).getD (dwDefault i)

/-- The events of an input in the last 1,024 tides. -/
def Dev.dwRecent (d : Dev) (i : Nat) : List DwEvent :=
  d.dike.events.filter fun e => e.input == i && d.tide.number < e.tide + 1024

def dwSum (l : List DwEvent) : Nat := sumNat (l.map DwEvent.amount)

/-- The count of the worst unit among events. -/
def dwWorst (l : List DwEvent) : Nat := maxNat ((l.map DwEvent.die).eraseDups.map fun u => dwSum (l.filter fun e => e.die == u))

/-- Wear of a hub in percent (R459): the worst plane's retired blocks against the tenth of its blocks that makes the hub
worn, or the mean erase count against endurance. -/
def Flash.wear (f : Flash) : Nat :=
  let g := f.geom
  let planes := g.channels.length * g.chipEnables * g.luns * g.planes
  if planes = 0 || g.blocks = 0 then 0
  else if f.worn then 100
  else
    let grown := f.bad.filter fun b => !g.bad.any fun x => x.1 * 16777216 + x.2 == b
    let worst := maxNat ((List.range planes).map fun i => (grown.filter fun b => b / 16777216 == i).length)
    max (min 100 (worst * 1000 / g.blocks))
      (min 100 (sumNat (f.erases.map Prod.snd) * 100 / (planes * g.blocks * max 1 g.endurance)))

/-- Percent in use of each spare kind (R459, R525, R527, R566). -/
def Dev.spareUse (d : Dev) : List Nat :=
  let pc (used n : Nat) : Nat := min 100 (used * 100 / max 1 n)
  let clusters := (d.tiles.filter fun t => t.2.clusters.contains 8).length
  let pool := sumNat (d.hubs.map fun h => h.2.poolUsed + h.2.retired.length)
  let fuse := sumNat ((d.life.intents ++ d.life.commits).map fun r => (r.2.filter fun n => 8 < n && n < 48).length)
  [pc clusters 16, pc (sumNat (d.tiles.map fun t => t.2.spareBanks)) 1024, pc pool 8192,
   pc (sumNat (d.fabric.ports.map fun p => p.2.spares.length)) 32, pc (2 - d.spareCores + d.dike.pilotFaults) 2, pc fuse 20] ++
   d.flash.map fun f => f.2.wear

/-- The die that a stack-error event's stack belongs to, else the event's die. -/
def dwDie (e : DwEvent) : Nat := if e.input = 0 then 0x10 + e.die / 6 else e.die

/-- The measure of an input for the device (R502). -/
def Dev.dwMeasure (d : Dev) (i : Nat) : Nat :=
  match i with
  | 3 => dwSum (d.dwRecent 3)
  | 5 => maxNat (d.dike.fecMargin.map Prod.snd)
  | 7 => maxNat (d.dike.temps.map fun t => t.2 - 90)
  | 8 => dwSum ((d.dwRecent 8).filter fun e => e.die == 0xFF)
  | 9 => maxNat d.spareUse
  | i => if i ≤ 8 then dwWorst (d.dwRecent i) else 0

/-- The measure of an input attributed to a die (R503). -/
def Dev.dwBlockMeasure (d : Dev) (die i : Nat) : Nat :=
  match i with
  | 5 => maxNat ((d.dike.fecMargin.filter fun p => 0x20 + p.1 / 12 == die).map Prod.snd)
  | 7 => d.dike.temps.get 0 die - 90
  | 9 => 0
  | i => dwWorst ((d.dwRecent i).filter fun e => dwDie e == die)

/-- One input's part of a score (R503). -/
def Dikewatch.part (x : Dikewatch) (i m : Nat) : Nat :=
  let (sat, w) := x.cfgOf i
  let sat := max 1 sat
  w * min m sat / sat

/-- A score from measures (R503). -/
def Dikewatch.scoreOf (x : Dikewatch) (m : Nat → Nat) : Nat := min 1023 (sumNat ((List.range 10).map fun i => x.part i (m i)))

/-- The encodings of the 25 logic dies (R9). -/
def dieCodes : List Nat :=
  (List.range 16) ++ (List.range 4).map (0x10 + ·) ++ (List.range 4).map (0x20 + ·) ++ [0x30]

end Sys2Proof.Machine
end

