-- ==== Sys2Proof/Machine/Head.lean ====
section
/-! DEFINITION. The head of a queue (R301, R311, R656): when a fetched command begins, what it meets there, and how it is
taken up; the checks at decode that need the device's state. -/

namespace Sys2Proof.Machine

/-- The device serves its queues: neap or spring service (R606), clocks running, outputs not forced (R588, R590). -/
def Dev.serving (d : Dev) : Bool :=
  (d.sys.service == .neap || d.sys.service == .spring) && !d.sys.forced && !d.sys.clkLost

/-- The context slot a queue's command acts on (R334): its own, or the target of a class-S command. -/
def Dev.targetOf (d : Dev) (c : Cmd) : Option Nat := d.ctxOfTag c.context

/-- A context takes commands: OPEN or SUSPENDED. -/
def CtxState.isOpen (s : CtxState) : Bool := s == .opened || s == .suspended

/-- The opcodes that still run in a SUSPENDED context (R362); a LOAD_PLAN runs and is refused. -/
def runsSuspended (op : Nat) : Bool :=
  [Op.unmapPages, Op.unloadPlan, Op.getTensor, Op.fenceSignal, Op.fenceWait, Op.loadPlan].contains op

/-- The commands that name a plan by the handle in parameter word 0. -/
def namesPlan (op : Nat) : Bool := [Op.putTensor, Op.getTensor, Op.stage, Op.unloadPlan, Op.runPlan].contains op

/-! ### Checks at decode (R656) -/

/-- Step 8: the handle (R282, R320). -/
def Dev.handleCheck (d : Dev) (x : Queue) (c : Cmd) : Option Nat :=
  if !namesPlan c.opcode then none
  else
    let h := c.p 0
    let p := d.plan (h % 1024)
    if !p.loaded || p.handle (h % 1024) ≠ h then some Code.objectFreed
    else if some p.ctx ≠ d.targetOf c then some Code.contextUnknown
    else if c.opcode = Op.runPlan && p.cls ≠ x.cls.toNat then some Code.classMismatch
    else if c.opcode = Op.runPlan && !p.unloading.isEmpty then some Code.objectFreed
    else none

/-- The interface of a function is admitted (R296): a VF in RUN on a selective stream. -/
def Dev.admittedFn (d : Dev) (fn : Nat) : Bool := 2 ≤ fn && (d.fn fn).tdi == 2 && (d.fn fn).ideStream.isSome

/-- The release that serves a tensor of a charter plan (R542). -/
def releaseFor (x : Charter) (m : Module) (t : Nat) : Option Release :=
  x.releases.find? fun r => r.tensor == t && r.digest == x.digests.idxOf m.digest

/-- Recipients of a release, in owner order. -/
def recipientsOf (x : Charter) (r : Release) : List Nat := (List.range x.owners.length).filter fun o => bitOf r.recipients o

/-- Sealed bit and release terms (R296, R551, R552). -/
def Dev.sealCheck (d : Dev) (x : Queue) (c : Cmd) (ctx : Nat) (m : Module) (t : Nat) : Option Nat :=
  let deny := some Code.charterDenied
  match (d.ctx ctx).charter with
  | none => if c.isSealed then deny else none
  | some k =>
    let ch := d.charter k
    let fn := x.function.toNat
    let admitted (o : Nat) : Bool := d.admittedFn fn && (d.fn fn).admitted.contains (k, o)
    if c.opcode = Op.getTensor then
      match releaseFor ch m t with
      | none => deny
      | some r =>
        if c.isSealed then (if r.form = 0 || r.form = 2 then none else deny)
        else if (r.form = 1 || r.form = 2) && (recipientsOf ch r).any admitted then none else deny
    else if c.isSealed then none
    else if admitted (m.ownerOf t) then none else deny

/-- Payload units a transfer carries, or result units it needs (R324, R326, R553). -/
def Dev.transferUnits (d : Dev) (c : Cmd) (ctx : Nat) (m : Module) (t : Nat) : Nat :=
  let data := ceilDiv (c.p 5) 64
  if c.opcode = Op.getTensor then
    if c.isSealed then
      let n := match (d.ctx ctx).charter with
        | some k => match releaseFor (d.charter k) m t with
          | some r => (recipientsOf (d.charter k) r).length
          | none => 1
        | none => 1
      1 + n * (3 + data)
    else 1 + data
  else if c.isSealed then 1 + 3 + data
  else 1 + data

/-- PUT_TENSOR, GET_TENSOR and STAGE: access and placement, range, length, seal, envelope limits (R324, R326, R656). The
length of a sealed command's envelopes is known to be short once its seal and its limits stand. -/
def Dev.transferCheck (d : Dev) (x : Queue) (c : Cmd) (ctx : Nat) : Option Nat :=
  let p := d.plan (c.p 0 % 1024)
  let m := p.module
  let t := c.pf 1 0 16
  let decl := m.tensor t
  let deep := m.deep.contains t
  let access := t < m.tensors.length &&
    (if c.opcode = Op.getTensor then decl.hostRead else decl.hostWrite && (c.opcode != Op.stage || deep))
  let units := d.transferUnits c ctx m t
  if !access then some Code.tensorAccess
  else if c.p64 3 + c.p 5 > decl.storedBytes then some Code.descMalformed
  else if (if c.opcode = Op.getTensor then c.resultUnits else c.payloadUnits) < 1 + ceilDiv (c.p 5) 64 then
    some Code.payloadShort
  else match d.sealCheck x c ctx m t with
  | some e => some e
  | none =>
    if !c.isSealed then none
    else if units > (if x.format.toNat = 1 then 4096 else 16384) || (c.opcode ≠ Op.getTensor && c.pf 1 16 1 ≠ 0) ||
        (c.opcode ≠ Op.getTensor && c.p 2 ≠ 0) then some Code.descMalformed
    else if (if c.opcode = Op.getTensor then c.resultUnits else c.payloadUnits) < units then some Code.payloadShort
    else none

/-- Step 9: the command's own rules (R312, R321, R323, R450). -/
def Dev.ownCheck (d : Dev) (x : Queue) (c : Cmd) (ctx : Nat) : Option Nat :=
  if c.opcode = Op.putTensor || c.opcode = Op.getTensor || c.opcode = Op.stage then
    match d.transferCheck x c ctx with
    | some e => some e
    | none =>
      let p := d.plan (c.p 0 % 1024)
      if c.opcode = Op.putTensor && d.sys.service == .neap && p.module.deep.contains (c.pf 1 0 16) then some Code.neapOnly
      else none
  else if c.opcode = Op.loadPlan then
    if x.format.toNat < 3 && !(readModule (moduleBytes c)).1.groups.isEmpty then some Code.ringFormatUnsupported else none
  else if c.opcode = Op.runPlan then
    let slot := c.p 0 % 1024
    let p := d.plan slot
    if c.p 1 + c.p 2 > p.module.steps.length then some Code.descMalformed
    else if c.pBudget ≠ 0 && Frac.lt (Frac.ofNat c.pBudget) ((budgetP p (d.plansBut (some slot))).plus (Frac.ofNat 18000)) then some Code.pBudget
    else none
  else none

/-- Steps 2 to 9 of the decode checks on a command (R656). -/
def Dev.decodeChecks (d : Dev) (x : Queue) (c : Cmd) : Option Nat :=
  match cmdRow c.opcode with
  | none => some Code.descMalformed
  | some r =>
    let cls := x.cls.toNat
    if !r.classes.contains cls then some Code.classMismatch
    else if r.neap && d.sys.service == .neap then some Code.neapOnly
    else match d.targetOf c with
    | none => some Code.contextUnknown
    | some ctx =>
      if !(d.ctx ctx).state.isOpen then some Code.contextUnknown
      else if c.charter ≠ (d.ctx ctx).charter then some Code.charterDenied
      else
        let owner := if cls = 3 then 0 else ctx
        if c.fences.any fun f => !d.ownsFence owner f then some Code.fenceNotOwned
        else (c.paramCheck cls (d.plans.filter fun p => p.2.loaded && p.2.ctx == ctx).length).or ((d.handleCheck x c).or (d.ownCheck x c ctx))

/-! ### At the head of a queue (R301, R311) -/

/-- What the head command of a queue meets. -/
inductive AtHead where
  /-- No such command stands there, or it waits. -/
  | idle
  | fails (c : Cmd) (code : Nat)
  | upstream (c : Cmd) (slot originCode : Nat)
  | ready (c : Cmd) (ctx : Nat)
  deriving DecidableEq, Repr

/-- A command that the context does not let begin now waits (R55, R362, R521). -/
def Dev.headWaits (d : Dev) (x : Queue) (c : Cmd) (ctx : Nat) : Bool :=
  let k := d.ctx ctx
  (((cmdRow c.opcode).map CmdRow.tide).getD false && !d.tideRunning) ||
  (k.state == .suspended && x.cls.toNat != 3 && !runsSuspended c.opcode) ||
  (c.opcode == Op.runPlan && k.held)

/-- What stops a command that begins (R520, R536). -/
def Dev.beginFails (d : Dev) (x : Queue) (q : Nat) (c : Cmd) (ctx : Nat) : Option Nat :=
  let k := d.ctx ctx
  let p := d.plan (c.p 0 % 1024)
  if (match c.charter with
      | some s => (d.charter s).held
      | none => false) then some Code.attestFail
  else if c.opcode = Op.runPlan && k.rollback.isSome then some Code.rollback
  else if !namesPlan c.opcode then none
  else if !p.loaded || p.handle (c.p 0 % 1024) ≠ c.p 0 then some Code.objectFreed
  else if c.opcode ≠ Op.unloadPlan && p.suspended then some Code.planSuspended
  else if c.opcode = Op.runPlan && p.cls ≠ x.cls.toNat then some Code.classMismatch
  else if c.opcode = Op.runPlan && p.unloading.any fun u => u.1 == q && u.2.seq < c.seq then some Code.objectFreed
  else none

/-- The head command of queue `q`, where it has the opcode and satisfies `want`. -/
def Dev.atHead (d : Dev) (q op : Nat) (want : Cmd → Bool := fun _ => true) : AtHead :=
  let x := d.queue q
  match x.fetched with
  | [] => .idle
  | c :: _ =>
    if c.opcode ≠ op || !want c || !d.serving then .idle
    else if d.lost then .fails c Code.systemLost
    else match d.targetOf c with
    | none => .fails c Code.contextUnknown
    | some ctx =>
      let k := d.ctx ctx
      let tagged := match k.charter with
        | some s => (d.charter s).state == .closing
        | none => false
      if k.evacuated then .fails c Code.evacuated
      else if tagged || c.charter ≠ k.charter then .fails c Code.charterDenied
      else if d.headWaits x c ctx then .idle
      else match d.cmdWaits c with
      | .broken s o => .upstream c s o
      | .unmet => .idle
      | .met =>
        match d.beginFails x q c ctx with
        | some e => .fails c e
        | none => .ready c ctx

/-- A command begins (R301): it leaves the fetched list and captures the map epoch (R347). -/
def Dev.beginCmd (d : Dev) (q ctx : Nat) (c : Cmd) : Dev × Cmd :=
  let c := { c with epoch := (d.ctx ctx).epoch }
  (d.modQueue q fun x => { x with fetched := x.fetched.drop 1, begun := x.begun ++ [c] }, c)

/-- The head command of a queue begins and takes effect where `go` lets it, or fails; otherwise nothing happens. -/
def Dev.onHead (d : Dev) (q op : Nat) (effect : Dev → Cmd → Nat → Dev) (want : Cmd → Bool := fun _ => true)
    (go : Dev → Cmd → Nat → Bool := fun _ _ _ => true) : Dev :=
  match d.atHead q op want with
  | .idle => d
  | .fails c e => d.failCmd q c e
  | .upstream c s o => d.failUpstream q c s o
  | .ready c ctx => if go d c ctx then (let (d, c) := d.beginCmd q ctx c; effect d c ctx) else d

/-- The plan a begun command names. -/
def Cmd.planSlot (c : Cmd) : Nat := c.p 0 % 1024

end Sys2Proof.Machine
end

