-- ==== Sys2Proof/Machine/HostQueue.lean ====
section
/-! DEFINITION. Queues (R298 to R332): polls and doorbells, halts, fetching and decoding packets, set-up and take-down, and
the fence commands. -/

namespace Sys2Proof.Machine

/-! ### Halts and completion space (R303, R318) -/

/-- A queue halts: nothing more is fetched until it is enabled again (R303); the halt is named in ERR_HALT (R634). -/
def Dev.haltQueue (d : Dev) (q code : Nat) : Dev :=
  let d := d.modQueue q fun x => { x with halted := true, code := BitVec.ofNat 16 code }
  let d := d.modErrors fun e => { e with haltCode := code, haltQueue := q }
  d.errEvent .queueHalt code (ctx := (d.queue q).context.toNat) (queue := q)

/-- Waiting completions are written, oldest first, while the ring has the space (R318). -/
def Dev.flushWaiting (d : Dev) (q : Nat) : Nat → Dev
  | 0 => d
  | n + 1 =>
    let x := d.queue q
    match x.waitCpl with
    | [] => d
    | c :: rest =>
      if 1 + (unitsOf c.result).length ≤ x.freeUnits then
        let d := (d.modQueue q fun x => { x with waitCpl := rest }).writeCompletion q c
        (d.msix x.function.toNat x.vector.toNat).flushWaiting q n
      else d

/-- The driver's cpl_head is read (R302, R318). -/
def Dev.readCplHead (d : Dev) (q head : Nat) : Dev :=
  let d := d.modQueue q fun x => { x with cplHead := head }
  d.flushWaiting q (d.queue q).waitCpl.length

/-! ### Polls (R302 to R306) -/

/-- One doorbell found: the tail is taken, or halts the queue (R303). -/
def Dev.takeDoorbell (d : Dev) (fn : Nat) (classP : Bool) (b : DoorbellRead) : Dev :=
  let x := d.queue b.queue
  if !x.enable || x.halted || x.function.toNat ≠ fn || (x.cls.toNat == 2) != classP then d
  else
    let d := d.readCplHead b.queue b.cplHead
    if b.tail < x.tail || b.tail > x.consumed + ringUnits x.ringLog2 then d.haltQueue b.queue Code.descMalformed
    else d.modQueue b.queue fun x => { x with tail := b.tail }

/-- The bits set in a summary's words (R304). -/
def summaryBits (words : List (BitVec 64)) : List Nat :=
  words.zipIdx.flatMap fun w => ((List.range 64).filter fun b => w.1.getLsbD b).map (64 * w.2 + ·)

/-- The queue a summary bit belongs to (R304): in the all-queue summary the queue of that number, in the class-P summary the
enabled class-P queue of the function that names the bit. -/
def Dev.bellQueue (d : Dev) (fn : Nat) (classP : Bool) (bit : Nat) : Option Nat :=
  if !classP then some bit
  else (d.queues.find? fun x => x.2.enable && x.2.cls.toNat == 2 && x.2.function.toNat == fn && x.2.psumBit.toNat == bit).map Prod.fst

/-- The doorbells of a set of bits are taken from the records read. -/
def Dev.takeBells (d : Dev) (fn : Nat) (classP : Bool) (bits : List Nat) (reads : List DoorbellRead) : Dev :=
  d.each bits fun d b => match d.bellQueue fn classP b with
    | none => d
    | some q => match reads.find? fun r => r.queue == q with
      | some r => d.takeDoorbell fn classP r
      | none => d

/-- The address of a function's summary (R304, R329). -/
def Dev.summaryAddr (d : Dev) (fn : Nat) (classP : Bool) : Nat := (if classP then (d.fn fn).psum else (d.fn fn).sum).toNat

/-- A poll of one function's summary (R306): a Swap for every word that the plain read shows non-zero, and with it a read of
the tail of every queue it shows; then the set the Swaps returned, whose tails are read again. -/
def Dev.poll (d : Dev) (fn : Nat) (classP : Bool) (words : List SummaryWord) (first again : List DoorbellRead) : Dev :=
  if !d.serving || !d.fnExists fn || d.inD3hot fn || !(d.fn fn).pollEnable then d
  else
    let d := d.each (words.zipIdx.filter fun w => w.1.plain != 0) fun d w =>
      d.emit (.hostSwap fn ((d.summaryAddr fn classP + 8 * w.2) % 18446744073709551616))
    let d := d.takeBells fn classP (summaryBits (words.map SummaryWord.plain)) first
    d.takeBells fn classP (summaryBits (words.map fun w => if w.plain = 0 then 0 else w.swapped)) again

/-- ALL_QUEUE_SUMMARY_POLL (R304, R306), of 512 bytes. -/
def execAllQueueSummaryPoll (fn : Nat) (r : SummaryRead) (s : State) : Host.Outcome State Fault Refusal :=
  .next (s.onDev fun d => d.poll fn false (r.words.take 64) r.first r.again)

/-- CLASS_P_SUMMARY_POLL (R304, R306), of 64 bytes. -/
def execClassPSummaryPoll (fn : Nat) (r : SummaryRead) (s : State) : Host.Outcome State Fault Refusal :=
  .next (s.onDev fun d => d.poll fn true (r.words.take 8) r.first r.again)

/-- SUMMARY_SWAP_FAIL (R307): the function's polling stops. -/
def execSummarySwapFail (fn : Nat) (s : State) : Host.Outcome State Fault Refusal :=
  .next (s.onDev fun d =>
    if !d.fnExists fn || !(d.fn fn).pollEnable then d
    else (d.modFn fn fun f => { f with pollEnable := false, atomicFail := true }).errEvent .atomicFail)

/-- COMPLETION_SPACE_FREED (R318): cpl_head is read while completions wait. -/
def execCompletionSpaceFreed (q cplHead : Nat) (s : State) : Host.Outcome State Fault Refusal :=
  if 4096 ≤ q then .fault (.unitAbsent q)
  else .next (s.onDev fun d => if d.inD3hot (d.queue q).function.toNat then d else d.readCplHead q cplHead)

/-! ### Fetch and decode (R309 to R314, R318, R656) -/

/-- A decoded command joins its queue, or ends with the code it fails with. -/
def Dev.admitCmd (d : Dev) (q : Nat) (c : Cmd) (fails : Option Nat) : Dev :=
  match fails with
  | some e => d.failCmd q c e
  | none => d.modQueue q fun x => { x with fetched := x.fetched ++ [c] }

/-- The code a command meets at decode when the device or its context takes no more (R521, R528). -/
def Dev.closedTo (d : Dev) (c : Cmd) : Option Nat :=
  if d.lost then some Code.systemLost
  else match d.targetOf c with
  | some k => if (d.ctx k).evacuated then some Code.evacuated else none
  | none => none

/-- A lone packet, or the first of a chain (R314). -/
def Dev.decodeFirst (d : Dev) (q : Nat) (w : List W32) (c : Cmd) : Dev :=
  let x := d.queue q
  let form := headerForm x w c
  let c := if x.cls.toNat = 3 then c else { c with context := x.context.toNat }
  match form with
  | some e => d.admitCmd q c (some e)
  | none =>
    if c.chain then
      if c.signal.isSome then d.admitCmd q { c with chained := true } (some Code.descMalformed)
      else d.modQueue q fun x => { x with chain := some { c with chained := true } }
    else d.admitCmd q c ((d.closedTo c).or (d.decodeChecks x c))

/-- A continuation packet (R314): its bytes join the chain; the last brings the signal and completes the command. -/
def Dev.decodeNext (d : Dev) (q : Nat) (w : List W32) (g c : Cmd) : Dev :=
  let x := d.queue q
  let whole := { g with payload := g.payload ++ c.payload, head := c.head, signal := c.signal
                        signalSlot := c.signalSlot, signalValue := c.signalValue, seq := c.seq }
  let d := d.modQueue q fun x => { x with chain := none }
  let bad := (headerForm x w c).isSome || !c.waits.isEmpty || (c.chain && c.signal.isSome)
  if bad then d.admitCmd q whole (some Code.descMalformed)
  else if c.chain then d.modQueue q fun x => { x with chain := some { whole with signal := none } }
  else
    let bytes := 64 * (whole.payload.length / 16 - 1 - whole.bindingUnits)
    if bytes < whole.p 4 || whole.p 4 + 64 ≤ bytes then d.admitCmd q whole (some Code.descMalformed)
    else d.admitCmd q whole ((d.closedTo whole).or (d.decodeChecks x whole))

/-- A packet that may be fetched now is decoded. -/
def Dev.decodePacket (d : Dev) (q : Nat) (w : List W32) : Dev :=
  let x := d.queue q
  let c := parsePacket w
  let units := 1 + c.payloadUnits
  if !d.serving || !x.enable || x.halted || d.inD3hot x.function.toNat || w.length < 16 then d
  else if c.payloadUnits > ringUnits x.ringLog2 then d.haltQueue q Code.descMalformed
  else if w.length ≠ 16 * units || x.consumed + units > x.tail then d
  else
    let raw := bitsOf (wordAt w 0) 16 16
    let continues := match x.chain with
      | some g => c.opcode == Op.loadPlan && (raw == 0 || raw == g.context)
      | none => false
    let need := 1 + c.resultUnits
    if !continues && x.freeUnits < x.reserved + need then
      if x.cls.toNat = 2 then d.haltQueue q Code.queueOverflow else d
    else
      let fn := x.function.toNat
      let c := { c with head := x.consumed + units, seq := x.nextSeq, fn := fn, era := (d.fn fn).era }
      let d := d.modQueue q fun x =>
        { x with consumed := x.consumed + units, nextSeq := x.nextSeq + 1, reserved := x.reserved + if continues then 0 else need }
      match x.chain with
      | some g =>
        if continues then d.decodeNext q w g c
        else ((d.modQueue q fun x => { x with chain := none }).admitCmd q g (some Code.descMalformed)).decodeFirst q w c
      | none => d.decodeFirst q w c

/-! ### Promotions ahead of steps (R273, R274, R445) -/

/-- The spans of `count` steps of a plan from `first` on, in tides; a class-P plan's steps need no boundary (R65). -/
def Dev.runSpan (d : Dev) (plan first count : Nat) : Nat :=
  if (d.plan plan).cls = 2 then 0
  else sumNat ((((d.plan plan).module.steps.drop first).take count).map StepDecl.span)

/-- The promotions of a run whose lead has come (R274): its step `first` starts in tide `start` at the earliest, and its
later steps follow it. -/
def Dev.promoteFor (d : Dev) (plan first count start : Nat) : Dev :=
  let p := d.plan plan
  let m := p.module
  if m.deep.isEmpty then d
  else d.each ((List.range count).map (first + ·)) fun d s =>
    let tide := start + d.runSpan plan first (s - first)
    d.each (p.leads.filter fun l => m.stepNeeds s l.1 && !m.intentAt 2 s l.1 && decide (tide ≤ d.tide.number + l.2)) fun d l =>
      d.each ((p.tensors.getD l.1 {}).extents) fun d e => d.requestPromotion e plan tide

/-- The tide in which a context's next N or B step can start: the next, or the one after the last tide of a step that
runs. -/
def Dev.nextStart (d : Dev) (c : Nat) : Nat :=
  maxNat ((d.tide.number + 1) :: (d.runs.filter fun r => r.2.ctx == c && r.2.cls != 2 && r.2.state == .running).map
    fun r => r.2.lastTide + 1)

/-- The RUN_PLANs under way, with the tide in which the next step of each starts: a context's N and B runs follow one
another (R68). -/
def Dev.runStarts (d : Dev) : List (RunCmd × Nat) :=
  d.runCmds.map fun r =>
    if r.cls = 2 then (r, d.tide.number)
    else
      let before := (d.runCmds.takeWhile fun x => x != r).filter fun x => x.ctx == r.ctx && x.cls != 2 && x.broken.isNone
      (r, max r.due (before.foldl (fun t x => max x.due t + d.runSpan x.plan (x.first + x.started) (x.count - x.started))
        (d.nextStart r.ctx)))

/-- The tide after which the context's N and B runs under way have all had their tides. -/
def Dev.afterRuns (d : Dev) (c : Nat) : Nat :=
  maxNat (d.nextStart c :: (d.runStarts.filter fun x => x.1.ctx == c && x.1.cls != 2 && x.1.broken.isNone).map fun x =>
    x.2 + d.runSpan x.1.plan (x.1.first + x.1.started) (x.1.count - x.1.started))

/-- The RUN_PLANs fetched and waiting on a queue, with the tide in which each can start: behind the runs under way, and
behind those of its context before it on the queue. -/
def Dev.waitingStarts (d : Dev) (x : Queue) : List (Cmd × Nat) :=
  let cs := x.fetched.filter fun c => c.opcode == Op.runPlan
  cs.map fun c =>
    let p := d.plan c.planSlot
    if p.cls = 2 then (c, d.tide.number)
    else
      let before := (cs.takeWhile fun y => y != c).filter fun y => (d.plan y.planSlot).ctx == p.ctx && (d.plan y.planSlot).cls != 2
      (c, d.afterRuns p.ctx + sumNat (before.map fun y => d.runSpan y.planSlot (y.p 1) (y.p 2)))

/-- Promotions due for the RUN_PLANs fetched and for those under way. -/
def Dev.promoteDue (d : Dev) : Dev :=
  let waiting := d.queues.flatMap fun q => d.waitingStarts q.2
  let d := d.each waiting fun d c => d.promoteFor c.1.planSlot (c.1.p 1) (c.1.p 2) c.2
  d.each d.runStarts fun d r => d.promoteFor r.1.plan (r.1.first + r.1.started) (r.1.count - r.1.started) r.2

/-- COMMAND_DECODE (R309, R656): the next packet of a queue is fetched and decoded. -/
def execCommandDecode (q : Nat) (packet : List W32) (s : State) : Host.Outcome State Fault Refusal :=
  if 4096 ≤ q then .fault (.unitAbsent q) else .next (s.onDev fun d => (d.decodePacket q packet).promoteDue)

/-! ### Set-up and take-down (R298 to R300, R331) -/

/-- The select registers of a function (R629). -/
def Sys.sel (x : Sys) (fn : Nat) : Selects := if fn = 1 then x.sel1 else x.sel0

/-- The checks of an enable (R298 to R300, R571). -/
def Dev.enableCheck (d : Dev) (q : Nat) : Option Nat :=
  let x := d.queue q
  let fn := x.function.toNat
  let cls := x.cls.toNat
  let others := d.queues.filter fun p => p.1 != q && p.2.enable
  let ctx := d.ctxOfTag x.context.toNat
  if d.life.pending then some Code.lifecycleRefused
  else match ctx with
  | none => some Code.contextUnknown
  | some c =>
    if !(d.ctx c).state.isOpen then some Code.contextUnknown
    else if x.format = 0 || (x.format = 1 && (d.ctx c).charter.isSome) then some Code.ringFormatUnsupported
    else if cls = 3 && fn ≠ 0 then some Code.classMismatch
    else if !d.fnExists fn || (cls = 3) ≠ (x.context = 0) || (x.format = 1 && cls = 2) || x.ringLog2.toNat > 12 ||
        x.cplLog2.toNat > 12 || (fn = 0 && x.vector = 0) || x.vector.toNat ≥ vectorsOf fn ||
        (cls = 2 && ((others.filter fun p => p.2.cls.toNat == 2).length ≥ 512 ||
          others.any fun p => p.2.cls.toNat == 2 && p.2.function == x.function && p.2.psumBit == x.psumBit)) then
      some Code.descMalformed
    else none

/-- A VF's entries are frozen (R294): CONFIG_LOCKED or RUN. -/
def Dev.frozenFn (d : Dev) (fn : Nat) : Bool := 2 ≤ fn && ((d.fn fn).tdi == 1 || (d.fn fn).tdi == 2)

/-- A queue's entry does not take a write through `fn` (R291, R294, R300); `ctrl` for QT_CTRL. -/
def Dev.entryLocked (d : Dev) (fn q : Nat) (ctrl : Bool) : Bool :=
  let x := d.queue q
  (x.enable && !ctrl) || (fn == 1 && x.enable && x.function.toNat != 1) || d.frozenFn x.function.toNat

def Dev.rejectQueue (d : Dev) (q : Nat) : Dev := d.modQueue q fun x => { x with cfgReject := true }

/-- A write of 1 to QT_CTRL.enable (R300). -/
def Dev.enableQueue (d : Dev) (fn : Nat) : Dev :=
  let q := (d.sys.sel fn).queue
  let x := d.queue q
  if d.entryLocked fn q true || (fn = 1 && x.function.toNat ≠ 1) then d.rejectQueue q
  else if x.enable then d
  else match d.enableCheck q with
  | some e => d.modQueue q fun x => { x with cfgReject := true, code := BitVec.ofNat 16 e }
  | none =>
    let d := if x.function.toNat = 1 || (d.fn x.function.toNat).tdi = 0 then
        d.modFn x.function.toNat fun f => { f with silent := false } else d
    d.modQueue q fun x =>
      { x with enable := true, halted := false, tail := 0, consumed := 0, cplHead := 0, cplUnits := 0, reserved := 0, waitCpl := [] }

/-- Commands fetched and not begun do not run: QUEUE_DISABLED (R331). -/
def Dev.dropFetched (d : Dev) (q : Nat) : Dev :=
  let x := d.queue q
  let d := d.modQueue q fun x => { x with fetched := [], chain := none }
  d.each (x.fetched ++ x.chain.toList) fun d c => d.failCmd q c Code.queueDisabled

/-- A queue is disabled (R331). -/
def Dev.disableQueue (d : Dev) (q : Nat) : Dev := (d.modQueue q fun x => { x with enable := false }).dropFetched q

/-- A function's queues. -/
def Dev.queuesOf (d : Dev) (fn : Nat) : List Nat :=
  (d.queues.filter fun p => p.2.enable && p.2.function.toNat == fn).map Prod.fst

/-- The function writes nothing more and its queues stop (R295): fetched commands are discarded, begun ones run on. -/
def Dev.silenceFn (d : Dev) (fn : Nat) : Dev :=
  let d := d.each (d.queuesOf fn) fun d q =>
    d.modQueue q fun x => { x with enable := false, fetched := [], chain := none, waitCpl := [] }
  d.modFn fn fun f => { f with silent := true, era := f.era + 1 }

/-- An interface moves to ERROR (R294); from RUN it is silenced (R295). -/
def Dev.tdiError (d : Dev) (fn : Nat) : Dev :=
  ((d.when ((d.fn fn).tdi == 2) fun d => d.silenceFn fn).modFn fn fun f => { f with tdi := 3, admitted := [] }).errEvent .tdisp

/-- A write of 0 to QT_CTRL.enable: of a locked VF's queue it is carried out and moves the interface to ERROR (R294). -/
def Dev.clearEnable (d : Dev) (fn : Nat) : Dev :=
  let q := (d.sys.sel fn).queue
  let x := d.queue q
  if fn = 1 && x.enable && x.function.toNat ≠ 1 then d.rejectQueue q
  else if !x.enable then d
  else if d.frozenFn x.function.toNat then
    let d := d.tdiError x.function.toNat
    d.when (d.queue q).enable fun d => d.disableQueue q
  else d.disableQueue q

/-- QUEUE_ENABLE (R300), through PF0 or PF1. -/
def execQueueEnable (fn : Nat) (s : State) : Host.Outcome State Fault Refusal :=
  if 2 ≤ fn then .fault (.unitAbsent fn)
  else .next (s.onDev fun d => if d.regsUp && d.fnExists fn then d.enableQueue fn else d)

/-- QUEUE_DISABLE (R331), through PF0 or PF1. -/
def execQueueDisable (fn : Nat) (s : State) : Host.Outcome State Fault Refusal :=
  if 2 ≤ fn then .fault (.unitAbsent fn)
  else .next (s.onDev fun d => if d.regsUp && d.fnExists fn then d.clearEnable fn else d)

/-! ### Fence commands (R327) -/

/-- FENCE_SIGNAL (R327): its fence is signalled once its waits are met. -/
def execFenceSignal (q : Nat) (s : State) : Host.Outcome State Fault Refusal :=
  .next (s.onDev fun d => d.onHead q Op.fenceSignal fun d c _ => d.succeed q c)

/-- FENCE_WAIT (R327): it ends once its waits are met. -/
def execFenceWait (q : Nat) (s : State) : Host.Outcome State Fault Refusal :=
  .next (s.onDev fun d => d.onHead q Op.fenceWait fun d c _ => d.succeed q c)

/-- A FENCE_WAIT whose limit of boundaries has passed (R327). -/
def Cmd.timedOut (c : Cmd) : Bool := c.opcode == Op.fenceWait && c.pf 0 0 16 != 0 && c.pf 0 0 16 ≤ c.boundaries

/-- FENCE_WAIT_TIMEOUT (R327): the first expired FENCE_WAIT of a queue whose waits are not met; a broken wait comes first
(R364). -/
def execFenceWaitTimeout (q : Nat) (s : State) : Host.Outcome State Fault Refusal :=
  .next (s.onDev fun d =>
    match (d.queue q).fetched.find? fun c => c.timedOut && d.cmdWaits c != .met with
    | none => d
    | some c =>
      match d.cmdWaits c with
      | .broken f o => d.failUpstream q c f o
      | _ => d.failCmd q c Code.fenceTimeout)

end Sys2Proof.Machine
end

