-- ==== Sys2Proof/Machine/Context.lean ====
section
/-! DEFINITION. Contexts (R333 to R340), the mapping commands (R341 to R349) and quotas (R358 to R363). -/

namespace Sys2Proof.Machine

/-! ### Opening a context (R338, R339) -/

/-- Two ranges given by base and count meet. -/
def rangesMeet (a n b m : Nat) : Bool := n != 0 && m != 0 && a < b + m && b < a + n

/-- The checks of an open (R338, R571). -/
def Dev.openCheck (d : Dev) (c : Nat) : Option Nat :=
  let x := d.ctx c
  let others := (d.ctxs.filter fun p => p.1 != c && p.2.state != .closed).map Prod.snd
  let mb := x.mapBase.toNat
  let mc := x.mapCount.toNat
  let fb := x.fenceBase.toNat
  let fc := x.fenceCount.toNat
  if d.life.pending || (c != 0 && d.life.jtag == .memTest) then some Code.lifecycleRefused
  else if others.any (fun o => o.tag == x.tag) || (x.tag == 0) != (c == 0) then some Code.contextUnknown
  else if mb + mc > 4096 || fb + fc > 1024 || (c ≠ 0 && (mc = 0 || fc = 0)) || x.vaGib.toNat + mc > 262144 ||
      (others.any fun o => rangesMeet mb mc o.mapBase.toNat o.mapCount.toNat ||
        rangesMeet fb fc o.fenceBase.toNat o.fenceCount.toNat) || !d.fnExists x.homeFn.toNat then
    some Code.descMalformed
  else none

/-- The entries of a context's window (R341). -/
def Dev.windowEntries (d : Dev) (c : Nat) : List Nat :=
  let x := d.ctx c
  (d.maps.filter fun p => x.mapBase.toNat * 512 ≤ p.1 && p.1 < (x.mapBase.toNat + x.mapCount.toNat) * 512).map Prod.fst

/-- The fence slots of a context's range (R350). -/
def Context.fenceSlots (x : Context) : List Nat :=
  (List.range (64 * x.fenceCount.toNat)).map (64 * x.fenceBase.toNat + ·)

/-- The slot's registers as written, and nothing of an opening (R336). -/
def Context.registers (x : Context) : Context :=
  { tag := x.tag, homeFn := x.homeFn, vaGib := x.vaGib, mapCount := x.mapCount, mapBase := x.mapBase
    fenceCount := x.fenceCount, fenceBase := x.fenceBase, recBase := x.recBase, initT1 := x.initT1
    initT2 := x.initT2, cfgReject := x.cfgReject, code := x.code, stale := x.stale }

/-- The quotas in force in a context (R336, R360); the service context holds none (R334). -/
def Context.withQuotas (x : Context) (slot : Nat) (t1 : BitVec 21) (t2 : BitVec 25) : Context :=
  if slot = 0 then x else { x with quotaT1 := t1, quotaT2 := t2 }

/-- The effects of a successful open (R339); the initial quotas come into force. -/
def Dev.openContext (d : Dev) (c : Nat) : Dev :=
  let x := d.ctx c
  let d := d.modCtx c fun x =>
    { x.registers.withQuotas c x.initT1 x.initT2 with state := .opened, serial := d.trust.openSerial, stale := 0 }
  let d := d.modTrust fun t => { t with openSerial := t.openSerial + 1 }
  let d := d.each (d.windowEntries c) fun d e => d.modMap e fun _ => {}
  let d := d.each x.fenceSlots fun d f =>
    d.modFence f fun y => { y with value := 0, state := .pending, code := 0, originSlot := f, originCode := 0, tide := d.tideLow }
  d.each x.fenceSlots Dev.writeRecord

/-- CTX_CTRL.cmd 1 (R338). -/
def Dev.openCommand (d : Dev) (c : Nat) : Dev :=
  let reject (d : Dev) : Dev := d.modCtx c fun x => { x with cfgReject := true }
  if !d.regsUp then d
  else if (d.ctx c).state ≠ .closed then reject d
  else match d.openCheck c with
  | some e => (reject d).modCtx c fun x => { x with code := BitVec.ofNat 16 e }
  | none => d.openContext c

/-- CTX_CTRL.cmd 2 (R340): step 1 is taken at once, the rest at the ebb. -/
def Dev.closeCommand (d : Dev) (c : Nat) : Dev :=
  let x := d.ctx c
  if !d.regsUp then d
  else if x.state = .closed || x.state = .closing || (c = 0 && d.openCtxs.any (· != 0)) then
    d.modCtx c fun x => { x with cfgReject := true }
  else
    let d := d.modCtx c fun x => { x with state := .closing }
    d.each ((d.queues.filter fun q => q.2.enable && q.2.context == x.tag).map Prod.fst) Dev.disableQueue

/-- CONTEXT_OPEN, of the slot PF0 has selected (R336, R338). -/
def execContextOpen (s : State) : Host.Outcome State Fault Refusal :=
  .next (s.onDev fun d => d.openCommand d.sys.sel0.ctx)

/-- CONTEXT_CLOSE, of the slot PF0 has selected (R336, R340). -/
def execContextClose (s : State) : Host.Outcome State Fault Refusal :=
  .next (s.onDev fun d => d.closeCommand d.sys.sel0.ctx)

/-! ### MAP_PAGES (R343 to R345) -/

/-- A map entry (R343). -/
structure MapReq where
  va     : Nat
  count  : Nat
  hub    : Nat
  srcTag : Nat
  srcVa  : Nat
  /-- Its reserved bits are zero. -/
  clean  : Bool
  deriving DecidableEq, Repr

/-- The map entry in eight words. -/
def readMapReq (w : List W32) : MapReq :=
  { va := dwordAt w 0, count := bitsOf (wordAt w 2) 0 16, hub := bitsOf (wordAt w 2) 16 3
    srcTag := bitsOf (wordAt w 3) 0 16, srcVa := dwordAt w 4
    clean := bitsOf (wordAt w 2) 19 13 == 0 && bitsOf (wordAt w 3) 16 16 == 0 && zeroWords w 6 2 }

/-- Groups of `n` words. -/
def wordGroups (n : Nat) (ws : List W32) : List (List W32) :=
  (List.range (ws.length / n)).map fun i => (ws.drop (n * i)).take n

/-- The frame behind a page of a context: its entry's, or that of its extent's copy. -/
def Dev.frameBehind (d : Dev) (c page : Nat) : Option Nat :=
  match (d.ctx c).entryOf page with
  | none => none
  | some e =>
    let x := d.mapEntry e
    if !x.valid then none
    else if x.frame.isSome then x.frame
    else (d.plans.filter fun p => p.2.loaded && p.2.ctx == c).findSome? fun p =>
      p.2.tensors.findSome? fun t =>
        if !t.extents.isEmpty && t.firstPage ≤ page && page < t.firstPage + 2 * t.extents.length then
          d.pageFrame t (page - t.firstPage)
        else none

/-- The frames an alias entry maps, where R345 accepts it. -/
def Dev.aliasFrames (d : Dev) (c : Nat) (r : MapReq) : Option (Nat × List (Nat × Nat)) :=
  match d.ctxOfTag r.srcTag with
  | none => none
  | some src =>
    if (d.ctx c).charter.isNone || (d.ctx src).charter ≠ (d.ctx c).charter then none
    else
      let l := (List.range r.count).filterMap fun i =>
        let page := r.srcVa / frameBytes + i
        match (d.ctx src).entryOf page, d.frameBehind src page with
        | some e, some f => if d.frameReadOnly f then some (e, f) else none
        | _, _ => none
      if l.length = r.count then some (src, l) else none

/-- The pages one map entry adds, or the code it fails with (R344); `seen` are the entries named so far.  The service context
maps no pages (R334). -/
def Dev.mapOne (d : Dev) (c : Nat) (seen : List Nat) (r : MapReq) : Except Nat (List (Nat × MapEntry)) :=
  let es := (List.range r.count).filterMap fun i => (d.ctx c).entryOf (r.va / frameBytes + i)
  let plain : MapEntry := { valid := true, pref := r.hub }
  if c = 0 then .error Code.mapFault
  else if !r.clean || r.va % frameBytes ≠ 0 || r.va ≥ 281474976710656 || r.srcVa % frameBytes ≠ 0 ||
      r.srcVa ≥ 281474976710656 || (r.srcTag = 0 && (r.srcVa ≠ 0 || 4 < r.hub)) then .error Code.mapFault
  else if es.length ≠ r.count || es.any fun e => (d.mapEntry e).valid || seen.contains e then .error Code.mapFault
  else if r.srcTag ≠ 0 then
    match d.aliasFrames c r with
    | none => .error Code.mapFault
    | some (src, l) =>
      .ok ((es.zip l).map fun p => (p.1, { valid := true, pref := 4, aliasOf := some (src, p.2.1), frame := some p.2.2 }))
  else if d.sys.service = .neap && 1 ≤ r.hub && r.hub ≤ 3 then .error Code.neapOnly
  else .ok (es.map fun e => (e, plain))

/-- All map entries, or the first that fails with its number. -/
def Dev.mapAll (d : Dev) (c : Nat) : Nat → List MapReq → List (Nat × MapEntry) → Except (Nat × Nat) (List (Nat × MapEntry))
  | _, [], acc => .ok acc
  | i, r :: t, acc =>
    if r.count = 0 then d.mapAll c (i + 1) t acc
    else match d.mapOne c (acc.map Prod.fst) r with
      | .error e => .error (e, i)
      | .ok l => d.mapAll c (i + 1) t (acc ++ l)

/-- The effect of MAP_PAGES (R344). -/
def Dev.mapPages (d : Dev) (q : Nat) (c : Cmd) (ctx : Nat) : Dev :=
  match d.mapAll ctx 0 ((wordGroups 8 c.payload).map readMapReq) [] with
  | .error (e, i) => d.failCmd q c e (some i)
  | .ok l => (d.each l fun d p => d.modMap p.1 fun _ => p.2).succeed q c

/-- MAP_PAGES (R344). -/
def execMapPages (q : Nat) (s : State) : Host.Outcome State Fault Refusal :=
  .next (s.onDev fun d => d.onHead q Op.mapPages fun d c ctx => d.mapPages q c ctx)

/-! ### UNMAP_PAGES and the end of a mapping (R346 to R349) -/

/-- The pages all unmap entries name, or the first that fails with its number (R346). -/
def Dev.unmapAll (d : Dev) (c : Nat) : Nat → List (List W32) → List Nat → Except Nat (List Nat)
  | _, [], acc => .ok acc
  | i, w :: t, acc =>
    let va := dwordAt w 0
    let n := wordAt w 2
    if n = 0 then d.unmapAll c (i + 1) t acc
    else if va % frameBytes ≠ 0 || va ≥ 281474976710656 || wordAt w 3 ≠ 0 || n > 512 * (d.ctx c).mapCount.toNat then .error i
    else
      let pages := (List.range n).map (va / frameBytes + ·)
      let ok (p : Nat) : Bool := !acc.contains p && (match (d.ctx c).entryOf p with
        | some e => (d.mapEntry e).valid && (d.mapEntry e).dead.isNone
        | none => false)
      if pages.all ok then d.unmapAll c (i + 1) t (acc ++ pages) else .error i

/-- A placed tensor covers one of the pages. -/
def Plan.covers (p : Plan) (t : Nat) (pages : List Nat) : Bool :=
  let first := (p.tensors.getD t {}).firstPage
  pages.any fun g => first ≤ g && g < first + (p.module.tensor t).pages

/-- The effect of UNMAP_PAGES (R347, R349): the epoch rises and the pages are dead as of it. -/
def Dev.unmapPages (d : Dev) (q : Nat) (c : Cmd) (ctx : Nat) : Dev :=
  match d.unmapAll ctx 0 (wordGroups 4 c.payload) [] with
  | .error i => d.failCmd q c Code.mapFault (some i)
  | .ok pages =>
    let d := d.modCtx ctx fun x => { x with epoch := x.epoch + 1 }
    let e := (d.ctx ctx).epoch
    let d := d.each pages fun d p => match (d.ctx ctx).entryOf p with
      | some i => d.modMap i fun x => { x with dead := some e }
      | none => d
    let d := d.each ((d.plans.filter fun p => p.2.loaded && p.2.ctx == ctx).map Prod.fst) fun d s =>
      let p := d.plan s
      d.each ((List.range p.tensors.length).filter fun t => p.covers t pages) fun d t =>
        d.modPlaced s t fun x => { x with dead := x.dead.or (some e) }
    d.succeed q c

/-- UNMAP_PAGES (R346, R347). -/
def execUnmapPages (q : Nat) (s : State) : Host.Outcome State Fault Refusal :=
  .next (s.onDev fun d => d.onHead q Op.unmapPages fun d c ctx => d.unmapPages q c ctx)

/-- PAGE_INVALIDATE (R348): a dead page's entry becomes invalid once no older command remains. -/
def execPageInvalidate (entry : Nat) (s : State) : Host.Outcome State Fault Refusal :=
  if 2097152 ≤ entry then .fault (.unitAbsent entry)
  else .next (s.onDev fun d =>
    match (d.mapEntry entry).dead, d.ctxOfEntry entry with
    | some e, some c => if d.epochRetired c e then d.invalidateEntry entry else d
    | _, _ => d)

/-! ### Quotas (R360, R361) -/

/-- The effect of QUOTA_SET (R360, R361). -/
def Dev.quotaSet (d : Dev) (q : Nat) (c : Cmd) (ctx : Nat) : Dev :=
  let x := d.ctx ctx
  let new := c.pf 0 0 21
  let grace := if x.useT1 ≤ new then none
    else if new < x.quotaT1.toNat || x.grace.isNone then some (d.tide.number, c.pf 2 0 16, false)
    else x.grace
  let d := d.modCtx ctx fun x =>
    { x.withQuotas ctx (BitVec.ofNat 21 new) (BitVec.ofNat 25 (c.pf 1 0 25)) with grace := grace }
  (d.checkQuota ctx).succeed q c

/-- QUOTA_SET (R360). -/
def execQuotaSet (q : Nat) (s : State) : Host.Outcome State Fault Refusal :=
  .next (s.onDev fun d => d.onHead q Op.quotaSet fun d c ctx => d.quotaSet q c ctx)

/-- Insertion of an extent by the tide of its last use. -/
def insertByUse (d : Dev) (e : Nat) : List Nat → List Nat
  | [] => [e]
  | f :: t => if (d.extent e).lastUse < (d.extent f).lastUse then e :: f :: t else f :: insertByUse d e t

/-- The droppable copies of a context: RESIDENT, unpinned, oldest use first (R361). -/
def Dev.copiesByUse (d : Dev) (c : Nat) : List Nat :=
  ((d.extents.filter fun p => p.2.ctx == c && p.2.state == .resident && !d.pinned p.1).map Prod.fst).foldl
    (fun l e => insertByUse d e l) []

/-- Step 2 of R361: copies are dropped until T1 use is within quota. -/
def Dev.dropForQuota (d : Dev) (c : Nat) : Dev :=
  d.each (d.copiesByUse c) fun d e =>
    if (d.ctx c).useT1 ≤ (d.ctx c).quotaT1.toNat then d
    else (d.dropCopy e).modExtent e fun x => { x with state := .resting, refs := [] }

/-- QUOTA_GRACE_EXPIRY (R361): at the ebb of tide t0 + g. -/
def execQuotaGraceExpiry (slot : Nat) (s : State) : Host.Outcome State Fault Refusal :=
  if 4096 ≤ slot then .fault (.unitAbsent slot)
  else .next (s.onDev fun d =>
    match (d.ctx slot).grace with
    | some (t0, g, false) =>
      if d.tide.phase ≠ .ebb || d.tide.number < t0 + g || !(d.ctx slot).state.isOpen then d
      else if (d.ctx slot).useT1 ≤ (d.ctx slot).quotaT1.toNat then d.modCtx slot fun x => { x with grace := none }
      else (d.modCtx slot fun x => { x with grace := some (t0, g, true) }).dropForQuota slot
    | _ => d)

/-- The quota step of an ebb (R361, R362): the grace ends, the context is suspended, or it returns to OPEN. -/
def Dev.quotaAtEbb (d : Dev) (c : Nat) : Dev :=
  let x := d.ctx c
  let in1 := decide (x.useT1 ≤ x.quotaT1.toNat)
  let in2 := decide (x.useT2 ≤ x.quotaT2.toNat)
  let x' := { x with grace := if in1 then none else x.grace }
  match x.state with
  | .suspended => d.modCtx c fun _ => if in1 && in2 then { x' with state := .opened } else x'
  | .opened =>
    let late := match x.grace with
      | some (_, _, dropped) => dropped
      | none => false
    d.modCtx c fun _ => if !in1 && late then { x' with state := .suspended } else x'
  | _ => d

end Sys2Proof.Machine
end

