-- ==== Sys2Proof/Machine/Egress.lean ====
section
/-! DEFINITION. Egress gates and containment (R39, R40, R42, R424, R425): what waits for verification, what is discarded when
a check fails, and the codes raised against a context. -/

namespace Sys2Proof.Machine

/-! ### Egress gates (R39, R424) -/

/-- The number of a key that seals packets (R481, R485, R488): of a group by its identity, of a context's haven, or of group
control. -/
def groupKeyNo (groupId : Nat) : Nat := 8192 + groupId

def havenKeyNo (ctx : Nat) : Nat := ctx

def controlKeyNo : Nat := 4096

/-- The key a message of a context is sealed under. -/
def keyOfMsg (c : Nat) (m : FabMsg) : Nat :=
  match m with
  | .collective x => groupKeyNo x.groupId
  | .collectiveAmax g _ _ _ | .credit g _ _ => groupKeyNo g
  | .group _ => controlKeyNo
  | _ => havenKeyNo c

/-- A packet leaves for a device, to be acknowledged end to end (R477, R481). -/
def Dev.sendTracked (d : Dev) (c dst : Nat) (m : FabMsg) : Dev :=
  let key := keyOfMsg c m
  let seq := d.fabric.nextSeq.get 1 (1024 * key + dst)
  let id := maxNat d.fabric.unacked.keys + 1
  let m := match m with
    | .packet p => .packet { p with seq := seq }
    | m => m
  ((d.modFabric fun x => { x with nextSeq := x.nextSeq.set 1 (1024 * key + dst) (seq + 1)
                                  unacked := x.unacked.set {} id { dst := dst, seq := seq, sends := 1, key := key, ctx := c, msg := some m } }
    ).modCtx c fun x => { x with fabricUse := x.fabricUse + m.payloadBytes }).emit (.fabric dst m)

/-- A held egress is discarded (R40): a collective it belonged to is aborted at its peer, and a command that returned
data breaks. -/
def Dev.discard (d : Dev) (c code : Nat) (i : HeldItem) : Dev :=
  match i with
  | .out (.fabric dst (.collective m)) =>
    d.sendTracked c dst (.group (.abort m.groupId m.step m.op d.fabric.address.toNat))
  | .out _ => d
  | .ending e => d.finish { e with error := some { code := code }, result := [] }

/-- An egress carrying data of a context is held at its gate until its epoch is verified; it is discarded where a check
has failed for the context in this tide (R40, R425). -/
def Dev.holdEgress (d : Dev) (c : Nat) (i : HeldItem) : Dev :=
  match (d.ctx c).failed with
  | some code => d.discard c code i
  | none => { d with held := d.held ++ [{ ctx := c, epoch := d.tide.epoch, item := i }] }

/-- The collectives that a context's uncommitted steps have joined are aborted on every other rank (R40). -/
def Dev.abortJoined (d : Dev) (c : Nat) : Dev :=
  d.each (d.runs.filter fun r => r.2.ctx == c) fun d r =>
    let p := d.plan r.2.plan
    d.each r.2.issued fun d k => match (p.module.stepOps r.2.step)[k]? with
      | none => d
      | some o =>
        let g := d.group ((p.bindings.getD (o.f 3 8 8) (0, 0)).1 % 1024)
        d.each (g.ranks.filter (· != d.fabric.address.toNat)) fun d a =>
          d.sendTracked c a (.group (.abort g.groupId r.2.step k d.fabric.address.toNat))

/-- The writes to the deep tier that wait at a sluice's gate are discarded (R40): the extent stays FILLING and complete, and
settles at a later ebb. -/
def Dev.discardSettlements (d : Dev) (c : Nat) : Dev :=
  { d with extents := d.extents.map fun (x : Nat × Extent) =>
      if x.2.ctx = c && x.2.state = .settling && x.2.gate.isSome then
        (x.1, { x.2 with state := .filling, complete := true, gate := none }) else x }

/-- A check has failed for a context: its held egress is discarded, and its later egress of this tide (R40, R425). -/
def Dev.checkFailed (d : Dev) (c code : Nat) : Dev :=
  let (gone, stay) := d.held.partition fun h => h.ctx == c
  let first := (d.ctx c).failed.isNone
  let d := (({ d with held := stay }).modCtx c fun x => { x with failed := x.failed.or (some code) }).discardSettlements c
  let d := d.each (gone.filter fun h => match h.item with
    | .out _ => false
    | .ending _ => true) fun d h => d.discard c code h.item
  d.when first fun d => d.abortJoined c

/-- Read-only data of a source context is mirrored to its keeper (R509). -/
def Dev.mirrorCells (d : Dev) (c : Nat) (cells : List Host.Cell) : Dev :=
  let h := d.haven c
  match h.partner with
  | some (a, _) => if h.bound && h.mirrorRo then d.holdEgress c (.out (.fabric a (.mirror cells))) else d
  | none => d

/-- A withholding code is raised against a context in this tide (R42); with a lost tree line, a failed tag is the second
code (R430). -/
def Dev.withholdCtx (d : Dev) (c code : Nat) : Dev :=
  d.modCtx c fun x =>
    match x.withhold with
    | none => { x with withhold := some code }
    | some w =>
      if w = Code.integrityAlarm && code = Code.treeLost then { x with withhold := some code, alsoCode := some w }
      else if w = Code.treeLost && code = Code.integrityAlarm then { x with alsoCode := some code }
      else x

/-- A gate lets an item pass. -/
def Dev.passGate (d : Dev) (h : Held) : Dev :=
  match h.item with
  | .out (.fabric dst m) => d.sendTracked h.ctx dst m
  | .out o => d.emit o
  | .ending e => d.finish e

/-- The verification horizons of ended class-P steps (R80) and the gates of the sluices' writes (R424) close through an
epoch. -/
def Dev.closeHorizons (d : Dev) (through : Nat) : Dev :=
  { d with runs := d.runs.map fun x => (x.1, { x.2 with horizon := x.2.horizon.filter fun e => through < e })
           extents := d.extents.map fun (x : Nat × Extent) => (x.1, { x.2 with gate := x.2.gate.filter fun e => through < e }) }

/-- The items whose epoch every hub has verified leave. -/
def Dev.openGates (d : Dev) (through : Nat) : Dev :=
  let (go, stay) := d.held.partition fun h => h.epoch ≤ through
  ({ d with held := stay }).each go Dev.passGate

end Sys2Proof.Machine
end

