-- ==== Sys2Proof/Machine/MoveEval.lean ====
section
/-! DEFINITION. Gather, scatter, layout, scale, draw and tier operations (R243 to R249), and the results of collectives
(R250 to R252). -/

namespace Sys2Proof.Machine

/-! ### Gather and scatter (R243, R244) -/

/-- An index vector in integer mode: a position inside the extent, or the cause of its lane fault (R188, R193). -/
def indexAt (v : Val) (extent : Nat) : Except Nat Nat :=
  match v.toInt32 with
  | none => .error 1
  | some n => if 0 ≤ n && n < (extent : Int) then .ok n.toNat else .error 3

/-- g.gather (R243). -/
def evalGather (e : OpEnv) (o : OpRec) : OpOut :=
  let axis := o.f 3 0 3
  let src := o.tensorAt 4
  let idx := o.tensorAt 5
  if !e.scalesValid [src, idx] then OpOut.scaleInvalid
  else
    let x := e.tensor src
    let vs := x.exact
    let ix := (e.tensor idx).exact.map fun v => indexAt v (x.dims.getD axis 1)
    let dims := (e.decl o.out).dims
    let cells := (List.range (countOf dims)).map fun i =>
      let pos := unravel dims i
      match ix.getD (pos.getD axis 0) (.error 3) with
      | .ok k => (vs.getD (ravel x.dims (pos.set axis k)) .zero, none)
      | .error c => (.zero, some ({ code := Code.laneFault, index := some i, cause := some c } : OpCode))
    { results := some (cells.map fun c => { val := c.1 })
      codes := cells.foldl (fun l c => match c.2 with
        | some k => addCode l k
        | none => l) [] }

/-- g.scatter (R244): slices in ascending order. -/
def evalScatter (e : OpEnv) (o : OpRec) : OpOut :=
  let axis := o.f 3 0 3
  let add := o.f 3 4 1 == 1
  let src := o.tensorAt 4
  let idx := o.tensorAt 5
  if !e.scalesValid [src, idx, o.out] then OpOut.scaleInvalid
  else
    let out := e.tensor o.out
    let x := e.tensor src
    let vs := if add then x.lanes else x.exact
    let extent := out.dims.getD axis 1
    let ix := (e.tensor idx).exact.map fun v => indexAt v extent
    let prior := if add then out.lanes else out.exact
    let fed := (List.range (countOf x.dims)).foldl (fun (acc : Tab Val × List OpCode) i =>
      let pos := unravel x.dims i
      match ix.getD (pos.getD axis 0) (.error 3) with
      | .error c => (acc.1, addCode acc.2 { code := Code.laneFault, index := some i, cause := some c })
      | .ok k =>
        let t := ravel out.dims (pos.set axis k)
        let old := acc.1.get (prior.getD t .zero) t
        let v := vs.getD i .zero
        let w := if add then (old.add v).toF32 else v
        let l := if add && w.isNan && !old.isNan && !v.isNan
          then addCode acc.2 { code := Code.invalidOperand, index := some t } else acc.2
        (Tab.insert t w (Tab.erase acc.1 t), l)) ([], [])
    { results := some (prior.zipIdx.map fun p => { val := fed.1.get p.1 p.2 }), codes := fed.2 }

/-! ### Layout (R245) -/

/-- The input's linear index that feeds an output position (R245). -/
def layoutSource (o : OpRec) (din dout : List Nat) (i : Nat) : Nat :=
  if o.opcode = 0x0400 then i
  else
    let pos := unravel dout i
    if o.opcode = 0x0401 then
      -- output axis k is input axis perm[k]
      let perm := (List.range dout.length).map fun k => bitsOf (o.w 4) (4 * k) 4
      ravel din ((List.range din.length).map fun a => pos.getD (perm.idxOf a) 0)
    else
      let axis := o.f 4 0 3
      ravel din (pos.set axis (o.w 5 + o.w 6 * pos.getD axis 0))

/-- Patterns and fine codes that a layout operation may copy unchanged (R245): the formats, block axes and block boundaries match
for every block.  A NaN is copied in its canonical pattern and a zero without its sign (R90, R113). -/
def layoutRaw (x : TensorVal) (d : TensorDecl) (src : List Nat) : Option TensorVal :=
  if x.format ≠ d.format || (Fmt.isScaled d.format && x.blockAxis != d.blockAxis) then none
  else
    let ps := src.map fun s => Fmt.canonical d.format (x.patterns.getD s 0)
    if !Fmt.isScaled d.format then
      some { format := d.format, dims := d.dims, blockAxis := d.blockAxis, patterns := ps, coarse := x.coarse
             expMax := expMaxOf d.format ps }
    else
      let blocks := (List.range (blockCount d.format d.dims d.blockAxis)).map fun b =>
        let ins := (blockElems d.dims d.blockAxis b).map fun i => src.getD i 0
        let k := blockOf x.dims x.blockAxis (ins.headD 0)
        (k, ins == blockElems x.dims x.blockAxis k)
      if blocks.all (·.2) then
        some { format := d.format, dims := d.dims, blockAxis := d.blockAxis, patterns := ps, coarse := x.coarse
               fines := blocks.map fun b => x.fines.getD b.1 0 }
      else none

/-- t.reshape, t.transpose and t.slice (R245). -/
def evalLayout (e : OpEnv) (o : OpRec) : OpOut :=
  let t := o.tensorAt 3
  if !e.scalesValid [t] then OpOut.scaleInvalid
  else
    let x := e.tensor t
    let d := e.decl o.out
    let src := (List.range (countOf d.dims)).map (layoutSource o x.dims d.dims)
    let vs := x.exact
    { results := some (src.map fun s => { val := vs.getD s .zero }), raw := layoutRaw x d src }

/-! ### Scale operations (R246) -/

/-- s.requant and n.round: the conversion of R116 from the exact input (R246, R247). -/
def evalRequant (e : OpEnv) (o : OpRec) : OpOut :=
  let t := o.tensorAt 3
  if !e.scalesValid [t] then OpOut.scaleInvalid
  else { results := some ((e.tensor t).exact.map fun v => { val := v }) }

/-- s.setscale (R246). -/
def evalSetscale (e : OpEnv) (o : OpRec) : OpOut :=
  let v := (e.read (o.operand 3) [1] true).getD 0 .zero
  let c := BitVec.ofNat 32 (f32Bits v)
  if !e.scalesValid [o.out] || !coarseValid c then OpOut.scaleInvalid
  else { results := some ((e.tensor o.out).exact.map fun v => { val := v }), coarse := some ((e.decl o.out).scaleFor c) }

/-- s.getscale (R246): the coarse scale as it stands. -/
def evalGetscale (e : OpEnv) (o : OpRec) : OpOut := { slot := some (.f32 (e.tensor (o.tensorAt 3)).coarse) }

/-- s.reset (R246): acts at the step's commit. -/
def evalReset (_e : OpEnv) (o : OpRec) : OpOut := { reset := some (o.tensorAt 3) }

/-! ### Draws (R247) -/

/-- floor(p × 2^32) for a probability clamped to [0, 1], NaN taken as 0 (R247). -/
def bernoulliLimit (p : Val) : Nat :=
  match p with
  | .nan => 0
  | .inf n => if n then 0 else 4294967296
  | .fin x =>
    if x.isNeg then 0 else if (Frac.ofNat 1).le x then 4294967296 else x.num.natAbs * 4294967296 / x.den

/-- n.draw (R247). -/
def evalDraw (e : OpEnv) (o : OpRec) : OpOut :=
  let dims := (e.decl o.out).dims
  let bern := o.f 3 0 1 == 1
  let p := o.operand 4
  if bern && !e.scalesValid (operandTensors [p]) then OpOut.scaleInvalid
  else
    let ps := if bern then e.read p dims true else []
    { results := some ((List.range (countOf dims)).map fun i =>
        let y := e.draw32 o i
        { val := if bern then (if y < bernoulliLimit (ps.getD i .zero) then Val.one else .zero)
                 else .fin { num := ((2 * (y / 512) + 1 : Nat) : Int), den := 16777216 } })
      nearest := true }

/-- m.prefetch and m.release change no value (R249). -/
def evalIntent (_e : OpEnv) (_o : OpRec) : OpOut := {}

/-! ### Collectives (R250 to R252) -/

/-- The input of every rank in rank order: this rank's own value, and the others' as delivered. -/
def rankValues (own : TensorVal) (rank n : Nat) (ins : List RankInput) : Option (List TensorVal) :=
  (List.range n).mapM fun r =>
    if r = rank then some own
    else (ins.find? (·.rank == r)).map fun i => { own with patterns := i.elems, fines := i.fines, coarse := i.coarse }

/-- The reduction tree of the rounded form (R250). -/
def reduceTree : Nat → Nat → List Val → List Val
  | 0, _, l => l
  | fuel + 1, lvl, l =>
    reduceTree fuel (lvl + 1) (l.zipIdx.map fun p =>
      if p.2 % 2 ^ (lvl + 1) = 0 && p.2 + 2 ^ lvl < l.length then ((p.1.add (l.getD (p.2 + 2 ^ lvl) .zero)).toF32) else p.1)

/-- One element of f.reduce over the ranks' values (R250): value, INVALID_OPERAND, ACC_INEXACT. -/
def reduceElem (op : Nat) (exact : Bool) (vs : List Val) : Val × Bool × Bool :=
  match op with
  | 0 =>
    if exact then
      let a := blockMax vs
      let anchor := (if a.isZero then -149 else a.log2Floor) - 214
      let nan := vs.any Val.isNan
      let pos := vs.any fun v => v == .inf false
      let neg := vs.any fun v => v == .inf true
      let terms := vs.map fun v => truncUnits v.frac anchor
      let sum := terms.foldl (fun s t => s + t.1) 0
      let lost := terms.any (·.2)
      if nan then (.nan, false, lost)
      else if pos && neg then (.nan, true, lost)
      else if pos then (.inf false, false, lost)
      else if neg then (.inf true, false, lost)
      else (.fin ((Frac.ofInt sum).mul (Frac.pow2 anchor)), false, lost)
    else
      let v := (reduceTree 10 0 (vs.map Val.toF32)).getD 0 .zero
      (v, v.isNan && !vs.any Val.isNan, false)
  | 1 => ((vs.drop 1).foldl laneMax (vs.getD 0 .zero), false, false)
  | _ => ((vs.drop 1).foldl laneMin (vs.getD 0 .zero), false, false)

/-- A collective that fails leaves its output and skips its dependents (R252). -/
def OpOut.collFail (code : Nat) (origin : Option Nat := none) : OpOut :=
  { skip := true, codes := { code := code } :: (match origin with
      | some a => [{ code := Code.integrityAlarm, index := some a }]
      | none => []) }

/-- f.reduce (R250). -/
def evalFReduce (e : OpEnv) (o : OpRec) (rank n : Nat) (r : CollResult) : OpOut :=
  let t := o.tensorAt 4
  if !e.scalesValid [t] then OpOut.scaleInvalid
  else match r with
  | .failed c a => OpOut.collFail c a
  | .delivered ins =>
    match rankValues (e.tensor t) rank n ins with
    | none => OpOut.collFail Code.peerLost
    | some xs =>
      let cols := xs.map TensorVal.exact
      let cells := (List.range (countOf (e.decl o.out).dims)).map fun i =>
        reduceElem (o.f 3 0 2) (o.f 3 4 1 == 1) (cols.map fun c => c.getD i .zero)
      { results := some (cells.map fun c => { val := c.1 })
        codes := cells.zipIdx.foldl (fun l c =>
          let l := if c.1.2.1 then addCode l { code := Code.invalidOperand, index := some c.2 } else l
          if c.1.2.2 then addCode l { code := Code.accInexact, index := some c.2 } else l) [] }

/-- f.gather (R251). -/
def evalFGather (e : OpEnv) (o : OpRec) (rank n : Nat) (r : CollResult) : OpOut :=
  let t := o.tensorAt 4
  let axis := o.f 3 0 3
  if !e.scalesValid [t] then OpOut.scaleInvalid
  else match r with
  | .failed c a => OpOut.collFail c a
  | .delivered ins =>
    let own := e.tensor t
    match rankValues own rank n ins with
    | none => OpOut.collFail Code.peerLost
    | some xs =>
      let vals := xs.map TensorVal.exact
      let dims := (e.decl o.out).dims
      let ext := own.dims.getD axis 1
      { results := some ((List.range (countOf dims)).map fun i =>
          let pos := unravel dims i
          let k := pos.getD axis 0
          { val := (vals.getD (k / ext) []).getD (ravel own.dims (pos.set axis (k % ext))) .zero }) }

/-- f.alltoall (R251): chunk `rank` of every rank. -/
def evalFAlltoall (e : OpEnv) (o : OpRec) (rank n : Nat) (r : CollResult) : OpOut :=
  let t := o.tensorAt 4
  let axis := o.f 3 0 3
  if !e.scalesValid [t] then OpOut.scaleInvalid
  else match r with
  | .failed c a => OpOut.collFail c a
  | .delivered ins =>
    let own := e.tensor t
    match rankValues own rank n ins with
    | none => OpOut.collFail Code.peerLost
    | some xs =>
      let vals := xs.map TensorVal.exact
      let dims := (e.decl o.out).dims
      let part := own.dims.getD axis 1 / n
      { results := some ((List.range (countOf dims)).map fun i =>
          let pos := unravel dims i
          let k := pos.getD axis 0
          { val := (vals.getD (k / part) []).getD (ravel own.dims (pos.set axis (rank * part + k % part))) .zero }) }

/-- f.send (R251): its input is read and delivered; it writes nothing here. -/
def evalFSend (e : OpEnv) (o : OpRec) (r : CollResult) : OpOut :=
  if !e.scalesValid (operandTensors [o.operand 5]) then OpOut.scaleInvalid
  else match r with
  | .failed c a => OpOut.collFail c a
  | .delivered _ => {}

/-- f.recv (R251): the input of the send on rank (r + delta) mod n, whose delta is n − delta. -/
def evalFRecv (e : OpEnv) (o : OpRec) (rank n : Nat) (r : CollResult) : OpOut :=
  match r with
  | .failed c a => OpOut.collFail c a
  | .delivered ins =>
    let d := e.decl o.out
    match ins.find? (·.rank == (rank + o.w 4) % n) with
    | none => OpOut.collFail Code.peerLost
    | some i =>
      let send := e.stepOps.find? fun q => q.opcode == 0x0803 && q.f 3 8 8 == o.f 3 8 8 && q.f 3 16 16 == o.f 3 16 16 &&
        q.w 4 + o.w 4 == n
      let src := match send with
        | some q => e.decl (q.tensorAt 5)
        | none => d
      let x : TensorVal := { TensorVal.zero src i.coarse with patterns := i.elems, fines := i.fines }
      { results := some (x.exact.map fun v => { val := v }) }

end Sys2Proof.Machine
end

