-- ==== Sys2Proof/Machine/Poison.lean ====
section
/-! DEFINITION. Poisoned and unusable granules as readers meet them (R380 to R384, R428). -/

namespace Sys2Proof.Machine

/-- Bad granules under bytes [o, o+n) of a stored form: the granule, and its first byte's offset in the form; of a frame whose
accesses are refused (R419), the first granule read. -/
def Dev.badIn (d : Dev) (p : Placed) (o n : Nat) : List (Nat × Nat) :=
  (List.range (ceilDiv (o + n) frameBytes)).flatMap fun i =>
    match d.pageFrame p i with
    | none => []
    | some f =>
      let lo := max o (frameBytes * i)
      if d.frameRefused f then (if lo < min (o + n) (frameBytes * (i + 1)) then [(16384 * f + lo % frameBytes / 128, lo)] else [])
      else d.badLines.filterMap fun b =>
      let off := frameBytes * i + 128 * (b.1 % 16384)
      if b.1 / 16384 = f && off < o + n && o < off + 128 then some (b.1, off) else none

/-- The linear index of the first element at a byte offset of a stored form (R381). -/
def TensorDecl.elemAt (t : TensorDecl) (off : Nat) : Option Nat :=
  let i := off * 8 / Fmt.width t.format
  if i < countOf t.dims then some i else none

/-- The first element of a run's tensors in a granule, with its tensor (R381). -/
def Dev.elementIn (d : Dev) (r : Run) (g : Nat) : Option (Nat × Option Nat) :=
  let p := d.plan r.plan
  (List.range p.tensors.length).findSome? fun t =>
    let x := p.tensors.getD t {}
    let decl := p.module.tensor t
    ((List.range (ceilDiv decl.storedBytes frameBytes)).find? fun i => d.pageFrame x i == some (g / 16384)).bind fun i =>
      let off := frameBytes * i + 128 * (g % 16384)
      if off < decl.storedBytes then some (t, decl.elemAt off) else none

/-- Every byte of a granule stands in an overlay. -/
def ovlCovers (o : List Host.Cell) (g : Nat) : Bool :=
  128 ≤ (((o.filter fun c => c.1 / 128 == g).map Prod.fst).eraseDups).length

/-- What the reads of operations of a run meet: operation, granule, element index. -/
def Dev.badReads (d : Dev) (r : Run) (ks : List Nat) : List (Nat × Nat × Option Nat) :=
  if d.badLines.isEmpty && d.regions.all (fun g => !d.idRefused g.2.key) then []
  else
    let p := d.plan r.plan
    let ovl := d.runOverlay r
    let ops := p.module.stepOps r.step
    ks.flatMap fun k =>
      match ops[k]? with
      | none => []
      | some o => o.reads.flatMap fun t =>
        let decl := p.module.tensor t
        ((d.badIn (p.tensors.getD t {}) 0 decl.storedBytes).filter fun b => !ovlCovers ovl b.1).map fun b =>
          (k, b.1, decl.elemAt b.2)

/-- A read of the granule by this run is held for a repair (R382, R384). -/
def Dev.readHeld (d : Dev) (run g : Nat) : Bool :=
  !d.frameRefused (g / 16384) && d.frameReadOnly (g / 16384) && ((d.badLine g).holding || !(d.badLine g).runs.contains run)

/-- The code a read that is not held fails with (R381, R384, R419, R426, R428). -/
def Dev.badCode (d : Dev) (g : Nat) : Nat :=
  if d.frameRefused (g / 16384) then 0x0506 else if d.frameReadOnly (g / 16384) then 0x0504 else (d.badLine g).code

/-- A run's read of a granule joins those held (R384). -/
def Dev.holdRead (d : Dev) (run g : Nat) : Dev :=
  d.modBadLine g fun x => { x with holding := true, runs := if x.runs.contains run then x.runs else x.runs ++ [run] }

/-- A context's read by a command joins those held. -/
def Dev.holdCtxRead (d : Dev) (c g : Nat) : Dev :=
  d.modBadLine g fun x => { x with holding := true, ctxs := if x.ctxs.contains c then x.ctxs else x.ctxs ++ [c] }

/-- A run has read a granule that failed: it will be withheld at the ebb at which it would commit, and its completion names
the granule's first element, once (R381, R384). -/
def Run.failRead (r : Run) (code : Nat) (index : Option Nat) : Run :=
  { r with withhold := some (r.withhold.getD code)
           codes := if r.codes.any fun e => e.code == code && e.index == index then r.codes
                    else r.codes ++ [{ code := code, step := r.step, index := index }] }

/-- Operations whose staging waits, with the extents that are not yet readable (R442, R448). -/
def Dev.lateExtents (d : Dev) (r : Run) (ks : List Nat) : List (Nat × Nat) :=
  let p := d.plan r.plan
  let ops := p.module.stepOps r.step
  ks.flatMap fun k =>
    match ops[k]? with
    | none => []
    | some o => o.reads.flatMap fun t =>
      (((p.tensors.getD t {}).extents).filter fun e =>
        let x := d.extent e
        !x.state.readable && x.state != .empty).map fun e => (k, e)

end Sys2Proof.Machine
end

