-- ==== Sys2Proof/Machine/VectorEval.lean ====
section
/-! DEFINITION. The vector units' operations (R180 to R203, R241, R242): element-wise functions, reductions, summaries and
scans. -/

namespace Sys2Proof.Machine

/-! ### Element-wise (R241) -/

/-- The values of a v.ew's operand (R181, R188, R236): lanes in float mode, exact in integer mode; copy is the cast of R116, from
the exact input, its scalars read as FP32. -/
def OpEnv.readFn (e : OpEnv) (fn : Nat) (x : Operand) (dims : List Nat) : List Val :=
  e.read x dims (decide (fn < 0x20) && (fn != 0x12 || match x with
    | .tensor _ => false
    | _ => true))

/-- The operands of a v.ew, after its function word (R238). -/
def ewOperands (o : OpRec) : List Operand := operandsAt o.words (fnArity (o.f 3 0 8)) 1

/-- One lane of a v.ew: its result, and the code it raises (R112, R182, R188, R193). -/
def ewLane (fn pred : Nat) (wrap : Bool) (i : Nat) (xs : List Val) : Val × Option OpCode :=
  if fn ≥ 0x20 then
    match xs.map Val.toInt32 with
    | [some a] =>
      match intFn fn wrap a 0 with
      | .ok v => (.ofInt v, none)
      | .error c => (.zero, some { code := Code.laneFault, index := some i, cause := some c })
    | [some a, some b] =>
      match intFn fn wrap a b with
      | .ok v => (.ofInt v, none)
      | .error c => (.zero, some { code := Code.laneFault, index := some i, cause := some c })
    | _ => (.zero, some { code := Code.laneFault, index := some i, cause := some 1 })
  else if fn = 0x12 then (xs.getD 0 .zero, none)
  else
    let v := (floatFn fn pred xs).toF32
    (v, if v.isNan && !xs.any Val.isNan then some { code := Code.invalidOperand, index := some i } else none)

/-- v.ew (R241): every element of the output's shape. -/
def evalEw (e : OpEnv) (o : OpRec) : OpOut :=
  let fn := o.f 3 0 8
  let ops := ewOperands o
  if !e.scalesValid (operandTensors ops ++ o.maskReads ++ o.mergeReads) then OpOut.scaleInvalid
  else
    let dims := (e.decl o.out).dims
    let act := e.active o dims
    let args := ops.map fun x => e.readFn fn x dims
    let lanes := (List.range (countOf dims)).map fun i =>
      if act.getD i false then ewLane fn (o.f 3 8 3) o.convFields.wrap i (args.map fun a => a.getD i .zero)
      else (.zero, none)
    { results := some (e.masked o act (lanes.map fun r => { val := r.1 }))
      codes := lanes.foldl (fun l r => match r.2 with
        | some c => addCode l c
        | none => l) [] }

/-! ### Lines and prefixes -/

/-- The identity of an operation (R198): 0 add, 1 max, 2 min, 3 and, 4 or, 5 xor. -/
def opIdentity (op : Nat) : Val :=
  match op with
  | 1 => .inf true
  | 2 => .inf false
  | 3 => .ofInt (-1)
  | _ => .zero

/-- One FP32 addition (R200). -/
def laneAdd (a b : Val) : Val := (a.add b).toF32

/-- A step of max, min, and, or or xor on a carry; an integer operation skips a value that is no INT32 (R194). -/
def exactStep (op : Nat) (a b : Val) : Val :=
  match op with
  | 1 => laneMax a b
  | 2 => laneMin a b
  | _ =>
    match a.toInt32, b.toInt32 with
    | some x, some y =>
      .ofInt (bits32 (if op = 3 then Nat.land else if op = 4 then Nat.lor else Nat.xor) x y)
    | _, _ => a

/-- a + b on pairs of a segment start and a value (R200). -/
def pairAdd (a b : Bool × Val) : Bool × Val := if b.1 then b else (a.1, laneAdd a.2 b.2)

/-- One level of a chunk (R200): every position at or past `d` adds the position `d` before it. -/
def scanLevel (d : Nat) (l : List (Bool × Val)) : List (Bool × Val) :=
  l.zipIdx.map fun p => if d ≤ p.2 then pairAdd (l.getD (p.2 - d) (false, .zero)) p.1 else p.1

/-- The nine levels of one chunk (R200). -/
def scanChunk (l : List (Bool × Val)) : List (Bool × Val) :=
  (List.range 9).foldl (fun l k => scanLevel (2 ^ k) l) l

/-- Chunks of 512 (R200). -/
def chunks512 (l : List (Bool × Val)) : List (List (Bool × Val)) :=
  (List.range (ceilDiv l.length 512)).map fun i => (l.drop (512 * i)).take 512

/-- The rounded add scan (R200), in as many levels as its length needs. -/
def roundedScan : Nat → List (Bool × Val) → List (Bool × Val)
  | 0, l => l
  | fuel + 1, l =>
    let cs := (chunks512 l).map scanChunk
    if l.length ≤ 512 then cs.flatten
    else
      let u := roundedScan fuel (cs.map fun c => c.getLastD (false, .zero))
      (cs.zipIdx.map fun c => if c.2 = 0 then c.1 else c.1.map (pairAdd (u.getD (c.2 - 1) (false, .zero)))).flatten

/-- The exact prefixes' state (R202, R203): sum, flags, whether truncation lost bits. -/
structure ExactSum where
  sum  : Frac := { num := 0 }
  nan  : Bool := false
  pos  : Bool := false
  neg  : Bool := false
  lost : Bool := false
  deriving DecidableEq, Repr

def ExactSum.add (s : ExactSum) (anchor : Option Int) (v : Val) : ExactSum :=
  match v with
  | .nan => { s with nan := true }
  | .inf n => if n then { s with neg := true } else { s with pos := true }
  | .fin x =>
    match anchor with
    | none => { s with sum := s.sum.add x }
    | some a =>
      let (t, lost) := truncUnits x a
      { s with sum := s.sum.add ((Frac.ofInt t).mul (Frac.pow2 a)), lost := s.lost || lost }

/-- The value of an exact sum by the flag rule of R148, and whether a NaN came from both infinities. -/
def ExactSum.result (s : ExactSum) : Val × Bool :=
  if s.nan then (.nan, false)
  else if s.pos && s.neg then (.nan, true)
  else if s.pos then (.inf false, false)
  else if s.neg then (.inf true, false)
  else (.fin s.sum, false)

/-- The anchor of an exact sum over values (R203): none for a block-scaled input, whose window loses nothing. -/
def exactAnchor (format : Nat) (vals : List Val) : Option Int :=
  if Fmt.isScaled format then none
  else
    let a := blockMax vals
    some ((if a.isZero then -149 else a.log2Floor) - 214)

/-- One position of a line: its linear index, value, whether active, and whether a segment starts there. -/
structure LinePos where
  index  : Nat
  val    : Val
  active : Bool
  start  : Bool
  deriving DecidableEq, Repr

/-- One prefix: value, and the codes the element that carries it raises. -/
structure Prefix where
  val   : Val
  codes : List Nat := []
  /-- An active element has entered it. -/
  fed   : Bool := false
  /-- This position itself faulted (R194). -/
  bad   : Bool := false
  deriving DecidableEq, Repr

/-- Inclusive exact prefixes of a line (R202). -/
def exactPrefixes (anchor : Option Int) : ExactSum → List LinePos → List Prefix
  | _, [] => []
  | s, p :: t =>
    let s := if p.start then {} else s
    let s := if p.active then s.add anchor p.val else s
    let (v, both) := s.result
    { val := v, fed := true
      codes := (if both then [Code.invalidOperand] else []) ++ (if s.lost then [Code.accInexact] else []) } ::
      exactPrefixes anchor s t

/-- Inclusive prefixes of max, min, and, or and xor (R200). -/
def orderPrefixes (op : Nat) : Val → Bool → List LinePos → List Prefix
  | _, _, [] => []
  | carry, fed, p :: t =>
    let carry := if p.start then opIdentity op else carry
    let fed := (if p.start then false else fed) || p.active
    let bad := p.active && decide (op ≥ 3) && p.val.toInt32.isNone
    let carry := if p.active then exactStep op carry p.val else carry
    { val := carry, fed := fed, bad := bad } :: orderPrefixes op carry fed t

/-- Whether a NaN has entered each position's segment so far (R112). -/
def nanSoFar : Bool → List LinePos → List Bool
  | _, [] => []
  | seen, p :: t =>
    let seen := (if p.start then false else seen) || (p.active && p.val.isNan)
    seen :: nanSoFar seen t

/-- Inclusive prefixes of a line. -/
def linePrefixes (op : Nat) (exact : Bool) (format : Nat) (l : List LinePos) : List Prefix :=
  if op = 0 then
    if exact then exactPrefixes (exactAnchor format ((l.filter (·.active)).map (·.val))) {} l
    else
      let ys := roundedScan l.length (l.map fun p => (p.start, if p.active then p.val else .zero))
      (ys.zip (nanSoFar false l)).map fun y =>
        { val := y.1.2, fed := true, codes := if y.1.2.isNan && !y.2 then [Code.invalidOperand] else [] }
  else orderPrefixes op (opIdentity op) false l

/-- The written form of an identity (R195, R198): an infinity a format lacks is marked so. -/
def identityResult (op format : Nat) : Result :=
  match opIdentity op with
  | .inf n => { val := .inf n, identity := Fmt.group format != .a }
  | v => { val := v }

/-- The lines of a shape along an axis, as linear indices. -/
def linesOf (dims : List Nat) (axis : Nat) : List (List Nat) :=
  let rest := dims.eraseIdx axis
  (List.range (countOf rest)).map fun r =>
    (List.range (dims.getD axis 1)).map fun k => ravel dims ((unravel rest r).insertIdx axis k)

/-- The values a reduction or scan reads (R181, R188, R203). -/
def scanValues (x : TensorVal) (op : Nat) (exact : Bool) : List Val :=
  if op ≥ 3 || (exact && Fmt.isScaled x.format) then x.exact else x.lanes

/-- The codes of a line's prefixes at the output elements that carry them. -/
def addPrefixCodes (l : List OpCode) (ps : List (Prefix × Option Nat)) : List OpCode :=
  ps.foldl (fun l p => match p.2 with
    | none => l
    | some i => p.1.codes.foldl (fun l c => addCode l { code := c, index := some i }) l) l

/-- Lane faults of an integer line (R193, R194). -/
def addBadCodes (l : List OpCode) (ps : List (Prefix × Nat)) : List OpCode :=
  ps.foldl (fun l p => if p.1.bad then addCode l { code := Code.laneFault, index := some p.2, cause := some 1 } else l) l

/-- v.reduce (R195). -/
def evalReduce (e : OpEnv) (o : OpRec) : OpOut :=
  let op := o.f 3 0 3
  let axis := o.f 3 4 3
  let exact := o.f 3 8 1 == 1
  let t := o.tensorAt 4
  if !e.scalesValid (t :: o.maskReads) then OpOut.scaleInvalid
  else
    let x := e.tensor t
    let act := e.active o x.dims
    let vs := scanValues x op exact
    let outFormat := (e.decl o.out).format
    let lines := (linesOf x.dims axis).zipIdx.map fun ln =>
      let ps := ln.1.zipIdx.map fun i =>
        ({ index := i.1, val := vs.getD i.1 .zero, active := act.getD i.1 false, start := i.2 == 0 } : LinePos)
      let pre := linePrefixes op exact x.format ps
      let last := pre.getLastD { val := opIdentity op }
      let r : Result := if ps.any (·.active) then { val := last.val } else identityResult op outFormat
      (r, addBadCodes (addPrefixCodes [] [(last, some ln.2)]) (pre.zip ln.1))
    { results := some (lines.map (·.1))
      codes := lines.foldl (fun l r => r.2.foldl addCode l) [] }

/-- The segmentation of a v.segscan (R199, R242): starts by linear index of the input, or the fault. -/
def segStarts (e : OpEnv) (o : OpRec) (dims : List Nat) (axis : Nat) : Except OpCode (List Bool) :=
  let seg := o.tensorAt 5
  if o.f 3 10 1 = 0 then
    .ok ((e.read (.tensor seg) dims false).map Val.nonzero)
  else
    let lens := (e.tensor seg).exact
    match lens.zipIdx.find? fun p => match p.1.toInt32 with
      | some n => decide (n < 0)
      | none => true with
    | some p =>
      .error { code := Code.laneFault, index := some p.2, cause := some (if p.1.toInt32.isNone then 1 else 4) }
    | none =>
      let ns := lens.map fun v => ((v.toInt32).getD 0).toNat
      if sumNat ns ≠ dims.getD axis 1 then .error { code := Code.segmentMismatch }
      else
        let firsts := (ns.foldl (fun (acc : Nat × List Nat) n =>
          (acc.1 + n, if n = 0 then acc.2 else acc.2 ++ [acc.1])) (0, [])).2
        .ok ((List.range (countOf dims)).map fun i => firsts.contains ((unravel dims i).getD axis 0))

/-- v.scan and v.segscan over a segmentation (R198 to R203). -/
def evalScanWith (e : OpEnv) (o : OpRec) (starts : List Bool) : OpOut :=
  let op := o.f 3 0 3
  let axis := o.f 3 4 3
  let exact := o.f 3 8 1 == 1
  let excl := o.f 3 9 1 == 1
  let x := e.tensor (o.tensorAt 4)
  let act := e.active o x.dims
  let vs := scanValues x op exact
  let ident := identityResult op (e.decl o.out).format
  let lines := (linesOf x.dims axis).map fun ln =>
    let ps := ln.zipIdx.map fun i =>
      ({ index := i.1, val := vs.getD i.1 .zero, active := act.getD i.1 false
         start := i.2 == 0 || starts.getD i.1 false } : LinePos)
    let pre := linePrefixes op exact x.format ps
    let carried := (pre.zip ps).zipIdx
    -- the prefix each position writes: its own, or the one before it in its segment (R200)
    let outs := carried.map fun c =>
      if !excl then (c.1.2.index, some c.1.1)
      else if c.1.2.start then (c.1.2.index, none)
      else match pre[c.2 - 1]? with
      | some q => (c.1.2.index, if q.fed then some q else none)
      | none => (c.1.2.index, none)
    let res := (outs.zip carried).map fun p =>
      if p.2.1.1.bad then (p.1.1, ({ val := .zero } : Result))
      else match p.1.2 with
      | some q => (p.1.1, { val := q.val })
      | none => (p.1.1, ident)
    let coded := (outs.zip ps).filterMap fun p =>
      match p.1.2 with
      | some q => some (q, if p.2.active then some p.1.1 else none)
      | none => none
    (res, addBadCodes (addPrefixCodes [] coded) (pre.zip ln))
  let cells : Tab Result := (lines.flatMap (·.1)).foldl (fun t r => Tab.insert r.1 r.2 t) []
  { results := some (e.masked o act (cells.map Prod.snd))
    codes := lines.foldl (fun l r => r.2.foldl addCode l) [] }

/-- v.scan (R198, R200, R202). -/
def evalScan (e : OpEnv) (o : OpRec) : OpOut :=
  if !e.scalesValid (o.tensorAt 4 :: o.maskReads ++ o.mergeReads) then OpOut.scaleInvalid
  else evalScanWith e o []

/-- v.segscan (R199). -/
def evalSegscan (e : OpEnv) (o : OpRec) : OpOut :=
  if !e.scalesValid (o.tensorAt 4 :: o.tensorAt 5 :: o.maskReads ++ o.mergeReads) then OpOut.scaleInvalid
  else match segStarts e o (e.tensor (o.tensorAt 4)).dims (o.f 3 4 3) with
  | .error c => { codes := [c] }
  | .ok starts => evalScanWith e o starts

/-- v.summary (R196): its scalar. -/
def evalSummary (e : OpEnv) (o : OpRec) : OpOut :=
  let t := o.tensorAt 4
  if !e.scalesValid (t :: o.maskReads) then OpOut.scaleInvalid
  else
    let x := e.tensor t
    let act := e.active o x.dims
    let items (vs : List Val) := (vs.zipIdx).filter fun p => act.getD p.2 false
    let f32 (v : Val) : Option Scalar := some (.f32 (BitVec.ofNat 32 (f32Bits v)))
    match o.f 3 0 3 with
    | 5 => { slot := f32 ((items x.lanes).foldl (fun a p => laneMin a p.1) (.inf false)) }
    | 6 => { slot := f32 ((items x.lanes).foldl (fun a p => laneMax a p.1) (.inf true)) }
    | 7 =>
      let it := items (scanValues x 0 true)
      let anchor := exactAnchor x.format (it.map (·.1))
      let r := it.foldl (fun (acc : ExactSum × List OpCode) p =>
        let s := acc.1.add anchor p.1
        let l := if s.lost && !acc.1.lost then addCode acc.2 { code := Code.accInexact, index := some p.2 } else acc.2
        (s, if s.result.2 && !acc.1.result.2 then addCode l { code := Code.invalidOperand, index := some p.2 } else l))
        ({}, [])
      -- INVALID_OPERAND is for a sum with no NaN input (R112, R148)
      { slot := f32 r.1.result.1, codes := if r.1.nan then r.2.filter fun c => c.code != Code.invalidOperand else r.2 }
    | k =>
      let nz := ((items x.lanes).filter fun p => p.1.nonzero).map (·.2)
      let n : Int := match k with
        | 0 => if nz.isEmpty then 0 else 1
        | 1 => if nz.length = (items x.lanes).length then 1 else 0
        | 2 => (nz.length : Int)
        | 3 => match nz.head? with
          | some i => (i : Int)
          | none => -1
        | _ => match nz.getLast? with
          | some i => (i : Int)
          | none => -1
      { slot := some (.i32 n) }

end Sys2Proof.Machine
end

