-- ==== Sys2Proof/Machine/StepOps.lean ====
section
/-! DEFINITION. Running the operations of a step (R213, R214): an operation's results into its output under the scale
policy of the tensor (R154 to R169), skipping (R145), bounded control (R206 to R208), and the codes a step collects. -/

namespace Sys2Proof.Machine

/-- A step's operations under way: the run, the collective results still to be taken by nested operations, the operations that
have run, and the inputs of the collectives among them. -/
structure Exec where
  run  : Run
  coll : List CollResult := []
  ran  : List Nat := []
  sent : List (Nat × TensorVal) := []

/-- What the operations of one row share: the step's records, what each depends on, and the timing of R657. -/
structure StepCtx where
  ops     : List OpRec
  closure : List (List Nat)
  sched   : Sched := {}

/-- What operation records of a run see. -/
def Dev.envOf (d : Dev) (r : Run) : OpEnv :=
  let p := d.plan r.plan
  { module := p.module, tensor := d.tensorIn r, slots := r.slots, regions := r.regions, position := r.position
    keys := p.keys, stepOps := p.module.stepOps r.step }

/-! ### Codes -/

/-- The entries of one raised code (R194, R315): a lane fault is a pair. -/
def OpCode.entries (c : OpCode) (op step : Nat) : List CodeEntry :=
  let e : CodeEntry := { code := c.code, op := op, step := step, index := c.index }
  match c.cause with
  | some k => [e, { e with index := some k }]
  | none => [e]

/-- A code is delivered once for an operation (R112, R149, R194). -/
def Run.raise (r : Run) (op : Nat) (c : OpCode) : Run :=
  if r.codes.any fun e => e.code == c.code && e.op == op then r
  else { r with codes := r.codes ++ c.entries op r.step }

def Run.raiseAll (r : Run) (op : Nat) (cs : List OpCode) : Run := cs.foldl (fun r c => r.raise op c) r

/-- An operation has ended. -/
def Run.end (r : Run) (op : Nat) : Run := { r with done := op :: r.done.filter (· != op) }

/-- An operation was skipped or has faulted; the mark stands for the rest of the step (R145). -/
def Run.mark (r : Run) (op : Nat) : Run := if r.skipped.contains op then r else { r with skipped := op :: r.skipped }

/-! ### Scales and output -/

/-- The amax code that a write records and, in the current form, chooses by: this device's, and every rank's of a
collective (R158, R495). -/
def writeAmax (rs : List Result) (coll : Option CollResult) : Nat :=
  let own := amaxCode (amaxOf rs)
  match coll with
  | some (.delivered ins) => ins.foldl (fun m i => max m i.amax) own
  | _ => own

/-- The coarse scale of a write and whether it ran in the current form (R154, R167, R168, R246, R495). -/
def Dev.writeScale (d : Dev) (r : Run) (t : Nat) (out : OpOut) (coll : Option CollResult) (code : Nat) : W32 × Bool :=
  let m := (d.plan r.plan).module
  let s := m.scaleOf t
  let chosen (codes : List Nat) : W32 := pow2Bits (chooseExp (m.tensor t).format s.margin codes)
  let peer : Option W32 := match coll with
    | some (.delivered ins) => (List.find? (fun (i : RankInput) => i.rank == 0) ins).map RankInput.outCoarse
    | _ => none
  if s.policy = 1 then (chosen [code], true)
  else if s.policy = 0 then
    match r.fixed.find t with
    | some c => (peer.getD c, false)
    | none => (chosen [code], true)
  else (peer.getD (out.coarse.getD (d.coarseIn r t)), false)

/-- A tensor's new value goes into the run's results. -/
def Dev.storeTensor (d : Dev) (r : Run) (t : Nat) (v : TensorVal) : Run :=
  let place := (d.plan r.plan).tensors.getD t {}
  let cells := d.tensorCells place 0 v.stored
  { r with overlay := cells.foldl (fun o c => Ovl.set o c.1 c.2) r.overlay
           coarse := r.coarse.put t v.coarse, expMax := r.expMax.put t v.expMax }

/-- An operation's results are converted and written (R103, R107, R157, R159, R245). -/
def Dev.writeOutput (d : Dev) (r : Run) (k : Nat) (o : OpRec) (out : OpOut) (coll : Option CollResult) (rs : List Result) :
    Run :=
  let t := o.out
  let m := (d.plan r.plan).module
  let decl := m.tensor t
  let code := writeAmax rs coll
  let (c, current) := d.writeScale r t out coll code
  if !coarseValid c then (r.raise k { code := Code.scaleInvalid }).mark k
  else
    let conv := if out.nearest then { o.convFields with mode := 0 } else o.convFields
    let e := d.envOf r
    let (v, badAt) : TensorVal × Option Nat := match out.raw with
      | some x => if x.coarse = c then (x, none)
                  else writeResults decl conv c (fun i => if conv.mode = 2 then e.draw16 o i else 0) rs
      | none => writeResults decl conv c (fun i => if conv.mode = 2 then e.draw16 o i else 0) rs
    let r := d.storeTensor r t v
    let r := match badAt with
      | some i => r.raise k { code := Code.nonfiniteOutput, index := some i }
      | none => r
    let policy := (m.scaleOf t).policy
    { r with amax := if policy ≤ 1 then r.amax.put t (max code ((r.amax.find t).getD 0)) else r.amax
             fixed := if policy = 0 && current then r.fixed.put t c else r.fixed }

/-- An operation has run: its codes, its output, its slot, its region, its draws. -/
def Dev.applyOut (d : Dev) (r : Run) (k : Nat) (o : OpRec) (out : OpOut) (coll : Option CollResult) : Run :=
  let r := r.raiseAll k out.codes
  let r := match out.results with
    | some rs => d.writeOutput r k o out coll rs
    | none => r
  let r := (if out.skip then r.mark k else r).end k
  { r with slots := (match out.slot with
             | some v => r.slots.put o.out v
             | none => r.slots)
           regions := (match out.region with
             | some g => r.regions.put g.1 g.2
             | none => r.regions)
           resets := (match out.reset with
             | some t => if r.resets.contains t then r.resets else t :: r.resets
             | none => r.resets)
           drawn := if o.draws && !r.drawn.contains o.stream then o.stream :: r.drawn else r.drawn
           peer := r.peer || o.isCollective }

/-- A rank of the group runs another module: the collective fails (R230). -/
def checkDigest (c : CollResult) (digest : List Byte) : CollResult :=
  match c with
  | .delivered ins => if ins.any fun i => i.digest.any (· != digest) then .failed Code.fabricAuth else c
  | c => c

/-- The meaning of each operation (R238), for this device's rank in its groups; one that writes a fixed-policy tensor of an invalid
coarse scale writes nothing (R96). -/
def evalOp (p : Plan) (e : OpEnv) (o : OpRec) (k : Nat) (overlap : List Nat) (coll : CollResult) : OpOut :=
  let g := o.f 3 8 8
  let rank := (p.bindings.getD g (0, 0)).2
  let n := p.module.groups.getD g 2
  let coll := checkDigest coll p.module.digest
  if !e.outputValid o.writes then OpOut.scaleInvalid
  else
  match o.opcode with
  | 0x0100 => evalContract e o k overlap
  | 0x0200 => evalEw e o
  | 0x0210 => evalReduce e o
  | 0x0211 => evalScan e o
  | 0x0212 => evalSegscan e o
  | 0x0213 => evalSummary e o
  | 0x0300 => evalGather e o
  | 0x0301 => evalScatter e o
  | 0x0400 | 0x0401 | 0x0402 => evalLayout e o
  | 0x0500 | 0x0601 => evalRequant e o
  | 0x0501 => evalSetscale e o
  | 0x0502 => evalGetscale e o
  | 0x0503 => evalReset e o
  | 0x0600 => evalDraw e o
  | 0x0800 => evalFReduce e o rank n coll
  | 0x0801 => evalFGather e o rank n coll
  | 0x0802 => evalFAlltoall e o rank n coll
  | 0x0803 => evalFSend e o coll
  | 0x0804 => evalFRecv e o rank n coll
  | _ => evalIntent e o

/-- An operation is skipped (R145, R208, R214, R657): it depends on one that was skipped or faulted, on one in a loop before it that
stopped at its bound, or, by the region both name, on one of an earlier trip (`cross`) that was skipped or faulted.  What is
skipped is marked in its turn, so that dependence through other operations runs along the path taken (R255). -/
def isSkipped (ops : List OpRec) (cross : List Nat) (r : Run) (k : Nat) : Bool :=
  match ops[k]? with
  | none => false
  | some o =>
    let on (j : Nat) : Bool := (ops[j]?).any fun q => dependsOn o q j
    (r.skipped.any fun j => decide (j < k) && on j) ||
    (r.bounds.any fun b => decide (b.2 < k) && (List.range (b.2 - b.1)).any fun i => on (b.1 + 1 + i)) ||
    (o.region.isSome && cross.any fun j => (ops[j]?).any fun q => q.region == o.region)

/-- A collective that finds no result takes PEER_LOST (R252). -/
def nextColl : List CollResult → CollResult × List CollResult
  | [] => (.failed Code.peerLost, [])
  | c :: t => (c, t)

/-- While the device is unlocked, every collective fails (R61, R252), and where its group has been closed, with PEER_LOST (R501). -/
def Dev.collNow (d : Dev) (r : Run) (o : OpRec) (c : CollResult) : CollResult :=
  let b := (d.plan r.plan).bindings.getD (o.f 3 8 8) (0, 0)
  let g := d.group (b.1 % 1024)
  if d.tide.unlocked then .failed Code.tideUnlocked
  else if (g.state != .opened && g.state != .closing) || g.generation % 4194304 != b.1 / 1024 then .failed Code.peerLost
  else c

/-- The tensor a collective sends (R251). -/
def OpRec.collInput (o : OpRec) : Nat := if o.opcode = 0x0803 then o.tensorAt 5 else o.tensorAt 4

/-- The operations of an operation's region still in flight when it issues: those the row names, but none that it depends on
(R143, R657). -/
def StepCtx.inFlight (c : StepCtx) (k : Nat) : List Nat :=
  ((c.sched.overlap.filter fun p => p.1 == k).map Prod.snd).filter fun j => !(c.closure.getD k []).contains j

/-- One operation of a step that is no construct: skipped, or run. -/
def Dev.runOne (d : Dev) (c : StepCtx) (cross : List Nat) (x : Exec) (k : Nat) (o : OpRec) : Exec :=
  let r := x.run
  if isSkipped c.ops cross r k then { x with run := (r.mark k).end k }
  else
    let x := { x with ran := x.ran ++ [k] }
    if o.isCollective then
      let (res, rest) := nextColl x.coll
      let out := evalOp (d.plan r.plan) (d.envOf r) o k [] (d.collNow r o res)
      { x with run := d.applyOut { r with issued := if r.issued.contains k then r.issued else r.issued ++ [k] } k o out (some res)
               coll := rest
               sent := if out = OpOut.scaleInvalid || o.opcode = 0x0804 then x.sent else x.sent ++ [(k, d.tensorIn r o.collInput)] }
    else { x with run := d.applyOut r k o (evalOp (d.plan r.plan) (d.envOf r) o k (c.inFlight k) (.failed 0)) none }

/-! ### Bounded control (R206 to R208) -/

/-- A scalar read as an INT32 (R233). -/
def Scalar.int (s : Scalar) : Option Int := s.val.toInt32

/-- A scalar operand's value. -/
def Run.scalar (r : Run) (x : Operand) : Scalar :=
  match x with
  | .slot i => (r.slots.find i).getD (.f32 0)
  | .f32 b => .f32 b
  | .i32 v => .i32 v
  | .tensor _ => .f32 0

/-- The arm a selector runs (R206). -/
def armOf (s : Scalar) (arms : Nat) : Nat :=
  match s.int with
  | some v => if 0 ≤ v && v < (arms : Int) then v.toNat else arms - 1
  | none => arms - 1

/-- Records [i, i+n) count as ended, whether a path takes them or not. -/
def Run.passOver (r : Run) (i n : Nat) : Run :=
  let l := (List.range n).map (i + ·)
  { r with done := l ++ r.done.filter fun k => !l.contains k }

/-- Records [i, i+n) are skipped. -/
def Run.markAll (r : Run) (i n : Nat) : Run := (List.range n).foldl (fun r k => r.mark (i + k)) (r.passOver i n)

/-- A new trip of a body [i, i+n) finds none of its operations in flight (R657). -/
def Run.newTrip (r : Run) (i n : Nat) : Run :=
  { r with regions := r.regions.map fun (g : Nat × Region) =>
      (g.1, { g.2 with inFlight := g.2.inFlight.filter fun p => decide (p.1 < i) || decide (i + n ≤ p.1) }) }

/-- A loop of `n` records after record `i` ends at its bound, or without a trip count: operations after it that depend on its
records are skipped (R207, R208). -/
def Run.stopLoop (r : Run) (i n : Nat) : Run :=
  let r := r.passOver (i + 1) n
  if r.bounds.contains (i, i + n) then r else { r with bounds := r.bounds ++ [(i, i + n)] }

/-- `n` trips of a body. -/
def trips (body : Exec → Exec) : Nat → Exec → Exec
  | 0, x => x
  | n + 1, x => trips body n (body x)

/-- Trips of a conditional loop while the condition slot is non-zero; the answer says whether it still is (R207, R208). -/
def tripsWhile (body : Exec → Exec) (test : Exec → Bool) : Nat → Exec → Exec × Bool
  | 0, x => (x, true)
  | n + 1, x => let y := body x; if test y then tripsWhile body test n y else (y, false)

/-- The operations and constructs that stand directly in records [i, i+n): each with the records in it (R253). -/
def blockItems (ops : List OpRec) : Nat → Nat → Nat → List (Nat × Nat)
  | 0, _, _ => []
  | fuel + 1, i, n =>
    match n, ops[i]? with
    | 0, _ => []
    | _, none => []
    | n + 1, some o =>
      let len := sumNat o.lengths
      (i, len) :: blockItems ops fuel (i + 1 + len) (n - len)

/-- Nothing among the items still to run must come before this one (R213). -/
def itemReady (ops : List OpRec) (items : List (Nat × Nat)) (x : Nat × Nat) : Bool :=
  items.all fun y => decide (x.1 ≤ y.1) ||
    (List.range (x.2 + 1)).all fun a => (List.range (y.2 + 1)).all fun b => !follows ops (y.1 + b) (x.1 + a)

/-- The item that runs next: the first of `order` that may, else the lowest (R657). -/
def nextItem (ops : List OpRec) (order : List Nat) (items : List (Nat × Nat)) : Option (Nat × Nat) :=
  ((order.filterMap fun k => items.find? fun x => x.1 == k).find? (itemReady ops items)).or items.head?

/-- Items of a step, with the arms and trips they take (R213, R253). -/
def Dev.runItems (d : Dev) (c : StepCtx) : Nat → List Nat → List (Nat × Nat) → Exec → Exec
  | 0, _, _, x => x
  | fuel + 1, cross, items, x =>
    match nextItem c.ops c.sched.order items with
    | none => x
    | some (i, len) =>
      let x := match c.ops[i]? with
        | none => x
        | some o =>
          if !(o.isBranch || o.isLoop) then d.runOne c cross x i o
          else if isSkipped c.ops cross x.run i then { x with run := x.run.markAll i (len + 1) }
          else
            let r := x.run.passOver i (len + 1)
            let x := { x with run := r, ran := x.ran ++ [i] }
            if o.isBranch then
              let (sel, arms) := o.branch
              let a := armOf (r.scalar sel) arms.length
              d.runItems c fuel cross (blockItems c.ops (len + 1) (i + 1 + sumNat (arms.take a)) (arms.getD a 0)) x
            else
              let (cond, maxTrips, operand, body) := o.loop
              let once (y : Exec) : Exec :=
                let before := y.run.skipped.filter fun k => decide (i < k) && decide (k ≤ i + body)
                d.runItems c fuel (cross ++ before) (blockItems c.ops (body + 1) (i + 1) body)
                  { y with run := y.run.newTrip (i + 1) body }
              let bound (y : Exec) : Exec := { y with run := (y.run.raise i { code := Code.loopBound }).stopLoop i len }
              if cond then
                let (y, more) := tripsWhile once (fun y => (y.run.scalar operand).val.nonzero) maxTrips x
                if more then bound y else y
              else match (r.scalar operand).int with
              | none =>
                { x with run := (r.raise i { code := Code.laneFault, index := none, cause := some 1 }).stopLoop i len }
              | some v =>
                let y := trips once (min maxTrips v.toNat) x
                if v > (maxTrips : Int) then bound y else y
      d.runItems c fuel cross (items.erase (i, len)) x

/-! ### One operation row (R213, R214) -/

/-- Record `op` with the records in it, and nothing of it must wait for a record before it that has not ended (R213, R214). -/
def stepReady (ops : List OpRec) (r : Run) (op n : Nat) : Bool :=
  (List.range op).all fun j => r.done.contains j || (List.range n).all fun a => !follows ops j (op + a)

/-- The operation may issue now: its step runs, it is the operation the row names, it stands in no construct, it has not
run, and everything that must come before it has. -/
def Dev.canIssue (d : Dev) (run op opcode : Nat) : Option OpRec :=
  match d.runs.find run with
  | none => none
  | some r =>
    if r.state ≠ .running || r.done.contains op then none
    else
      let ops := (d.plan r.plan).module.stepOps r.step
      match ops[op]? with
      | none => none
      | some o =>
        let top := (((nestOf ops).getD op ([], false)).1).isEmpty
        if o.opcode = opcode && top && stepReady ops r op (1 + sumNat o.lengths) then some o else none

/-- Reads that met a failed line are named, and the run's step will be withheld (R381, R384). -/
def Run.failReads (r : Run) (code : Nat → Nat) (l : List (Nat × Nat × Option Nat)) : Run :=
  l.foldl (fun r x => r.failRead (code x.2.1) x.2.2) r

/-- Each stream a run has drawn from records the run's data position as that of its last draw (R176). -/
def Dev.noteDraws (d : Dev) (r : Run) : Dev :=
  if r.drawn.isEmpty then d
  else d.modPlan r.plan fun p => { p with lastDraw := r.drawn.foldl (fun l s => l.put s r.position) p.lastDraw }

/-! ### Collectives on the fabric (R39, R230, R490, R493 to R495) -/

/-- This device's group slot and rank for a collective of a run. -/
def Dev.collGroup (d : Dev) (r : Run) (o : OpRec) : Group × Nat :=
  let b := (d.plan r.plan).bindings.getD (o.f 3 8 8) (0, 0)
  (d.group (b.1 % 1024), b.2)

/-- The ranks a collective sends its input to, and those it takes one from (R251). -/
def Dev.collDests (d : Dev) (r : Run) (o : OpRec) : List Nat :=
  let (x, rank) := d.collGroup r o
  if o.opcode = 0x0803 then [(rank + o.w 4) % x.ranks.length] else if o.opcode = 0x0804 then []
  else (List.range x.ranks.length).filter (· != rank)

def Dev.collSources (d : Dev) (r : Run) (o : OpRec) : List Nat :=
  let (x, rank) := d.collGroup r o
  if o.opcode = 0x0803 then [] else if o.opcode = 0x0804 then [(rank + o.w 4) % x.ranks.length]
  else (List.range x.ranks.length).filter (· != rank)

/-- The 8-byte exact term of a value (R494): its magnitude stands at the top of the 40 bits. -/
def exactTerm (v : Val) : Nat :=
  match v with
  | .nan => 3 * 2 ^ 53
  | .inf n => 2 ^ 52 * boolNat n + (if n then 2 else 1) * 2 ^ 53
  | .fin x =>
    if x.isZero then 0
    else
      let w := x.log2Floor - 39
      (truncUnits x.abs w).1.natAbs % 2 ^ 40 + 2 ^ 40 * (w % 4096).toNat + 2 ^ 52 * boolNat x.isNeg

/-- Operation `k` is the first collective that the steps of a RUN_PLAN issue (R230). -/
def Dev.firstColl (d : Dev) (r : Run) (k : Nat) : Bool :=
  r.issued.all (· == k) && (List.range r.idx).all fun j =>
    !((d.plan r.plan).module.stepOps (r.step - 1 - j)).any OpRec.isCollective

/-- What rank `i` is sent of an input (R251, R493, R494): chunk `i` of an f.reduce, in exact terms for its exact form; chunk `i` of an
f.alltoall; the whole input otherwise. -/
def collPart (o : OpRec) (v : TensorVal) (n i : Nat) : List Nat × List Nat :=
  if o.opcode = 0x0800 then
    let ix := v.chunk n i
    if o.f 3 0 2 = 0 && o.f 3 4 1 = 1 then
      let x := v.exact
      (ix.map fun k => exactTerm (x.getD k .zero), [])
    else v.part ix
  else if o.opcode = 0x0802 then
    let axis := o.f 3 0 3
    let part := v.dims.getD axis 1 / n
    v.part ((List.range (countOf v.dims)).filter fun k => (unravel v.dims k).getD axis 0 / part == i)
  else (v.patterns, v.fines)

/-- Bytes that carry elements of a format, and the fine codes beside them (R494). -/
def wireSize (width elems fines : Nat) : Nat := ceilDiv (elems * width) 8 + fines

/-- An input leaves for rank `i` through the egress gate (R39, R490). -/
def Dev.sendInput (d : Dev) (r : Run) (k : Nat) (o : OpRec) (v : TensorVal) (i : Nat) : Dev :=
  let (x, rank) := d.collGroup r o
  let (elems, fines) := collPart o v x.ranks.length i
  let m : CollMsg :=
    { groupId := x.groupId, step := r.step, op := k, chunk := if o.opcode = 0x0800 then i else 0, elems := elems, fines := fines
      coarse := v.coarse
      outCoarse := if rank = 0 && !o.writes.isEmpty then some ((r.fixed.find o.out).getD (d.coarseIn r o.out)) else none
      digest := if d.firstColl r k then some (d.plan r.plan).module.digest else none
      bytes := wireSize (if o.opcode = 0x0800 && o.f 3 0 2 = 0 && o.f 3 4 1 = 1 then 64 else Fmt.width v.format) elems.length fines.length }
  d.holdEgress r.ctx (.out (.fabric (x.ranks.getD i 0) (.collective m)))

/-- This step takes data for the operation: each rank it takes an input from has its credit (R490). -/
def Dev.grantCredits (d : Dev) (r : Run) (k : Nat) (o : OpRec) : Dev :=
  let x := (d.collGroup r o).1
  d.each (d.collSources r o) fun d i => d.emit (.fabric (x.ranks.getD i 0) (.credit x.groupId r.step k))

/-- A credit that has come for the operation from rank `i` is spent. -/
def Dev.spendCredit (d : Dev) (r : Run) (k : Nat) (o : OpRec) (i : Nat) : Dev :=
  let x := (d.collGroup r o).1
  d.modFabric fun f => { f with credits := f.credits.erase (x.groupId, r.step, k, x.ranks.getD i 0) }

def Dev.hasCredit (d : Dev) (r : Run) (k : Nat) (o : OpRec) (i : Nat) : Bool :=
  let x := (d.collGroup r o).1
  d.fabric.credits.contains (x.groupId, r.step, k, x.ranks.getD i 0)

/-- A step issues a collective (R490): it grants its credits, and its inputs leave for the ranks whose credits have come; the others
wait. -/
def Dev.issueColl (d : Dev) (r : Run) (k : Nat) (o : OpRec) : Dev :=
  let v := d.tensorIn r o.collInput
  let (go, wait) := (d.collDests r o).partition (d.hasCredit r k o)
  let d := d.grantCredits r k o
  let d := d.each go fun d i => (d.spendCredit r k o i).sendInput r k o v i
  { d with runs := d.runs.put r.id { r with issued := r.issued ++ [k], toSend := r.toSend ++ wait.map fun i => (k, i), peer := true } }

/-- A message of one collective of a group. -/
def FabMsg.isOf (m : FabMsg) (groupId step op : Nat) : Bool :=
  match m with
  | .collective x => x.groupId == groupId && x.step == step && x.op == op
  | _ => false

/-- The operation's inputs have not all reached their ranks: some wait for a credit, for the gate, or for an acknowledgement. -/
def Dev.collWaits (d : Dev) (r : Run) (k : Nat) (o : OpRec) : Bool :=
  let g := (d.collGroup r o).1.groupId
  r.toSend.any (fun x => x.1 == k) ||
  d.held.any (fun h => h.ctx == r.ctx && match h.item with
    | .out (.fabric _ m) => m.isOf g r.step k
    | _ => false) ||
  d.fabric.unacked.any fun u => u.2.ctx == r.ctx && u.2.msg.any fun m => m.isOf g r.step k

/-- What follows a collective's output (R493, R495): the owner of a chunk of an f.reduce sends it, converted, to every other rank; a
write in the current form sends its amax code. -/
def Dev.sendOutput (d : Dev) (r : Run) (k : Nat) (o : OpRec) (out : OpOut) : Dev :=
  let (x, rank) := d.collGroup r o
  let peers := (List.range x.ranks.length).filter (· != rank)
  match out.results with
  | none => d
  | some rs =>
    let policy := (d.plan r.plan).module.policyOf o.out
    let d := d.when (policy = 1 || (policy = 0 && (r.fixed.find o.out).isNone)) fun d =>
      d.each peers fun d i => d.holdEgress r.ctx (.out (.fabric (x.ranks.getD i 0)
        (.collectiveAmax x.groupId r.step k (amaxCode (amaxOf rs)))))
    d.when (o.opcode = 0x0800) fun d =>
      let v := d.tensorIn (d.runOf r.id) o.out
      let (elems, fines) := v.part (v.chunk x.ranks.length rank)
      d.each peers fun d i => d.holdEgress r.ctx (.out (.fabric (x.ranks.getD i 0) (.collective
        { groupId := x.groupId, step := r.step, op := k, phase := 2, chunk := rank, elems := elems, fines := fines, coarse := v.coarse
          bytes := wireSize (Fmt.width v.format) elems.length fines.length })))

/-- A collective ends with its result. -/
def Dev.endColl (d : Dev) (r : Run) (k : Nat) (o : OpRec) (c : CollResult) : Dev :=
  let out := evalOp (d.plan r.plan) (d.envOf r) o k [] c
  let r' := d.applyOut { r with toSend := r.toSend.filter fun x => x.1 != k } k o out (some c)
  (({ d with runs := d.runs.put r.id r' }).noteDraws r').sendOutput r k o out

/-- A collective of a run fails with a code (R252): where it has not ended its output stays as it was; its dependents that have
not run are skipped. -/
def Dev.failColl (d : Dev) (id k code : Nat) (origin : Option Nat := none) : Dev :=
  let r := d.runOf id
  let r := (r.raiseAll k (OpOut.collFail code origin).codes).mark k
  let r := if r.state = .running then r.end k else r
  { d with runs := d.runs.put id { r with toSend := r.toSend.filter fun x => x.1 != k } }

/-! ### One row -/

/-- What stands against the reads of operations of a run: extents that are not yet readable, and granules held for a repair;
none of it where the operations may go on (R382, R448). -/
def Dev.readStall (d : Dev) (run : Nat) (r : Run) (ks : List Nat) : Option Dev :=
  let late := d.lateExtents r ks
  let held := ((d.badReads r ks).map fun x => x.2.1).filter (d.readHeld run)
  if !late.isEmpty then some { d with runs := d.runs.put run { r with late := late.getLast? } }
  else if !held.isEmpty then some (d.each held.eraseDups fun d g => d.holdRead run g)
  else none

/-- The bad granules that operations of a run have read fail their checks: the step will be withheld (R381, R384, R425). -/
def Dev.failChecks (d : Dev) (run : Nat) (r : Run) (ks : List Nat) : Dev :=
  let bad := d.badReads r ks
  if bad.isEmpty then d else
  let d := { d with runs := d.runs.put run ((d.runOf run).failReads d.badCode bad) }
  d.each (bad.map fun x => x.2.1) fun d g => d.checkFailed r.ctx (d.badCode g)

/-- One collective row of a running step (R250 to R252, R490): it issues the operation, once; it ends it with the result given, when
that is a failure or all its inputs have reached their ranks. -/
def Dev.runColl (d : Dev) (run op opcode : Nat) (c : CollResult) : Dev :=
  match d.canIssue run op opcode with
  | none => d
  | some o =>
    let r : Run := { d.runOf run with id := run }
    let ops := (d.plan r.plan).module.stepOps r.step
    let e := d.envOf r
    if isSkipped ops [] r op then { d with runs := d.runs.put run ((r.mark op).end op) }
    else if !e.outputValid o.writes || !e.scalesValid (if o.opcode = 0x0804 then [] else [o.collInput]) then
      d.endColl r op o (.failed 0)
    else match if r.issued.contains op then none else d.readStall run r [op] with
    | some d => d
    | none =>
      let d := if r.issued.contains op then d else (d.issueColl r op o).failChecks run r [op]
      let r : Run := { d.runOf run with id := run }
      match d.collNow r o c with
      | .failed code a => d.endColl r op o (.failed code a)
      | .delivered ins => if d.collWaits r op o then d else d.endColl r op o (.delivered ins)

/-- The input of each collective that ran inside a construct leaves for its ranks, trip by trip; their credits are taken to stand
(log 57). -/
def Dev.sendNested (d : Dev) (r : Run) (sent : List (Nat × TensorVal)) : Dev :=
  let ops := (d.plan r.plan).module.stepOps r.step
  d.each sent fun d x => match ops[x.1]? with
    | some o => d.each (d.collDests r o) fun d i => d.sendInput r x.1 o x.2 i
    | none => d

/-- One operation of a running step executes; a construct executes whole, with the results of the collectives in it.
An operation whose read is held for a repair (R382), or whose extent is not yet readable (R448), waits. -/
def Dev.runOp (d : Dev) (run op opcode : Nat) (sched : Sched := {}) (coll : List CollResult := []) : Dev :=
  match d.canIssue run op opcode with
  | none => d
  | some o =>
    let r := d.runOf run
    let ops := (d.plan r.plan).module.stepOps r.step
    let n := sumNat o.lengths
    let c : StepCtx := { ops := ops, closure := dependencyClosure ops, sched := sched }
    let x := d.runItems c (n + 2) [] [(op, n)] { run := r, coll := coll }
    let ran := x.ran.eraseDups
    match d.readStall run r ran with
    | some d => d
    | none =>
      (((({ d with runs := d.runs.put run x.run }).noteDraws x.run).failChecks run r ran).sendNested r x.sent)

/-- A running step whose operations have all run. -/
def Dev.stepFinished (d : Dev) (run : Nat) : Bool :=
  match d.runs.find run with
  | none => false
  | some r => r.state == .running &&
    (List.range ((d.plan r.plan).module.stepOps r.step).length).all r.done.contains

end Sys2Proof.Machine
end

