-- ==== Sys2Proof/Machine/Compute.lean ====
section
/-! DEFINITION. The operations of a running step, one meaning per row (chapters 04, 06, 07).  A row names a run and a local
index; where the machine's state does not let that operation issue now, the row changes nothing (log 16). -/

namespace Sys2Proof.Machine

/-- mx.contract (R239), with the operations of its region still in flight beside it (R143, R657). -/
def execMxContract (run op : Nat) (overlap : List Nat) (s : State) : Host.Outcome State Fault Refusal :=
  .next (s.onDev fun d => d.runOp run op 0x0100 (sched := { overlap := overlap.map fun j => (op, j) }))

/-- v.ew (R241). -/
def execVEw (run op : Nat) (s : State) : Host.Outcome State Fault Refusal := .next (s.onDev fun d => d.runOp run op 0x0200)

/-- v.reduce (R195). -/
def execVReduce (run op : Nat) (s : State) : Host.Outcome State Fault Refusal :=
  .next (s.onDev fun d => d.runOp run op 0x0210)

/-- v.scan (R198, R200, R202). -/
def execVScan (run op : Nat) (s : State) : Host.Outcome State Fault Refusal := .next (s.onDev fun d => d.runOp run op 0x0211)

/-- v.segscan (R199). -/
def execVSegscan (run op : Nat) (s : State) : Host.Outcome State Fault Refusal :=
  .next (s.onDev fun d => d.runOp run op 0x0212)

/-- v.summary (R196). -/
def execVSummary (run op : Nat) (s : State) : Host.Outcome State Fault Refusal :=
  .next (s.onDev fun d => d.runOp run op 0x0213)

/-- g.gather (R243). -/
def execGGather (run op : Nat) (s : State) : Host.Outcome State Fault Refusal :=
  .next (s.onDev fun d => d.runOp run op 0x0300)

/-- g.scatter (R244). -/
def execGScatter (run op : Nat) (s : State) : Host.Outcome State Fault Refusal :=
  .next (s.onDev fun d => d.runOp run op 0x0301)

/-- t.reshape (R245). -/
def execTReshape (run op : Nat) (s : State) : Host.Outcome State Fault Refusal :=
  .next (s.onDev fun d => d.runOp run op 0x0400)

/-- t.transpose (R245). -/
def execTTranspose (run op : Nat) (s : State) : Host.Outcome State Fault Refusal :=
  .next (s.onDev fun d => d.runOp run op 0x0401)

/-- t.slice (R245). -/
def execTSlice (run op : Nat) (s : State) : Host.Outcome State Fault Refusal :=
  .next (s.onDev fun d => d.runOp run op 0x0402)

/-- s.requant (R246). -/
def execSRequant (run op : Nat) (s : State) : Host.Outcome State Fault Refusal :=
  .next (s.onDev fun d => d.runOp run op 0x0500)

/-- s.setscale (R246). -/
def execSSetscale (run op : Nat) (s : State) : Host.Outcome State Fault Refusal :=
  .next (s.onDev fun d => d.runOp run op 0x0501)

/-- s.getscale (R246). -/
def execSGetscale (run op : Nat) (s : State) : Host.Outcome State Fault Refusal :=
  .next (s.onDev fun d => d.runOp run op 0x0502)

/-- s.reset (R246). -/
def execSReset (run op : Nat) (s : State) : Host.Outcome State Fault Refusal :=
  .next (s.onDev fun d => d.runOp run op 0x0503)

/-- n.draw (R247). -/
def execNDraw (run op : Nat) (s : State) : Host.Outcome State Fault Refusal :=
  .next (s.onDev fun d => d.runOp run op 0x0600)

/-- n.round (R247). -/
def execNRound (run op : Nat) (s : State) : Host.Outcome State Fault Refusal :=
  .next (s.onDev fun d => d.runOp run op 0x0601)

/-- m.prefetch (R249): an intent, which changes no value. -/
def execMPrefetch (run op : Nat) (s : State) : Host.Outcome State Fault Refusal :=
  .next (s.onDev fun d => d.runOp run op 0x0700)

/-- f.reduce (R250). -/
def execFReduce (run op : Nat) (r : CollResult) (s : State) : Host.Outcome State Fault Refusal :=
  .next (s.onDev fun d => d.runColl run op 0x0800 r)

/-- f.gather (R251). -/
def execFGather (run op : Nat) (r : CollResult) (s : State) : Host.Outcome State Fault Refusal :=
  .next (s.onDev fun d => d.runColl run op 0x0801 r)

/-- f.alltoall (R251). -/
def execFAlltoall (run op : Nat) (r : CollResult) (s : State) : Host.Outcome State Fault Refusal :=
  .next (s.onDev fun d => d.runColl run op 0x0802 r)

/-- f.send (R251). -/
def execFSend (run op : Nat) (r : CollResult) (s : State) : Host.Outcome State Fault Refusal :=
  .next (s.onDev fun d => d.runColl run op 0x0803 r)

/-- f.recv (R251). -/
def execFRecv (run op : Nat) (r : CollResult) (s : State) : Host.Outcome State Fault Refusal :=
  .next (s.onDev fun d => d.runColl run op 0x0804 r)

/-- c.branch (R206): the selected arm runs whole. -/
def execCBranch (run : Nat) (c : ConstructAt) (s : State) : Host.Outcome State Fault Refusal :=
  .next (s.onDev fun d => d.runOp run c.op 0x0900 (sched := c.sched))

/-- c.loop (R207, R208): its trips run whole, with the results of the collectives in it in order. -/
def execCLoop (run : Nat) (c : ConstructAt) (rs : List CollResult) (s : State) : Host.Outcome State Fault Refusal :=
  .next (s.onDev fun d => d.runOp run c.op 0x0901 (sched := c.sched) (coll := rs))

end Sys2Proof.Machine
end

