-- ==== Sys2Proof/Machine/Steps.lean ====
section
/-! DEFINITION. Steps of RUN_PLANs (R65 to R80, R165 to R169, R174, R322, R447): when one starts, how it ends, and how its
results are committed or withheld. -/

namespace Sys2Proof.Machine

/-! ### Starting -/

/-- What a step that is due meets. -/
inductive StartGate where
  | wait
  | breaks (e : CodeEntry)
  | go
  deriving DecidableEq, Repr

/-- A charter slot holds its contexts' steps (R536), or is closing (R545, R555). -/
def Dev.charterHeld (d : Dev) (c : Nat) : Bool :=
  match (d.ctx c).charter with
  | some k => (d.charter k).held
  | none => false

def Dev.charterClosing (d : Dev) (c : Nat) : Bool :=
  match (d.ctx c).charter with
  | some k => (d.charter k).state == .closing
  | none => false

/-- Extents a step needs, tensor by tensor (R273, R445). -/
def Plan.stepExtents (p : Plan) (s : Nat) : List Nat :=
  (p.module.deep.filter (p.module.stepNeeds s)).flatMap fun t => (p.tensors.getD t {}).extents

/-- Frames that promotions still to be made for a step need. -/
def Dev.promotionNeed (d : Dev) (es : List Nat) : Nat := sumNat ((es.filter fun e =>
  (d.extent e).state == .resting || ((d.extent e).state == .promoting && (d.extent e).copy.isEmpty)).map d.promotionOf)

/-- A tile awaits the scrub that clears another tenant from it (R556). -/
def Dev.tileDirtyFor (d : Dev) (t c : Nat) : Bool :=
  match (d.tile t).dirty with
  | some x => x != d.tenant c
  | none => false

/-- The scale-table entries of the tensors a step reads or writes (R162). -/
def Dev.stepEntries (_d : Dev) (p : Plan) (s : Nat) : List Nat :=
  (((p.module.stepOps s).flatMap fun o => o.reads ++ o.writes).eraseDups).filterMap fun t => (p.tensors.getD t {}).entry

/-- Whether the next step of a RUN_PLAN may start (R179, R277, R287, R288, R358, R362, R449, R536, R545, R556). -/
def Dev.startGate (d : Dev) (r : RunCmd) : StartGate :=
  let k := d.ctx r.ctx
  let p := d.plan r.plan
  let s := r.first + r.started
  let es := p.stepExtents s
  if p.suspended then .breaks { code := Code.planSuspended }
  else if d.charterClosing r.ctx then .breaks { code := Code.charterDenied }
  else if k.state = .suspended || k.held || d.charterHeld r.ctx || !d.serving || p.paused then .wait
  else match p.raiseCode with
  | some c => .breaks { code := c }
  | none =>
    if p.tiles.any fun t => (d.tile t).current < p.floor || d.tileDirtyFor t r.ctx then .wait
    else match es.find? fun e => (d.extent e).state == .lost with
    | some e => .breaks { code := Code.deepReadFail, step := s, index := some e }
    | none =>
      if d.stepEntries p s |>.any d.entryRefused then .breaks { code := Code.keyRetired, step := s }
      else if d.promotionNeed es ≠ 0 && k.useT1 + d.promotionNeed es > k.quotaT1.toNat then
        .breaks { code := Code.quotaExceeded, step := s }
      else .go

/-- Runs of the context whose uncommitted results a new step reads: those of its own order that have ended (R68, R215). -/
def Dev.endedRuns (d : Dev) (c cls : Nat) : List Nat :=
  (d.runs.filter fun r => r.2.ctx == c && r.2.state == .ended && (r.2.cls == 2) == (cls == 2)).map Prod.fst

/-- Coarse scales fixed when the step starts: those of the history tensors it writes that have a history (R166, R167). -/
def Dev.fixScales (d : Dev) (p : Plan) (s : Nat) : Tab W32 :=
  let m := p.module
  let ws := ((m.stepOps s).flatMap OpRec.writes).eraseDups.filter fun t => m.policy t == 0
  ws.foldl (fun acc t =>
    match (p.tensors.getD t {}).entry with
    | none => acc
    | some e =>
      let codes := (d.scaleEntry e).codeSet
      if codes.isEmpty then acc
      else acc.put t (pow2Bits (chooseExp (m.tensor t).format (d.scaleEntry e).margin codes))) []

/-- The context of a job on this device. -/
def Dev.jobCtx (d : Dev) (j : Nat) : Nat := if j < 1024 then (d.group j).ctx else j - 1024

/-- This tide's boundary is a candidate of the job (R513). -/
def Dev.isCandidate (d : Dev) (j : Nat) : Bool :=
  let x := d.job j
  x.candidate || (x.scheduled && x.nextTide != 0 && x.nextTide ≤ d.tide.number)

/-- The run's step depends on another device (R61): it has a collective, or a job of its context may freeze at this tide's
ebb. -/
def Dev.usesPeers (d : Dev) (r : Run) : Bool :=
  ((d.plan r.plan).module.stepOps r.step).any OpRec.isCollective ||
    d.jobs.any fun j => d.jobCtx j.1 == r.ctx && d.isCandidate j.1

/-- A step that depends on another device breaks while the device is unlocked (R61). -/
def Run.unlock (r : Run) : Run :=
  if r.codes.any fun e => e.code == Code.tideUnlocked then r
  else { r with codes := r.codes ++ [{ code := Code.tideUnlocked, step := r.step }], peer := true }

/-- Scratchpad bytes that the running steps of a context take at their peak (R271, R559). -/
def Dev.scratchNow (d : Dev) (ctx : Nat) : Nat :=
  sumNat ((d.runs.filter fun r => r.2.ctx == ctx && r.2.state == .running).map fun r => sumNat (d.plan r.2.plan).scratch)

/-- A step starts (R65, R167, R174): its run takes the next number and the plan's data position; its first tide is this one,
or the next where a spill that ends in the ebb starts it (R72); a T2 intent that begins here has released the plan's
references (R447). -/
def Dev.startStep (d : Dev) (r : RunCmd) : Dev :=
  let p := d.plan r.plan
  let s := r.first + r.started
  let id := d.nextRun
  let fixed := d.fixScales p s
  let first := d.tide.number + boolNat (d.tide.phase == .ebb && r.cls != 2)
  let run : Run :=
    { id := id, ctx := r.ctx, plan := r.plan, cls := r.cls, queue := r.queue, seq := r.cmd.seq, step := s, idx := r.started
      position := p.position, startTide := first
      lastTide := first + (if r.cls = 2 then 0 else p.module.span s - 1)
      fixed := fixed, reads := d.endedRuns r.ctx r.cls }
  let run := if d.tide.unlocked && d.usesPeers run then run.unlock else run
  let d := { d with runs := d.runs.put id run, nextRun := id + 1
                    runCmds := d.runCmds.map fun (x : RunCmd) =>
                      if x.queue = r.queue && x.cmd.seq = r.cmd.seq then { x with started := x.started + 1 } else x }
  let d := d.modPlan r.plan fun x => { x with position := x.position + 1 }
  let d := d.each fixed fun d x => match (p.tensors.getD x.1 {}).entry with
    | some e => d.modScale e fun y => { y with coarse := x.2 }
    | none => d
  let d := d.each ((p.module.intents.filter fun i => i.tier == 2 && i.first == s).map Intent.tensor) fun d t =>
    d.each ((p.tensors.getD t {}).extents) fun d e => d.releaseRef e r.plan
  let d := d.each (p.stepExtents s) fun d e =>
    (d.modExtent e fun y => { y with lastUse := d.tide.number }).requestPromotion e r.plan d.tide.number
  let scratch := d.scratchNow r.ctx
  d.modCtx r.ctx fun k => { k with active := true, tilesUsed := p.tiles.foldl (fun m t => m ||| 2 ^ t) k.tilesUsed
                                   scratchUse := max k.scratchUse scratch }

/-- The other code entries beside the error that breaks a fence (R316); a lane fault's second entry stays with its first
(R194). -/
def CodeEntry.others (b : CodeEntry) (l : List CodeEntry) : List CodeEntry :=
  let before := l.takeWhile (· != b)
  let rest := (l.dropWhile (· != b)).drop 1
  if b.code = Code.laneFault then rest.take 1 ++ before ++ rest.drop 1 else before ++ rest

/-- The completion of a RUN_PLAN's end (R316, R322). -/
def RunCmd.ending (r : RunCmd) : Ending :=
  { queue := r.queue, cmd := r.cmd, error := r.broken
    codes := match r.broken with
      | some b => b.others r.codes
      | none => r.codes
    origin := match r.broken with
      | some b => if b.code = Code.upstreamError then some (b.step, b.index.getD 0) else none
      | none => none }

/-- A run of the command is under way or uncommitted. -/
def Dev.hasRun (d : Dev) (r : RunCmd) : Bool := d.runs.any fun x => x.2.queue == r.queue && x.2.seq == r.cmd.seq

/-- A RUN_PLAN has come to its end: every step committed, or broken with none left. -/
def Dev.cmdDone (d : Dev) (r : RunCmd) : Bool := (r.broken.isSome || r.committed = r.count) && !d.hasRun r

/-- The RUN_PLANs that have come to their end leave; the answer has their endings. -/
def Dev.takeDone (d : Dev) : Dev × List Ending :=
  ({ d with runCmds := d.runCmds.filter fun r => !d.cmdDone r }, (d.runCmds.filter d.cmdDone).map RunCmd.ending)

/-- The RUN_PLANs that have come to their end complete now. -/
def Dev.finishDone (d : Dev) : Dev := let (d, es) := d.takeDone; d.each es Dev.finish

/-- A RUN_PLAN is broken with a code; its later steps do not run (R322). -/
def Dev.breakCmd (d : Dev) (r : RunCmd) (e : CodeEntry) : Dev :=
  { d with runCmds := d.runCmds.map fun (x : RunCmd) =>
      if x.queue = r.queue && x.cmd.seq = r.cmd.seq && x.broken.isNone then { x with broken := some e } else x }

/-- The first error among a step's codes. -/
def Run.firstError (r : Run) : Option CodeEntry := r.error.or (r.codes.find? fun e => !Code.isNotice e.code)

/-- A step of the RUN_PLAN has ended with an error and waits for its commit: its later steps do not run (R322). -/
def Dev.stepErred (d : Dev) (r : RunCmd) : Bool :=
  d.runs.any fun x => x.2.queue == r.queue && x.2.seq == r.cmd.seq && x.2.state == .ended &&
    (x.2.firstError.isSome || x.2.withhold.isSome)

/-- The next N or B RUN_PLAN of a context with a step left to run (R68). -/
def Dev.nextCmd (d : Dev) (c : Nat) : Option RunCmd :=
  d.runCmds.find? fun r => r.ctx == c && r.cls != 2 && r.broken.isNone && decide (r.started < r.count) && !d.stepErred r

/-- An N or B step of the context is running (R68). -/
def Dev.stepRuns (d : Dev) (c : Nat) : Bool := d.runs.any fun r => r.2.ctx == c && r.2.cls != 2 && r.2.state == .running

/-- The context's next step starts, where it may, among the RUN_PLANs due by this tide (R65). -/
def Dev.tryStart (d : Dev) (c : Nat) : Nat → Dev
  | 0 => d
  | n + 1 =>
    if d.stepRuns c then d
    else match d.nextCmd c with
    | none => d
    | some r =>
      if d.tide.number < r.due then d
      else match d.startGate r with
      | .wait => d
      | .breaks e => ((d.breakCmd r e).finishDone).tryStart c n
      | .go => d.startStep r

/-- Contexts that have begun RUN_PLANs. -/
def Dev.runContexts (d : Dev) : List Nat := (d.runCmds.map RunCmd.ctx).eraseDups

/-- N and B steps that are due start at a boundary (R65). -/
def Dev.startAll (d : Dev) : Dev :=
  d.each d.runContexts fun d c => d.tryStart c (d.runCmds.length + 1)

/-! ### Ending (R69 to R74) -/

/-- The steps under way that depend on another device break (R61). -/
def Dev.markUnlocked (d : Dev) : Dev :=
  { d with runs := d.runs.map fun x => if x.2.state == .running && d.usesPeers x.2 then (x.1, x.2.unlock) else x }

/-- Codes a step takes from the state it ends in (R61). -/
def Dev.endCodes (d : Dev) (r : Run) : Run :=
  let r := if d.tide.holdover then { r with codes := r.codes ++ [{ code := Code.tideHoldover, step := r.step }] } else r
  if d.tide.unlocked && d.usesPeers r then r.unlock else r

/-- The codes recorded by a step become pending codes (R165). -/
def Dev.addPending (d : Dev) (r : Run) : Dev :=
  d.each r.amax fun d x =>
    match ((d.plan r.plan).tensors.getD x.1 {}).entry with
    | some e => d.modScale e fun y => { y with pending := y.pending ++ [(r.id, x.2)] }
    | none => d

/-- ρ × F of a tile, in ns: what its class-P meter may reach (R77). -/
def Dev.fullMeter (d : Dev) (tile : Nat) : Nat := rhoOn (d.plansBut none) tile * d.tide.flood / 256

/-- The step runs in the slack after its last flood (R69); a spill is counted when it spills. -/
def Dev.usesSlack (d : Dev) (r : Run) : Bool := d.tide.phase == .slack && !r.spilled && decide (r.lastTide ≤ d.tide.number)

/-- A step ends on its tiles; class-P work that brings a meter to ρ × F spends it (R77). -/
def Dev.endStep (d : Dev) (id ranNs : Nat) : Dev :=
  let r := d.endCodes { d.runOf id with state := .ended, horizon := if (d.runOf id).cls = 2 then some d.tide.epoch else none }
  let d := ({ d with runs := d.runs.put id r }).addPending r
  if r.cls = 2 then
    d.each (d.plan r.plan).tiles fun d t => d.modTile t fun x =>
      { x with meter := x.meter + ranNs, spent := x.spent || decide (d.fullMeter t ≤ x.meter + ranNs) }
  else
    let d := d.when (d.usesSlack r) fun d => d.modTide fun x => { x with slackUses := x.slackUses + 1 }
    if r.spilled then d.tryStart r.ctx (d.runCmds.length + 1) else d

/-- STEP_END (R72). -/
def execStepEnd (run ranNs : Nat) (s : State) : Host.Outcome State Fault Refusal :=
  .next (s.onDev fun d => if d.stepFinished run && d.serving then d.endStep run ranNs else d)

/-- A step that has not ended at the ebb becomes a spill (R70): STEP_OVERRUN, and TIER_LATE where a promotion held it; it has
used the slack (R69). -/
def Dev.spill (d : Dev) (id : Nat) : Dev :=
  let r := d.runOf id
  if r.state ≠ .running || r.cls = 2 || d.tide.number < r.lastTide || r.spilled then d
  else
    let above : List CodeEntry := [{ code := Code.stepOverrun, step := r.step }]
    let late : List CodeEntry := match r.late with
      | some (op, e) => [{ code := Code.tierLate, op := op, step := r.step, index := some e }]
      | none => []
    let d := { d with runs := d.runs.put id { r with spilled := true, codes := r.codes ++ above ++ late } }
    let d := d.modTide fun x => { x with slackUses := x.slackUses + 1 }
    let n := 1 + late.length
    d.each (0xFF :: (d.plan r.plan).tiles) fun d t => d.dwEvent .overruns t n

/-- Every step past its last tide spills. -/
def Dev.spillAll (d : Dev) : Dev := d.each d.runs.keys Dev.spill

/-- The context waits on a step that was aborted: its N or B RUN_PLANs due by this tide break with UPSTREAM_ERROR when
that step's fence breaks (R73). -/
def Dev.breakWaiters (d : Dev) (r : Run) (code : Nat) : Dev :=
  let slot := ((d.runCmds.find? fun x => x.queue == r.queue && x.cmd.seq == r.seq).map fun x => x.cmd.signalSlot).getD 0
  d.each (d.runCmds.filter fun x => x.ctx == r.ctx && x.cls != 2 && (x.queue != r.queue || x.cmd.seq != r.seq) &&
      decide (x.due ≤ d.tide.number)) fun d x =>
    d.breakCmd x { code := Code.upstreamError, step := slot, index := some code }

/-- A spill past its limit is aborted (R73): its results are dropped; its fence breaks at the ebb (R85), and with it the
steps that wait; with TIDE_UNLOCKED where that has broken it before (R61, R85). -/
def Dev.abortSpill (d : Dev) (id : Nat) : Dev :=
  let r := d.endCodes (d.runOf id)
  let e : CodeEntry := { code := Code.stepTimeout, step := r.step }
  let first := (r.codes.find? fun x => x.code == Code.tideUnlocked).getD e
  let r' := { r with state := .ended, aborted := true, error := some first, codes := r.codes ++ [e], overlay := [], amax := [], resets := []
                     coarse := [], expMax := [], drawn := [] }
  let d := { d with runs := d.runs.put id r' }
  d.each (0xFF :: (d.plan r.plan).tiles) fun d t => d.dwEvent .overruns t

/-- SPILL_LIMIT_ABORT (R73). -/
def execSpillLimitAbort (run : Nat) (s : State) : Host.Outcome State Fault Refusal :=
  .next (s.onDev fun d =>
    match d.runs.find run with
    | some r =>
      if r.state = .running && r.spilled && r.lastTide + d.tide.spillLimit.toNat + 1 ≤ d.tide.number &&
          d.tide.phase != .flood then d.abortSpill run else d
    | none => d)

/-! ### References of a step's promotions (R447) -/

/-- After step `s`, an m.prefetch of the tensor to T1 stands without its m.release. -/
def Module.prefetched (m : Module) (s t : Nat) : Bool :=
  (((List.range (s + 1)).flatMap m.stepOps).filter fun o =>
    (o.opcode == 0x0700 || o.opcode == 0x0701) && o.f 4 0 2 == 1 && o.tensorAt 3 == t).getLast?.any fun o => o.opcode == 0x0700

/-- A step's references are released at its commit (R447), unless the next step of its RUN_PLAN keeps them. -/
def Dev.releaseStep (d : Dev) (r : Run) : Dev :=
  let p := d.plan r.plan
  let m := p.module
  let more := (d.runCmds.find? fun x => x.queue == r.queue && x.cmd.seq == r.seq).any fun x =>
    x.broken.isNone && decide (r.idx + 1 < x.count)
  let s' := r.step + 1
  d.each (m.deep.filter fun t =>
      !((more && m.stepNeeds s' t) || (more && m.intentAt 1 s' t) || m.prefetched r.step t)) fun d t =>
    d.each ((p.tensors.getD t {}).extents) fun d e => d.releaseRef e r.plan

/-! ### Committing and withholding (R41, R42, R80, R165) -/

/-- A run leaves; its command notes its end. -/
def Dev.dropRun (d : Dev) (r : Run) (f : RunCmd → RunCmd) : Dev :=
  { d with runs := d.runs.erase r.id
           runCmds := d.runCmds.map fun (x : RunCmd) => if x.queue = r.queue && x.cmd.seq = r.seq then f x else x }

/-- Pending codes of a committing step go into their rings (R165), and resets take effect (R246). -/
def Dev.commitScales (d : Dev) (r : Run) : Dev :=
  let entryOf (t : Nat) : Option Nat := ((d.plan r.plan).tensors.getD t {}).entry
  let d := d.each r.amax fun d x => match entryOf x.1 with
    | some e => d.modScale e fun y =>
        let y := { y with pending := y.pending.filter fun p => p.1 != r.id, coarse := (r.coarse.find x.1).getD y.coarse }
        if y.policy = 0 then y.append x.2 r.position else { y with lastStep := r.position }
    | none => d
  d.each r.resets fun d t => match entryOf t with
    | some e => d.modScale e fun y => { y with fill := 0, pending := [] }
    | none => d

/-- A step commits: its bytes, scales and histories; the answer has its progress signal (R322). -/
def Dev.commitRun (d : Dev) (r : Run) : Dev × List FenceOp :=
  let d := d.releaseStep r
  let d := (d.writeMem r.overlay).commitScales r
  let d := d.each r.coarse fun d x => d.modPlaced r.plan x.1 fun y => { y with coarse := x.2 }
  let d := d.each r.expMax fun d x => d.modPlaced r.plan x.1 fun y => { y with expMax := x.2 }
  let d := d.modPlan r.plan fun p => { p with saved := r.position + 1 }
  let skip : List CodeEntry := if (d.ctx r.ctx).skipDue then [{ code := Code.snapshotSkipped, step := r.step }] else []
  let d := d.modCtx r.ctx fun k => { k with skipDue := false }
  let err := r.firstError
  let cmd := d.runCmds.find? fun x => x.queue == r.queue && x.cmd.seq == r.seq
  let d := d.dropRun r fun x =>
    { x with committed := x.committed + (if err.isSome then 0 else 1), codes := x.codes ++ r.codes ++ skip
             broken := x.broken.or err }
  let tag := (d.ctx r.ctx).tag.toNat
  let ops : List FenceOp := match cmd, err with
    | some x, none => match if x.broken.isNone then x.progress else none with
      | some (f, base) => [{ slot := f, queue := r.queue, seq := r.seq, ctx := tag, value := base + BitVec.ofNat 32 (r.idx + 1) }]
      | none => []
    | _, _ => []
  (d, ops)

/-- A step is withheld (R42): nothing of it is kept, and its fence breaks with the code. -/
def Dev.withholdRun (d : Dev) (r : Run) (e : CodeEntry) (also : List CodeEntry) : Dev :=
  let d := d.releaseStep r
  let d := d.each r.amax fun d x => match ((d.plan r.plan).tensors.getD x.1 {}).entry with
    | some i => d.modScale i fun y => { y with pending := y.pending.filter fun p => p.1 != r.id }
    | none => d
  d.dropRun r fun x => { x with codes := x.codes ++ (if r.codes.contains e then r.codes else e :: r.codes) ++ also, broken := x.broken.or (some e) }

/-- The entry a withheld run breaks with: the named read, where its codes have one. -/
def Run.withheldEntry (r : Run) (code : Nat) : CodeEntry :=
  (r.codes.find? fun e => e.code == code).getD { code := code, step := r.step }

/-- The entry a run breaks with where its context is withheld with `w`: its own reason before the context's, but for a lost
tree line, of which a failed tag is the second code (R42, R430). -/
def Run.breakEntry (r : Run) (w : Nat) : CodeEntry :=
  match r.withhold with
  | none => r.withheldEntry w
  | some u =>
    if u = Code.upstreamError then r.error.getD (r.withheldEntry u)
    else if u = Code.integrityAlarm && w = Code.treeLost then { code := w, step := r.step }
    else r.withheldEntry u

/-- The context's second code, where the run's own codes have it not (R430). -/
def Dev.alsoCodes (d : Dev) (r : Run) : List CodeEntry :=
  match (d.ctx r.ctx).alsoCode with
  | some a => if r.codes.any fun e => e.code == a then [] else [{ code := a }]
  | none => []

/-- Runs that read the results of a withheld run are withheld in their turn (R166, R215). -/
def Dev.taintReaders (d : Dev) (r : Run) (code : Nat) : Dev :=
  let slot := ((d.runCmds.find? fun x => x.queue == r.queue && x.cmd.seq == r.seq).map fun x => x.cmd.signalSlot).getD 0
  { d with runs := d.runs.map fun x =>
      if x.2.reads.contains r.id && x.2.withhold.isNone then
        (x.1, { x.2 with withhold := some Code.upstreamError, error := some { code := Code.upstreamError, step := slot, index := some code } })
      else x }

/-- A run's results are due at this ebb: it has ended, and its last tide has come (R44, R67, R74). -/
def Dev.commitsNow (d : Dev) (r : Run) : Bool := r.state == .ended && decide (r.lastTide ≤ d.tide.number)

/-- The code by which a context is withheld at this ebb (R42): one raised against it, or against a run of it that would
commit now. -/
def Dev.withholdCode (d : Dev) (c : Nat) : Option Nat :=
  ((d.ctx c).withhold).or (d.runs.findSome? fun r => if r.2.ctx = c && d.commitsNow r.2 then r.2.withhold else none)

/-- Commit or withhold of one context at the ebb (R41 action 2, R42). -/
def Dev.settleCtx (d : Dev) (c : Nat) : Dev × List FenceOp :=
  let code := d.withholdCode c
  let ended := ((d.runs.filter fun r => r.2.ctx == c && d.commitsNow r.2).map Prod.fst)
  let r := ended.foldl (fun (acc : Dev × List FenceOp) id =>
    let x := acc.1.runOf id
    let waiters (d : Dev) (code : Nat) : Dev := if x.aborted then d.breakWaiters x code else d
    match code with
    | none =>
      let (d, o) := (waiters acc.1 ((x.error.map CodeEntry.code).getD Code.stepTimeout)).commitRun x
      (d, acc.2 ++ o)
    | some w =>
      let e := x.breakEntry w
      (((waiters acc.1 e.code).taintReaders x e.code).withholdRun x e (d.alsoCodes x), acc.2)) (d, [])
  (r.1.modCtx c fun k => { k with withhold := none, alsoCode := none, failed := none }, r.2)

/-! ### Class P (R75 to R80) -/

/-- The oldest begun class-P RUN_PLAN of a queue whose step has not started. -/
def Dev.nextP (d : Dev) (q : Nat) : Option RunCmd :=
  d.runCmds.find? fun r => r.queue == q && r.cls == 2 && r.broken.isNone && r.started == 0

/-- The class-P RUN_PLANs found before one, oldest first. -/
def Dev.foundBefore (d : Dev) (r : RunCmd) : List RunCmd :=
  d.runCmds.takeWhile (fun x => !(x.queue == r.queue && x.cmd.seq == r.cmd.seq)) |>.filter fun x => x.cls == 2

/-- A class-P RUN_PLAN still has its step before it: unstarted, or running. -/
def Dev.pUnended (d : Dev) (x : RunCmd) : Bool :=
  (x.started == 0 && x.broken.isNone) || d.runs.any fun y => y.2.queue == x.queue && y.2.seq == x.cmd.seq && y.2.state == .running

/-- Class-P work found before (R68, R80): a step of the same context that has not ended, or a step on a tile of the plan that
has not ended; one that its own context holds back keeps no other context waiting (log 50). -/
def Dev.pBusy (d : Dev) (r : RunCmd) : Bool :=
  (d.foundBefore r).any fun x => d.pUnended x &&
    (x.ctx == r.ctx || ((x.started != 0 || d.startGate x != .wait) && (d.plan x.plan).tiles.any (d.plan r.plan).tiles.contains))

/-- CLASS_P_STEP_START (R77, R80): the queue's oldest class-P step begins on all its tiles together, once the class-P steps
found before it there have ended; one found after a meter was spent waits for the next boundary. -/
def execClassPStepStart (q : Nat) (s : State) : Host.Outcome State Fault Refusal :=
  .next (s.onDev fun d =>
    match d.nextP q with
    | none => d
    | some r =>
      if d.pBusy r || !d.tideRunning || d.tide.number < r.due then d
      else match d.startGate r with
      | .wait => d
      | .breaks e => (d.breakCmd r e).finishDone
      | .go => d.startStep r)

/-- P_METER_SPENT (R77): later class-P arrivals on the tile wait for the next boundary. -/
def execPMeterSpent (tile : Nat) (s : State) : Host.Outcome State Fault Refusal :=
  if 16 ≤ tile then .fault (.unitAbsent tile)
  else .next (s.onDev fun d =>
    let full := rhoOn (d.plansBut none) tile * d.tide.flood / 256
    if !d.tideRunning then d else d.modTile tile fun x => { x with meter := max x.meter full, spent := true })

end Sys2Proof.Machine
end

