-- ==== Sys2Proof/Machine/Transfer.lean ====
section
/-! DEFINITION. Host transfers (R324 to R326, R450, R551 to R554): PUT_TENSOR, GET_TENSOR and STAGE and their
envelopes. -/

namespace Sys2Proof.Machine

/-! ### Envelopes (R553, R554) -/

/-- The header unit of an envelope. -/
def envelopeHeader (owner dir seq charter tensor offset length handle : Nat) : List W32 :=
  padTo 0 16 ([0x00564E45, owner + 16 * dir, seq, seq / 4294967296, charter, tensor, offset, offset / 4294967296,
    length, handle].map (BitVec.ofNat 32))

/-- The nonce of an envelope. -/
def envelopeNonce (seq dir : Nat) : List Byte := bytesOfNat 8 seq ++ bytesOfNat 1 dir ++ bytesOfNat 3 0

/-- One envelope from the device: header, sealed control and data units, tag unit. -/
def sealEnvelope (x : Charter) (slot o : Nat) (c : Cmd) (coarse : W32) (bytes : List Byte) : List W32 :=
  let seq := x.seqOut.get 1 o
  let h := envelopeHeader o 1 seq slot (c.pf 1 0 16) (c.p64 3) (c.p 5) (c.p 0)
  let plain := bytesOfWords (padTo 0 16 [coarse, 1]) ++ padTo 0 (64 * ceilDiv (c.p 5) 64) bytes
  let (ct, tag) := Config.gcmSeal (x.envKey o) (envelopeNonce seq 1) (bytesOfWords h) plain
  h ++ wordsOfBytes (padTo 0 plain.length ct) ++ padTo 0 16 (wordsOfBytes tag)

/-- An envelope towards the device opened: its coarse scale, if valid, its bytes and its seq; none where R554 refuses it. Its seq
is not asked of again (`fresh` false) for a command that took it when it began (R563). -/
def openEnvelope (x : Charter) (slot o : Nat) (c : Cmd) (fresh : Bool) : Option (Option W32 × List Byte × Nat) :=
  let units := (c.payload.drop 16)
  let h := units.take 16
  let seq := dwordAt h 2
  let n := 1 + ceilDiv (c.p 5) 64
  let body := bytesOfWords ((units.drop 16).take (16 * n))
  let tag := (bytesOfWords ((units.drop (16 + 16 * n)).take 16)).take 16
  if h ≠ envelopeHeader o 0 seq slot (c.pf 1 0 16) (c.p64 3) (c.p 5) (c.p 0) || (fresh && decide (seq ≤ x.seqIn.get 0 o)) then none
  else match Config.gcmOpen (x.envKey o) (envelopeNonce seq 0) (bytesOfWords h) body tag with
  | none => none
  | some plain =>
    let ws := wordsOfBytes (plain.take 64)
    some (if bitOf (wordAt ws 1) 0 then some (ws.getD 0 0) else none, (plain.drop 64).take (c.p 5), seq)

/-- What a PUT_TENSOR or STAGE carries: the device with the seq taken, the coarse scale and the bytes; none is
ENVELOPE_FAIL. -/
def Dev.carried (d : Dev) (c : Cmd) (ctx t : Nat) (fresh : Bool := true) : Option (Dev × Option W32 × List Byte) :=
  if c.isSealed then
    match (d.ctx ctx).charter with
    | none => none
    | some k =>
      let o := (d.plan c.planSlot).module.ownerOf t
      match openEnvelope (d.charter k) k o c fresh with
      | none => none
      | some (coarse, bytes, seq) =>
        some (d.modCharter k fun x => { x with seqIn := x.seqIn.set 0 o (max seq (x.seqIn.get 0 o)) }, coarse, bytes)
  else some (d, if c.pf 1 16 1 = 1 then some (BitVec.ofNat 32 (c.p 2)) else none, (c.bytesFrom 1).take (c.p 5))

/-! ### Waiting for steps (R325) -/

/-- Started steps of the context, not yet committed, with the pages of the tensors they write or read. -/
def Dev.stepBusy (d : Dev) (ctx plan t : Nat) (reads : Bool) : Bool :=
  let p := d.plan plan
  let mine := ((p.tensors.getD t {}).firstPage, (p.module.tensor t).pages)
  d.runs.any fun r => r.2.ctx == ctx &&
    (let q := d.plan r.2.plan
     (q.module.stepOps r.2.step).any fun o => (o.writes ++ if reads then o.reads else []).any fun u =>
       (r.2.plan == plan && u == t) || pagesMeet mine ((q.tensors.getD u {}).firstPage, (q.module.tensor u).pages))

/-! ### Reading the committed form -/

/-- One byte of the committed form; an extent at rest reads as its stored contents (R438). -/
def Dev.committedByte (d : Dev) (p : Placed) (b : Nat) : Byte :=
  match p.extents[b / extentBytes]? with
  | some e =>
    let x := d.extent e
    if x.state = .resting || x.state = .promoting then Mem.read x.contents (b % extentBytes) else d.tensorByte [] p b
  | none => d.tensorByte [] p b

def Dev.committedBytes (d : Dev) (p : Placed) (o n : Nat) : List Byte :=
  (List.range n).map fun i => d.committedByte p (o + i)

/-- The exponent maximum of a 16-bit tensor over its committed form (R132, R324). -/
def Dev.committedMax (d : Dev) (p : Placed) (t : TensorDecl) : Int :=
  if Fmt.is16 t.format then
    expMaxOf t.format (unpackBits 16 (countOf t.dims) (d.committedBytes p 0 (2 * countOf t.dims)))
  else p.expMax

/-- A transfer's coarse scale and exponent maximum are recorded; an FP32 tensor's coarse scale stays 1.0 (R95). -/
def Dev.recordWrite (d : Dev) (plan t : Nat) (coarse : Option W32) : Dev :=
  let d := d.modPlaced plan t fun x =>
    { x with coarse := ((d.plan plan).module.tensor t).scaleFor (coarse.getD x.coarse) }
  let m := d.committedMax ((d.plan plan).tensors.getD t {}) ((d.plan plan).module.tensor t)
  d.modPlaced plan t fun x => { x with expMax := m }

/-! ### Staging (R444, R450, R451) -/

/-- Bytes of extent `i` of a tensor's stored form. -/
def extentLength (t : TensorDecl) (i : Nat) : Nat := min extentBytes (t.storedBytes - extentBytes * i)

/-- The extents a range touches, with their place in the tensor. -/
def touched (p : Placed) (o n : Nat) : List (Nat × Nat) :=
  (p.extents.zipIdx).filter fun x => n != 0 && extentBytes * x.2 < o + n && o < extentBytes * (x.2 + 1)

/-- Frames a STAGE needs for an extent's copy. -/
def Dev.stageFrames (d : Dev) (t : TensorDecl) (e i : Nat) : Nat :=
  let x := d.extent e
  match x.state with
  | .empty | .resting | .lost => extentPageCount t i
  | .resident => extentPageCount t i - x.copy.length
  | _ => 0

/-- Frames of a binding in a hub, one after another. -/
def Dev.takeCopy (d : Dev) (b : Binding) (h : Nat) : Nat → Except NoFrame (Dev × List Nat)
  | 0 => .ok (d, [])
  | n + 1 =>
    match d.assignFrame b h with
    | .error e => .error e
    | .ok (d, f) => match d.takeCopy b h n with
      | .error e => .error e
      | .ok (d, l) => .ok (d, f :: l)

/-- An extent moves to FILLING with a copy that staging may write (R444). -/
def Dev.openExtent (d : Dev) (b : Binding) (t : TensorDecl) (e i : Nat) : Except NoFrame Dev :=
  let x := d.extent e
  match x.state with
  | .filling => .ok d
  | .resident =>
    match d.takeCopy b (extentHub e) (d.stageFrames t e i) with
    | .error z => .error z
    | .ok (d, l) =>
      let frames := x.copy ++ l
      let d := d.modExtent e fun x => { x with state := .filling, complete := false, covered := [], compressed := false, copy := frames }
      .ok (if x.compressed then
          d.writeMem (x.contents.filterMap fun c => (frames[c.1 / frameBytes]?).map fun f => (frameBytes * f + c.1 % frameBytes, c.2))
        else d)
  | _ =>
    match d.takeCopy b (extentHub e) (d.stageFrames t e i) with
    | .error z => .error z
    | .ok (d, l) =>
      .ok (d.modExtent e fun x => { x with state := .filling, complete := false, covered := [], compressed := false, copy := l })

/-- Units of 64 bytes of an extent that a range covers whole. -/
def coveredUnits (o n i : Nat) : List Nat :=
  (List.range (n / 64)).filterMap fun k =>
    let b := o + 64 * k
    if b / extentBytes = i then some (b % extentBytes / 64) else none

/-- A STAGE writes its bytes (R450, R451): it ends now, or with the settlements of the extents it completed. -/
def Dev.stageNow (d : Dev) (q : Nat) (c : Cmd) (ctx : Nat) (fresh : Bool := true) : Dev :=
  let slot := c.planSlot
  let t := c.pf 1 0 16
  let p := (d.plan slot).tensors.getD t {}
  let decl := (d.plan slot).module.tensor t
  let o := c.p64 3
  let es := touched p o (c.p 5)
  let need := sumNat (es.map fun x => d.stageFrames decl x.1 x.2)
  if (d.plan c.planSlot).deadTo c.epoch then d.failCmd q c Code.objectFreed
  else match d.carried c ctx t fresh with
  | none => d.failCmd q c Code.envelopeFail
  | some (d1, coarse, bytes) =>
    if (d.ctx ctx).useT1 + need > (d.ctx ctx).quotaT1.toNat && need ≠ 0 then d1.failCmd q c Code.quotaExceeded
    else
      let b : Binding := (ctx, (d.plan slot).module.ownerOf t, true)
      let opened : Except NoFrame Dev := es.foldl (fun acc x => match acc with
        | .error z => .error z
        | .ok d => d.openExtent b decl x.1 x.2) (Except.ok d1)
      match opened with
      | .error .keys => d1.failCmd q c Code.keyidExhausted
      | .error _ => d1.failCmd q c Code.quotaExceeded
      | .ok d2 =>
        let d := d2.writeMem (d2.tensorCells p o bytes)
        let d := d.each es fun d x => d.modExtent x.1 fun y =>
          let cov := y.covered ++ (coveredUnits o (c.p 5) x.2).filter fun u => !y.covered.contains u
          { y with covered := cov, complete := ceilDiv (extentLength decl x.2) 64 ≤ cov.length, lastUse := d.tide.number }
        let d := d.recordWrite slot t coarse
        let whole := es.filter fun x => !(d2.extent x.1).complete && (d.extent x.1).complete
        if whole.isEmpty then d.succeed q c
        else d.each whole fun d x => d.modExtent x.1 fun y => { y with stagers := y.stagers ++ [(q, c.seq)] }

/-- A touched extent makes the request wait (R444). -/
def Dev.stageWaits (d : Dev) (c : Cmd) : Bool :=
  (touched ((d.plan c.planSlot).tensors.getD (c.pf 1 0 16) {}) (c.p64 3) (c.p 5)).any fun x =>
    (d.extent x.1).state == .settling || (d.extent x.1).state == .promoting

/-- A STAGE is applied, or joins those queued on their extents; its envelope is opened and its seq taken as it begins (R563). -/
def Dev.stage (d : Dev) (q : Nat) (c : Cmd) (ctx : Nat) : Dev :=
  if !d.stageWaits c then d.stageNow q c ctx
  else match d.carried c ctx (c.pf 1 0 16) with
  | none => d.failCmd q c Code.envelopeFail
  | some (d, _, _) => { d with stageQueue := d.stageQueue ++ [(q, c.seq)] }

/-- A begun command of a queue by its number. -/
def Dev.begunCmd (d : Dev) (q seq : Nat) : Option Cmd := (d.queue q).begun.find? fun c => c.seq == seq

/-- Queued staging commands are applied again, in arrival order, at a change of state (R444), once no started step that reads or
writes the tensor is uncommitted (R325, R450). -/
def Dev.retryStages (d : Dev) : Dev :=
  d.each d.stageQueue fun d x =>
    let gone := { d with stageQueue := d.stageQueue.filter (· != x) }
    match d.begunCmd x.1 x.2 with
    | none => gone
    | some c => match d.targetOf c with
      | none => gone
      | some ctx =>
        if d.stageWaits c || d.stepBusy ctx c.planSlot (c.pf 1 0 16) true then d else gone.stageNow x.1 c ctx false

/-! ### PUT_TENSOR (R325, R450) -/

/-- The effect of PUT_TENSOR on a tensor that does not rest in T2. -/
def Dev.putNow (d : Dev) (q : Nat) (c : Cmd) (ctx : Nat) : Dev :=
  let t := c.pf 1 0 16
  let p := (d.plan c.planSlot).tensors.getD t {}
  if (d.plan c.planSlot).deadTo c.epoch then d.failCmd q c Code.objectFreed
  else match d.carried c ctx t with
  | none => d.failCmd q c Code.envelopeFail
  | some (d, coarse, bytes) =>
    let cells := d.tensorCells p (c.p64 3) bytes
    let d := (d.writeMem cells).recordWrite c.planSlot t coarse
    (d.when ((d.plan c.planSlot).module.tensor t).readOnly fun d => d.mirrorCells ctx cells).succeed q c

/-- The tensor a transfer names rests in T2. -/
def Dev.namesDeep (d : Dev) (c : Cmd) : Bool := (d.plan c.planSlot).module.deep.contains (c.pf 1 0 16)

/-- The hubs whose flash engines seal the extents a staging command touches. -/
def Dev.stageHubs (d : Dev) (c : Cmd) : List Nat :=
  ((touched ((d.plan c.planSlot).tensors.getD (c.pf 1 0 16) {}) (c.p64 3) (c.p 5)).map fun x => extentHub x.1).eraseDups

/-- The owner slot of the tensor a transfer names. -/
def Dev.cmdOwner (d : Dev) (c : Cmd) : Nat := (d.plan c.planSlot).module.ownerOf (c.pf 1 0 16)

/-- A staging command begins, and its hubs' flash engines have its domain's key (R539). -/
def Dev.stageKeyed (d : Dev) (q : Nat) (c : Cmd) (ctx : Nat) : Dev :=
  (d.giveFlash ctx (d.cmdOwner c) (d.stageHubs c)).stage q c ctx

/-- The PUT_TENSOR or STAGE at the head of a queue begins; where it would need a flash key slot that is not free, it waits (R539). -/
def Dev.putHead (d : Dev) (q op : Nat) : Dev :=
  let effect (d : Dev) (c : Cmd) (ctx : Nat) : Dev := if d.namesDeep c then d.stageKeyed q c ctx else d.putNow q c ctx
  let free (d : Dev) (c : Cmd) (ctx : Nat) : Bool := !d.stepBusy ctx c.planSlot (c.pf 1 0 16) true
  match d.atHead q op with
  | .ready c ctx =>
    if d.namesDeep c && !d.flashRoom ctx (d.cmdOwner c) (d.stageHubs c) then d.waitKey 6 q
    else d.onHead q op effect (go := free)
  | _ => d.onHead q op effect (go := free)

/-- PUT_TENSOR (R325, R539). -/
def execPutTensor (q : Nat) (s : State) : Host.Outcome State Fault Refusal :=
  .next (s.onDev fun d => d.putHead q Op.putTensor)

/-- STAGE (R450, R539). -/
def execStage (q : Nat) (s : State) : Host.Outcome State Fault Refusal :=
  .next (s.onDev fun d => d.putHead q Op.stage)

/-! ### GET_TENSOR (R326, R551) -/

/-- The result of a GET_TENSOR, with the outgoing sequences of its envelopes taken. -/
def Dev.getResult (d : Dev) (c : Cmd) (ctx : Nat) : Dev × List W32 :=
  let m := (d.plan c.planSlot).module
  let t := c.pf 1 0 16
  let p := (d.plan c.planSlot).tensors.getD t {}
  let bytes := d.committedBytes p (c.p64 3) (c.p 5)
  let desc (coarse : W32) : List W32 := padTo 0 16 [coarse, BitVec.ofNat 32 (c.p 5)]
  if !c.isSealed then (d, desc p.coarse ++ wordsOfBytes (padTo 0 (64 * ceilDiv (c.p 5) 64) bytes))
  else match (d.ctx ctx).charter with
  | none => (d, desc 0)
  | some k => match releaseFor (d.charter k) m t with
    | none => (d, desc 0)
    | some r =>
      (recipientsOf (d.charter k) r).foldl (fun (acc : Dev × List W32) o =>
        (acc.1.modCharter k fun x => { x with seqOut := x.seqOut.set 1 o (x.seqOut.get 1 o + 1) },
         acc.2 ++ sealEnvelope (acc.1.charter k) k o c p.coarse bytes)) (d, desc 0)

/-- Poisoned granules under the bytes a GET_TENSOR reads. -/
def Dev.getBad (d : Dev) (c : Cmd) : List (Nat × Nat) :=
  d.badIn ((d.plan c.planSlot).tensors.getD (c.pf 1 0 16) {}) (c.p64 3) (c.p 5)

/-- A GET_TENSOR's read is held for a repair (R382, R384). -/
def Dev.getHeld (d : Dev) (c : Cmd) (ctx : Nat) : List Nat :=
  ((d.getBad c).map Prod.fst).filter fun g => !d.frameRefused (g / 16384) && d.frameReadOnly (g / 16384) &&
    ((d.badLine g).holding || !(d.badLine g).ctxs.contains ctx)

/-- The effect of GET_TENSOR: it fails on what cannot be read, which is a failed check of its context (R380, R419), or its completion waits at the host's gate (R424). -/
def Dev.getNow (d : Dev) (q : Nat) (c : Cmd) (ctx : Nat) : Dev :=
  let t := c.pf 1 0 16
  let p := (d.plan c.planSlot).tensors.getD t {}
  let decl := (d.plan c.planSlot).module.tensor t
  if (d.plan c.planSlot).deadTo c.epoch then d.failCmd q c Code.objectFreed
  else match (touched p (c.p64 3) (c.p 5)).find? fun x => (d.extent x.1).state == .lost with
  | some x => d.failCmd q c Code.deepReadFail (some x.1)
  | none =>
    match d.getBad c with
    | (g, off) :: _ =>
      ((d.modBadLine g fun x => { x with ctxs := x.ctxs.filter (· != ctx) }).checkFailed ctx (d.badCode g)).failCmd q c
        (d.badCode g) (decl.elemAt off)
    | [] =>
      let (d, ws) := d.getResult c ctx
      d.holdEgress ctx (.ending { queue := q, cmd := c, result := ws })

/-- GET_TENSOR (R326). -/
def execGetTensor (q : Nat) (s : State) : Host.Outcome State Fault Refusal :=
  .next (s.onDev fun d =>
    match d.atHead q Op.getTensor with
    | .ready c ctx =>
      if d.stepBusy ctx c.planSlot (c.pf 1 0 16) false then d
      else match d.getHeld c ctx with
      | [] => d.onHead q Op.getTensor fun d c ctx => d.getNow q c ctx
      | l => d.each l fun d g => d.holdCtxRead ctx g
    | _ => d.onHead q Op.getTensor fun d c ctx => d.getNow q c ctx)

end Sys2Proof.Machine
end

