-- ==== Sys2Proof/Machine/Fabric.lean ====
section
/-! DEFINITION. The fabric (chapter 14): ports and handshakes, the harbour key, packets and remote windows, groups. -/

namespace Sys2Proof.Machine

/-! ### Ports (R464 to R468, R471, R478, R500) -/

def portUp : Nat := 3

/-- The fabric die of a port. -/
def fdOf (p : Nat) : Nat := p / 12

/-- A port leaves its state for another (R478, R500): leaving state 3 sets its FAB_DOWN bit and loses its hop key. -/
def Dev.setPort (d : Dev) (p st : Nat) : Dev :=
  let was := (d.port p).state
  let d := d.modPort p fun x => { x with state := st, hopKey := if st = portUp then x.hopKey else none }
  let d := d.when ((was == portUp) != (st == portUp)) fun d => d.modFabric fun f => { f with linkChange := true }
  if was = portUp && st ≠ portUp then
    (d.modPort p fun x => { x with downFlag := true }).errEvent .fabric (die := dieOfFd (fdOf p))
  else d

/-- Enabled ports that are off begin to train in spring service (R500). -/
def Dev.trainPorts (d : Dev) : Dev :=
  if d.sys.service ≠ .spring || !d.fabric.train || d.fabric.harbour = 0 then d
  else d.each (List.range 48) fun d p => if (d.port p).enable && (d.port p).state = 0 then d.setPort p 1 else d

/-- FABRIC_TRAIN_ENABLE (R500): FAB_CTRL.train. -/
def Dev.setTrain (d : Dev) (train : Bool) : Dev :=
  (d.modFabric fun f => { f with train := train, dropAtEbb := !train }).trainPorts

def execFabricTrainEnable (train : Bool) (s : State) : Host.Outcome State Fault Refusal :=
  .next (s.onDev fun d => if d.regsUp then d.setTrain train else d)

/-- Ports go down at the ebb after train was cleared (R500). -/
def Dev.dropPorts (d : Dev) : Dev :=
  if !d.fabric.dropAtEbb then d
  else (d.each (List.range 48) fun d p => if (d.port p).state = 0 then d else d.setPort p 0).modFabric fun f =>
    { f with dropAtEbb := false }

/-- A link breaks R471: the wrong basin for its port, a second link of a pair, or an eighteenth of a pair of basins. -/
def Dev.miswired (d : Dev) (h : Handshake) : Bool :=
  let mine := d.fabric.address.toNat / 32
  let others := (d.portsUp.filter fun p => p.1 != h.port).map Prod.snd
  if h.port ≤ 30 then h.address / 32 != mine || others.any fun p => p.farAddr == h.address
  else h.address / 32 == mine ||
    17 ≤ (others.filter fun p => p.farAddr / 32 == h.address / 32).length +
      (d.fabric.known.filter fun k => k.1 / 32 == mine && k.2 / 32 == h.address / 32).length

/-- The handshake fails: the port stays out of service, and the log says so (R478). -/
def Dev.refuseLink (d : Dev) (p st : Nat) : Dev :=
  (d.setPort p st).logEvent 2 Code.fabricAuth (die := dieOfFd (fdOf p)) (detail := p)

/-- LINK_HANDSHAKE (R478) on a port that has trained; the links of other devices that the link-control frames give are
those the routing tables are built from (R473). -/
def Dev.handshake (d : Dev) (h : Handshake) : Dev :=
  if h.harbour ≠ d.fabric.harbour || h.lcState ≠ d.life.state || !h.chainOk || !h.sigOk then d.refuseLink h.port 5
  else if d.miswired h then (d.refuseLink h.port 4).dwEvent .links (dieOfFd (fdOf h.port))
  else
    let d := d.modPort h.port fun x =>
      { x with farAddr := h.address, farPort := h.farPort, farSpares := h.spareMap, half := x.half || h.half
               rate := BitVec.ofNat 2 (max h.rate (min 2 x.maxRate.toNat)), hopKey := some (hkdf h.secret "ONV-HOP" []) }
    let d := (d.setPort h.port portUp).modFabric fun f => { f with known := h.links }
    match d.fabric.harbourKey with
    | some k => d.emit (.port h.port (.harbourKey k))
    | none => d

def execLinkHandshake (h : Handshake) (s : State) : Host.Outcome State Fault Refusal :=
  if 48 ≤ h.port then .fault (.unitAbsent h.port)
  else .next (s.onDev fun d =>
    if (d.port h.port).state ≠ 1 && (d.port h.port).state ≠ 2 then d
    else if 2 < h.rate then d.setPort h.port 6
    else d.handshake h)

/-- Ports that lead away from the source along the beacon tree, for what arrived on port `p` (R58). -/
def Dev.awayFrom (d : Dev) (p : Nat) : List Nat :=
  (d.portsUp.map Prod.fst).filter fun q => if p ≤ 30 then 31 ≤ q else q ≤ 30

/-- HARBOUR_KEY_RECEIVE (R479): the key is kept and passed on along the beacon tree. -/
def execHarbourKeyReceive (port : Nat) (key : List Byte) (authentic : Bool) (s : State) :
    Host.Outcome State Fault Refusal :=
  if 48 ≤ port then .fault (.unitAbsent port)
  else .next (s.onDev fun d =>
    if (d.port port).state ≠ portUp || !authentic || d.tide.source || d.fabric.harbourKey = some key then d
    else
      let d := d.modFabric fun f => { f with harbourKey := some key }
      d.each (d.awayFrom port) fun d q => d.emit (.port q (.harbourKey key)))

/-- A spare lane of the port's die, cabled with it at both ends and free (R468). -/
def Dev.freeSpare (d : Dev) (p : Nat) : Option Nat :=
  let map := d.fabric.spareMap.get 0xFFFFFFFF (fdOf p)
  let far := (d.port p).farSpares
  let used := (d.fabric.ports.filter fun q => fdOf q.1 == fdOf p).flatMap fun q => q.2.spares
  (List.range 8).find? fun s => field map (4 * s) 4 == p % 12 && !used.contains s &&
    (List.range 8).any fun t => field far (4 * t) 4 == (d.port p).farPort % 12

/-- The port retrains (R466, R468); Dikewatch counts it (R502). -/
def Dev.retrain (d : Dev) (p : Nat) : Dev :=
  ((d.dwEvent .links (dieOfFd (fdOf p))).modPort p fun x => { x with retrains := x.retrains ++ [d.tide.number] }).setPort p 1

/-- LANE_DEGRADE (R468): a spare replaces the lane, the port halves, or it goes down. -/
def Dev.degrade (d : Dev) (p lane : Nat) : Dev :=
  let d := d.dwEvent .links (dieOfFd (fdOf p))
  match d.freeSpare p with
  | some s => (d.modPort p fun x => { x with spares := x.spares ++ [s] }).retrain p
  | none =>
    let d := d.modPort p fun x => { x with badLanes := if x.badLanes.contains lane then x.badLanes else x.badLanes ++ [lane] }
    let bad := (d.port p).badLanes
    if bad.any (· < 4) && bad.any (4 ≤ ·) then d.setPort p 6
    else (d.modPort p fun x => { x with half := true }).retrain p

/-- LANE_DEGRADE (R468, R502): `rate` is the lane's corrected-symbol rate over one tide in 1/256 of 2^−12; Dikewatch
reads it, and above 2^−12 the lane is replaced. -/
def execLaneDegrade (port lane rate : Nat) (s : State) : Host.Outcome State Fault Refusal :=
  if 48 ≤ port || 8 ≤ lane then .fault (.unitAbsent port)
  else .next (s.onDev fun d =>
    if (d.port port).state = portUp then
      (d.modDike fun x => { x with fecMargin := x.fecMargin.set 0 port rate }).when (256 < rate) fun d => d.degrade port lane
    else d)

/-- PORT_RETRAIN (R466): more than 1,024 replays in one tide. -/
def execPortRetrain (port replays : Nat) (s : State) : Host.Outcome State Fault Refusal :=
  if 48 ≤ port then .fault (.unitAbsent port)
  else .next (s.onDev fun d =>
    if (d.port port).state = portUp && 1024 < replays then d.retrain port else d)

/-! ### Routing (R473 to R475) -/

/-- The reference wiring (R472): the far device and port of an intra-basin port, and the far basin, device and port of a global one;
slots 527 to 543 carry no link. -/
def refIntra (dev port : Nat) : Nat × Nat := ((dev + 1 + port) % 32, 30 - port)

def refGlobal (basin dev port : Nat) : Option (Nat × Nat × Nat) :=
  let k := 17 * dev + (port - 31)
  let m := if k % 31 < 30 then 30 - k % 31 else 0
  let slot := 31 * (k / 31) + m
  if 527 ≤ k then none else some ((basin + 1 + k % 31) % 32, slot / 17, 31 + slot % 17)

/-- The links the control die knows, from this device's ports and the handshakes of the others (R473), in both directions. -/
def Dev.linksKnown (d : Dev) : List (Nat × Nat) :=
  let l := d.portsUp.map (fun p => (d.fabric.address.toNat, p.2.farAddr)) ++ d.fabric.known
  l ++ l.map fun k => (k.2, k.1)

/-- The gateway of a route that leaves on a port: this device for a global port, else the device the port joins. -/
def Dev.gatewayOf (d : Dev) (p : Nat × Port) : Nat := if 31 ≤ p.1 then d.fabric.address.toNat else p.2.farAddr

/-- Ports in the order of their gateways, whose links of a pair are numbered in that order (R475, log 53). -/
def Dev.byGateway (d : Dev) (l : List (Nat × Port)) : List Nat :=
  (List.range 32).flatMap fun g => ((l.filter fun p => d.gatewayOf p % 32 == g).map Prod.fst)

/-- A port that starts a non-minimal route (R474): from its far end, or over one link of it, a third basin is reached that has a link to
the destination's. -/
def Dev.detours (d : Dev) (a : Nat) (p : Nat × Port) : Bool :=
  let mine := d.fabric.address.toNat / 32
  let links := d.linksKnown
  let far := p.2.farAddr
  let thirds := if far / 32 ≠ mine then [far / 32] else (links.filter fun k => k.1 == far).map fun k => k.2 / 32
  thirds.any fun o => o != mine && o != a / 32 && links.any fun k => k.1 / 32 == o && k.2 / 32 == a / 32

/-- Ports that start a minimal route to an address, and a non-minimal one, from the links known (R473, R474). -/
def Dev.routeTo (d : Dev) (a : Nat) : Route :=
  let mine := d.fabric.address.toNat / 32
  let up := d.portsUp
  let direct := (up.filter fun p => p.2.farAddr == a).map Prod.fst
  let gateways := (d.linksKnown.filter fun k => k.1 / 32 == mine && k.2 / 32 == a / 32).map Prod.fst
  let via := d.byGateway (up.filter fun p =>
    (gateways.contains p.2.farAddr && p.1 ≤ 30) || (p.2.farAddr / 32 == a / 32 && 31 ≤ p.1))
  let minimal := if a / 32 = mine then direct else via
  { minimal := minimal, nonMinimal := (up.filter fun p => !minimal.contains p.1 && d.detours a p).map Prod.fst }

/-- Addresses that some link of the harbour reaches. -/
def Dev.reached (d : Dev) : List Nat :=
  (d.portsUp.map (fun p => p.2.farAddr) ++ d.fabric.known.flatMap fun k => [k.1, k.2]).eraseDups.filter
    fun a => a != d.fabric.address.toNat

/-- The control die rewrites the tables at the first ebb after a link changes state (R473). -/
def Dev.rewriteRoutes (d : Dev) : Dev :=
  if !d.fabric.linkChange then d
  else
    let routes := d.reached.foldl (fun t a => Tab.set {} t a (d.routeTo a)) []
    d.modFabric fun f => { f with routes := routes, linkChange := false
                                  detoured := f.detoured.filter fun a => (routes.get {} a).minimal.isEmpty }

/-! ### Packets (R469, R477, R481, R482, R488 to R491) -/

/-- A window's check (R489): the run or keeper that takes the packet. -/
inductive WindowUse where
  | refused
  | plan (slot : Nat)
  | keeper (ctx : Nat) (source : Nat × Nat)
  deriving DecidableEq, Repr

/-- Bytes of a plan's pages, from its base. -/
def Plan.windowBytes (p : Plan) : Nat := frameBytes * sumNat (p.module.tensors.map TensorDecl.pages)

/-- The tensor of a plan at a byte offset from its base, and the offset in it. -/
def Plan.tensorAtOffset (p : Plan) (o : Nat) : Option (Nat × Nat) :=
  let page := p.base / frameBytes + o / frameBytes
  ((List.range p.tensors.length).find? fun t =>
      let x := p.tensors.getD t {}
      x.firstPage ≤ page && page < x.firstPage + (p.module.tensor t).pages).map fun t =>
    (t, frameBytes * (page - (p.tensors.getD t {}).firstPage) + o % frameBytes)

/-- The tensors that an f.* operation of a module writes (R488). -/
def Module.fabricOutputs (m : Module) : List Nat := ((m.ops.filter OpRec.isCollective).flatMap OpRec.writes).eraseDups

def Dev.windowUse (d : Dev) (p : FabricPacket) : WindowUse :=
  if p.window < 16384 then
    let slot := p.window / 16
    let x := d.plan slot
    let g := d.group ((x.bindings.getD (p.window % 16) (0, 0)).1 % 1024)
    if !x.loaded || x.bindings.length ≤ p.window % 16 || g.state ≠ .opened || !g.ranks.contains p.src ||
        (p.type ≠ 0 && p.type ≠ 3) || p.offset + p.length > x.windowBytes then .refused
    else if p.type = 3 then .plan slot
    else match x.tensorAtOffset p.offset, x.tensorAtOffset (p.offset + p.length - 1) with
      | some (t, _), some (u, _) => if t = u && x.module.fabricOutputs.contains t then .plan slot else .refused
      | _, _ => .refused
  else
    let c := p.window - 16384
    match ((d.haven c).keeps.find? fun k => k.bound && k.source == p.src) with
    | some k => if p.window < 20480 && (p.type = 0 || p.type = 1) then .keeper c (k.source, k.sourceCtx) else .refused
    | none => .refused

/-- A run has issued and not ended an operation for which a condition holds (R490). -/
def Dev.awaits (d : Dev) (slot : Nat) (f : OpRec → Nat → Bool) : Option (Nat × Run) :=
  d.runs.find? fun r => r.2.plan == slot && r.2.state == .running &&
    r.2.issued.any fun k => !r.2.done.contains k && (((d.plan slot).module.stepOps r.2.step)[k]?).any fun o => f o k

/-- The run whose step takes a remote write: it has issued an operation that writes the tensor (R488, R490). -/
def Dev.takesWrite (d : Dev) (slot : Nat) (p : FabricPacket) : Option (Nat × Run) :=
  d.awaits slot fun o _ => match (d.plan slot).tensorAtOffset p.offset with
    | some (t, _) => o.writes.contains t
    | none => false

/-- The run whose step takes collective data: it has issued the operation that the packet names (R469, R490). -/
def Dev.takesData (d : Dev) (slot : Nat) (p : FabricPacket) : Option (Nat × Run) :=
  d.awaits slot fun _ k => k == field p.op 0 16

/-- A remote write lands in the receiving step's results (R490, R501). -/
def Dev.landWrite (d : Dev) (slot : Nat) (p : FabricPacket) : Dev :=
  match (d.plan slot).tensorAtOffset p.offset, d.takesWrite slot p with
  | some (t, o), some r =>
    let cells := d.tensorCells ((d.plan slot).tensors.getD t {}) o p.payload
    { d with runs := d.runs.put r.1 { r.2 with overlay := cells.foldl (fun l c => Ovl.set l c.1 c.2) r.2.overlay, peer := true } }
  | _, _ => d

/-- A keeper's mirror of a source takes bytes, or gives them. -/
def Dev.modKeep (d : Dev) (c : Nat) (src : Nat × Nat) (f : Keeping → Keeping) : Dev :=
  d.modHaven c fun h => { h with keeps := h.keeps.map fun k => if k.source = src.1 && k.sourceCtx = src.2 then f k else k }

/-- A read response (R469 type 2) from a keeper's mirror; its sequence is drawn as it leaves. -/
def Dev.mirrorResponse (d : Dev) (c : Nat) (src : Nat × Nat) (p : FabricPacket) : FabricPacket :=
  let k := (d.haven c).keeps.find? fun k => k.source == src.1 && k.sourceCtx == src.2
  let bytes := (List.range p.length).map fun i => match k with
    | some x => Mem.read x.mirror (p.offset + i)
    | none => 0
  { dst := p.src, src := d.fabric.address.toNat, cls := p.cls, hops := 0, detour := false, type := 2, window := p.window
    offset := p.offset, length := p.length, seq := 0, op := 0, payload := bytes, tagOk := true }

/-- The key that a packet's window names (R481, R488). -/
def Dev.keyOfPacket (d : Dev) (p : FabricPacket) : Nat :=
  if p.type = 6 then controlKeyNo
  else if p.window < 16384 then
    groupKeyNo (d.group ((((d.plan (p.window / 16)).bindings.getD (p.window % 16) (0, 0)).1) % 1024)).groupId
  else havenKeyNo (p.window - 16384)

/-- The packet by which its duplicates are known: key, origin and sequence (R477). -/
def Dev.seqOf (d : Dev) (p : FabricPacket) : Nat × Nat × Nat := (d.keyOfPacket p, p.src, p.seq)

/-- An acknowledgement arrives (R477). -/
def Dev.acked (d : Dev) (src seq key : Nat) : Dev :=
  d.modFabric fun f => { f with unacked := f.unacked.filter fun u => u.2.dst != src || u.2.seq != seq || u.2.key != key }

/-- A packet passes its window's checks and is placed. -/
def Dev.placePacket (d : Dev) (p : FabricPacket) : Dev :=
  let d := d.modFabric fun f =>
    { f with seen := (f.seen.filter fun x => x.1 != d.keyOfPacket p || x.2.1 != p.src || p.seq < x.2.2 + 65536) ++ [d.seqOf p] }
  let d := d.emit (.fabric p.src (.ack d.fabric.address.toNat p.seq))
  match d.windowUse p with
  | .plan slot => if p.type = 0 then d.landWrite slot p else d
  | .keeper c src =>
    if p.type = 0 then d.modKeep c src fun k =>
      { k with mirror := Mem.writeAll (p.payload.zipIdx.map fun b => (p.offset + b.2, b.1)) k.mirror }
    else d.holdEgress c (.out (.fabric p.src (.packet (d.mirrorResponse c src p))))
  | .refused => d

/-- The port a packet leaves on, and whether it has then set detour (R474, R475): classes P and S take the minimal port of the lowest
gateway that is up, else the lowest-numbered non-minimal one, to which they keep until the tables are rewritten; classes N and B one of
either, as the queues make them choose.  A packet that has set detour keeps to minimal routes. -/
def Dev.pickRoute (d : Dev) (cls dst : Nat) (detour : Bool) : Option (Nat × Bool) :=
  let r := d.fabric.routes.get {} dst
  let up (l : List Nat) : List Nat := l.filter fun q => (d.port q).state == portUp
  let straight := (up r.minimal).map fun q => (q, detour)
  let around := if detour then [] else (up r.nonMinimal).map fun q => (q, true)
  let all := if 2 ≤ cls && !detour && d.fabric.detoured.contains dst then around else straight ++ around
  if 2 ≤ cls then all.head? else all[Config.egressChoice d.out.length % max 1 all.length]?

/-- A packet for another device goes on (R469, R474 to R476); one that has taken four hops finds no virtual lane. -/
def Dev.forward (d : Dev) (p : FabricPacket) : Dev :=
  if 4 ≤ p.hops then d
  else match d.pickRoute p.cls p.dst p.detour with
  | some (q, detour) =>
    let turns := decide (2 ≤ p.cls) && !p.detour && detour && !d.fabric.detoured.contains p.dst
    (d.when turns fun d => d.modFabric fun f => { f with detoured := f.detoured ++ [p.dst] }).emit
      (.port q (.packet { p with hops := p.hops + 1, detour := detour }))
  | none => d

/-- A credit comes (R490): its payload names step and operation, its window the group (log 57).  An input that waits for it leaves;
else it is kept. -/
def Dev.takeCredit (d : Dev) (p : FabricPacket) : Dev :=
  let slot := p.window / 16
  let x := d.plan slot
  let g := d.group ((x.bindings.getD (p.window % 16) (0, 0)).1 % 1024)
  if 16384 ≤ p.window || !x.loaded || x.bindings.length ≤ p.window % 16 || g.state ≠ .opened || !g.ranks.contains p.src then
    d.modFabric fun f => { f with refusals := f.refusals + 1 }
  else
    let step := natOfBytes (p.payload.take 4)
    let op := natOfBytes ((p.payload.drop 4).take 2)
    let i := g.ranks.idxOf p.src
    match d.runs.find? fun r => r.2.plan == slot && r.2.state == .running && r.2.step == step && r.2.toSend.contains (op, i) with
    | none => d.modFabric fun f => { f with credits := f.credits ++ [(g.groupId, step, op, p.src)] }
    | some (id, r) => match (x.module.stepOps step)[op]? with
      | some o =>
        { d with runs := d.runs.put id { r with toSend := r.toSend.filter (· != (op, i)) } }.sendInput r op o
          (d.tensorIn r o.collInput) i
      | none => d

/-- Collective data that is not of the operation the receiver's step has issued for the group breaks that collective, on every rank, with
FABRIC_AUTH (R487); where the step awaits none, the data is dropped (R490). -/
def Dev.mismatched (d : Dev) (slot : Nat) (p : FabricPacket) : Dev :=
  match d.awaits slot fun o _ => o.isCollective && o.f 3 8 8 == p.window % 16 with
  | none => d
  | some (id, r) =>
    match r.issued.find? fun k => !r.done.contains k &&
        (((d.plan slot).module.stepOps r.step)[k]?).any fun o => o.isCollective && o.f 3 8 8 == p.window % 16 with
    | none => d
    | some k =>
      let g := d.group (((d.plan slot).bindings.getD (p.window % 16) (0, 0)).1 % 1024)
      (d.each (g.ranks.filter (· != d.fabric.address.toNat)) fun d a =>
        d.sendTracked r.ctx a (.group (.mismatch g.groupId r.step k))).failColl id k Code.fabricAuth

/-- PACKET_RECEIVE (R477, R482, R489): tag, duplicate, window; a packet for another device passes on.
A stopped device serves haven reads alone (R528). -/
def Dev.receivePacket (d : Dev) (p : FabricPacket) : Dev :=
  if d.sys.service ≠ .spring then d
  else if p.dst ≠ d.fabric.address.toNat then d.forward p
  else if d.dike.stopped && !(p.type == 1 && 16384 ≤ p.window) then d
  else if !p.tagOk then d.modFabric fun f => { f with tagFails := f.tagFails + 1 }
  else if p.type = 5 then d.acked p.src p.seq (d.keyOfPacket p)
  else if p.type = 4 then d.takeCredit p
  else if d.fabric.seen.contains (d.seqOf p) then d.emit (.fabric p.src (.ack d.fabric.address.toNat p.seq))
  else if p.type = 2 || p.type = 6 then d.placePacket p
  else match d.windowUse p with
    | .refused => (d.modFabric fun f => { f with refusals := f.refusals + 1 }).emit (.fabric p.src (.refused p.seq))
    | .plan slot =>
      if ((if p.type = 0 then d.takesWrite slot p else d.takesData slot p)).isSome then d.placePacket p
      else if p.type = 3 then d.mismatched slot p else d
    | .keeper _ _ => d.placePacket p

def execPacketReceive (p : FabricPacket) (s : State) : Host.Outcome State Fault Refusal :=
  .next (s.onDev fun d => d.receivePacket p)

/-! ### Groups (R483 to R487) -/

/-- A group handle (R483). -/
def Group.handle (x : Group) (slot : Nat) : Nat := slot + 1024 * (x.generation % 4194304)

/-- The digest of a rank list: its entries of 16 bits. -/
def listDigest (ranks : List Nat) : List Byte := Config.sha512 (ranks.flatMap (bytesOfNat 2))

/-- The digest of a context's charter, or zeros (R485). -/
def Dev.charterDigest (d : Dev) (c : Nat) : List Byte :=
  match (d.ctx c).charter with
  | some k => (d.charter k).digest
  | none => List.replicate 64 0

/-- The slot returns to free; its handle will not come again (R483, R486). -/
def Dev.freeGroup (d : Dev) (g : Nat) : Dev :=
  { d with jobs := d.jobs.erase g }.modGroup g fun x => { generation := x.generation + 1 }

/-- A GROUP_OPEN fails. -/
def Dev.failGroup (d : Dev) (g code : Nat) : Dev :=
  let x := d.group g
  let d := d.freeGroup g
  match x.cmd with
  | some (q, c) => d.failCmd q c code
  | none => d

/-- The group slot opening under an identity. -/
def Dev.openingGroup (d : Dev) (gid : Nat) : Option Nat :=
  (d.fabric.groups.find? fun p => p.2.state == .opening && p.2.groupId == gid).map Prod.fst

/-- The sequences of a group's key start over with a new key (R482, R485). -/
def Dev.restartSeqs (d : Dev) (groupId : Nat) : Dev :=
  d.modFabric fun f => { f with nextSeq := f.nextSeq.filter fun n => n.1 / 1024 != groupKeyNo groupId
                                seen := f.seen.filter fun n => n.1 != groupKeyNo groupId }

/-- The nonce has come: the key is derived and GROUP_OPEN completes (R480, R485); the sequences under the new key begin at 1
(R481). -/
def Dev.completeGroup (d : Dev) (g nonce : Nat) : Dev :=
  let x := d.group g
  let d := d.restartSeqs x.groupId
  let d := d.modGroup g fun y =>
    { y with state := .opened, nonce := nonce, key := some (d.linkKey x.ctx x.groupId nonce), cmd := none }
  match x.cmd with
  | some (q, c) => d.succeed q c [BitVec.ofNat 32 (x.handle g), BitVec.ofNat 32 x.rank]
  | none => d

/-- Rank 0 tells every other rank. -/
def Dev.tellRanks (d : Dev) (x : Group) (m : GroupControl) : Dev :=
  d.each (x.ranks.drop 1) fun d a => d.sendTracked x.ctx a (.group m)

/-- At rank 0: once every rank has matched, the nonce is drawn and sent. -/
def Dev.openIfMatched (d : Dev) (g : Nat) : Dev :=
  let x := d.group g
  if x.state = .opening && x.rank = 0 && (List.range x.ranks.length).all x.matched.contains then
    let (b, d) := d.draw
    let n := drawNat b
    (d.tellRanks x (.nonce x.groupId n)).completeGroup g n
  else d

/-- At rank 0: one rank's request is checked (R484, R485). -/
def Dev.matchRank (d : Dev) (g src : Nat) (list charter : List Byte) (rank : Nat) : Dev :=
  let x := d.group g
  if x.ranks.getD rank 1024 ≠ src || list ≠ listDigest x.ranks || charter ≠ d.charterDigest x.ctx then
    (d.tellRanks x (.refuse x.groupId Code.fabricAuth)).failGroup g Code.fabricAuth
  else (d.modGroup g fun y => { y with matched := if y.matched.contains rank then y.matched else y.matched ++ [rank] }
    ).openIfMatched g

/-- The effect of GROUP_OPEN (R483 to R485). -/
def Dev.groupOpen (d : Dev) (q : Nat) (c : Cmd) (ctx : Nat) : Dev :=
  let n := c.pf 2 0 11
  let ranks := (List.range n).map fun r => bitsOf (wordAt c.payload (16 + r / 2)) (16 * (r % 2)) 10
  let clean := (List.range n).all fun r => bitsOf (wordAt c.payload (16 + r / 2)) (16 * (r % 2) + 10) 6 == 0
  let me := d.fabric.address.toNat
  if !clean || !ranks.contains me || !noDup ranks then d.failCmd q c Code.descMalformed
  else match (List.range 1024).find? fun g => (d.group g).state == .free with
  | none => d.failCmd q c Code.groupExhausted
  | some g =>
    let rank := ranks.idxOf me
    let gid := c.p64 0
    let d := d.modGroup g fun x =>
      { x with state := .opening, groupId := gid, ranks := ranks, rank := rank, ctx := ctx, matched := [0], cmd := some (q, c) }
    if rank ≠ 0 then
      d.sendTracked ctx (ranks.getD 0 0) (.group (.request gid (listDigest ranks) (d.charterDigest ctx) rank))
    else
      let mine := d.fabric.early.filter fun e => match e.2 with
        | .request i _ _ _ => i == gid
        | _ => false
      let d := d.modFabric fun f => { f with early := f.early.filter fun e => !mine.contains e }
      d.each mine fun d e => match e.2, d.openingGroup gid with
        | .request _ l k r, some g => d.matchRank g e.1 l k r
        | _, _ => d

/-- GROUP_OPEN (R483). -/
def execGroupOpen (q : Nat) (s : State) : Host.Outcome State Fault Refusal :=
  .next (s.onDev fun d => d.onHead q Op.groupOpen fun d c ctx => d.groupOpen q c ctx)

/-- GROUP_OPEN_TIMEOUT (R484): 2 s after this device's open. -/
def execGroupOpenTimeout (group : Nat) (s : State) : Host.Outcome State Fault Refusal :=
  if 1024 ≤ group then .fault (.unitAbsent group)
  else .next (s.onDev fun d => if (d.group group).state = .opening then d.failGroup group Code.peerLost else d)

/-- The run of a context that has issued a collective of a group (R40, R252). -/
def Dev.joined (d : Dev) (groupId step op : Nat) : List Nat :=
  (d.runs.filter fun r => r.2.step == step && r.2.issued.contains op &&
    (((d.plan r.2.plan).module.stepOps step)[op]?).any fun o => (d.collGroup r.2 o).1.groupId == groupId).map Prod.fst

/-- GROUP_CONTROL_RECEIVE (R40, R485): a request at rank 0, rank 0's answer, or the abort of a collective. -/
def Dev.groupControl (d : Dev) (src : Nat) (m : GroupControl) : Dev :=
  match m with
  | .request gid l k r =>
    match d.openingGroup gid with
    | some g => if (d.group g).rank = 0 then d.matchRank g src l k r else d
    | none => d.modFabric fun f => { f with early := f.early ++ [(src, m)] }
  | .nonce gid n =>
    match d.openingGroup gid with
    | some g => if (d.group g).rank ≠ 0 && (d.group g).ranks.getD 0 1024 = src then d.completeGroup g n else d
    | none => d
  | .refuse gid code =>
    match d.openingGroup gid with
    | some g => if (d.group g).rank ≠ 0 && (d.group g).ranks.getD 0 1024 = src then d.failGroup g code else d
    | none => d
  | .abort gid step op origin =>
    d.each (d.joined gid step op) fun d id => d.failColl id op Code.remoteFault (some origin)
  | .mismatch gid step op => d.each (d.joined gid step op) fun d id => d.failColl id op Code.fabricAuth

def execGroupControlReceive (src : Nat) (m : GroupControl) (s : State) : Host.Outcome State Fault Refusal :=
  .next (s.onLive fun d => if d.fabric.harbourKey.isSome then d.groupControl src m else d)

/-- GROUP_CLOSE (R486): a handle that names no open group of the context has been freed. -/
def execGroupClose (q : Nat) (s : State) : Host.Outcome State Fault Refusal :=
  .next (s.onDev fun d => d.onHead q Op.groupClose fun d c ctx =>
    let g := c.p 0 % 1024
    let x := d.group g
    if x.state ≠ .opened || x.handle g ≠ c.p 0 || x.ctx ≠ ctx then d.failCmd q c Code.objectFreed
    else d.modGroup g fun y => { y with state := .closing, cmd := some (q, c) })

/-! ### Packets that go unacknowledged (R477, R482, R489) -/

/-- What waits on a lost packet breaks with a code (R477, R482, R489): a collective, or a GROUP_OPEN. -/
def Dev.breakWaiting (d : Dev) (code : Nat) (u : Unacked) : Dev :=
  match u.msg with
  | some (.collective m) => d.each (d.joined m.groupId m.step m.op) fun d id => d.failColl id m.op code
  | some (.group (.request gid _ _ _)) | some (.group (.nonce gid _)) => match d.openingGroup gid with
    | some g => d.failGroup g code
    | none => d
  | _ => d

/-- The collectives under way that wait on a device: they send to it, or take an input from it (R477). -/
def Dev.waitingOn (d : Dev) (dst : Nat) : List (Nat × Nat) :=
  d.runs.flatMap fun r => if r.2.state ≠ .running then [] else
    (r.2.issued.filter fun k => !r.2.done.contains k && (((d.plan r.2.plan).module.stepOps r.2.step)[k]?).any fun o =>
      (d.collDests r.2 o ++ d.collSources r.2 o).any fun i => (d.collGroup r.2 o).1.ranks[i]? == some dst).map fun k => (r.1, k)

/-- Closing groups are freed at the ebb, with the commands that closed them (R486). -/
def Dev.groupsAtEbb (d : Dev) : Dev × List Ending :=
  let gs := (d.fabric.groups.filter fun p => p.2.state == .closing)
  (d.each (gs.map Prod.fst) Dev.freeGroup,
   gs.filterMap fun p => p.2.cmd.map fun x => ({ queue := x.1, cmd := x.2 } : Ending))

end Sys2Proof.Machine
end

