-- ==== Sys2Proof/Machine/Plans.lean ====
section
/-! DEFINITION. The plan commands (R261 to R289, R321 to R323): LOAD_PLAN and its completion, UNLOAD_PLAN, RUN_PLAN and
DRAIN_TILE, and what they do at the ebb. -/

namespace Sys2Proof.Machine

/-! ### LOAD_PLAN (R261, R264 to R266) -/

/-- A free loader core (R266). -/
def Dev.freeCore (d : Dev) : Option Nat := (List.range 8).find? fun k => (d.load k).isNone && !d.coresDown.contains k

/-- LOAD_PLAN (R264, R266): the load starts on a free core, or waits for one. -/
def execLoadPlan (q : Nat) (s : State) : Host.Outcome State Fault Refusal :=
  .next (s.onDev fun d => d.onHead q Op.loadPlan
    (fun d c ctx => match d.freeCore with
      | some k => d.setLoad k (some { queue := q, cmd := c, ctx := ctx, neap := d.sys.service == .neap })
      | none => d)
    (go := fun d _ _ => d.freeCore.isSome))

/-- A rollback, hold or evacuation of the context makes a load wait (R285). -/
def Dev.loadWaits (d : Dev) (c : Nat) : Bool := (d.ctx c).rollback.isSome || (d.ctx c).held

/-- A load's outcome is committed (R265, R266, R323): the handle, or the refusal record. -/
def Dev.completeLoad (d : Dev) (l : Load) : Dev :=
  if (d.ctx l.ctx).evacuated then d.failCmd l.queue l.cmd Code.evacuated
  else match d.loadModule (reqOf l) (moduleBytes l.cmd) (l.cmd.p 4) with
  | .ok (d, slot) => d.succeed l.queue l.cmd [BitVec.ofNat 32 ((d.plan slot).handle slot)]
  | .error r =>
    d.finish { queue := l.queue, cmd := l.cmd, result := r.words
               error := some { code := r.code, op := if r.op = 0xFFFFFFFF then 0xFFFF else r.op, step := r.step } }

/-- LOAD_PLAN_COMPLETE (R266). -/
def execLoadPlanComplete (core : Nat) (s : State) : Host.Outcome State Fault Refusal :=
  if 8 ≤ core then .fault (.unitAbsent core)
  else .next (s.onDev fun d =>
    match d.load core with
    | none => d
    | some l => if d.loadWaits l.ctx then d else (d.setLoad core none).completeLoad l)

/-! ### UNLOAD_PLAN (R284) -/

/-- UNLOAD_PLAN (R284): the plan is marked, and unloaded at an ebb. -/
def execUnloadPlan (q : Nat) (s : State) : Host.Outcome State Fault Refusal :=
  .next (s.onDev fun d => d.onHead q Op.unloadPlan fun d c _ =>
    d.modPlan c.planSlot fun p => { p with unloading := p.unloading ++ [(q, c)] })

/-- Steps of the plan run or are queued: RUN_PLANs begun, and those fetched that do not stand behind an unload. -/
def Dev.planBusy (d : Dev) (slot : Nat) : Bool :=
  let p := d.plan slot
  (d.runCmds.any fun r => r.plan == slot) || (d.runs.any fun r => r.2.plan == slot) ||
    d.queues.any fun x => x.2.fetched.any fun c =>
      c.opcode == Op.runPlan && c.p 0 == p.handle slot && !p.unloading.any fun u => u.1 == x.1 && u.2.seq < c.seq

/-- Unloads due at an ebb (R284), and the commands that asked for them. -/
def Dev.unloadDue (d : Dev) : Dev × List Ending :=
  let due := (d.plans.filter fun p => p.2.loaded && !p.2.unloading.isEmpty && !d.planBusy p.1).map Prod.fst
  (d.each due Dev.unloadPlan,
   due.flatMap fun s => (d.plan s).unloading.map fun u => ({ queue := u.1, cmd := u.2 } : Ending))

/-! ### RUN_PLAN (R321, R322) -/

/-- A group a plan is bound to has been closed or replaced (R486). -/
def Dev.groupGone (d : Dev) (slot : Nat) : Bool :=
  (d.plan slot).bindings.any fun b =>
    let g := d.group (b.1 % 1024)
    (g.state != .opened && g.state != .closing) || g.generation % 4194304 != b.1 / 1024

/-- The first tide and the codes of a RUN_PLAN found now: class-P work starts in this tide, but waits for the next boundary
with P_RESERVATION_SPENT where a meter of its tiles is spent (R77); other work starts from tide `due` on. -/
def Dev.foundDue (d : Dev) (p : Plan) (first due : Nat) : Nat × List CodeEntry :=
  if p.cls ≠ 2 then (due, [])
  else if p.tiles.any fun t => (d.tile t).spent then (d.tide.number + 1, [{ code := Code.pReservationSpent, step := first }])
  else (d.tide.number, [])

/-- The effect of RUN_PLAN (R322): its steps are queued from tide `due` on, and their promotions asked for (R274). -/
def Dev.beginRun (d : Dev) (q : Nat) (c : Cmd) (ctx due : Nat) : Dev :=
  let slot := c.planSlot
  if (d.plan slot).deadTo c.epoch || d.groupGone slot then d.failCmd q c Code.objectFreed
  else
    let r : RunCmd :=
      { queue := q, cmd := c, ctx := ctx, plan := slot, cls := (d.plan slot).cls, first := c.p 1, count := c.p 2
        due := (d.foundDue (d.plan slot) (c.p 1) due).1, codes := (d.foundDue (d.plan slot) (c.p 1) due).2
        progress := if c.pf 3 16 1 = 1 then some (c.pf 3 0 16, BitVec.ofNat 32 (c.p 4)) else none }
    ({ d.giveRng ctx slot with runCmds := d.runCmds ++ [r] }).promoteDue

/-- RUN_PLANs of classes N and B at the front of a queue that are decoded and whose waits are met at a boundary begin
there and start with this tide (R308); `n` bounds how many of one queue. -/
def Dev.beginAtBoundary (d : Dev) (q : Nat) : Nat → Dev
  | 0 => d
  | n + 1 => match d.atHead q Op.runPlan (fun c => (d.plan c.planSlot).cls != 2) with
    | .ready c ctx =>
      if !d.rngRoom ctx c.planSlot then d.waitKey 0 q
      else
      let (d, c) := d.beginCmd q ctx c
      (d.beginRun q c ctx d.tide.number).beginAtBoundary q n
    | _ => d

/-- The RUN_PLAN at the head of a queue begins, or waits for a random-stream key slot of its tiles (R539). -/
def Dev.runPlanHead (d : Dev) (q : Nat) : Dev :=
  match d.atHead q Op.runPlan with
  | .ready c ctx =>
    if d.rngRoom ctx c.planSlot then d.onHead q Op.runPlan fun d c ctx => d.beginRun q c ctx (d.tide.number + 1)
    else d.waitKey 0 q
  | _ => d.onHead q Op.runPlan fun d c ctx => d.beginRun q c ctx (d.tide.number + 1)

/-- RUN_PLAN (R65, R322, R539): found during a tide, its first step starts at the next boundary at the earliest. -/
def execRunPlan (q : Nat) (s : State) : Host.Outcome State Fault Refusal := .next (s.onDev fun d => d.runPlanHead q)

/-! ### DRAIN_TILE (R286 to R288) -/

/-- Stage 6 of a plan that is already placed (R286): its pages, frames, entries and extents are its own and do not move
(R33), so what stands to be checked is its context's state and its promotion frames against the quota. -/
def memoryAgain (d : Dev) (p : Plan) : Option Refuse :=
  let x := d.ctx p.ctx
  let used := x.useT1 + (d.promotionsOfOthers p.ctx - p.promFrames)
  if x.state = .suspended then some (memRefuse 4 2 0 0)
  else if p.promFrames ≠ 0 && used + p.promFrames > x.quotaT1.toNat then
    some (memRefuse 4 2 (frameBytes * p.promFrames) (frameBytes * (x.quotaT1.toNat - used)))
  else none

/-- The placement of a plan without tile `t` (R286): the plan on its new tiles, or the refusal. -/
def Dev.replace (d : Dev) (slot t : Nat) : Except Refuse Plan :=
  let p := d.plan slot
  let mask := p.mask - (if bitOf p.mask t then 2 ^ t else 0)
  let r := reqOfPlan p mask
  match placementCheck d r p.module (some slot) with
  | .error f => .error f
  | .ok tiles =>
    let (n, ops) := candidate d r p.module tiles p.tensors p.promFrames
    match (memoryAgain d p).or (lateStages d n ops (some slot)) with
    | some f => .error f
    | none => .ok { p with moving := some { tiles := n.tiles, budgets := n.budgets, scratch := n.scratch } }

/-- The plans on a tile. -/
def Dev.plansOnTile (d : Dev) (t : Nat) : List Nat := (plansOn (d.plansBut none) t).map Prod.fst

/-- Every plan moved off a tile, with the plans that did not fit and their refusals. -/
def Dev.replaceAll (d : Dev) (t : Nat) : Dev × List (Nat × Refuse) :=
  (d.plansOnTile t).foldl (fun acc s => match acc.1.replace s t with
    | .ok p => (acc.1.modPlan s fun _ => p, acc.2)
    | .error f => (acc.1, acc.2 ++ [(s, f)])) (d.modTile t fun x => { x with draining := true }, [])

/-- RUN_PLANs of a suspended plan break with PLAN_SUSPENDED (R288). -/
def Dev.suspendPlan (d : Dev) (slot : Nat) : Dev :=
  let d := d.modPlan slot fun p => { p with suspended := true }
  (d.each (d.runCmds.filter fun r => r.plan == slot && decide (r.started < r.count)) fun d r =>
    d.breakCmd r { code := Code.planSuspended }).finishDone

/-- A drain starts (R286, R288); `cmd` is none where Dikewatch forces it. -/
def Dev.startDrain (d : Dev) (t : Nat) (forced : Bool) (cmd : Option (Nat × Cmd)) : Dev :=
  let (e, fails) := d.replaceAll t
  let note (d : Dev) : Dev := match cmd with
    | some (q, c) => { d with drains := d.drains ++ [(q, c, t)] }
    | none => d
  match fails, forced with
  | [], _ => note e
  | (_, f) :: _, false => match cmd with
    | some (q, c) => d.finish { queue := q, cmd := c, result := f.words
                                error := some { code := f.code, op := if f.op = 0xFFFFFFFF then 0xFFFF else f.op, step := f.step } }
    | none => d
  | _, true => note (e.each fails fun d x => d.suspendPlan x.1)

/-- DRAIN_TILE_UNFORCED (R288). -/
def execDrainTileUnforced (q : Nat) (s : State) : Host.Outcome State Fault Refusal :=
  .next (s.onDev fun d => d.onHead q Op.drainTile (fun d c _ => d.startDrain (c.pf 0 0 8) false (some (q, c)))
    (want := fun c => c.pf 0 8 2 == 0))

/-- DRAIN_TILE_FORCED (R288). -/
def execDrainTileForced (q : Nat) (s : State) : Host.Outcome State Fault Refusal :=
  .next (s.onDev fun d => d.onHead q Op.drainTile (fun d c _ => d.startDrain (c.pf 0 0 8) true (some (q, c)))
    (want := fun c => c.pf 0 8 2 == 1))

/-- DRAIN_TILE_RETURN (R327): the tile returns at the next ebb. -/
def execDrainTileReturn (q : Nat) (s : State) : Host.Outcome State Fault Refusal :=
  .next (s.onDev fun d => d.onHead q Op.drainTile
    (fun d c _ => (d.modTile (c.pf 0 0 8) fun x => { x with returning := x.drained }).succeed q c)
    (want := fun c => c.pf 0 8 2 == 2))

/-- A plan moves to its new tiles, with its budgets on them (R287). -/
def Dev.switchPlan (d : Dev) (slot : Nat) : Dev :=
  let p := d.plan slot
  match p.moving with
  | none => d
  | some n =>
    d.modPlan slot fun p =>
      { p with moving := none, paused := false, tiles := n.tiles, budgets := n.budgets, scratch := n.scratch }

/-- One drain at an ebb (R287): the pause begins once no step of its plans runs; at the next ebb they switch, the tile is
scrubbed and leaves service. The answer tells whether the drain has ended. -/
def Dev.drainAtEbb (d : Dev) (t : Nat) : Dev × Bool :=
  let ps := d.plansOnTile t
  let moving := ps.filter fun s => (d.plan s).moving.isSome
  if ps.any fun s => d.runs.any fun r => r.2.plan == s then (d, false)
  else if moving.any fun s => !(d.plan s).paused then
    (d.each moving fun d s => d.modPlan s fun p => { p with paused := true }, false)
  else
    let owner := ((ps.head?).map fun s => d.tenant (d.plan s).ctx).or (d.tile t).dirty
    let d := d.each moving Dev.switchPlan
    let d := d.each (ps.filter fun s => (d.plan s).suspended) fun d s =>
      d.modPlan s fun p => { p with tiles := p.tiles.filter (· != t) }
    (d.modTile t fun x => { x with draining := false, drained := true, dirty := owner }, true)

/-- Drains at an ebb, and the commands they end. -/
def Dev.drainsAtEbb (d : Dev) : Dev × List Ending :=
  ((List.range 16).filter fun t => (d.tile t).draining).foldl (fun acc t =>
    match acc.1.drainAtEbb t with
    | (d, false) => (d, acc.2)
    | (d, true) =>
      let done := d.drains.filter fun x => x.2.2 == t
      ({ d with drains := d.drains.filter fun x => x.2.2 != t },
       acc.2 ++ done.map fun x => ({ queue := x.1, cmd := x.2.1 } : Ending))) (d, [])

/-- Drained tiles that were asked back return to service (R327). -/
def Dev.tilesReturn (d : Dev) : Dev :=
  d.each (List.range 16) fun d t =>
    if (d.tile t).returning then d.modTile t fun x => { x with returning := false, drained := false } else d

end Sys2Proof.Machine
end

