-- ==== Sys2Proof/Machine/Protect.lean ====
section
/-! DEFINITION. Memory protection events (R375 to R384, R387, R394 to R430) and seams (R26): failed checks, poisoned and lost
lines, repairs, sweeps, the retirement of identifiers, and the ebb's part in them (R41 action 5). -/

namespace Sys2Proof.Machine

/-! ### Verification epochs (R423, R424) -/

/-- VERIFICATION_EPOCH (R423): the hubs report, and the gates let through what all four have verified. -/
def execVerificationEpoch (reports : List Nat) (s : State) : Host.Outcome State Fault Refusal :=
  .next (s.onDev fun d =>
    let v := (List.range 4).map fun h => max (d.tide.verified.getD h 0) (reports.getD h 0)
    let d := d.modTide fun t => { t with verified := v, epoch := max t.epoch (maxNat v + 2) }
    (d.closeHorizons (v.foldl min (v.headD 0))).openGates (v.foldl min (v.headD 0)))

/-! ### Readers of a failed granule -/

/-- The contexts of the runs named, and the contexts named, that are open. -/
def Dev.readers (d : Dev) (runs ctxs : List Nat) : List Nat :=
  ((runs.filterMap fun i => (d.runs.find i).map Run.ctx) ++ ctxs).eraseDups.filter fun c => (d.ctx c).state != .closed

/-- A run has read a granule that failed: it will be withheld at the ebb at which it would commit (R381, R384). -/
def Dev.failRun (d : Dev) (id code g : Nat) : Dev :=
  match d.runs.find id with
  | none => d
  | some r =>
    { d with runs := d.runs.put id (r.failRead code ((d.elementIn r g).bind Prod.snd)) }

/-- Containment (R40, R45): every run and context that consumed the data will be withheld with the code, and their held egress
is discarded; the runs' completions name the granule's first element, where a granule is at fault. -/
def Dev.containReaders (d : Dev) (code : Nat) (g : Option Nat) (runs ctxs : List Nat) : Dev :=
  let d := d.each runs fun d r => match g, d.runs.find r with
    | some g, _ => d.failRun r code g
    | none, some x => { d with runs := d.runs.put r { x with withhold := some (x.withhold.getD code) } }
    | none, none => d
  d.each (d.readers runs ctxs) fun d c => (d.checkFailed c code).withholdCtx c code

/-- The die of a frame's hub. -/
def dieOfFrame (f : Nat) : Nat := dieOfHub (hubOf f)

/-- An entry of the hub's loss list (R428); of a full list the frames are retired (R379). -/
def Dev.noteLoss (d : Dev) (h : Nat) (frames : List Nat) : Dev :=
  d.modHub h fun x =>
    if x.losses < 4096 then { x with losses := x.losses + 1 }
    else { x with retired := x.retired ++ frames.filter fun f => !x.retired.contains f }

/-- A granule is poisoned or unusable. -/
def Dev.markBad (d : Dev) (f g code : Nat) (holding : Bool) (runs ctxs : List Nat) : Dev :=
  d.modBadLine (granuleKey f g) fun _ => { code := code, holding := holding, runs := runs, ctxs := ctxs }

/-- The extent whose copy holds the frame and whose contents T2 holds, so that a repair reads them there: RESIDENT, since T2 is no
copy of a FILLING or SETTLING one (R382, R463). -/
def Dev.deepCopyOf (d : Dev) (f : Nat) : Option Nat :=
  (d.extents.find? fun e => e.2.state == .resident && e.2.copy.contains f).map Prod.fst

/-- A read-only granule is to be repaired (R382): its reads are held; where T2 holds no copy of it, the haven partner is asked for its
mirror. -/
def Dev.askRepair (d : Dev) (f g : Nat) (runs ctxs : List Nat) : Dev :=
  let d := d.markBad f g Code.sharedPoison true runs ctxs
  if (d.deepCopyOf f).isSome then d
  else match (d.region (d.regionOf f)).bound with
  | some b => match (d.haven b.1).partner with
    | some (a, _) => if (d.haven b.1).bound && (d.haven b.1).mirrorRo then d.emit (.fabric a (.repairRead f g)) else d
    | none => d
  | none => d

/-- A frame is remapped into the repair pool, or retired where the pool is spent (R378, R379). -/
def Dev.remapFrame (d : Dev) (f : Nat) : Dev :=
  d.modHub (hubOf f) fun x =>
    if x.copying.contains f || x.redirect.contains f || x.retired.contains f then x
    else if x.poolUsed < 2048 then { x with poolUsed := x.poolUsed + 1, copying := x.copying ++ [f] }
    else { x with retired := x.retired ++ [f] }

/-- A frame and granule exist (R27, R401). -/
def granuleExists (f g : Nat) : Bool := frameExists f && g < 16384

/-! ### Failed checks (R40, R425, R426) -/

/-- A failed MAC or counter check (R425). -/
def Dev.integrityAlarm (d : Dev) (f g : Nat) (runs ctxs : List Nat) : Dev :=
  let d := d.containReaders Code.integrityAlarm (some (granuleKey f g)) runs ctxs
  (d.modRegion (d.regionOf f) fun x => { x with quarantine := x.bound.isSome }).dwEvent .integrity (dieOfFrame f)

/-- INTEGRITY_CHECK_FAIL (R425): in the reserve, the structure is rebuilt from its copy (R429). -/
def execIntegrityCheckFail (frame granule _epoch : Nat) (runs ctxs : List Nat) (s : State) :
    Host.Outcome State Fault Refusal :=
  if !granuleExists frame granule then .fault (.frameAbsent frame)
  else .next (s.onDev fun d =>
    if frameReserved frame then d.modHub (hubOf frame) fun x => { x with rebuilt := x.rebuilt + 1 }
    else d.integrityAlarm frame granule runs ctxs)

/-- A granule that the quarantine scan found failing (R426). -/
def Dev.scanFailed (d : Dev) (f g : Nat) : Dev :=
  if d.frameReadOnly f then d.askRepair f g [] []
  else
    let d := (d.setMinors f [g] 127).markBad f g Code.integrityAlarm false [] []
    d.noteLoss (hubOf f) [f]

/-- QUARANTINE_SCAN_DONE (R426): the region leaves quarantine; a scan pauses while the stacks refresh themselves (R430). -/
def execQuarantineScanDone (region : Nat) (failed : List (Nat × Nat)) (s : State) : Host.Outcome State Fault Refusal :=
  if 2864 ≤ region then .fault (.unitAbsent region)
  else .next (s.onDev fun d =>
    if !(d.region region).quarantine || d.sys.clkLost then d
    else
      let mine := failed.filter fun p => granuleExists p.1 p.2 && d.regionOf p.1 == region
      let d := d.modRegion region fun x => { x with quarantine := false }
      d.each mine fun d p => d.scanFailed p.1 p.2)

/-! ### Lost lines (R427 to R429) -/

/-- Counter blocks of a region beneath a lost line: the first and their number; none where the line covers granules. -/
def lineBlocks : LostLine → Nat × Nat
  | .macLine _ => (0, 0)
  | .counterBlock b => (b, 1)
  | .blockTagLine b => (b / 16 * 16, 16)
  | .level1 n => (64 * n, 64)
  | .level1TagLine n => (1024 * (n / 16), 1024)
  | .level2 n => (4096 * n, 4096)
  | .level2TagLine n => (65536 * (n / 16), 65536)
  | .rootWord => (0, 131072)
  | .system _ => (0, 0)

/-- Granules beneath a lost line (R427), as frame and granule. -/
def Dev.lostGranules (d : Dev) (r : Nat) (l : LostLine) : List (Nat × Nat) :=
  let at' (g : Nat) : Nat × Nat := (d.regionFrame r (g / 16384), g % 16384)
  match l with
  | .macLine n => (List.range 16).map fun i => at' (16 * n + i)
  | l => let (b, n) := lineBlocks l
    (List.range (64 * n)).map fun i => at' (64 * b + i)

/-- The frames of a region beneath a lost line that pages or copies hold. -/
def Dev.lostFrames (d : Dev) (r : Nat) (l : LostLine) : List Nat :=
  let held := (d.region r).frames
  match l with
  | .macLine n => held.filter fun f => d.frameIx f == n / 1024
  | l => let (b, n) := lineBlocks l
    held.filter fun f => 256 * d.frameIx f < b + n && b < 256 * (d.frameIx f + 1)

/-- A mutable range is rebuilt (R428): its blocks start at the major mark plus one, its granules are unusable, and the
owning context is withheld where its frames lie in the range. -/
def Dev.loseRange (d : Dev) (r : Nat) (l : LostLine) : Dev :=
  let frames := d.lostFrames r l
  let gs := (d.lostGranules r l).filter fun p => frames.contains p.1
  let mark := (d.region r).majorMark + 1
  let key := (d.region r).key
  let d := match l with
    | .macLine _ => d.each gs fun d p => d.setMinors p.1 [p.2] 127
    | l => let (b, n) := lineBlocks l
      (d.each ((List.range n).map (b + ·)) fun d k =>
        d.modCounter (131072 * r + k) fun _ => { major := mark, key := key, minors := (List.range 64).map fun i => (i, 127) }
        ).modRegion r fun x => { x with majorMark := mark }
  let d := d.each gs fun d p => d.markBad p.1 p.2 Code.treeLost false [] []
  let d := d.noteLoss (r / 716) frames
  match (d.region r).bound with
  | some b => if frames.isEmpty then d else d.withholdCtx b.1 Code.treeLost
  | none => d

/-- TREE_LINE_LOST (R427 to R429): of a system structure one copy is rebuilt; with both lost the device stops (R528). -/
def execTreeLineLost (region : Nat) (line : LostLine) (s : State) : Host.Outcome State Fault Refusal :=
  if 2864 ≤ region then .fault (.unitAbsent region)
  else .next (s.onDev fun d =>
    match line with
    | .system true => { d with lost := true }
    | .system false => d.modHub (region / 716) fun x => { x with rebuilt := x.rebuilt + 1 }
    | l =>
      match (d.region region).bound with
      | none => d
      | some (_, _, true) =>
        let frames := d.lostFrames region l
        let readOnlyLine := match l with
          | .macLine _ | .rootWord => true
          | _ => false
        if !readOnlyLine then d
        else (d.each ((d.lostGranules region l).filter fun p => frames.contains p.1) fun d p =>
            d.askRepair p.1 p.2 [] []).dwEvent .integrity (dieOfHub (region / 716))
      | some _ => (d.loseRange region l).dwEvent .integrity (dieOfHub (region / 716)))

/-! ### Uncorrectable lines and repairs (R378 to R384) -/

/-- ECC_UNCORRECTABLE_LINE (R380 to R382): the frame is remapped; a mutable line is lost, a read-only one held. -/
def execEccUncorrectableLine (frame granule : Nat) (runs ctxs : List Nat) (s : State) :
    Host.Outcome State Fault Refusal :=
  if !granuleExists frame granule then .fault (.frameAbsent frame)
  else .next (s.onDev fun d =>
    if frameReserved frame then d.modHub (hubOf frame) fun x => { x with rebuilt := x.rebuilt + 1 }
    else
      let d := (d.remapFrame frame).dwEvent .integrity (dieOfFrame frame)
      let live := runs.filter fun r => (d.runs.find r).isSome
      if d.frameReadOnly frame then d.askRepair frame granule live ctxs
      else
        let d := d.markBad frame granule Code.eccUncorrectable false [] []
        let d := d.each live fun d r => d.failRun r Code.eccUncorrectable (granuleKey frame granule)
        d.each (d.readers live ctxs) fun d c => d.checkFailed c Code.eccUncorrectable)

/-- What a repair writes into a granule: the extent's contents where T2 holds them, the bytes that came otherwise. -/
def Dev.repairData (d : Dev) (f g : Nat) (data : List Byte) : List Byte :=
  match d.deepCopyOf f with
  | none => data
  | some e =>
    let x := d.extent e
    if x.compressed then data
    else (List.range 128).map fun i => Mem.read x.contents (frameBytes * x.copy.idxOf f + 128 * g + i)

/-- REPAIR_LANDS (R383): the granule is rewritten and its held reads go on. -/
def execRepairLands (frame granule : Nat) (data : List Byte) (s : State) : Host.Outcome State Fault Refusal :=
  if !granuleExists frame granule then .fault (.frameAbsent frame)
  else .next (s.onDev fun d =>
    if !(d.badLines.any fun b => b.1 == granuleKey frame granule) || !d.frameReadOnly frame || data.length ≠ 128 then d
    else
      let a := frameBytes * frame + 128 * granule
      d.writeMem ((d.repairData frame granule data).zipIdx.map fun x => (a + x.2, x.1)))

/-- The deadline of a held line passes (R384): the held reads are released as failed checks. -/
def Dev.passDeadline (d : Dev) (k : Nat) : Dev :=
  let x := d.badLine k
  if !x.holding then d
  else
    let d := d.modBadLine k fun y => { y with holding := false }
    let d := d.each x.runs fun d r =>
      { d with runs := d.runs.map fun p =>
          if p.1 = r then (r, { p.2 with withhold := some (p.2.withhold.getD Code.sharedPoison) }) else p }
    (d.each (d.readers x.runs x.ctxs) fun d c => d.checkFailed c Code.sharedPoison).dwEvent .integrity
      (dieOfFrame (k / 16384))

/-- REPAIR_DEADLINE (R382, R384): the ebb has begun. -/
def execRepairDeadline (frame granule : Nat) (s : State) : Host.Outcome State Fault Refusal :=
  if !granuleExists frame granule then .fault (.frameAbsent frame)
  else .next (s.onDev fun d => if d.tide.phase = .ebb then d.passDeadline (granuleKey frame granule) else d)

/-- Every deadline that the start of an ebb brings. -/
def Dev.passDeadlines (d : Dev) : Dev := d.each d.badLines.keys Dev.passDeadline

/-- FRAME_REMAP_DONE (R378): the copy is whole and the redirect table serves the frame. -/
def execFrameRemapDone (frame : Nat) (s : State) : Host.Outcome State Fault Refusal :=
  if !frameExists frame then .fault (.frameAbsent frame)
  else .next (s.onDev fun d => d.modHub (hubOf frame) fun x =>
    if x.copying.contains frame then
      { x with copying := x.copying.filter (· != frame), redirect := x.redirect ++ [frame] } else x)

/-- SCRUBBER_PASS (R375, R376): the reads that were corrected, each by its frame and byte, are counted by stack and row. -/
def execScrubberPass (hub : Nat) (corrected : List (Nat × Nat)) (s : State) : Host.Outcome State Fault Refusal :=
  if 4 ≤ hub then .fault (.unitAbsent hub)
  else .next (s.onDev fun d =>
    if !(d.hub hub).up then d
    else
      let mine := corrected.filter fun p => hubOf p.1 == hub && frameExists p.1 && decide (p.2 < frameBytes)
      let rows := mine.map fun p => (d.rowOf p.1 p.2, p.1, d.tide.number)
      let d := d.modHub hub fun x => { x with scrubs := x.scrubs + 1, rowErrors := x.rowErrors ++ rows }
      d.each rows fun d r => d.dwEvent .stackErrors r.1.stack)

/-- Two rows lie in one bank. -/
def DramRow.sameBank (a b : DramRow) : Bool :=
  a.stack == b.stack && a.channel == b.channel && a.pseudo == b.pseudo && a.bank == b.bank

/-- The bank of a row has a spare row left (R377). -/
def Hub.spareIn (x : Hub) (r : DramRow) : Bool :=
  decide (((x.softRows ++ x.hardRows).filter r.sameBank).length < Config.spareRows)

/-- One row is repaired (R377): by a spare row of its bank, else by remapping the frames whose reads it corrected. -/
def Dev.repairRow (d : Dev) (h : Nat) (r : DramRow) : Dev :=
  let frames := (((d.hub h).rowErrors.filter fun e => e.1 == r).map fun e => e.2.1).eraseDups
  let d := if (d.hub h).spareIn r then d.modHub h fun x => { x with softRows := x.softRows ++ [r] }
    else d.each frames fun d f => d.remapFrame f
  d.modHub h fun x => { x with rowErrors := x.rowErrors.filter fun e => e.1 != r }

/-- Rows with 16 corrected reads within 1,024 tides are repaired at the ebb (R377). -/
def Dev.repairRows (d : Dev) : Dev :=
  d.each (List.range 4) fun d h =>
    let d := d.modHub h fun x => { x with rowErrors := x.rowErrors.filter fun e => d.tide.number < e.2.2 + 1024 }
    let seen := (d.hub h).rowErrors.map Prod.fst
    d.each (seen.eraseDups.filter fun r => 16 ≤ seen.count r) fun d r => d.repairRow h r

/-! ### Sweeps and retirement (R400, R414 to R421) -/

/-- Something still names the identifier: a region, a counter block or a scale-table group (R416). -/
def Dev.keyNamed (d : Dev) (k : Nat) : Bool :=
  (d.regions.any fun r => r.2.bound.isSome && r.2.key == k) || (d.counters.any fun c => c.2.key == k) ||
    d.groups.any fun g => (g.2.map Prod.snd) == some k

/-- A sweep completes (R414): what it had not reached is under the new identifier, and the tree's counters start again. -/
def Dev.endSweep (d : Dev) (r : Nat) : Dev :=
  let x := d.region r
  match x.sweepTo with
  | none => d
  | some k =>
    let d := (d.flushRegion r).resetTree r
    let epochs := x.epochs.map fun p => (p.1, if x.swept.contains (d.regionFrame r p.1) then p.2 else 1)
    let d := d.modRegion r fun y => { y with key := k, sweepTo := none, majorMark := 0, epochs := epochs, swept := [] }
    let d := { d with counters := d.counters.map fun (c : Nat × CounterBlock) =>
                if c.1 / 131072 = r && c.2.key ≠ k then (c.1, c.2.sweep k) else c }
    d.modKey x.key fun y => if d.keyNamed x.key then y else { y with eligible := true }

/-- REENCRYPT_SWEEP_DONE (R414); a sweep pauses while the stacks refresh themselves (R430). -/
def execReencryptSweepDone (region : Nat) (s : State) : Host.Outcome State Fault Refusal :=
  if 2864 ≤ region then .fault (.unitAbsent region)
  else .next (s.onDev fun d => if d.sys.clkLost then d else d.endSweep region)

/-- The binding holds no charged frame and no scale-table entry (R417). -/
def Dev.bindingEmpty (d : Dev) (b : Binding) : Bool :=
  !(d.regions.any fun r => r.2.bound == some b && !r.2.frames.isEmpty) &&
    (b != (b.1, 0xFF, false) || !((d.scaleGroups b.1).any fun g => (List.range 256).any fun i =>
      (d.scaleEntry (256 * g + i)).used))

/-- Re-encryption has moved every unit away from an identifier of a binding: a later one is ACTIVE, and nothing names it (R416). -/
def Dev.movedAway (d : Dev) (k : Nat) (b : Binding) : Bool :=
  !d.keyNamed k && !(d.regions.any fun r => r.2.sweepTo == some k) &&
    d.keys.any fun y => y.2.state == .active && y.2.binding == some b && decide ((d.keyId k).serial < y.2.serial)

/-- Retirement is due (R417) and nothing makes it wait: no alias of its frames, no sweep or scan of its regions. -/
def Dev.retireDue (d : Dev) (k : Nat) : Bool :=
  let x := d.keyId k
  match x.state, x.binding with
  | .active, some b =>
    (x.eligible || d.movedAway k b || d.bindingEmpty b || (d.ctx b.1).retiring) &&
      !(d.regions.any fun r => r.2.bound == some b && r.2.key == k && (r.2.sweepTo.isSome || r.2.quarantine)) &&
      !(d.maps.any fun m => m.2.valid && m.2.aliasOf.isSome && (m.2.frame.any fun f =>
        (d.region (d.regionOf f)).bound == some b && (d.region (d.regionOf f)).key == k))
  | _, _ => false

/-- Retirement begins at ebb action 5 (R417, R418). -/
def Dev.startRetirements (d : Dev) : Dev :=
  d.each (d.keys.keys.filter d.retireDue) fun d k => d.modKey k fun x => { x with state := .retiring, began := d.tide.ebbs }

/-- An identifier of the binding is still in use. -/
def Dev.bindingLive (d : Dev) (b : Binding) : Bool :=
  d.keys.any fun k => k.2.binding == some b && (k.2.state == .active || k.2.state == .retiring)

/-- Regions that stand detached as an ebb begins are reset under identifier 0 with the next generation (R400). -/
def Dev.detachRegions (d : Dev) : Dev :=
  let due := (d.regions.filter fun r => match r.2.bound with
    | some b => !r.2.quarantine && (r.2.frames.isEmpty || !d.bindingLive b)
    | none => false).map Prod.fst
  d.each due fun d r =>
    let bad := d.badLines.filter fun b => d.regionOf (b.1 / 16384) != r
    let d := (d.resetTree r).modRegion r fun x => { generation := x.generation + 1 }
    { d with counters := d.counters.filter fun c => c.1 / 131072 != r, badLines := bad }

/-- A charter whose last bound context has closed is EMPTY (R555), and its owners' debug certificates end (R578). -/
def Dev.settleCharter (d : Dev) (k : Nat) : Dev :=
  if (d.charter k).state = .closing && !(d.ctxs.any fun c => c.2.state != .closed && c.2.charter == some k) then
    let digest := (d.charter k).digest
    (d.modCharter k fun _ => {}).modLife fun l => { l with certs := l.certs.filter fun c => !c.owner || c.charter != digest }
  else d

/-- A closing context whose identifiers are retired becomes CLOSED (R340). -/
def Dev.endClose (d : Dev) (c : Nat) : Dev :=
  let x := d.ctx c
  if x.state ≠ .closing || !x.retiring || (d.keys.any fun k => (k.2.binding.map Prod.fst) == some c &&
      (k.2.state == .active || k.2.state == .retiring)) then d
  else
    let d := d.modCtx c fun y => { y.registers with state := .closed }
    let d := { d with havens := d.havens.erase c, jobs := d.jobs.filter fun j => j.1 != 1024 + c && !(d.groupsOf c).contains j.1 }
    let d := d.each (d.groupsOf c) fun d g => d.modGroup g fun y => { generation := y.generation + 1 }
    match x.charter with
    | some k => d.settleCharter k
    | none => d

/-- Nothing of a context runs: no step, no command begun, no load (R340). -/
def Dev.ctxQuiet (d : Dev) (c : Nat) : Bool :=
  let tag := (d.ctx c).tag.toNat
  !(d.runs.any fun r => r.2.ctx == c) && !(d.runCmds.any fun r => r.ctx == c) &&
    !(d.queues.any fun q => q.2.begun.any fun k => k.context == tag) &&
    !(d.loads.any fun l => l.2.any fun x => x.ctx == c)

/-- Steps 2 and 3 of a close at an ebb (R340): plans unloaded, window cleared, frames and extents released. -/
def Dev.closeAtEbb (d : Dev) (c : Nat) : Dev :=
  if (d.ctx c).state ≠ .closing || (d.ctx c).retiring || !d.ctxQuiet c then d
  else
    let d := d.each ((d.plans.filter fun p => p.2.loaded && p.2.ctx == c).map Prod.fst) Dev.unloadPlan
    let d := d.each (d.windowEntries c) Dev.invalidateEntry
    let d := d.each ((d.haven c).keeps.flatMap fun k => k.slotA.frames ++ k.slotB.frames) fun d f => d.freeFrame c f
    d.modCtx c fun x => { x with retiring := true }

/-- RETIREMENT_COMPLETE (R418): the identifier enters QUARANTINE once no frame under it is being copied (R430); the counter
lines of its blocks are written back and invalidated (phase 4), and its
scale-table groups without an entry are free (R399). -/
def execRetirementComplete (key : Nat) (s : State) : Host.Outcome State Fault Refusal :=
  if key = 0 || 4096 ≤ key then .fault (.unitAbsent key)
  else .next (s.onDev fun d =>
    let x := d.keyId key
    let copies := d.hubs.any fun h => h.2.copying.any fun f =>
      (d.region (d.regionOf f)).bound.isSome && (d.region (d.regionOf f)).key == key
    if x.state ≠ .retiring || copies then d
    else
      let d := d.each ((d.regions.filter fun r => r.2.bound.isSome && r.2.key == key).map Prod.fst) Dev.flushRegion
      let d := d.modKey key fun y => { y with state := .quarantine }
      let d := { d with groups := d.groups.filter fun g => (g.2.map Prod.snd) != some key ||
                  (List.range 256).any fun i => (d.scaleEntry (256 * g.1 + i)).used }
      match x.binding with
      | some b => d.endClose b.1
      | none => d)

/-- QUARANTINE_END (R421): at the sixteenth ebb after retirement began. -/
def execQuarantineEnd (key : Nat) (s : State) : Host.Outcome State Fault Refusal :=
  if key = 0 || 4096 ≤ key then .fault (.unitAbsent key)
  else .next (s.onDev fun d =>
    let x := d.keyId key
    if x.state = .quarantine && d.tide.phase = .ebb && x.began + 16 ≤ d.tide.ebbs then d.modKey key fun _ => {} else d)

/-- Emptied tiles are scrubbed (R556, R557): their class-P meters and what they held are clear, their key slots zeroised. -/
def Dev.scrubTiles (d : Dev) : Dev :=
  d.each ((List.range 16).filter fun t => (d.tile t).dirty.isSome && !(d.runs.any fun r =>
      (d.plan r.2.plan).tiles.contains t)) fun d t =>
    (d.modTile t fun x => { x with dirty := none, meter := 0, spent := false }).each (d.ctxs.map Prod.fst) fun d c =>
      d.modCtx c fun x => { x with rngTiles := x.rngTiles.filter (· != t) }

/-- Ebb action 5 (R41): closes taken on, identifiers retired, tiles scrubbed. -/
def Dev.ebbKeys (d : Dev) : Dev :=
  let closing := (d.ctxs.filter fun c => c.2.state == .closing).map Prod.fst
  let d := (d.each closing Dev.closeAtEbb).startRetirements
  (d.each closing Dev.endClose).scrubTiles

/-! ### Starvation (R387 to R389) -/

/-- ARB_STARVATION (R387, R389): the requester's flag is set. -/
def execArbStarvation (unit req : Nat) (s : State) : Host.Outcome State Fault Refusal :=
  if (4 ≤ unit && unit < 8) || 56 < unit then .fault (.unitAbsent unit)
  else .next (s.onDev fun d =>
    let limit := if unit = 56 then d.meshThresh else (d.arb unit).thresh
    if !d.reqPresent unit req || limit = 0 then d
    else
      let had := if unit = 56 then d.meshStarve.contains req else (d.arb unit).starve.contains req
      if had then d.errEvent .arbiter
      else if unit = 56 then ({ d with meshStarve := d.meshStarve ++ [req] }).errEvent .arbiter
      else (d.modArb unit fun a => { a with starve := a.starve ++ [req] }).errEvent .arbiter)

/-! ### Seams (R26) -/

/-- The dies a step's data passes between: its tiles and the hubs of its pages, its tiles among themselves, and with a
collective its tiles and the fabric dies. -/
def Dev.runEnds (d : Dev) (r : Run) : List (Nat × Nat) :=
  let p := d.plan r.plan
  let hubs := (List.range 4).filter p.onHub
  let fds := if (p.module.stepOps r.step).any OpRec.isCollective then (List.range 4).map dieOfFd else []
  p.tiles.flatMap fun t => (hubs.map dieOfHub ++ p.tiles.filter (· != t) ++ fds).map fun u => (t, u)

/-- A step's data can have crossed the seam (R22). -/
def Dev.runCrosses (d : Dev) (s : Nat) (id : Nat) : Bool :=
  match d.runs.find id with
  | some r => (d.runEnds r).any fun e => d.crosses e.1 e.2 s
  | none => false

/-- A context's transfers can have crossed the seam: host and fabric traffic with the hubs. -/
def Dev.ctxCrosses (d : Dev) (s : Nat) : Bool :=
  (List.range 4).any fun h => (dieOfCd :: (List.range 4).map dieOfFd).any fun a => d.crosses a (dieOfHub h) s

/-- A transmission of flit `n` fails (R26): the fourth in a row of one flit takes the seam out of service, and the work whose
data crossed it is contained as for an integrity alarm. -/
def Dev.flitFails (d : Dev) (s : Nat) (dir : Bool) (n : Nat) (runs ctxs : List Nat) : Dev :=
  let x := d.seam s
  let (seq, count) := if dir then (x.seqs.2, x.fails.2) else (x.seqs.1, x.fails.1)
  let k := if seq = n then count + 1 else 1
  let d := d.modSeam s fun x =>
    if dir then { x with seqs := (x.seqs.1, n), fails := (x.fails.1, k) }
    else { x with seqs := (n, x.seqs.2), fails := (k, x.fails.2) }
  let d := d.each (seamDies s) fun d die => d.dwEvent .links die
  if k < 4 then d
  else
    let d := (d.modSeam s fun x => { x with down := true }).errEvent .seam Code.seamFault ((seamDies s).headD 0xFF)
    let d := d.containReaders Code.seamFault none (runs.filter (d.runCrosses s)) (if d.ctxCrosses s then ctxs else [])
    d.each (seamDies s) fun d die => d.dwEvent .links die

/-- SEAM_FLIT_FAIL (R26), with the runs and the contexts' transfers whose data crossed the seam in this tide. -/
def execSeamFlitFail (seam : Nat) (dir : Bool) (flit : Nat) (readers : SeamReaders) (s : State) :
    Host.Outcome State Fault Refusal :=
  if 108 ≤ seam then .fault (.unitAbsent seam)
  else .next (s.onDev fun d =>
    let last := if dir then (d.seam seam).seqs.2 else (d.seam seam).seqs.1
    if (d.seam seam).down || flit < last then d else d.flitFails seam dir flit readers.runs readers.ctxs)

/-- Routes are led around seams out of service from the ebb on (R26): `Dev.route` avoids those marked here. -/
def Dev.rerouteSeams (d : Dev) : Dev :=
  d.each (d.seams.keys) fun d s => d.modSeam s fun x => { x with rerouted := x.down }

end Sys2Proof.Machine
end

