-- ==== Sys2Proof/Machine/Resilience.lean ====
section
/-! DEFINITION. Resilience (chapter 15): jobs, snapshots and their freeze, haven bindings and drains, restores, takeovers,
evacuation, core faults, and Dikewatch at the ebb. -/

namespace Sys2Proof.Machine

/-! ### Jobs (R511) -/

/-- A group handle that names no group: the context alone (R511, R522). -/
def aloneHandle : Nat := 0xFFFFFFFF

/-- The job a handle names for a context. -/
def jobOf (handle ctx : Nat) : Nat := if handle = aloneHandle then 1024 + ctx else handle % 1024

/-- The fabric addresses of a job's ranks. -/
def Dev.jobRanks (d : Dev) (j : Nat) : List Nat := if j < 1024 then (d.group j).ranks else [d.fabric.address.toNat]

/-- This device's rank in a job. -/
def Dev.jobRank (d : Dev) (j : Nat) : Nat := if j < 1024 then (d.group j).rank else 0

/-- The coordinator's rank (R511): the lowest not replaced by a takeover. -/
def Dev.coordRank (d : Dev) (j : Nat) : Nat :=
  ((List.range (d.jobRanks j).length).find? fun r => !(d.job j).lost.contains r).getD 0

/-- This device coordinates the job. -/
def Dev.coordinates (d : Dev) (j : Nat) : Bool := d.jobRank j == d.coordRank j

/-- A job's identity on the fabric: its group's, or 0 for a context alone (R538). -/
def Dev.jobName (d : Dev) (j : Nat) : Nat := if j < 1024 then (d.group j).groupId else 0

/-- Every other rank of a job is told. -/
def Dev.tellJob (d : Dev) (j : Nat) (m : FabMsg) : Dev :=
  d.each ((d.jobRanks j).filter (· != d.fabric.address.toNat)) fun d a => d.emit (.fabric a m)

/-- The coordinator of a job is told, where it is another device. -/
def Dev.tellCoordinator (d : Dev) (j : Nat) (m : FabMsg) : Dev :=
  if d.coordinates j then d else d.emit (.fabric ((d.jobRanks j).getD (d.coordRank j) 0) m)

/-- The jobs in which this device is a rank (R511): its open groups, each open context of no group alone, and each context alone
that has asked for a snapshot. -/
def Dev.allJobs (d : Dev) : List Nat :=
  let gs := d.fabric.groups.filter fun g => g.2.state == .opened
  gs.map Prod.fst ++
    ((((d.jobs.map Prod.fst).filter fun j => 1024 ≤ j) ++
      ((d.openCtxs.filter fun c => c != 0 && !gs.any fun g => g.2.ctx == c).map (1024 + ·))).eraseDups)

/-- The jobs of a context. -/
def Dev.jobsOfCtx (d : Dev) (c : Nat) : List Nat := d.allJobs.filter fun j => d.jobCtx j == c

/-- A handle names the context, or an open group of it. -/
def Dev.jobHandleOk (d : Dev) (handle ctx : Nat) : Bool :=
  handle == aloneHandle ||
    (let g := d.group (handle % 1024)
     g.state == .opened && g.handle (handle % 1024) == handle && g.ctx == ctx)

/-! ### The state set (R256, R510, R512) -/

/-- The loaded plans of a context, by slot. -/
def Dev.ctxPlans (d : Dev) (c : Nat) : List (Nat × Plan) := d.plans.filter fun p => p.2.loaded && p.2.ctx == c

/-- The mapping entries under a tensor of a plan. -/
def Dev.tensorEntries (d : Dev) (c : Nat) (p : Plan) (t : Nat) : List Nat :=
  (List.range (p.module.tensor t).pages).filterMap fun i => (d.ctx c).entryOf ((p.tensors.getD t {}).firstPage + i)

/-- The mapping entries of the state pages of a context. -/
def Dev.stateEntries (d : Dev) (c : Nat) : List Nat :=
  ((d.ctxPlans c).flatMap fun p => p.2.module.state.flatMap (d.tensorEntries c p.2)).eraseDups

/-- The state pages of every plan of a context take twins (R510). -/
def Dev.chargeTwins (d : Dev) (c : Nat) : Except NoFrame Dev :=
  (d.ctxPlans c).foldl (fun (acc : Except NoFrame Dev) p => match acc with
    | .error x => .error x
    | .ok d => d.takeTwins c p.2.module ((List.range p.2.module.tensors.length).map (d.tensorEntries c p.2))) (.ok d)

/-- The twins of a context's pages are released. -/
def Dev.releaseTwins (d : Dev) (c : Nat) : Dev :=
  d.each (d.windowEntries c) fun d e =>
    match (d.mapEntry e).twin with
    | some f => (d.modMap e fun x => { x with twin := none, fill := false }).dropFrame f
    | none => d

/-- The shard of a context at a tide (R512). -/
def Dev.shardOf (d : Dev) (c tide : Nat) : Shard :=
  let ps := d.ctxPlans c
  let tensors := ps.flatMap fun p => p.2.module.state.map fun t =>
    let x := p.2.tensors.getD t {}
    ({ plan := p.1, tensor := t, bytes := d.committedBytes x 0 (p.2.module.tensor t).storedBytes
       coarse := x.coarse, expMax := x.expMax } : ShardTensor)
  { generation := tide
    tensors := tensors
    scales := ps.flatMap fun p => p.2.module.state.filterMap fun t =>
      (p.2.tensors.getD t {}).entry.map fun e =>
        ({ plan := p.1, tensor := t, slots := (d.scaleEntry e).history, lastStep := (d.scaleEntry e).lastStep } : ShardScale)
    plans := ps.map fun p =>
      ({ plan := p.1, digest := p.2.module.digest, position := p.2.saved, streams := p.2.lastDraw } : ShardPlan)
    bytes := sumNat (tensors.map fun t => t.bytes.length) }

/-! ### The drain (R515) -/

/-- The plaintext of a drain. -/
def shardImage (s : Shard) : List Byte :=
  s.tensors.flatMap ShardTensor.bytes ++
  Config.shardRecords
    ((s.tensors.flatMap fun t => [t.plan, t.tensor, t.bytes.length, t.coarse.toNat, t.expMax.toNat, (-t.expMax).toNat]) ++
     (s.scales.flatMap fun x => [x.plan, x.tensor, x.lastStep] ++ x.slots) ++
     s.plans.flatMap fun p => natOfBytes p.digest :: p.position :: p.streams.flatMap fun k => [k.1, k.2])

/-- The sealed 4 KiB units of a drain, to keeper context `kc`. -/
def Dev.drainUnits (d : Dev) (c kc : Nat) (s : Shard) : List HavenUnit :=
  let bytes := shardImage s
  let n := max 1 (ceilDiv bytes.length 4096)
  (List.range n).map fun i =>
    let (ct, tag) := Config.gcmSeal (d.snapKey c s.generation) (bytesOfNat 12 i) [] (padTo 0 4096 ((bytes.drop (4096 * i)).take 4096))
    { keeperCtx := kc, source := d.fabric.address.toNat, sourceCtx := (d.ctx c).tag.toNat, generation := s.generation
      unit := i, units := n, bytes := ct ++ tag }

/-- The drain of a frozen shard begins; every unit passes the egress gate. -/
def Dev.havenDrain (d : Dev) (c : Nat) : Dev :=
  match (d.haven c).partner, (d.haven c).shard with
  | some (a, kc), some s => d.each (d.drainUnits c kc s) fun d u => d.holdEgress c (.out (.fabric a (.havenUnit u)))
  | _, _ => d

/-- The drain of a context ends without a generation (R517). -/
def Dev.dropDrain (d : Dev) (c : Nat) : Dev :=
  let d := d.modHaven c fun h => { h with draining := none, shard := none, drainDue := false }
  { d with held := d.held.filter fun x => x.ctx != c || (match x.item with
      | .out (.fabric _ (.havenUnit _)) => false
      | _ => true) }

/-! ### The freeze (R514) -/

/-- A frame's contents are copied to another, which is blank before. -/
def Dev.copyFrame (d : Dev) (src dst : Nat) : Dev :=
  let cells := (d.mem.filter fun x => x.1 / frameBytes == src).map fun x => (frameBytes * dst + x.1 % frameBytes, x.2)
  let bads := d.badLines.filter fun b => b.1 / 16384 == src
  let d := (d.blankFrame dst).writeMem cells
  d.each bads fun d b => d.modBadLine (granuleKey dst (b.1 % 16384)) fun _ => { b.2 with holding := false, runs := [], ctxs := [] }

/-- Live frames and twins of the state pages change places; the answer has the old and the new live frame of each. -/
def Dev.swapState (d : Dev) (c : Nat) : Dev × List (Nat × Nat) :=
  let pairs := (d.stateEntries c).filterMap fun e => match (d.mapEntry e).frame, (d.mapEntry e).twin with
    | some f, some w => some (e, f, w)
    | _, _ => none
  let d := d.each pairs fun d p => d.modMap p.1 fun x => { x with frame := some p.2.2, twin := some p.2.1 }
  let new (f : Nat) : Nat := ((pairs.find? fun p => p.2.1 == f).map fun p => p.2.2).getD f
  let d := d.each (d.ctxPlans c) fun d p => d.modPlan p.1 fun x =>
    { x with tensors := x.tensors.map fun t => { t with frames := t.frames.map new } }
  (d, pairs.map Prod.snd)

/-- A rank freezes (R514); its drain starts in action 7 (R41). -/
def Dev.freezeJob (d : Dev) (j : Nat) : Dev :=
  let c := d.jobCtx j
  let T := d.tide.number
  let s := d.shardOf c T
  let (d, pairs) := d.swapState c
  let d := d.each pairs fun d p => d.copyFrame p.1 p.2
  let d := d.each (d.stateEntries c) fun d e => d.modMap e fun x => { x with fill := x.twin.isSome }
  let d := d.modHaven c fun h => { h with draining := some T, shard := some s, drainDue := true }
  d.modJob j fun x => { x with current := some T, drained := false, vote := none, freezing := false }

/-- A class-P step of the job runs. -/
def Dev.jobPRuns (d : Dev) (j : Nat) : Bool :=
  d.runs.any fun r => r.2.ctx == d.jobCtx j && r.2.cls == 2 && r.2.state == .running

/-- The decision to freeze is carried out, or waits for a class-P step within the ebb. -/
def Dev.takeFreeze (d : Dev) (j : Nat) : Dev :=
  if d.jobPRuns j then d.modJob j fun x => { x with freezing := true, vote := none } else d.freezeJob j

/-- Freezes that waited for a class-P step which has ended are carried out. -/
def Dev.waitingFreezes (d : Dev) : Dev :=
  d.each ((d.jobs.filter fun j => j.2.freezing).map Prod.fst) fun d j => if d.jobPRuns j then d else d.freezeJob j

/-- A candidate is declined (R517): the next boundary is one, and the job's next committing step says so. -/
def Dev.declineJob (d : Dev) (j : Nat) : Dev :=
  (d.modJob j fun x => { x with vote := none, freezing := false, candidate := true }).modCtx (d.jobCtx j) fun x =>
    { x with skipDue := true }

/-- The keeper of a context is told that a generation is given up (R517). -/
def Dev.tellKeeper (d : Dev) (c : Nat) (g : Option Nat) : Dev :=
  match g, (d.haven c).partner with
  | some g, some (a, _) => d.emit (.fabric a (.abandoned (d.ctx c).tag.toNat g))
  | _, _ => d

/-- The generation draining is abandoned (R517): the rank releases its drain, and its keeper empties the slot. -/
def Dev.abandonJob (d : Dev) (j : Nat) : Dev :=
  let g := (d.job j).current
  (((d.modJob j fun x => { x with current := none, drained := false }).dropDrain (d.jobCtx j)).tellKeeper (d.jobCtx j) g).declineJob j

/-- A rank whose drain failed gives its generation up, and so does every other rank: the coordinator decides so, or is told
(R517, R529). -/
def Dev.failDrain (d : Dev) (c : Nat) : Dev :=
  d.each ((d.jobsOfCtx c).filter fun j => (d.job j).current.isSome) fun d j =>
    (if d.coordinates j then d.tellJob j (.decision (d.jobName j) false) else d.tellCoordinator j (.missed (d.jobName j))).abandonJob j

/-- What waits on a lost packet breaks; a drain fails with its unit, and its generation is abandoned (R517, R529). -/
def Dev.lostPacket (d : Dev) (code : Nat) (u : Unacked) : Dev :=
  let d := d.breakWaiting code u
  match u.msg with
  | some (.havenUnit x) => match d.ctxOfTag x.sourceCtx with
    | some c => if (d.haven c).draining = some x.generation then d.failDrain c else d
    | none => d
  | _ => d

/-- PACKET_RESEND (R477, R482, R489): sent again, or after five sends the destination is lost, with FABRIC_AUTH where its tag fails
there; one that its target refuses breaks its operation. -/
def Dev.resend (d : Dev) (id : Nat) (report : SendReport) : Dev :=
  match d.fabric.unacked.find? fun u => u.1 == id with
  | none => d
  | some (_, u) =>
    if report = .refused then
      (d.modFabric fun f => { f with unacked := f.unacked.erase id }).lostPacket Code.remoteFault u
    else if u.sends < 5 then
      let d := d.modFabric fun f => { f with unacked := f.unacked.upd {} id fun x => { x with sends := x.sends + 1 } }
      match u.msg with
      | some m => d.emit (.fabric u.dst m)
      | none => d
    else
      let code := if report = .tagFails then Code.fabricAuth else if d.portsUp.isEmpty then Code.linkDown else Code.peerLost
      let gone := (d.fabric.unacked.filter fun x => x.2.dst == u.dst).map Prod.snd
      let d := (d.modFabric fun f => { f with unacked := f.unacked.filter fun x => x.2.dst != u.dst }).each gone fun d x =>
        d.lostPacket code x
      if report = .tagFails then d else d.each (d.waitingOn u.dst) fun d w => d.failColl w.1 w.2 code

def execPacketResend (id : Nat) (report : SendReport) (s : State) : Host.Outcome State Fault Refusal :=
  .next (s.onDev fun d => d.resend id report)

/-- A rank whose ebb ends without a decision, or with its class-P step unended, reports the generation missed (R514). -/
def Dev.missedFreezes (d : Dev) : Dev :=
  let d := d.waitingFreezes
  d.each ((d.jobs.filter fun j => j.2.freezing || j.2.vote.isSome).map Prod.fst) fun d j =>
    (d.tellCoordinator j (.missed (d.jobName j))).declineJob j

/-! ### Candidates, votes and decisions (R511, R513) -/

/-- The interval in use (R511). -/
def Dev.jobInterval (d : Dev) (j : Nat) : Nat :=
  if d.dike.level = 0 then (d.job j).interval else max 1 ((d.job j).interval / 2)

/-- A rank's vote (R513). -/
def Dev.ownVote (d : Dev) (withheld : List Nat) (j : Nat) : Bool :=
  let c := d.jobCtx j
  !withheld.contains c && !(d.runs.any fun r => r.2.ctx == c && r.2.cls != 2) && (d.job j).current.isNone &&
    !((d.stateEntries c).any fun e => (d.mapEntry e).fill)

/-- The coordinator decides once every rank has voted, and tells every rank. -/
def Dev.decideIfVoted (d : Dev) (j : Nat) : Dev :=
  let vs := (d.job j).votes
  let n := (d.jobRanks j).length
  if !(List.range n).all fun r => vs.any fun v => v.1 == r then d
  else
    let f := (List.range n).all fun r => vs.contains (r, true)
    let d := (d.modJob j fun x => { x with votes := [] }).tellJob j (.decision (d.jobName j) f)
    if f then d.takeFreeze j else d.declineJob j

/-- A candidate is used up: its schedule's next tide is set. -/
def Dev.passCandidate (d : Dev) (j : Nat) : Dev :=
  let n := d.jobInterval j
  d.modJob j fun x =>
    if x.nextTide ≤ d.tide.number then
      { x with candidate := false, scheduled := x.scheduled && x.interval != 0, nextTide := d.tide.number + n }
    else { x with candidate := false }

/-- A secure-now request takes effect: the next vote is a candidate, and the coordinator tells every rank (R513). -/
def Dev.secureNow (d : Dev) (j rank : Nat) : Dev :=
  (d.when (d.coordinates j) fun d => d.tellJob j (.secureNow (d.jobName j) rank)).modJob j fun x => { x with candidate := true }

/-- Every job's rank votes when ebb action 2 ends (R513). -/
def Dev.voteAtEbb (d : Dev) (withheld : List Nat) : Dev :=
  let late := (d.jobs.filter fun j => j.2.candidateAfter).map Prod.fst
  let d := d.each ((d.jobs.map Prod.fst).filter d.isCandidate) fun d j =>
    let v := d.ownVote withheld j
    let d := (d.passCandidate j).modJob j fun x => { x with vote := some v }
    if d.coordinates j then
      (d.modJob j fun x => { x with votes := (x.votes.filter fun y => y.1 != d.jobRank j) ++ [(d.jobRank j, v)] }).decideIfVoted j
    else d.tellCoordinator j (.vote (d.jobName j) (d.jobRank j) v)
  d.each late fun d j => (d.modJob j fun x => { x with candidateAfter := false }).secureNow j (d.jobRank j)

/-- SECURE_NOW_REQUEST (R513, R529): the next allowed boundary is a candidate, and with a request less than 4 µs before it
the following one; the coordinator passes the request on. In the ebb this tide's vote has been cast, so the next vote is
that of the following boundary. -/
def execSecureNowRequest (job rank nsBeforeBoundary : Nat) (s : State) : Host.Outcome State Fault Refusal :=
  .next (s.onLive fun d =>
    if !d.allJobs.contains job then d
    else if nsBeforeBoundary < 4000 && d.tide.phase ≠ .ebb then d.modJob job fun x => { x with candidateAfter := true }
    else d.secureNow job rank)

/-! ### SNAPSHOT (R511) -/

/-- A schedule is installed or cancelled. -/
def Dev.installSchedule (d : Dev) (j interval first : Nat) (stop : Bool) (progress : Option (Nat × Nat)) : Dev :=
  d.modJob j fun x =>
    { x with scheduled := !stop, interval := interval, nextTide := first, candidate := !stop && first == 0, progress := progress }

/-- The effect of SNAPSHOT. -/
def Dev.snapshot (d : Dev) (q : Nat) (c : Cmd) (ctx : Nat) : Dev :=
  let j := jobOf (c.p 0) ctx
  if !d.jobHandleOk (c.p 0) ctx then d.failCmd q c Code.objectFreed
  else if !d.coordinates j then d.failCmd q c Code.havenMismatch
  else if !d.isSource ctx then d.failCmd q c Code.havenUnbound
  else
    let stop := c.pf 4 17 1 == 1
    let d := d.installSchedule j (c.p 1) (c.p64 2) stop (if c.pf 4 16 1 = 1 then some (q, c.pf 4 0 16) else none)
    if (d.jobRanks j).length ≤ 1 then d.succeed q c
    else (d.modJob j fun x => { x with scheduling := some (q, c), holders := [] }).tellJob j (.schedule (d.jobName j) (c.p 1) (c.p64 2) stop)

/-- A schedule arrives at a rank, which says whether it can hold it (R511). -/
def Dev.takeSchedule (d : Dev) (j interval first : Nat) (stop : Bool) : Dev :=
  let bound := d.isSource (d.jobCtx j)
  (d.when (bound || stop) fun d => d.installSchedule j interval first stop none).tellCoordinator j
    (.scheduleHeld (d.jobName j) (d.jobRank j) bound)

/-- A rank's answer to the schedule (R511): SNAPSHOT completes once every other rank holds it, and fails where one has no source
binding; the job then has no schedule (log 57). -/
def Dev.scheduleReply (d : Dev) (j rank : Nat) (bound : Bool) : Dev :=
  match (d.job j).scheduling with
  | none => d
  | some (q, c) =>
    if !bound then
      let d := (d.modJob j fun x => { x with scheduling := none, holders := [] }).installSchedule j 0 0 true none
      (d.tellJob j (.schedule (d.jobName j) 0 0 true)).failCmd q c Code.havenUnbound
    else
      let d := d.modJob j fun x => { x with holders := x.holders.filter (· != rank) ++ [rank] }
      if (List.range (d.jobRanks j).length).all fun r => r == d.jobRank j || (d.job j).holders.contains r then
        (d.modJob j fun x => { x with scheduling := none, holders := [] }).succeed q c
      else d

/-- SNAPSHOT (R511): the command on the coordinator, the schedule's arrival on another rank, or that rank's answer. A second
SNAPSHOT of the job waits for the first. -/
def execSnapshot (w : SnapshotAt) (s : State) : Host.Outcome State Fault Refusal :=
  .next (s.onDev fun d => match w with
    | .queue q => d.onHead q Op.snapshot (fun d c ctx => d.snapshot q c ctx)
        (go := fun d c ctx => (d.job (jobOf (c.p 0) ctx)).scheduling.isNone)
    | .rank job interval first stop =>
      if d.allJobs.contains job && !d.coordinates job then d.takeSchedule job interval first stop else d
    | .reply job rank bound =>
      if d.allJobs.contains job && d.coordinates job && rank < (d.jobRanks job).length then d.scheduleReply job rank bound else d)

/-! ### Fill, drain and completion (R508, R514, R515) -/

/-- FILL_DONE (R514): the fill of a context's state pages has ended. -/
def execFillDone (slot : Nat) (s : State) : Host.Outcome State Fault Refusal :=
  if 4096 ≤ slot then .fault (.unitAbsent slot)
  else .next (s.onDev fun d => d.each (d.windowEntries slot) fun d e => d.modMap e fun x => { x with fill := false })

/-- A keeper's two slots for a source. -/
def Keeping.slots (k : Keeping) : List KeeperSlot := [k.slotA, k.slotB]

/-- The newest generation a keeper holds DRAINED or COMPLETE. -/
def Keeping.newest (k : Keeping) : Option Nat :=
  ((k.slots.filter fun x => x.state == .drained || x.state == .complete).map KeeperSlot.generation).max?

/-- The slot a unit of generation `g` goes to (R508): the one filling with it, else one that does not hold the newest. -/
def Keeping.slotFor (k : Keeping) (g : Nat) : Bool :=
  let fills (x : KeeperSlot) : Bool := x.generation == g && x.state != .empty
  if fills k.slotA then false
  else if fills k.slotB then true
  else !(k.slotA.state == .empty || some k.slotA.generation != k.newest)

def Keeping.slot (k : Keeping) (b : Bool) : KeeperSlot := if b then k.slotB else k.slotA
def Keeping.setSlot (k : Keeping) (b : Bool) (x : KeeperSlot) : Keeping := if b then { k with slotB := x } else { k with slotA := x }

/-- `n` frames charged to a keeper context, or none. -/
def Dev.keeperFrames (d : Dev) (c n : Nat) : Option (Dev × List Nat) :=
  (List.range n).foldl (fun (acc : Option (Dev × List Nat)) _ => match acc with
    | none => none
    | some (d, l) => match d.assignFrame (c, 0xFF, false) (d.roomiest (c, 0xFF, false) d.hubsUp) with
      | .error _ => none
      | .ok (d, f) => some (d, l ++ [f])) (some (d, []))

/-- A unit arrives at its keeper context (R508). -/
def Dev.keepUnit (d : Dev) (c : Nat) (k : Keeping) (u : HavenUnit) : Dev :=
  let src := (k.source, k.sourceCtx)
  let b := k.slotFor u.generation
  let x := k.slot b
  if x.generation = u.generation && (x.state = .drained || x.state = .complete) then d
  else
    let opened : Option (Dev × KeeperSlot) :=
      if x.state = .filling && x.generation = u.generation then some (d, x)
      else
        let d := d.each x.frames fun d f => d.freeFrame c f
        (d.keeperFrames c (ceilDiv (4096 * u.units) frameBytes)).map fun r =>
          (r.1, { state := .filling, generation := u.generation, frames := r.2 })
    match opened with
    | none =>
      let d := d.each x.frames fun d f => d.freeFrame c f
      (d.modKeep c src fun y => y.setSlot b {}).emit (.fabric k.source (.drainRefused k.sourceCtx u.generation))
    | some (d, x) =>
      let x := { x with units := x.units.put u.unit u.bytes }
      if (List.range u.units).all fun i => (x.units.find i).isSome then
        (d.modKeep c src fun y => y.setSlot b { x with state := .drained }).emit
          (.fabric k.source (.confirm k.sourceCtx u.generation))
      else d.modKeep c src fun y => y.setSlot b x

/-- The slots of a source that hold a generation it has abandoned return to EMPTY (R517). -/
def Dev.emptySlots (d : Dev) (c source sourceCtx g : Nat) : Dev :=
  match (d.haven c).keeps.find? fun k => k.source == source && k.sourceCtx == sourceCtx with
  | none => d
  | some k =>
    let gone (x : KeeperSlot) : Bool := (x.state == .filling || x.state == .drained) && x.generation == g
    (d.each ((k.slots.filter gone).flatMap KeeperSlot.frames) fun d f => d.freeFrame c f).modKeep c (source, sourceCtx) fun k =>
      { k with slotA := if gone k.slotA then {} else k.slotA, slotB := if gone k.slotB then {} else k.slotB }

/-- HAVEN_UNIT_RECEIVE (R508, R515). -/
def execHavenUnitReceive (u : HavenUnit) (s : State) : Host.Outcome State Fault Refusal :=
  .next (s.onLive fun d =>
    match d.ctxOfTag u.keeperCtx with
    | none => d
    | some c =>
      match (d.haven c).keeps.find? fun k => k.bound && k.source == u.source && k.sourceCtx == u.sourceCtx with
      | none => d
      | some k => d.keepUnit c k u)

/-- DRAIN_CONFIRMED (R515): the keeper has the whole generation. -/
def execDrainConfirmed (slot : Nat) (s : State) : Host.Outcome State Fault Refusal :=
  if 4096 ≤ slot then .fault (.unitAbsent slot)
  else .next (s.onDev fun d =>
    match (d.haven slot).draining with
    | none => d
    | some g =>
      let d := d.modHaven slot fun h => { h with draining := none, shard := none }
      d.each ((d.jobsOfCtx slot).filter fun j => (d.job j).current == some g) fun d j =>
        (d.modJob j fun x => { x with drained := true }).tellCoordinator j (.drained (d.jobName j) g))

/-- A generation is complete on this rank: it is the restore point (R516). -/
def Dev.generationDone (d : Dev) (j : Nat) : Dev :=
  d.modJob j fun x => { x with restore := x.current, current := none, drained := false }

/-- The coordinator completes a generation (R515): every rank and keeper is told and the progress fence signalled. -/
def Dev.completeGeneration (d : Dev) (j g : Nat) : Dev :=
  let d := (d.generationDone j).tellJob j (.complete (d.jobName j) g)
  let d := match (d.haven (d.jobCtx j)).partner with
    | some (a, _) => d.emit (.fabric a (.complete (d.jobName j) g))
    | none => d
  match (d.job j).progress with
  | some (q, f) => d.endAll [] [{ slot := f, queue := q, seq := 0, ctx := (d.ctx (d.jobCtx j)).tag.toNat, value := BitVec.ofNat 32 g }] false
  | none => d

/-- SNAPSHOT_COMPLETE (R515), at the coordinator once every rank has reported, or where COMPLETE arrives. -/
def execSnapshotComplete (w : CompleteAt) (s : State) : Host.Outcome State Fault Refusal :=
  .next (s.onLive fun d => match w with
    | .coordinator j =>
      match (d.job j).current with
      | some g => if d.allJobs.contains j && d.coordinates j && (d.job j).drained then d.completeGeneration j g else d
      | none => d
    | .rank j => if d.allJobs.contains j && !d.coordinates j && (d.job j).drained then d.generationDone j else d
    | .keeper c src srcCtx g => d.modKeep c (src, srcCtx) fun k =>
        let up (x : KeeperSlot) : KeeperSlot := if x.state = .drained && x.generation = g then { x with state := .complete } else x
        { k with slotA := up k.slotA, slotB := up k.slotB })

/-! ### RESTORE (R522 to R524) -/

/-- The generation pulled is the one that RESTORE asks for: its own number, or with 0 the newest that every keeper holds, which
is never older than the one this rank has seen complete (R516). -/
def Dev.wanted (d : Dev) (j g pulled : Nat) : Bool :=
  if g = 0 then (d.job j).restore.all (· ≤ pulled) else pulled == g

/-- The scale-table entries of a context's plans that can no longer be read are assigned anew (R179), or the plan whose entries
cannot be. -/
def Dev.reassignScales (d : Dev) (c : Nat) : Except Nat Dev :=
  (d.ctxPlans c).foldl (fun (acc : Except Nat Dev) p => match acc with
    | .error s => .error s
    | .ok d =>
      let gone := (List.range p.2.tensors.length).filter fun t => ((p.2.tensors.getD t {}).entry).any d.entryRefused
      match d.takeEntries c gone.length with
      | .error _ => .error p.1
      | .ok (d, es) => .ok (d.each (gone.zip es) fun d x =>
          let old := d.scaleEntry (((p.2.tensors.getD x.1 {}).entry).getD 0)
          (d.modScale x.2 fun _ => { old with fill := 0, head := 0, ring := [], pending := [] }).modPlaced p.1 x.1 fun y =>
            { y with entry := some x.2 })) (.ok d)

/-- The effect of RESTORE as it begins (R522, R523): the shard is pulled and verified, and waits for the ebb. -/
def Dev.beginRestore (d : Dev) (q : Nat) (c : Cmd) (ctx : Nat) (r : PullResult) : Dev :=
  let plans := d.ctxPlans ctx
  if !d.jobHandleOk (c.p 0) ctx then d.failCmd q c Code.objectFreed
  else if !d.isSource ctx then d.failCmd q c Code.havenUnbound
  else match r with
  | .shard s =>
    if !d.wanted (jobOf (c.p 0) ctx) (c.p64 1) s.generation then d.failCmd q c Code.havenIncomplete
    else if (s.plans.map ShardPlan.digest) ≠ plans.map (fun p => p.2.module.digest) then d.failCmd q c Code.havenMismatch
    else match d.reassignScales ctx with
    | .error p => (d.unloadPlan p).failCmd q c Code.loadMemory
    | .ok d => d.modHaven ctx fun h => { h with restoring := some (q, c, s) }
  | _ => d.failCmd q c Code.havenIncomplete

/-- RESTORE (R523): it begins only when no step of the context runs or spills. -/
def execRestore (q : Nat) (r : PullResult) (s : State) : Host.Outcome State Fault Refusal :=
  .next (s.onDev fun d => d.onHead q Op.restore (fun d c ctx => d.beginRestore q c ctx r)
    (go := fun d _ ctx => !(d.runs.any fun x => x.2.ctx == ctx) && (d.haven ctx).restoring.isNone))

/-- The local slot of a plan of the shard: the loaded plans follow the saved ones in order of slot. -/
def Dev.shardSlot (d : Dev) (c : Nat) (s : Shard) (p : Nat) : Option Nat :=
  ((d.ctxPlans c).map Prod.fst)[(s.plans.map ShardPlan.plan).idxOf p]?

/-- The frames of the mutable tensors outside the state set, but for those the state pages have. -/
def Dev.otherFrames (d : Dev) (c : Nat) (live : List Nat) : List Nat :=
  ((d.ctxPlans c).flatMap fun p =>
    ((List.range p.2.tensors.length).filter fun t => !(p.2.module.tensor t).readOnly && !p.2.module.state.contains t).flatMap
      fun t => (p.2.tensors.getD t {}).frames).eraseDups.filter fun f => !live.contains f

/-- Scale-table entries at a restore (R177): the answer tells whether one was restored empty. -/
def Dev.restoreScales (d : Dev) (c : Nat) (s : Shard) : Dev × Bool :=
  ((d.ctxPlans c).flatMap fun p => (List.range p.2.tensors.length).filterMap fun t =>
      (p.2.tensors.getD t {}).entry.map fun e => (p.1, t, e)).foldl (fun acc x =>
    let p := acc.1.plan x.1
    let saved := s.scales.find? fun y => d.shardSlot c s y.plan == some x.1 && y.tensor == x.2.1
    match saved with
    | some y =>
      if p.module.policy x.2.1 = 0 then
        (acc.1.modScale x.2.2 fun z =>
          { z with fill := y.slots.length, head := y.slots.length % z.len, pending := [], lastStep := y.lastStep
                   ring := y.slots.zipIdx.foldl (fun r k => r.set 0 k.2 k.1) [] }, acc.2)
      else (acc.1.modScale x.2.2 fun z => { z with fill := 0, pending := [] }, true)
    | none => (acc.1.modScale x.2.2 fun z => { z with fill := 0, pending := [] }, true)) (d, false)

/-- The restore record (R524). -/
def Dev.restoreRecord (d : Dev) (c : Nat) (s : Shard) (resync : Nat) (empty : Bool) : List W32 :=
  let ps := d.ctxPlans c
  padTo 0 16 ([s.generation, s.generation / 4294967296, ps.length + 256 * boolNat (resync != 0) + 512 * boolNat empty, resync,
    s.bytes, s.bytes / 4294967296].map (BitVec.ofNat 32)) ++
  ps.flatMap fun p => [p.2.handle p.1, 0, p.2.position, p.2.position / 4294967296].map (BitVec.ofNat 32)

/-- The switch of a restore at ebb action 4 (R523 steps 3 to 7); the notice RNG_RESYNC stands in the record and, as every notice,
in the completion (R13, R178). -/
def Dev.switchRestore (d : Dev) (c : Nat) : Dev :=
  match (d.haven c).restoring with
  | none => d
  | some (q, cmd, s) =>
    let (d, pairs) := d.swapState c
    let live := pairs.map Prod.snd
    let d := d.each (d.stateEntries c) fun d e => d.modMap e fun x => { x with fill := false }
    let d := d.each (live ++ d.otherFrames c live) Dev.blankFrame
    let d := d.each (d.ctxPlans c) fun d p =>
      d.each ((List.range p.2.tensors.length).filter fun t => !(p.2.module.tensor t).readOnly) fun d t =>
        d.modPlaced p.1 t fun x =>
          { x with expMax := expMaxEmpty (p.2.module.tensor t).format
                   coarse := if p.2.module.policy t = 2 then (p.2.module.scaleOf t).coarse else 0x3F800000 }
    let d := d.each s.tensors fun d t => match d.shardSlot c s t.plan with
      | some p =>
        (d.writeMem (d.tensorCells ((d.plan p).tensors.getD t.tensor {}) 0 t.bytes)).modPlaced p t.tensor fun x =>
          { x with coarse := t.coarse, expMax := t.expMax }
      | none => d
    let (d, empty) := d.restoreScales c s
    let resync := sumNat (s.plans.map fun p => (p.streams.filter fun k => k.2 + 1 != p.position).length)
    let d := d.each s.plans fun d p => match d.shardSlot c s p.plan with
      | some x => d.modPlan x fun y =>
          { y with position := p.position, saved := p.position, lastDraw := p.streams.map fun k => (k.1, p.position - 1) }
      | none => d
    let d := d.modCtx c fun x =>
      if x.rollback = some s.generation then { x with rollback := none, held := false } else x
    let d := (d.dropDrain c).modHaven c fun h => { h with restoring := none }
    let d := d.each (d.jobsOfCtx c) fun d j => d.modJob j fun x => { x with current := none, drained := false }
    d.succeed q cmd (d.restoreRecord c s resync empty) (if resync = 0 then [] else [{ code := Code.rngResync }])

/-- Restores whose shard is verified switch at ebb action 4. -/
def Dev.switchRestores (d : Dev) : Dev := d.each (d.havens.map Prod.fst) Dev.switchRestore

/-! ### Haven bindings (R506, R507, R510) -/

/-- The basin of a fabric address (R463). -/
def basinOf (a : Nat) : Nat := a / 32

/-- A context keeps for a source under a bind not yet met. -/
def Haven.keeping (h : Haven) (a x : Nat) : Option Keeping := h.keeps.find? fun k => k.source == a && k.sourceCtx == x

/-- The partner has bound this side: the binding takes effect and the command completes. -/
def Dev.meetBind (d : Dev) (c a x : Nat) : Dev :=
  let h := d.haven c
  let source := h.partner == some (a, x) && !h.bound
  let keeper := (h.keeping a x).any fun k => !k.bound
  if !source && !keeper then d.modHaven c fun h => { h with offers := h.offers ++ [(a, x)] }
  else
    let d := d.modHaven c fun h =>
      { h with bound := h.bound || source, cmd := none, offers := h.offers.filter (· != (a, x))
               keeps := h.keeps.map fun k => if keeper && k.source = a && k.sourceCtx = x then { k with bound := true } else k }
    match h.cmd with
    | some (q, cmd) => d.succeed q cmd
    | none => d

/-- The effect of HAVEN_BIND with unbind 0. -/
def Dev.havenBind (d : Dev) (q : Nat) (c : Cmd) (ctx : Nat) : Dev :=
  let a := c.pf 1 0 10
  let x := c.pf 2 0 16
  let h := d.haven ctx
  let keeper := c.pf 0 0 1 == 1
  if basinOf a = basinOf d.fabric.address.toNat || (!keeper && h.partner.isSome) then d.failCmd q c Code.havenMismatch
  else match (if keeper then Except.ok d else d.chargeTwins ctx) with
  | .error _ => d.failCmd q c Code.quotaExceeded
  | .ok d =>
    if keeper && (h.keeping a x).any fun k => k.bound then d.succeed q c
    else
      let d := d.modHaven ctx fun h =>
        if keeper then
          { h with cmd := some (q, c), keeps := h.keeps ++ [{ source := a, sourceCtx := x, bound := false }] }
        else
          { h with cmd := some (q, c), partner := some (a, x), bound := false, mirrorRo := c.pf 0 1 1 == 1
                   spare := if c.pf 0 3 1 = 1 then some (c.pf 3 0 10) else none }
      let d := d.emit (.fabric a (.havenBind (d.ctx ctx).tag.toNat x))
      if h.offers.contains (a, x) then d.meetBind ctx a x else d

/-- Snapshot-engine slots in use: one for each source binding (R539). -/
def Dev.snapshotSlots (d : Dev) : Nat := (d.havens.filter fun h => h.2.partner.isSome).length

/-- The HAVEN_BIND at the head of a queue begins; a second bind on a context waits for the first, and a source's for a
snapshot key slot (R539). -/
def Dev.havenBindHead (d : Dev) (q : Nat) : Dev :=
  let want (c : Cmd) : Bool := c.pf 0 2 1 == 0
  let full (c : Cmd) (ctx : Nat) : Bool := c.pf 0 0 1 == 0 && (d.haven ctx).partner.isNone && decide (64 ≤ d.snapshotSlots)
  match d.atHead q Op.havenBind want with
  | .ready c ctx =>
    if full c ctx then d.waitKey 5 q
    else d.onHead q Op.havenBind (fun d c ctx => d.havenBind q c ctx) (want := want) (go := fun d _ ctx => (d.haven ctx).cmd.isNone)
  | _ => d.onHead q Op.havenBind (fun d c ctx => d.havenBind q c ctx) (want := want)

/-- HAVEN_BIND (R506, R507, R539). -/
def execHavenBind (q : Nat) (s : State) : Host.Outcome State Fault Refusal := .next (s.onDev fun d => d.havenBindHead q)

/-- HAVEN_BIND_RECEIVE (R506): the partner's bind arrives. -/
def execHavenBindReceive (slot partner partnerCtx : Nat) (s : State) : Host.Outcome State Fault Refusal :=
  if 4096 ≤ slot then .fault (.unitAbsent slot)
  else .next (s.onLive fun d => if (d.ctx slot).state.isOpen then d.meetBind slot partner partnerCtx else d)

/-- A source side is unbound, and its twins released. -/
def Dev.dropSource (d : Dev) (c : Nat) : Dev :=
  (d.modHaven c fun h => { h with partner := none, bound := false, mirrorRo := false, spare := none }).releaseTwins c

/-- A keeper side is unbound, and the frames of its slots released. -/
def Dev.dropKeep (d : Dev) (c a x : Nat) : Dev :=
  let frames := ((d.haven c).keeping a x).toList.flatMap fun k => k.slots.flatMap KeeperSlot.frames
  let d := d.modHaven c fun h => { h with keeps := h.keeps.filter fun k => k.source != a || k.sourceCtx != x }
  d.each frames fun d f => d.freeFrame c f

/-- HAVEN_BIND_TIMEOUT (R506): 2 s after the bind. -/
def execHavenBindTimeout (slot : Nat) (s : State) : Host.Outcome State Fault Refusal :=
  if 4096 ≤ slot then .fault (.unitAbsent slot)
  else .next (s.onDev fun d =>
    match (d.haven slot).cmd with
    | none => d
    | some (q, c) =>
      let d := d.modHaven slot fun h => { h with cmd := none }
      let d := if c.pf 0 0 1 = 1 then d.dropKeep slot (c.pf 1 0 10) (c.pf 2 0 16) else d.dropSource slot
      d.failCmd q c Code.peerLost)

/-- A drain of the binding is in flight. -/
def Dev.drainInFlight (d : Dev) (c : Cmd) (ctx : Nat) : Bool :=
  let h := d.haven ctx
  if c.pf 0 0 1 = 1 then ((h.keeping (c.pf 1 0 10) (c.pf 2 0 16)).any fun k => k.slots.any fun x => x.state == .filling)
  else h.draining.isSome

/-- The effect of HAVEN_BIND with unbind 1. -/
def Dev.havenUnbind (d : Dev) (q : Nat) (c : Cmd) (ctx : Nat) : Dev :=
  let a := c.pf 1 0 10
  let x := c.pf 2 0 16
  let h := d.haven ctx
  if c.pf 0 0 1 = 1 then
    (if (h.keeping a x).any fun k => k.bound then (d.dropKeep ctx a x).succeed q c else d.failCmd q c Code.havenUnbound)
  else if h.partner = some (a, x) && h.bound then (d.dropSource ctx).succeed q c
  else d.failCmd q c Code.havenUnbound

/-- HAVEN_UNBIND (R507): it waits for a drain of the source in flight. -/
def execHavenUnbind (q : Nat) (s : State) : Host.Outcome State Fault Refusal :=
  .next (s.onDev fun d => d.onHead q Op.havenBind (fun d c ctx => d.havenUnbind q c ctx)
    (want := fun c => c.pf 0 2 1 == 1) (go := fun d c ctx => !d.drainInFlight c ctx))

/-! ### Takeover (R518 to R520) -/

/-- The effect of TAKEOVER on the spare: the request goes out through the contact. -/
def Dev.takeover (d : Dev) (q : Nat) (c : Cmd) (ctx : Nat) : Dev :=
  let me := d.fabric.address.toNat
  if basinOf (c.pf 4 0 10) = basinOf me || (d.haven ctx).partner.isSome then d.failCmd q c Code.havenMismatch
  else
    let m : TakeoverRequest :=
      { groupId := c.p64 0, rank := c.pf 2 0 11, failed := c.pf 3 0 10, spare := me, keeper := c.pf 4 0 10
        keeperCtx := c.pf 4 16 16, spareCtx := (d.ctx ctx).tag.toNat, charterDigest := d.charterDigest ctx, chainOk := true }
    (d.modHaven ctx fun h => { h with takeover := some (q, c) }).emit (.fabric (c.pf 3 16 10) (.takeoverRequest m))

/-- TAKEOVER (R518, R519). -/
def execTakeover (q : Nat) (s : State) : Host.Outcome State Fault Refusal :=
  .next (s.onDev fun d => d.onHead q Op.takeover (fun d c ctx => d.takeover q c ctx)
    (go := fun d _ ctx => (d.haven ctx).takeover.isNone))

/-- TAKEOVER_TIMEOUT (R518): the contact or the keeper has not answered. -/
def execTakeoverTimeout (slot : Nat) (s : State) : Host.Outcome State Fault Refusal :=
  if 4096 ≤ slot then .fault (.unitAbsent slot)
  else .next (s.onDev fun d =>
    match (d.haven slot).takeover with
    | some (q, c) => (d.modHaven slot fun h => { h with takeover := none }).failCmd q c Code.peerLost
    | none => d)

/-- The open group of an identity. -/
def Dev.openGroup (d : Dev) (gid : Nat) : Option Nat :=
  (d.fabric.groups.find? fun p => p.2.state == .opened && p.2.groupId == gid).map Prod.fst

/-- A surviving rank takes the substitution (R519, R520): ranks, nonce and key, and its own keeper is told; the rollback follows
at the ebb. -/
def Dev.surviveSub (d : Dev) (g : Nat) (m : Substitution) : Dev :=
  let c := (d.group g).ctx
  let d := (d.modGroup g fun x => { x with ranks := m.ranks, nonce := m.nonce, key := some (d.linkKey c m.groupId m.nonce) }).restartSeqs m.groupId
  let d := if (d.job g).current.isSome then d.abandonJob g else d
  let d := match (d.haven c).partner with
    | some (a, _) => if m.ranks.contains a || a = m.keeper then d else d.emit (.fabric a (.substitution m))
    | none => d
  d.modJob g fun x => { x with lost := x.lost ++ [m.rank], substituted := some m.restore, restore := some m.restore, vote := none
                               votes := [], freezing := false }

/-- The spare takes its place (R519 steps 4 and 5), or learns why not. -/
def Dev.spareSub (d : Dev) (c : Nat) (m : Substitution) : Dev :=
  match (d.haven c).takeover with
  | none => d
  | some (q, cmd) =>
    let d := d.modHaven c fun h => { h with takeover := none }
    if m.code ≠ 0 then d.failCmd q cmd m.code
    else match (List.range 1024).find? fun g => (d.group g).state == .free with
    | none => d.failCmd q cmd Code.groupExhausted
    | some g =>
      let d := d.modGroup g fun x =>
        { x with state := .opened, groupId := m.groupId, ranks := m.ranks, rank := m.rank, ctx := c, nonce := m.nonce
                 key := some (d.linkKey c m.groupId m.nonce) }
      let d := (d.restartSeqs m.groupId).modJob g fun x => { x with restore := some m.restore, lost := m.lost ++ [m.rank] }
      let d := d.modHaven c fun h => { h with partner := some (m.keeper, m.keeperCtx), bound := true }
      let d := match d.chargeTwins c with
        | .ok d => d
        | .error _ => d
      d.succeed q cmd ([(d.group g).handle g, m.restore, m.restore / 4294967296].map (BitVec.ofNat 32))

/-- The keeper of the replaced rank makes the spare its source (R519 step 4). -/
def Dev.keeperSub (d : Dev) (m : Substitution) : Dev :=
  match d.ctxOfTag m.keeperCtx with
  | some c => d.modHaven c fun h => { h with keeps := h.keeps.map fun k =>
      if k.source = m.failed && k.bound then { k with source := m.spare, sourceCtx := m.spareCtx } else k }
  | none => d

/-- The substitution reaches this device in each of its parts. -/
def Dev.takeSub (d : Dev) (m : Substitution) : Dev :=
  let me := d.fabric.address.toNat
  if m.spare = me then
    match d.ctxOfTag m.spareCtx with
    | some c => d.spareSub c m
    | none => d
  else if m.code ≠ 0 then d
  else
    let d := if m.keeper = me then d.keeperSub m else d
    match d.openGroup m.groupId with
    | some g => d.surviveSub g m
    | none => d

/-- TAKEOVER_SUBSTITUTION (R519, R520). -/
def execTakeoverSubstitution (m : Substitution) (s : State) : Host.Outcome State Fault Refusal :=
  .next (s.onLive fun d => d.takeSub m)

/-- The coordinator's check of a request (R518). -/
def Dev.requestCode (d : Dev) (g : Nat) (m : TakeoverRequest) : Option Nat :=
  if !m.chainOk || m.charterDigest ≠ d.charterDigest (d.group g).ctx then some Code.fabricAuth
  else if (d.group g).ranks.getD m.rank 1024 ≠ m.failed || basinOf m.keeper = basinOf m.spare then some Code.havenMismatch
  else if (d.job g).restore.isNone then some Code.havenIncomplete
  else none

/-- TAKEOVER_REQUEST_RECEIVE (R519): the contact passes it to the coordinator, which checks it and sends the
substitution. -/
def Dev.takeRequest (d : Dev) (m : TakeoverRequest) : Dev :=
  match d.openGroup m.groupId with
  | none =>
    d.emit (.fabric m.spare (.substitution { groupId := m.groupId, rank := m.rank, failed := m.failed, spare := m.spare, nonce := 0, restore := 0, ranks := [], spareCtx := m.spareCtx, keeper := m.keeper, keeperCtx := m.keeperCtx, code := Code.fabricAuth }))
  | some g =>
    if !d.coordinates g && (d.group g).ranks.getD (d.coordRank g) 1024 ≠ m.failed then d.tellCoordinator g (.takeoverRequest m)
    else
      let base : Substitution :=
        { groupId := m.groupId, rank := m.rank, failed := m.failed, spare := m.spare, nonce := 0
          restore := (d.job g).restore.getD 0, ranks := (d.group g).ranks.set m.rank m.spare, spareCtx := m.spareCtx
          keeper := m.keeper, keeperCtx := m.keeperCtx, code := 0, lost := (d.job g).lost }
      match d.requestCode g m with
      | some e => d.emit (.fabric m.spare (.substitution { base with code := e }))
      | none =>
        let (b, d) := d.draw
        let sub := { base with nonce := drawNat b }
        let others := ((sub.ranks ++ [m.keeper]).filter (· != d.fabric.address.toNat)).eraseDups
        (d.each others fun d a => d.emit (.fabric a (.substitution sub))).takeSub sub

def execTakeoverRequestReceive (m : TakeoverRequest) (s : State) : Host.Outcome State Fault Refusal :=
  .next (s.onLive fun d => d.takeRequest m)

/-- The rollback of a job at this rank's ebb (R520): RUN_PLANs not complete break, steps are withheld. -/
def Dev.rollbackJob (d : Dev) (j g : Nat) : Dev :=
  let c := d.jobCtx j
  let e : CodeEntry := { code := Code.rollback }
  let d := d.each (d.runCmds.filter fun r => r.ctx == c) fun d r => d.breakCmd r e
  let d := { d with runs := d.runs.map fun (r : Nat × Run) =>
              if r.2.ctx = c && r.2.cls ≠ 2 then (r.1, { r.2 with state := .ended, lastTide := min r.2.lastTide d.tide.number, withhold := some Code.rollback })
              else r }
  let d := (d.modCtx c fun x => { x with rollback := some g, held := false }).withholdCtx c Code.rollback
  d.modJob j fun x => { x with substituted := none, held := false }

/-- Rollbacks due at an ebb. -/
def Dev.rollbacks (d : Dev) : Dev :=
  d.each (d.jobs.filterMap fun j => j.2.substituted.map fun g => (j.1, g)) fun d x => d.rollbackJob x.1 x.2

/-! ### Evacuation (R521) -/

/-- A context of a job is held: no step of it starts, and its RUN_PLANs wait. -/
def Dev.holdJob (d : Dev) (j : Nat) : Dev :=
  (d.modJob j fun x => { x with held := true }).modCtx (d.jobCtx j) fun x => { x with held := true }

/-- EVACUATION_HOLD (R521): the coordinator holds the job on every rank. -/
def execEvacuationHold (job rank : Nat) (s : State) : Host.Outcome State Fault Refusal :=
  .next (s.onLive fun d =>
    if !d.allJobs.contains job || (d.jobRanks job).length ≤ rank then d
    else (d.when (d.coordinates job) fun d => d.tellJob job (.hold (d.jobName job))).holdJob job)

/-- The evacuation's snapshot has completed, or 1,024 tides have passed. -/
def Dev.evacDue (d : Dev) (c : Nat) : Bool :=
  match d.dike.evacSince with
  | none => false
  | some t => t + 1024 ≤ d.tide.number || (d.jobsOfCtx c).any fun j => (d.job j).restore.any (t < ·)

/-- A context is stopped: its commands fetched and later break with EVACUATED. -/
def Dev.stopContext (d : Dev) (c : Nat) : Dev :=
  let tag := (d.ctx c).tag.toNat
  let d := d.modCtx c fun x => { x with evacuated := true }
  let d := d.each (d.queues.flatMap fun (q : Nat × Queue) => (q.2.fetched.filter fun k => k.context == tag).map fun k => (q.1, k))
    fun d x => d.failCmd x.1 x.2 Code.evacuated
  (d.each (d.runCmds.filter fun r => r.ctx == c && decide (r.started < r.count)) fun d r =>
    d.breakCmd r { code := Code.evacuated }).finishDone

/-- EVACUATION_STOP (R521). -/
def execEvacuationStop (slot : Nat) (s : State) : Host.Outcome State Fault Refusal :=
  if 4096 ≤ slot then .fault (.unitAbsent slot)
  else .next (s.onDev fun d =>
    if (d.jobsOfCtx slot).isEmpty || (d.ctx slot).evacuated || !d.evacDue slot then d
    else
      let js := d.jobsOfCtx slot
      let d := d.stopContext slot
      let d := d.each js fun d j =>
        if d.coordinates j then (d.tellJob j (.hold (d.jobName j))).holdJob j
        else d.tellCoordinator j (.evacuated (d.jobName j) (d.jobRank j))
      let d := (d.modDike fun x => { x with evacuated := true }).errEvent .dikewatch Code.evacuated (ctx := (d.ctx slot).tag.toNat)
      d.logEvent 2 Code.evacuated (ctx := (d.ctx slot).tag.toNat) (detail := ((d.haven slot).spare).getD 0))

/-! ### Core faults (R525, R527) -/

/-- A loader core faults: its load restarts on a spare, else on a free core, else fails. -/
def Dev.loaderFault (d : Dev) (k : Nat) : Dev :=
  if 0 < d.spareCores then { d with spareCores := d.spareCores - 1 }
  else
    let l := d.load k
    let d := { d with coresDown := if d.coresDown.contains k then d.coresDown else d.coresDown ++ [k] }.setLoad k none
    match l with
    | none => d
    | some x => match d.freeCore with
      | some n => d.setLoad n (some x)
      | none => d.failCmd x.queue x.cmd Code.coreFault

/-- CORE_FAULT (R527): a pilot of a tile, or a loader core of the control die. -/
def execCoreFault (die core : Nat) (s : State) : Host.Outcome State Fault Refusal :=
  if die ≠ dieOfCd && 16 ≤ die then .fault (.unitAbsent die)
  else if die = dieOfCd && 8 ≤ core then .fault (.unitAbsent core)
  else .next (s.onDev fun d =>
    if d.sys.service ≠ .neap && d.sys.service ≠ .spring then d
    else
      let d := d.errEvent .coreFault Code.coreFault die
      if die = dieOfCd then (if d.coresDown.contains core then d else d.loaderFault core)
      else (d.modDike fun x => { x with pilotFaults := x.pilotFaults + 1 }).each
        ((d.runs.filter fun r => (d.plan r.2.plan).tiles.contains die).map fun r => r.2.ctx).eraseDups fun d c =>
          d.withholdCtx c Code.coreFault)

/-! ### Dikewatch at the ebb (R502 to R504, R521, R525, R528) -/

/-- The level a score gives (R504), from the level before: left only 64 below its threshold. -/
def Dikewatch.levelFor (x : Dikewatch) (score : Nat) : Nat :=
  let at' (n : Nat) (th : BitVec 10) : Bool := th.toNat ≤ score || (n ≤ x.level && th.toNat < score + 64)
  if at' 3 x.evacuate then 3 else if at' 2 x.secure then 2 else if at' 1 x.watch then 1 else 0

/-- The index of the greatest element, the first of equals. -/
def argMax (l : List Nat) : Nat := l.idxOf (maxNat l)

/-- Scores are computed (R503). -/
def Dev.dikeScores (d : Dev) : Dev :=
  let d := d.modDike fun x => { x with events := x.events.filter fun e => d.tide.number < e.tide + 1024 }
  let x := d.dike
  let blocks := dieCodes.map fun k => x.scoreOf (d.dwBlockMeasure k)
  let parts := (List.range 10).map fun i => x.part i (d.dwMeasure i)
  d.modDike fun x =>
    { x with score := if d.lost then 1023 else x.scoreOf d.dwMeasure, topInput := argMax parts
             topDie := dieCodes.getD (argMax blocks) 0
             blocks := (dieCodes.zip blocks).filter fun p => p.2 ≠ 0 }

/-- A job's coordinator is asked for a snapshot at the next boundary (R504, R521), where the rank's context has a keeper. -/
def Dev.askSnapshot (d : Dev) (j : Nat) : Dev :=
  if !d.isSource (d.jobCtx j) then d
  else if d.coordinates j then d.secureNow j (d.jobRank j) else d.tellCoordinator j (.secureNow (d.jobName j) (d.jobRank j))

/-- The level follows the score (R504, R521). -/
def Dev.dikeLevel (d : Dev) : Dev :=
  let old := d.dike.level
  let new := d.dike.levelFor d.dike.score
  if new = old then d
  else
    let ups := (List.range 3).filter fun n => old < n + 1 && n + 1 ≤ new
    let d := d.modDike fun x =>
      { x with level := new, levelUp := ups.foldl (fun m n => m ||| BitVec.ofNat 3 (2 ^ n)) x.levelUp
               evacSince := if new = 3 then some d.tide.number else none }
    let d := d.errEvent .dikewatch
    if old < new && 2 ≤ new then d.each d.allJobs Dev.askSnapshot else d

/-- A tile whose block score calls for it takes its spare cluster, or is drained by force where no spare cluster or bank is
left (R288, R504, R525). -/
def Dev.dikeTile (d : Dev) (t : Nat) : Dev :=
  let b := d.dike.blocks.get 0 t
  let x := d.tile t
  if !x.inService || b < d.dike.watch.toNat then d
  else if !x.clusters.contains 8 then d.modTile t fun x => { x with clusters := x.clusters.set 0 8 }
  else if d.dike.evacuate.toNat ≤ b && 64 ≤ x.spareBanks && !x.draining && !x.drained then d.startDrain t true none
  else d

/-- A bank with 16 corrected reads within 1,024 tides is copied into a spare bank, while one is left (R525). -/
def Dev.dikeBanks (d : Dev) (t : Nat) : Dev :=
  d.modTile t fun x =>
    let recent := x.bankReads.filter fun e => d.tide.number < e.2 + 1024
    let worn := ((recent.map Prod.fst).eraseDups.filter fun b => 16 ≤ (recent.filter fun e => e.1 == b).length).take
      (64 - x.spareBanks)
    { x with bankReads := recent.filter fun e => !worn.contains e.1, spareBanks := x.spareBanks + worn.length }

/-- Dikewatch at an ebb. -/
def Dev.dikeAtEbb (d : Dev) : Dev :=
  ((d.each (List.range 16) Dev.dikeBanks).dikeScores.dikeLevel).each (List.range 16) Dev.dikeTile

/-- The device has lost a system structure (R528): every context is withheld, every fence and command breaks. -/
def Dev.systemLostAtEbb (d : Dev) : Dev :=
  if !d.lost || d.dike.stopped then d
  else
    let d := d.modDike fun x => { x with systemLost := true, score := 1023, stopped := true }
    let d := d.errEvent .systemLost Code.systemLost
    let d := d.each d.openCtxs fun d c => d.withholdCtx c Code.systemLost
    let fences := d.openCtxs.flatMap fun c => (d.ctx c).fenceSlots.filter fun f => (d.fence f).state != .broken
    let d := d.each fences fun d f => (d.breakFence f { code := Code.systemLost, originSlot := f, originCode := Code.systemLost }).writeRecord f
    let begun := d.queues.flatMap fun (q : Nat × Queue) => q.2.begun.map fun k => (q.1, k)
    { d with runs := [], runCmds := [], held := [] }.each begun fun d x => d.failCmd x.1 x.2 Code.systemLost

end Sys2Proof.Machine
end

