-- ==== Sys2Proof/Machine/Trust.lean ====
section
/-! DEFINITION. Trust (chapters 09 and 16): measurements and identity, SPDM and IDE, device interfaces, charters and their
commands, and key slots. -/

namespace Sys2Proof.Machine

/-! ### Identity and measurements (R532 to R536) -/

/-- The RWL registers as measured, in the order of R630, each as a word (log 17). -/
def Dev.lockedWords (d : Dev) : List Nat :=
  let shares := ((List.range 4) ++ (List.range 48).map (8 + ·)).map fun u => (d.arb u).sShare.toNat
  let maps := (List.range 4).map fun n => (d.fabric.spareMap.get 0xFFFFFFFF n).toNat
  boolNat d.sys.setupLock :: (shares ++ [d.fabric.address.toNat, d.fabric.harbour.toNat] ++ maps ++
    [boolNat d.mgmt.i3cEnable + 2 * boolNat d.mgmt.vdmEnable, d.mgmt.staticAddr.toNat])

/-- The digest of a measurement block (R534): images by component; the life cycle and rights; bin, revision and serial; the
RWL registers once they are locked. -/
def Dev.measure (d : Dev) (i : Nat) : List Byte :=
  if i = 28 then Config.sha512 (bytesOfNat 1 d.life.state ++ bytesOfNat 4 d.life.measured.toNat)
  else if i = 29 then
    Config.sha512 (bytesOfNat 1 (boolNat d.sys.binH) ++ bytesOfNat 1 d.sys.revision.toNat ++ bytesOfNat 8 d.sys.serial.toNat)
  else if i = 30 then
    (if d.sys.setupLock then Config.sha512 (d.lockedWords.flatMap (bytesOfNat 4)) else List.replicate 64 0)
  else match d.trust.measures.find i with
    | some x => x
    | none => if 1 ≤ i && i ≤ 27 then Config.bootDigest i else List.replicate 64 0

/-- The measurement-set digest (R534). -/
def Dev.measureSet (d : Dev) : List Byte := Config.sha512 ((List.range 28).flatMap fun i => d.measure (i + 1))

/-- The seed of DeviceID, by the life-cycle state (R532). -/
def Dev.deviceId (d : Dev) : List Byte := hkdf Config.deviceSecret "ONV-DEVID" (bytesOfNat 1 d.life.state)

/-- CDI_1, from the L1 image's digest (R532). -/
def Dev.cdi1 (d : Dev) : List Byte := hkdf Config.deviceSecret "ONV-CDI1" (d.measure 2)

/-- The seed of Alias_1 (R532). -/
def Dev.alias1 (d : Dev) : List Byte := hkdf d.cdi1 "ONV-ALIAS" []

/-- The seed of Alias_2, from CDI_2 and so from the L2 image's digest (R532). -/
def Dev.alias2 (d : Dev) : List Byte := hkdf (hkdf d.cdi1 "ONV-CDI2" (d.measure 3)) "ONV-ALIAS" []

/-- A signature by Alias_2. -/
def Dev.signAlias (d : Dev) (m : List Byte) : List Byte := Config.ed25519Sign d.alias2 m

/-- A certificate: its body for a layer's public key, and its issuer's signature over it (R533). -/
def Dev.certOf (d : Dev) (layer : Nat) (seed : List Byte) (sign : List Byte → List Byte) : List Byte :=
  let b := Config.certBody layer d.sys.serial.toNat (Config.ed25519Public seed)
  b ++ sign b

/-- The certificate chain of slot 0 (R533): in FIELD the DeviceID certificate has the vendor's fused signature, in every other state
it is self-signed. -/
def Dev.certChain (d : Dev) : List Byte :=
  Config.authorityCert ++
  d.certOf 0 d.deviceId (fun b => if d.life.state = 3 then Config.vendorSignature else Config.ed25519Sign d.deviceId b) ++
  d.certOf 1 d.alias1 (Config.ed25519Sign d.deviceId) ++ d.certOf 2 d.alias2 (Config.ed25519Sign d.alias1)

/-- The rights of every debug certificate in force. -/
def LifeCycle.rights (l : LifeCycle) : W32 := l.certs.foldl (fun r c => r ||| c.rights) 0

/-- At an ebb block 28 takes the rights in force (R578), and charters with a required measurement are held while it
differs (R536). -/
def Dev.holdCharters (d : Dev) : Dev :=
  let d := d.modLife fun l => { l with measured := l.rights }
  d.each (d.trust.charters.map Prod.fst) fun d k => d.modCharter k fun x =>
    { x with held := match x.minMeasure with
        | some m => m != d.measureSet
        | none => false }

/-! ### The charter (R541 to R543) -/

/-- A charter as its bytes give it, with its signatures; none where its form is not R541's and R542's. -/
def readCharter (bytes : List Byte) : Option (Charter × List (List Byte)) :=
  let ws := wordsOfBytes (bytes.take 128)
  let f (i lo n : Nat) := bitsOf (wordAt ws i) lo n
  let nOwn := f 1 8 5
  let nDig := f 2 0 8
  let nCon := f 2 8 9
  let nRel := f 2 17 7
  let len := 128 + 32 * nOwn + 64 * nDig + 4 * nCon + 8 * nRel
  if wordAt ws 0 ≠ 0x00524843 || f 1 0 8 ≠ 1 || f 1 13 19 ≠ 0 || nOwn = 0 || 16 < nOwn || nDig = 0 || 64 < nDig ||
      256 < nCon || 64 < nRel || f 2 24 8 ≠ 0 || f 3 16 16 ≠ 0 || wordAt ws 6 ≠ len || wordAt ws 7 ≠ 0 || !zeroWords ws 24 8 ||
      bytes.length < len + 64 * nOwn then none
  else
    let piece (o n : Nat) := (bytes.drop o).take n
    let owners := (List.range nOwn).map fun i => piece (128 + 32 * i) 32
    let o1 := 128 + 32 * nOwn
    let digests := (List.range nDig).map fun i => piece (o1 + 64 * i) 64
    let o2 := o1 + 64 * nDig
    let cons := (List.range nCon).map fun i => natOfBytes (piece (o2 + 4 * i) 4)
    let o3 := o2 + 4 * nCon
    let rels := (List.range nRel).map fun i => (natOfBytes (piece (o3 + 8 * i) 4), natOfBytes (piece (o3 + 8 * i + 4) 4))
    let measureBytes := piece 32 64
    let bad := !(cons.all fun c => bitsOf c 26 6 == 0 && decide (bitsOf c 16 6 < nDig) && decide (bitsOf c 22 4 < nOwn)) ||
      !(rels.all fun r => bitsOf r.1 24 8 == 0 && bitsOf r.1 22 2 != 3 && decide (bitsOf r.1 16 6 < nDig) &&
        bitsOf r.2 16 16 == 0 && r.2 != 0 && decide (r.2 < 2 ^ nOwn)) ||
      owners.eraseDups.length ≠ nOwn || 2 ^ nOwn ≤ f 3 0 16
    if bad then none
    else
      some ({ digest := Config.sha512 (bytes.take len), nonce := dwordAt ws 4, owners := owners, digests := digests
              contribs := cons.map fun c => (bitsOf c 0 16, bitsOf c 16 6, bitsOf c 22 4)
              releases := rels.map fun r => { tensor := bitsOf r.1 0 16, digest := bitsOf r.1 16 6, form := bitsOf r.1 22 2, recipients := r.2 }
              signers := f 3 0 16
              minMeasure := if measureBytes.all (· == 0) then none else some measureBytes },
            (List.range nOwn).map fun i => piece (len + 64 * i) 64)

/-- A charter that CREATE accepts (R543). -/
def Dev.validCharter (d : Dev) (bytes : List Byte) : Option Charter :=
  match readCharter bytes with
  | none => none
  | some (x, sigs) =>
    if ((x.owners.zip sigs).all fun p => Config.ed25519Verify p.1 x.digest p.2) &&
        !(d.trust.charters.any fun c => c.2.state != .empty && c.2.digest == x.digest) then some x else none

/-- The charter's X25519 private key (R546). -/
def Dev.charterPrivate (d : Dev) (x : Charter) (slot : Nat) : List Byte := hkdf d.kBoot "ONV-CHK" (x.digest ++ bytesOfNat 1 slot)

/-- The effect of CREATE (R546), allowed in FIELD only (R565). -/
def Dev.charterCreate (d : Dev) (q : Nat) (c : Cmd) : Dev :=
  if d.life.state ≠ 3 then d.failCmd q c Code.charterDenied
  else match d.validCharter (c.bytesFrom 1) with
  | none => d.failCmd q c Code.charterInvalid
  | some x =>
    match (List.range 256).find? fun k => (d.charter k).state == .empty with
    | none => d.failCmd q c Code.charterExhausted
    | some k =>
      if x.minMeasure.any (· != d.measureSet) then d.failCmd q c Code.attestFail
      else
        let d := d.modCharter k fun _ => { x with state := .keying }
        let pub := Config.x25519Public (d.charterPrivate x k)
        let body := ascii "ONV-CHK" ++ x.digest ++ bytesOfNat 1 k ++ pub ++ d.measureSet ++ bytesOfNat 8 d.sys.serial.toNat
        let sig := d.signAlias (Config.sha512 body)
        d.succeed q c (padTo 0 16 ((BitVec.ofNat 32 k :: wordsOfBytes (pub.take 32))) ++ padTo 0 16 (wordsOfBytes (sig.take 64)))

/-- CHARTER_CREATE (R544, R546). -/
def execCharterCreate (q : Nat) (s : State) : Host.Outcome State Fault Refusal :=
  .next (s.onDev fun d => d.onHead q Op.charterOpen (fun d c _ => d.charterCreate q c) (want := fun c => c.pf 0 0 3 == 0))

/-! ### KEY, BIND, ADMIT and CLOSE (R545, R547 to R549, R555) -/

/-- Envelope-engine slots in use: one for each owner key held (R539). -/
def Dev.sluiceSlots (d : Dev) : Nat := sumNat (d.trust.charters.map fun c => c.2.keys.length)

/-- The domain key a wrap record delivers (R547). -/
def Dev.unwrap (d : Dev) (x : Charter) (k o : Nat) (r : List Byte) : Option (List Byte) :=
  let priv := d.charterPrivate x k
  let pub := Config.x25519Public priv
  let part (a n : Nat) := (r.drop a).take n
  let msg := Config.sha512 (ascii "ONV-KEY" ++ x.digest ++ bytesOfNat 1 k ++ bytesOfNat 1 o ++ part 0 80 ++ pub)
  match x.owners[o]? with
  | none => none
  | some owner =>
    if !Config.ed25519Verify owner msg (part 80 64) then none
    else Config.gcmOpen (hkdf (Config.x25519 priv (part 0 32)) "ONV-WRAP" (x.digest ++ bytesOfNat 1 o)) (List.replicate 12 0) pub
      (part 32 32) (part 64 16)

/-- The effect of KEY (R545, R547). -/
def Dev.charterKey (d : Dev) (q : Nat) (c : Cmd) : Dev :=
  let k := c.pf 1 0 8
  let o := c.pf 2 0 4
  let x := d.charter k
  if x.state ≠ .keying then d.failCmd q c Code.charterDenied
  else if (x.keys.find o).isSome then d.failCmd q c Code.charterInvalid
  else match d.unwrap x k o ((c.bytesFrom 1).take 144) with
  | none => d.failCmd q c Code.charterInvalid
  | some key =>
    let y := { x with keys := x.keys.put o key }
    let y := if y.keys.length = y.owners.length then { y with state := .active, kChr := some y.chrKey } else y
    (d.modCharter k fun _ => y).succeed q c

/-- The KEY at the head of a queue begins where an envelope slot is free, else waits. -/
def Dev.charterKeyHead (d : Dev) (q : Nat) : Dev :=
  let want (c : Cmd) : Bool := c.pf 0 0 3 == 1
  if 32 ≤ d.sluiceSlots then
    match d.atHead q Op.charterOpen want with
    | .ready c _ =>
      if (d.charter (c.pf 1 0 8)).state = .keying then d.waitKey 4 q
      else d.onHead q Op.charterOpen (fun d c _ => d.charterKey q c) (want := want)
    | _ => d.onHead q Op.charterOpen (fun d c _ => d.charterKey q c) (want := want)
  else d.onHead q Op.charterOpen (fun d c _ => d.charterKey q c) (want := want)

/-- CHARTER_KEY (R545, R547, R539). -/
def execCharterKey (q : Nat) (s : State) : Host.Outcome State Fault Refusal :=
  .next (s.onDev fun d => d.charterKeyHead q)

/-- The effect of BIND (R548). -/
def Dev.charterBind (d : Dev) (q : Nat) (c : Cmd) (ctx : Nat) : Dev :=
  let k := c.pf 1 0 8
  if (d.charter k).state ≠ .active || (d.ctx ctx).charter.isSome || !(d.ctxPlans ctx).isEmpty ||
      (d.windowEntries ctx).any fun e => (d.mapEntry e).valid then d.failCmd q c Code.charterDenied
  else (d.modCtx ctx fun x => { x with charter := some k }).succeed q c

/-- CHARTER_BIND (R548). -/
def execCharterBind (q : Nat) (s : State) : Host.Outcome State Fault Refusal :=
  .next (s.onDev fun d => d.onHead q Op.charterOpen (fun d c ctx => d.charterBind q c ctx) (want := fun c => c.pf 0 0 3 == 2))

/-- The effect of ADMIT (R549). -/
def Dev.charterAdmit (d : Dev) (q : Nat) (c : Cmd) (ctx : Nat) : Dev :=
  let k := c.pf 1 0 8
  let o := c.pf 2 0 4
  let x := d.charter k
  let fn := (d.queue q).function.toNat
  if x.state ≠ .active || (d.ctx ctx).charter ≠ some k || !d.admittedFn fn then d.failCmd q c Code.charterDenied
  else
    let nonce := ((d.fn fn).tdiNonce.map Config.random).getD []
    let msg := Config.sha512 (ascii "ONV-ADMIT" ++ x.digest ++ bytesOfNat 8 d.sys.serial.toNat ++ bytesOfNat 1 fn ++ nonce)
    let ok := match x.owners[o]? with
      | some owner => Config.ed25519Verify owner msg ((c.bytesFrom 1).take 64)
      | none => false
    if !ok then d.failCmd q c Code.charterInvalid
    else (d.modFn fn fun f => { f with admitted := if f.admitted.contains (k, o) then f.admitted else f.admitted ++ [(k, o)] }).succeed q c

/-- CHARTER_ADMIT (R549). -/
def execCharterAdmit (q : Nat) (s : State) : Host.Outcome State Fault Refusal :=
  .next (s.onDev fun d => d.onHead q Op.charterOpen (fun d c ctx => d.charterAdmit q c ctx) (want := fun c => c.pf 0 0 3 == 3))

/-- CHARTER_CLOSE (R545, R555). -/
def execCharterClose (q : Nat) (s : State) : Host.Outcome State Fault Refusal :=
  .next (s.onDev fun d => d.onHead q Op.charterClose fun d c _ =>
    let k := c.pf 0 0 8
    let x := d.charter k
    if x.state ≠ .keying && x.state ≠ .active then d.failCmd q c Code.charterDenied
    else ((d.modCharter k fun y => { y with state := .closing }).settleCharter k).succeed q c)

/-- KEY_SLOT_FREED (R539): the commands that waited for a slot of the class are taken up again. -/
def execKeySlotFreed (engineClass : Nat) (s : State) : Host.Outcome State Fault Refusal :=
  if 7 ≤ engineClass then .fault (.unitAbsent engineClass)
  else .next (s.onDev fun d =>
    let ws := d.trust.keyWaits.filter fun w => w.1 == engineClass
    let d := d.modTrust fun t => { t with keyWaits := t.keyWaits.filter fun w => w.1 != engineClass }
    if engineClass = 0 then d.each ws fun d w => d.runPlanHead w.2
    else if engineClass = 6 then d.each ws fun d w => (d.putHead w.2 Op.stage).putHead w.2 Op.putTensor
    else if engineClass = 4 then d.each ws fun d w => d.charterKeyHead w.2
    else if engineClass = 5 then d.each ws fun d w => d.havenBindHead w.2
    else d)

/-! ### Device interfaces (R294, R295, R549) -/

/-- TDISP_LOCK_INTERFACE (R294): only where a selective stream carries the VF's traffic; the start-interface nonce is drawn. -/
def execTdispLockInterface (fn : Nat) (s : State) : Host.Outcome State Fault Refusal :=
  if fn < 2 || 16 < fn then .fault (.unitAbsent fn)
  else .next (s.onDev fun d =>
    let f := d.fn fn
    if !d.regsUp || f.tdi ≠ 0 || f.ideStream.isNone then d
    else
      let n := d.sys.draws
      let d := d.draw.2
      (d.modFn fn fun f => { f with tdi := 1, tdiNonce := some n }).emit (.tdisp fn n))

/-- TDISP_START_INTERFACE (R294): CONFIG_LOCKED to RUN. -/
def execTdispStartInterface (fn : Nat) (s : State) : Host.Outcome State Fault Refusal :=
  if fn < 2 || 16 < fn then .fault (.unitAbsent fn)
  else .next (s.onDev fun d =>
    if d.regsUp && (d.fn fn).tdi = 1 then d.modFn fn fun f => { f with tdi := 2 } else d)

/-- A VF's interface returns to CONFIG_UNLOCKED; leaving RUN silences it (R295). -/
def Dev.stopInterface (d : Dev) (fn : Nat) : Dev :=
  (d.when ((d.fn fn).tdi == 2) fun d => d.silenceFn fn).modFn fn fun f => { f with tdi := 0, tdiNonce := none, admitted := [] }

/-- TDISP_STOP_INTERFACE (R295). -/
def execTdispStopInterface (fn : Nat) (s : State) : Host.Outcome State Fault Refusal :=
  if fn < 2 || 16 < fn then .fault (.unitAbsent fn)
  else .next (s.onDev fun d => if d.regsUp && (d.fn fn).tdi ≠ 0 then d.stopInterface fn else d)

/-! ### IDE_KM (R293, R294) -/

/-- Links there are (R291). -/
def Dev.links (d : Dev) : Nat := if d.sys.bifur then 2 else 1

/-- IDE_KM_MESSAGE (R293, R535): inside a secure session; stream 0 is a link's link stream, 1 to 16 its selective ones. -/
def Dev.ideKm (d : Dev) (m : IdeKm) : Dev :=
  if d.trust.sessions.isEmpty then d
  else match m with
  | .keyProg l st k =>
    if d.links ≤ l || 16 < st then d
    else d.modTrust fun t => { t with ide := t.ide.filter (· != (l, st, k)) ++ [(l, st, k)] }
  | .keySetGo l st k =>
    if d.trust.ide.contains (l, st, k) then
      d.modTrust fun t => { t with ideLive := (t.ideLive.filter fun x => x.1 != l || x.2.1 != st) ++ [(l, st, k)] }
    else d
  | .keySetStop l st =>
    let d := d.modTrust fun t => { t with ide := t.ide.filter fun x => x.1 != l || x.2.1 != st
                                          ideLive := t.ideLive.filter fun x => x.1 != l || x.2.1 != st }
    if l = 0 then { d with fns := d.fns.map fun (f : Nat × Function) =>
        if f.2.ideStream = some st then (f.1, { f.2 with ideStream := none }) else f } else d
  | .query l => d.emit (.mgmt 0 (.vendor 0 l (d.trust.ideLive.map fun x => BitVec.ofNat 32 (x.1 + 256 * x.2.1 + 65536 * x.2.2))))
  | .bindVf fn st =>
    if 2 ≤ fn && fn ≤ 16 && 1 ≤ st && (d.fn fn).tdi = 0 && d.trust.ideLive.any fun x => x.1 == 0 && x.2.1 == st then
      d.modFn fn fun f => { f with ideStream := some st }
    else d

def execIdeKmMessage (m : IdeKm) (s : State) : Host.Outcome State Fault Refusal :=
  .next (s.onDev fun d => if d.regsUp then d.ideKm m else d)

/-! ### SPDM (R534, R535) -/

/-- The management endpoint answers: the device has come up, or holds in recovery or with a fuse fault (R608). -/
def Dev.endpointUp (d : Dev) : Bool :=
  (d.sys.service == .neap || d.sys.service == .spring || d.sys.service == .recovery) && !d.sys.clkLost && !d.sys.forced

/-- An update ends without an image: the inactive slot is invalid (R653, R655). -/
def Mgmt.cancelUpdate (m : Mgmt) : Mgmt :=
  if m.update = .idle then m
  else { m with update := .idle, received := 0
                invalid := if m.update = .downloading && !m.invalid.contains m.component then m.invalid ++ [m.component] else m.invalid }

/-- A message comes over a transport: the PCIe transport has then carried one (R638). -/
def Dev.onTransport (d : Dev) (t : Nat) (f : Dev → Dev) : Dev :=
  if d.endpointUp && t = 2 && d.mgmt.effective.2.1 then f (d.modMgmt fun x => { x with vdmActive := true }) else f d

/-- Transports: 0 the DOE mailbox, 1 I3C, 2 PCIe vendor-defined messages; whether one answers (R535, R639, R642). -/
def Dev.transportUp (d : Dev) (t : Nat) : Bool :=
  match t with
  | 0 => d.endpointUp && !d.sys.d3hot.1
  | 1 => d.endpointUp && (d.mgmt.effective.1 || d.sys.service == .recovery)
  | 2 => d.endpointUp && d.mgmt.effective.2.1
  | _ => false

/-- The answer of the responder: what it answers with, or its error. -/
def Dev.spdm (d : Dev) (t : Nat) (m : SpdmMsg) : Dev :=
  let say (d : Dev) (x : MgmtMsg) : Dev := d.emit (.mgmt t x)
  let early (d : Dev) : Dev := say d (.spdmError 0x04)
  let ready := d.trust.spdmReady && d.life.state != 5
  match m with
  | .getVersion => say (d.modTrust fun x => { x with spdmReady := false }) (.spdm 0x04 [0x12, 0x13])
  | .getCapabilities => say d (.capabilities spdmCaps)
  | .negotiateAlgorithms => say (d.modTrust fun x => { x with spdmReady := true }) (.algorithms spdmAlgs)
  | .other _ => say d (.spdmError 0x07)
  | .pskExchange => say d (.spdmError 0x07)
  | .setCertificate => say d (.spdmError 0x07)
  | .endSession n =>
    if d.trust.sessions.contains n then say (d.modTrust fun x => { x with sessions := x.sessions.filter (· != n) }) (.spdm 0x6C [])
    else say d (.spdmError 0x0B)
  | .getDigests => if ready then say d (.spdm 0x01 (Config.sha512 d.certChain)) else early d
  | .getCertificate slot =>
    if !ready then early d
    else if slot = 0 then say d (.spdm 0x02 d.certChain) else say d (.spdmError 0x01)
  | .challenge nonce =>
    if ready then say d (.spdm 0x03 (d.signAlias (Config.sha512 (nonce ++ d.measureSet)))) else early d
  | .getMeasurements i nonce =>
    if !ready then early d
    else if i = 0 then say d (.spdm 0x60 [30])
    else if i = 0xFF then
      let all := (List.range 30).flatMap fun k => d.measure (k + 1)
      say d (.spdm 0x60 (all ++ d.signAlias (Config.sha512 (nonce ++ all))))
    else if 30 < i then say d (.spdmError 0x01)
    else say d (.spdm 0x60 (d.measure i ++ d.signAlias (Config.sha512 (nonce ++ d.measure i))))
  | .keyExchange both n =>
    if !ready then early d
    else if both then say d (.spdmError 0x07)
    else if 8 ≤ d.trust.sessions.length then say d (.spdmError 0x0A)
    else say (d.modTrust fun x => { x with sessions := x.sessions.filter (· != n) ++ [n] }) (.spdm 0x64 (d.signAlias (bytesOfNat 4 n)))
  | .finish n => if d.trust.sessions.contains n then say d (.spdm 0x65 []) else say d (.spdmError 0x0B)
  | .heartbeat n => if d.trust.sessions.contains n then say d (.spdm 0x68 []) else say d (.spdmError 0x0B)
  | .keyUpdate n => if d.trust.sessions.contains n then say d (.spdm 0x69 []) else say d (.spdmError 0x0B)

/-- SPDM_REQUEST (R535). -/
def execSpdmRequest (transport : Nat) (m : SpdmMsg) (s : State) : Host.Outcome State Fault Refusal :=
  if 3 ≤ transport then .fault (.unitAbsent transport)
  else .next (s.onDev fun d => if d.transportUp transport then d.onTransport transport (·.spdm transport m) else d)

end Sys2Proof.Machine
end

