-- ==== Sys2Proof/Machine/Life.lean ====
section
/-! DEFINITION. Life-cycle states, fuses and transitions (R564 to R573), and debug certificates (R574 to R578). -/

namespace Sys2Proof.Machine

/-! ### Fuse rows (R566) -/

/-- How a physical row of so many ones reads. -/
inductive RowRead where
  | clear | partly | set
  deriving DecidableEq, Repr

def rowRead (ones : Nat) : RowRead := if 48 ≤ ones then .set else if ones ≤ 8 then .clear else .partly

/-- The ones of a logical row's three physical rows. -/
def rowsOf (t : Tab (List Nat)) (k : Nat) : List Nat := t.get [0, 0, 0] k

/-- A logical flag row is set when any of its physical rows reads set. -/
def flagSet (t : Tab (List Nat)) (k : Nat) : Bool := (rowsOf t k).any fun n => rowRead n == .set

/-- Programming a flag blows the first physical row that reads clear; none where no spare remains. -/
def programFlag (t : Tab (List Nat)) (k : Nat) : Option (Tab (List Nat)) :=
  let rows := rowsOf t k
  match (List.range rows.length).find? fun i => rowRead (rows.getD i 64) == .clear with
  | none => none
  | some i => some (t.set [0, 0, 0] k (rows.set i 64))

/-! ### Transitions (R568 to R570) -/

/-- The transition from a state to a target (R568). -/
def transitionOf (state target : Nat) : Option Nat :=
  if target = 5 && 1 ≤ state && state ≤ 4 then some 5
  else if 1 ≤ target && target ≤ 4 && state + 1 = target then some target
  else none

/-- Preconditions of a transition (R568). -/
def LifeCycle.ready (l : LifeCycle) (t : Nat) : Bool :=
  if t = 2 then l.tokensFused else if t = 3 then l.sigFused else true

/-- The digest a token must have (R568). -/
def tokenOf (t : Nat) : List Byte := if t = 1 then Config.waferTokenDigest else Config.tokenDigest t

/-- Bytes of LC_DATA. -/
def LifeCycle.bytes (l : LifeCycle) (words : Nat) : List Byte := bytesOfWords ((List.range words).map (l.data.get 0))

/-- A command of LC_CMD ends: its code stands in LC_STATUS, and LC_DATA is cleared (R573). -/
def LifeCycle.finish (l : LifeCycle) (code : Nat) : LifeCycle := { l with code := BitVec.ofNat 16 code, busy := false, data := [] }

/-- The LC_REQUEST that waits for the command is answered (R646). -/
def Dev.answerLc (d : Dev) (code : Nat) : Dev :=
  match d.mgmt.busy.find? fun b => b.2 == 0x7E with
  | some (t, _) =>
    (d.modMgmt fun m => { m with busy := m.busy.filter fun b => b.2 != 0x7E }).emit (.mgmt t (.vendor 0x01 0 [BitVec.ofNat 32 code]))
  | none => d

/-- A command of LC_CMD ends with a code: ERR_SUMMARY.lifecycle is set (R573, R634), and its LC_REQUEST answered. -/
def Dev.endLife (d : Dev) (code : Nat) (f : LifeCycle → LifeCycle := id) : Dev :=
  ((d.modLife fun l => f (l.finish code)).errEvent .lifecycle code).answerLc code

/-- The device is quiet enough for a transition (R569 check 2). -/
def Dev.quietForLife (d : Dev) : Bool :=
  !(d.ctxs.any fun c => c.1 != 0 && c.2.state != .closed) && !(d.trust.charters.any fun c => c.2.state != .empty) &&
    !d.tide.run && !d.tideRunning && !d.life.pending

/-- The life-cycle registers answer (R572, R608): in service, or with a fuse fault. -/
def Dev.lifeUp (d : Dev) : Bool := d.regsUp || d.sys.locked

/-- The checks of a TRANSITION (R569): the transition, or its code and whether it counts as a failed token. -/
def Dev.transitionCheck (d : Dev) (target : Nat) : Except (Nat × Bool) Nat :=
  let l := d.life
  if 8 ≤ l.tokenFails then .error (Code.lifecycleToken, false)
  else match transitionOf l.state target with
  | none => .error (Code.lifecycleRefused, false)
  | some t =>
    if !l.ready t || !d.quietForLife then .error (Code.lifecycleRefused, false)
    else if Config.sha512 (l.bytes 8) = tokenOf t then .ok t
    else .error (Code.lifecycleToken, true)

/-- A TRANSITION request (R569, R570): refused, or its intent row programmed. -/
def Dev.requestTransition (d : Dev) (target : Nat) : Dev :=
  if d.life.busy || d.life.lockout || !d.lifeUp then d
  else match d.transitionCheck target with
  | .error (code, token) =>
    d.endLife code fun l => { l with tokenFails := if token then l.tokenFails + 1 else l.tokenFails, lockout := l.lockout || token }
  | .ok t =>
    match programFlag d.life.intents t with
    | none => d.endLife Code.fuseFault
    | some rows => d.modLife fun l => { l with intents := rows, busy := true, transition := some t }

/-- LC_TRANSITION (R569). -/
def execLcTransition (target : Nat) (s : State) : Host.Outcome State Fault Refusal :=
  .next (s.onDev fun d => d.requestTransition target)

/-- The first bank of the new root of a transition. -/
def rootBank (t : Nat) : Nat := if t = 3 then 0 else 2

/-- A root is drawn into a bank, with its check row. -/
def Dev.drawRoot (d : Dev) (b : Nat) : Dev :=
  let n := d.sys.draws
  d.draw.2.modLife fun l => { l with banks := l.banks.set 0 b 2, roots := l.roots.set 0 b n }

/-- The roots a transition destroys (R568). -/
def LifeCycle.destroy (l : LifeCycle) (t : Nat) : LifeCycle :=
  let blow (l : LifeCycle) (bs : List Nat) : LifeCycle := { l with banks := bs.foldl (fun x b => x.set 0 b 3) l.banks }
  if t = 3 then { l with provGone := true }
  else if t = 4 then blow l [0, 1]
  else if t = 5 then { blow l [0, 1, 2, 3] with provGone := true, udsGone := true }
  else l

/-- The commit row is programmed, and the old roots destroyed; none where no row is left. -/
def LifeCycle.commit (l : LifeCycle) (t : Nat) : Option LifeCycle :=
  (programFlag l.commits t).map fun rows => { l with commits := rows }.destroy t

/-- The JTAG port as no certificate leaves it (R575, R579): BYPASS, with the outputs that EXTEST drove released. -/
def LifeCycle.releasePort (l : LifeCycle) : LifeCycle :=
  if 2 ≤ l.state then { l with jtag := .bypass, driven := false } else { l with driven := false }

/-- LC_TRANSITION_DONE (R570, R571): the new root, the commit and the destruction; the new state waits for a reset. -/
def execLcTransitionDone (s : State) : Host.Outcome State Fault Refusal :=
  .next (s.onDev fun d =>
    match d.life.transition with
    | none => d
    | some t =>
      if d.sys.clkLost then d
      else
        let d := if t = 3 || t = 4 then d.drawRoot (rootBank t) else d
        match d.life.commit t with
        | none => d.endLife Code.fuseFault fun l => { l with transition := none }
        | some l =>
          (d.modMgmt Mgmt.cancelUpdate).endLife 0 fun _ =>
            ({ l.finish 0 with transition := none, pending := true, certs := [] } : LifeCycle).releasePort)

/-- TOKEN_LOCKOUT_EXPIRY (R569): 100 ms after a failed token. -/
def execTokenLockoutExpiry (s : State) : Host.Outcome State Fault Refusal :=
  .next (s.onDev fun d => d.modLife fun l => { l with lockout := false })

/-! ### Reconciliation at reset (R572) -/

/-- One transition reconciled: rolled forward, or its destruction completed; an interrupted bank is spent. -/
def Dev.reconcile (d : Dev) (t : Nat) : Dev :=
  let l := d.life
  if flagSet l.commits t then d.modLife fun l => l.destroy t
  else if !flagSet l.intents t then d
  else
    let b := rootBank t
    let d' : Option Dev :=
      if t ≠ 3 && t ≠ 4 then some d
      else if l.banks.get 0 b = 2 || l.banks.get 0 (b + 1) = 2 then some d
      else ([b, b + 1].find? fun x => l.banks.get 0 x == 0).map d.drawRoot
    match d' with
    | none => d.modLife fun l => { l with fuseFault := true }
    | some d => match d.life.commit t with
      | none => d.modLife fun l => { l with fuseFault := true }
      | some l => d.modLife fun _ => l

/-- The state the commit rows give (R567). -/
def LifeCycle.fusedState (l : LifeCycle) : Nat := maxNat ([1, 2, 3, 4, 5].filter (flagSet l.commits))

/-- The boot ROM's part (R572, R573): fuses reconciled, the state selected, a fresh challenge. -/
def Dev.bootLife (d : Dev) : Dev :=
  let d := d.each [1, 2, 3, 4, 5] Dev.reconcile
  let n := d.sys.draws
  d.draw.2.modLife fun l => { l with state := l.fusedState, challenge := n }

/-- What fuses keep across a reset; a transition under way leaves its first bank partly programmed. -/
def LifeCycle.afterReset (l : LifeCycle) : LifeCycle :=
  let banks := match l.transition with
    | some t => if t = 3 || t = 4 then l.banks.set 0 (rootBank t) 1 else l.banks
    | none => l.banks
  { intents := l.intents, commits := l.commits, banks := banks, roots := l.roots, provGone := l.provGone, udsGone := l.udsGone
    tokensFused := l.tokensFused, sigFused := l.sigFused, boots := l.boots }

/-! ### Debug certificates (R574 to R578) -/

/-- The rights an issuer may grant (R575): an owner bits 6 and 7, the vendor bits 0 to 7. -/
def rightsAllowed (owner : Bool) (r : Nat) : Bool := if owner then r % 64 = 0 && r < 256 else r < 256

/-- The certificate in LC_DATA, where R576 accepts it, and the counter after this boot's advance. -/
def Dev.debugCert (d : Dev) : Option (DebugCert × Nat × Bool) :=
  let l := d.life
  let w (i : Nat) : Nat := (l.data.get 0 i).toNat
  let bytes := l.bytes 56
  let part (a n : Nat) := (bytes.drop a).take n
  let owner := bitOf (w 1) 8
  let n := bitsOf (w 3) 0 11
  let key := part 64 32
  let charter := part 96 64
  let c := if l.advanced then l.boots else l.boots + 1
  let form := w 0 == 0x00474244 && bitsOf (w 1) 0 8 == 1 && bitsOf (w 1) 12 20 == 0 && rightsAllowed owner (w 2) &&
    bitsOf (w 3) 11 21 == 0 && decide (n ≤ 1024) && bitsOf (w 6) 11 21 == 0 && w 7 == 0 && (n != 0 || w 6 == 0)
  let mine := w 4 + 4294967296 * w 5 == d.sys.serial.toNat && bitsOf (w 1) 9 3 == l.state && 2 ≤ l.state && l.state ≤ 4
  let issuer := if owner then
      d.trust.charters.any fun x => x.2.state == .active && x.2.digest == charter && x.2.owners.contains key
    else Config.sha512 key == Config.vendorDebugDigest && charter.all (· == 0)
  let fresh := if n = 0 then part 32 32 == Config.random l.challenge
    else (part 32 32).all (· == 0) && c ≤ 1024 && bitsOf (w 6) 0 11 ≤ c && c + 1 ≤ bitsOf (w 6) 0 11 + n
  if form && mine && issuer && fresh && l.certs.length < 16 && !l.pending &&
      Config.ed25519Verify key (Config.sha512 (ascii "ONV-DBG" ++ part 0 160)) (part 160 64) then
    some ({ owner := owner, rights := BitVec.ofNat 32 (w 2), charter := charter, key := key }, c, n != 0)
  else none

/-- A DEBUG_OPEN request (R576). -/
def Dev.debugOpen (d : Dev) : Dev :=
  if d.life.busy || !d.lifeUp then d
  else match d.debugCert with
  | none => d.endLife Code.debugDenied
  | some (cert, c, multi) =>
    d.endLife 0 fun l => { l with certs := l.certs ++ [cert], boots := if multi then c else l.boots, advanced := l.advanced || multi }

/-- DEBUG_OPEN (R576). -/
def execDebugOpen (s : State) : Host.Outcome State Fault Refusal := .next (s.onDev Dev.debugOpen)

/-- A DEBUG_CLOSE request (R578). -/
def Dev.debugClose (d : Dev) : Dev :=
  if d.life.busy || !d.lifeUp then d else d.endLife 0 fun l => { l with certs := [] }.releasePort

/-- DEBUG_CLOSE (R578). -/
def execDebugClose (s : State) : Host.Outcome State Fault Refusal := .next (s.onDev Dev.debugClose)

end Sys2Proof.Machine
end

