-- ==== Sys2Proof/Machine/Power.lean ====
section
/-! DEFINITION. Operating points, power and temperature (R592 to R604, R621, R626): SET_OPPOINT, the readings, and what
the power manager does at the ebb. -/

namespace Sys2Proof.Machine

/-! ### Points and predictions (R593, R600) -/

/-- The device cap in W: PWR_CAP, a value outside 1,500 to the design power acting as the nearer limit (R609). -/
def Dev.capW (d : Dev) : Nat :=
  let design := if d.sys.binH then 4800 else 4200
  max 1500 (min design (d.power.cap.getD design))

/-- A tile's highest 1 ms average of the last 1,024 tides, in mW (R599). -/
def Dev.peakOf (d : Dev) (t : Nat) : Nat :=
  maxNat (((d.tile t).peaks.filter fun p => d.tide.number < p.1 + 1024).map Prod.snd)

/-- The change of a tile's highest 1 ms power from its current point to another: f′V′² ÷ fV² (R600), in mW. -/
def Dev.powerChange (d : Dev) (t p : Nat) : Frac :=
  let c := (d.tile t).current
  let peak := Frac.ofNat (d.peakOf t)
  let scale : Frac := { num := (opMHz p * opMv p * opMv p : Nat), den := opMHz c * opMv c * opMv c }
  ((peak.mul scale).sub peak).reduce

/-- A predicted power within the cap. -/
def Dev.withinCap (d : Dev) (mw : Frac) : Bool := mw.le (Frac.ofNat (1000 * d.capW))

/-- The tile's die is at 100 °C or more (R602). -/
def Dev.tooHot (d : Dev) (t : Nat) : Bool := 100 ≤ d.dike.temps.get 0 t

/-- The point asked of a tile: the higher of its requested point and its floor (R593). -/
def Dev.askedPoint (d : Dev) (t : Nat) : Nat := max (d.tile t).requested (d.tileFloor t)

/-- A tile's target (R593): the point asked, lowered by R601 and R602 but never below the floor. -/
def Dev.targetPoint (d : Dev) (t : Nat) : Nat :=
  max (d.tileFloor t) (d.askedPoint t - (d.tile t).lowered - (d.tile t).heat)

/-- The tiles of a mask. -/
def maskTiles (m : Nat) : List Nat := (List.range 16).filter (bitOf m)

/-! ### SET_OPPOINT (R594) -/

/-- The code SET_OPPOINT fails with, if any (R594): predictions of R600 are made for all its raises together. -/
def Dev.oppointCheck (d : Dev) (mask target : Nat) : Option Nat :=
  let up := (maskTiles mask).filter fun t => (d.tile t).current < target
  let change := up.foldl (fun a t => (a.add (d.powerChange t target)).reduce) (Frac.ofNat d.power.powerMw)
  if target = 3 && !d.sys.binH then some Code.powerLimit
  else if (d.sys.service = .neap && target ≠ 0) || (d.sys.service = .spring && target = 0) then some Code.neapOnly
  else if up.any d.tooHot then some Code.thermalLimit
  else if !up.isEmpty && !d.withinCap change then some Code.powerLimit
  else none

/-- The SET_OPPOINT commands whose tiles have all reached their targets leave; the answer has their endings. -/
def Dev.takePoints (d : Dev) : Dev × List Ending :=
  let met (w : Nat × Cmd × Nat × Nat) : Bool := (maskTiles w.2.2.1).all fun t => (d.tile t).current == d.targetPoint t
  let (go, stay) := d.power.waits.partition met
  (d.modPower fun x => { x with waits := stay }, go.map fun w => ({ queue := w.1, cmd := w.2.1 } : Ending))

/-- The effect of SET_OPPOINT. -/
def Dev.setOppoint (d : Dev) (q : Nat) (c : Cmd) : Dev :=
  let mask := c.pf 0 0 16
  let target := c.pf 0 16 2
  match d.oppointCheck mask target with
  | some code => d.failCmd q c code
  | none =>
    let d := d.each (maskTiles mask) fun d t => d.modTile t fun x => { x with requested := target }
    let (d, es) := (d.modPower fun x => { x with waits := x.waits ++ [(q, c, mask, target)] }).takePoints
    d.each es Dev.finish

/-- SET_OPPOINT (R594). -/
def execSetOppoint (q : Nat) (s : State) : Host.Outcome State Fault Refusal :=
  .next (s.onDev fun d => d.onHead q Op.setOppoint fun d c _ => d.setOppoint q c)

/-! ### Readings (R595, R599, R602, R604) -/

/-- A reading of a tile's rail enters its 1 ms window; its highest average of this tide is kept (R599). -/
def Tile.takeReading (x : Tile) (tide mw : Nat) (above : Bool) : Tile :=
  let w := (mw :: x.window).take 10
  let x := { x with window := w, overReads := if above then x.overReads + 1 else if 2 ≤ x.overReads then x.overReads else 0 }
  if w.length < 10 then x
  else
    let avg := sumNat w / 10
    let old := maxNat ((x.peaks.filter fun p => p.1 == tide).map Prod.snd)
    { x with peaks := (x.peaks.filter fun p => p.1 != tide && decide (tide < p.1 + 1024)) ++ [(tide, max old avg)] }

/-- A mean over 10,000 readings of a second ends; the answer is the running sum and the mean, if it has. -/
def addSecond (s : Nat × Nat) (v : Nat) : (Nat × Nat) × Option Nat :=
  let s := (s.1 + v, s.2 + 1)
  if s.2 < 10000 then (s, none) else ((0, 0), some (s.1 / s.2))

/-- Readings are added to the sums of the sensors from `first` on (R560, R648). -/
def addSums (first : Nat) (vs : List Nat) (t : Tab Nat) : Tab Nat :=
  vs.zipIdx.foldl (fun t v => t.set 0 (first + v.2) (t.get 0 (first + v.2) + v.1)) t

/-- The means of a second's sums in a range of sensors; `scale` turns a mean into the sensor's reading. -/
def Power.endSums (x : Power) (first n count : Nat) (scale : Nat → Nat) : Power :=
  (List.range n).foldl (fun x i =>
    { x with means := x.means.set 0 (first + i) (scale (x.sums.get 0 (first + i) / count)), sums := x.sums.set 0 (first + i) 0 }) x

/-- Whole watts of mW, floored to 5 W (R560). -/
def coarseW (mw : Nat) : Nat := mw / 5000 * 5

/-- The readings of R599 are taken. -/
def Dev.powerReading (d : Dev) (p : PowerReading) : Dev :=
  let mws := padTo 0 16 (p.tileMw.take 16) ++ p.railMw.take 12
  let total := sumNat mws
  let d := d.each (List.range 16) fun d t =>
    d.modTile t fun x => x.takeReading d.tide.number (mws.getD t 0) (p.overMax.getD t false)
  let (sec, mean) := addSecond d.power.secSum total
  d.modPower fun x =>
    let x := { x with powerMw := total, secSum := sec, tideSum := (x.tideSum.1 + total, x.tideSum.2 + 1), sums := addSums 2 mws x.sums }
    match mean with
    | some m => { x.endSums 2 28 10000 coarseW with powerW := coarseW m }
    | none => x

/-- A tile's matrix clusters issue on alternate cycles above 105 °C at its floor, until below 102 °C (R602). -/
def Dev.gateTile (d : Dev) (t : Nat) : Dev :=
  let c := d.dike.temps.get 0 t
  if c < 102 then d.modTile t fun x => { x with gated := false }
  else if 105 < c && (d.tile t).current ≤ d.tileFloor t then d.modTile t fun x => { x with gated := true }
  else d

/-- The refresh of stacks follows their temperatures (R621). -/
def Dev.refreshStacks (d : Dev) (l : List (Nat × Nat)) : Dev :=
  d.each l fun d x => d.modHub (x.1 / 6) fun h =>
    { h with refresh2x := if x.2 ≤ 95 then h.refresh2x.filter (· != x.1)
                          else if h.refresh2x.contains x.1 then h.refresh2x else h.refresh2x ++ [x.1] }

/-- The reports of R602 are taken, and the corrected scratchpad reads that R502 counts. -/
def Dev.thermalReading (d : Dev) (r : ThermalReading) : Dev :=
  let d := d.each r.banks fun d b => (d.modTile b.1 fun x =>
    { x with bankReads := x.bankReads ++ [(b.2, d.tide.number)] }).dwEvent .scratchErrors b.1
  let d := d.modDike fun x => { x with temps := r.dies.foldl (fun t e => t.set 0 e.1 e.2) x.temps }
  let d := d.modPower fun x => { x with stackC := r.stackTemps.foldl (fun t e => t.set 0 e.1 e.2) x.stackC }
  let d := (d.refreshStacks r.stackTemps).each (List.range 16) Dev.gateTile
  let hot := maxNat (d.dike.temps.map Prod.snd)
  let was := d.power.thermalActive
  let (sum, mean) := addSecond d.power.tempSum hot
  let gating := d.tiles.any fun t => t.2.gated
  let dies := dieCodes.map (d.dike.temps.get 0)
  let d := d.modPower fun x =>
    let sums := addSums 64 ((List.range 24).map (x.stackC.get 0)) (addSums 32 dies x.sums)
    let x := { x with tempSum := sum, thermalActive := decide (100 ≤ hot), gating := gating, sums := sums }
    match mean with
    | some m => { (x.endSums 32 25 10000 id).endSums 64 24 10000 id with tempC := m }
    | none => x
  if 100 ≤ hot && !was then d.errEvent .thermal Code.thermalLimit else d

/-- DROOP_STRETCH (R595): counted for Dikewatch; nothing else changes. -/
def execDroopStretch (tile : Nat) (s : State) : Host.Outcome State Fault Refusal :=
  if 16 ≤ tile then .fault (.unitAbsent tile) else .next (s.onDev fun d => d.dwEvent .droop tile)

/-- THERMAL_TRIP (R604): the safe states are forced, and with the control PLL locked every core rail is set to 0 V. -/
def execThermalTrip (s : State) : Host.Outcome State Fault Refusal :=
  .next (s.onDev fun d =>
    if d.sys.tripped then d
    else
      let d := (d.modSys fun x => { x with tripped := true, forced := true }).emit .thermtrip
      if d.sys.pllLocked then
        d.each (List.range 16) fun d t => (d.modTile t fun x => { x with millivolts := 0 }).emit (.avs t 0)
      else d)

/-! ### At the ebb (R41 action 6, R593, R601, R602, R626) -/

/-- Whether a tile may move: in service, and not drained. -/
def Dev.tileMoves (d : Dev) (t : Nat) : Bool := (d.tile t).inService && !(d.tile t).drained

/-- Tiles in order of highest 1 ms power, the lower number first of equals (R601). -/
def Dev.byPeak (d : Dev) : List Nat :=
  (List.range 16).foldl (fun acc t =>
    let (a, b) := acc.span fun u => d.peakOf t ≤ d.peakOf u
    a ++ t :: b) []

/-- Tiles above their floors are lowered, highest power first, until the prediction is within the cap (R601). -/
def Dev.lowerForCap (d : Dev) (ts : List Nat) (mw : Frac) : Dev :=
  match ts with
  | [] => d
  | t :: ts =>
    if d.withinCap mw then d
    else if !d.tileMoves t || (d.tile t).current ≤ d.tileFloor t then d.lowerForCap ts mw
    else
      let mw := (mw.add (d.powerChange t ((d.tile t).current - 1))).reduce
      (d.modTile t fun x => { x with lowered := x.lowered + 1 }).lowerForCap ts mw

/-- The mean power of the tide in mW. -/
def Dev.tideMean (d : Dev) : Nat := if d.power.tideSum.2 = 0 then d.power.powerMw else d.power.tideSum.1 / d.power.tideSum.2

/-- The cap at the ebb (R601): tiles lowered where the tide's mean exceeds it, with the excess logged at the floors. -/
def Dev.capAtEbb (d : Dev) : Dev :=
  let mean := d.tideMean
  let above := decide (1000 * d.capW < mean)
  let was := d.power.capActive
  let d := d.modPower fun x => { x with capActive := above, tideSum := (0, 0) }
  if !above then d
  else
    let d := if was then d else d.errEvent .power Code.powerLimit
    if (List.range 16).all fun t => !d.tileMoves t || decide ((d.tile t).current ≤ d.tileFloor t) then d.logEvent 2 Code.powerLimit
    else d.lowerForCap d.byPeak (Frac.ofNat mean)

/-- A tile whose die is at 100 °C or more is lowered (R602), as one whose rail stood above its maximum twice (R626). -/
def Dev.heatTile (d : Dev) (t : Nat) : Dev :=
  let x := d.tile t
  let above := d.tileMoves t && decide (d.tileFloor t < x.current)
  let d := if d.tooHot t && above then d.modTile t fun x => { x with heat := x.heat + 1 } else d
  if 2 ≤ x.overReads then
    let d := d.modTile t fun x => { x with overReads := 0 }
    if above then d.modTile t fun x => { x with lowered := x.lowered + 1 }
    else d.logEvent 2 Code.powerLimit t
  else d

/-- A lowered tile is let back one step: heat below 95 °C, the cap while the prediction stays within it (R601, R602). -/
def Dev.easeTile (d : Dev) (t : Nat) : Dev :=
  let x := d.tile t
  let next := (Frac.ofNat d.power.powerMw).add (d.powerChange t (x.current + 1))
  if 0 < x.heat then (if d.dike.temps.get 0 t < 95 then d.modTile t fun x => { x with heat := x.heat - 1 } else d)
  else if 0 < x.lowered && !d.power.capActive && d.withinCap next then d.modTile t fun x => { x with lowered := x.lowered - 1 }
  else d

/-- The tile's rail and clock go to a point. -/
def Dev.movePoint (d : Dev) (t p : Nat) : Dev :=
  (d.modTile t fun x => { x with current := p, millivolts := opMv p }).emit (.avs t (opMv p))

/-- The plans on a tile whose floors a refused raise leaves above its point (R277). -/
def Dev.refuseRaise (d : Dev) (t code : Nat) : Dev :=
  d.each ((plansOn (d.plansBut none) t).filter fun p => decide ((d.tile t).current < p.2.floor)) fun d p =>
    d.modPlan p.1 fun x => { x with raiseCode := x.raiseCode.or (some code) }

/-- The refusals of the ebb before count no more. -/
def Dev.clearRaises (d : Dev) : Dev :=
  d.each ((d.plans.filter fun p => p.2.raiseCode.isSome).map Prod.fst) fun d p => d.modPlan p fun x => { x with raiseCode := none }

/-- A step that spans more tides crosses this ebb on the tile, which then takes part only in actions 1 to 3 (R67). -/
def Dev.crossed (d : Dev) (t : Nat) : Bool :=
  d.runs.any fun r => r.2.state == .running && r.2.cls != 2 && decide (r.2.startTide ≤ d.tide.number && d.tide.number < r.2.lastTide) &&
    (d.plan r.2.plan).tiles.contains t

/-- One step of a tile towards its target, with the power predicted so far (R593, R600, R602): a raise refused is not
made, and lowers the target to the tile's point. -/
def Dev.stepTile (d : Dev) (mw : Frac) (t : Nat) : Dev × Frac :=
  let x := d.tile t
  let target := d.targetPoint t
  if !d.tileMoves t || x.current = target || d.crossed t then (d, mw)
  else if target < x.current then (d.movePoint t (x.current - 1), (mw.add (d.powerChange t (x.current - 1))).reduce)
  else
    let next := (mw.add (d.powerChange t (x.current + 1))).reduce
    let held := target - max x.current (d.tileFloor t)
    if d.tooHot t then
      ((d.refuseRaise t Code.thermalLimit).modTile t fun x => { x with heat := x.heat + held }, mw)
    else if !d.withinCap next then
      ((d.refuseRaise t Code.powerLimit).modTile t fun x => { x with lowered := x.lowered + held }, mw)
    else (d.movePoint t (x.current + 1), next)

/-- The lowerings of a tile that its point already lies below count no more. -/
def Dev.trimTile (d : Dev) (t : Nat) : Dev :=
  let room := d.askedPoint t - d.tileFloor t
  d.modTile t fun x => { x with heat := min x.heat room, lowered := min x.lowered (room - min x.heat room) }

/-- Action 6 of the ebb (R41). -/
def Dev.opStep (d : Dev) : Dev × List Ending :=
  let d := (d.clearRaises.capAtEbb.each (List.range 16) Dev.easeTile).each (List.range 16) Dev.heatTile
  let d := d.each (List.range 16) Dev.trimTile
  let r := (List.range 16).foldl (fun (acc : Dev × Frac) t => acc.1.stepTile acc.2 t) (d, Frac.ofNat d.power.powerMw)
  r.1.takePoints

end Sys2Proof.Machine
end

