-- ==== Sys2Proof/Machine/Sensors.lean ====
section
/-! DEFINITION. The PLDM sensors (R648) and the events the device sends when one crosses a threshold or changes state
(R649). -/

namespace Sys2Proof.Machine

/-- GC_SERVICE.state (R609). -/
def Service.num : Service → Nat
  | .reset => 0 | .boot => 1 | .neap => 2 | .spring => 3 | .recovery => 4

/-- Tide state of sensor 130: 0 stopped, 1 locked, 2 holdover, 3 unlocked (R61, R648). -/
def Tide.sensorState (t : Tide) : Nat :=
  if t.phase = .stopped then 0 else if t.unlocked then 3 else if t.holdover then 2 else 1

/-- Whether a sensor is one of R648. -/
def sensorExists (n : Nat) : Bool :=
  (1 ≤ n && n ≤ 29) || (32 ≤ n && n ≤ 56) || (64 ≤ n && n ≤ 87) || n == 96 || (128 ≤ n && n ≤ 147)

/-- The state sensors of R648. -/
def sensorIsState (n : Nat) : Bool := 128 ≤ n && n ≤ 146

/-- A sensor's reading (R648). -/
def Dev.sensor (d : Dev) (n : Nat) : Nat :=
  if n = 1 then d.power.powerW
  else if n < 96 then d.power.means.get 0 n
  else if n = 96 then d.dike.score
  else if n = 128 then d.sys.service.num
  else if n = 129 then d.dike.level
  else if n = 130 then d.tide.sensorState
  else if n ≤ 146 then (d.tile (n - 131)).current
  else d.portsUp.length

/-- How many of a sensor's thresholds its reading stands at or above (R648); a state sensor's state. -/
def Dev.sensorLevel (d : Dev) (n : Nat) : Nat :=
  let r := d.sensor n
  let above (l : List Nat) : Nat := (l.filter fun t => decide (t ≤ r)).length
  if n = 1 then boolNat (decide (d.capW < r))
  else if 32 ≤ n && n ≤ 56 then above [100, 105, 115]
  else if 64 ≤ n && n ≤ 87 then above [95]
  else if n = 96 then above [d.dike.watch.toNat, d.dike.secure.toNat, d.dike.evacuate.toNat]
  else if 128 ≤ n && n ≤ 130 then r
  else 0

/-- The sensors with thresholds, or with an event on change. -/
def watchedSensors : List Nat :=
  1 :: ((List.range 25).map (32 + ·) ++ (List.range 24).map (64 + ·) ++ [96, 128, 129, 130])

/-- The messages a change of the device brings (R649). -/
def Dev.sensorEvents (before d : Dev) : Dev :=
  match d.mgmt.receiver with
  | none => d
  | some (t, _) => d.each watchedSensors fun d n =>
    if before.sensorLevel n = d.sensorLevel n then d else d.emit (.mgmt t (.threshold n (d.sensorLevel n)))

/-- The state with its device changed, and the sensors' messages sent. -/
def State.onDevice (s : State) (f : Dev → Dev) : State := s.onDev fun d => d.sensorEvents (f d)

/-- POWER_SAMPLE (R560, R599). -/
def execPowerSample (p : PowerReading) (s : State) : Host.Outcome State Fault Refusal :=
  .next (s.onDevice fun d => if d.serving then d.powerReading p else d)

/-- THERMAL_SAMPLE (R602, R621). -/
def execThermalSample (r : ThermalReading) (s : State) : Host.Outcome State Fault Refusal :=
  match r.dies.find? (fun e => !dieCodes.contains e.1), r.stackTemps.find? (fun e => decide (24 ≤ e.1)),
      r.banks.find? (fun e => decide (16 ≤ e.1)) with
  | some e, _, _ => .fault (.unitAbsent e.1)
  | none, some e, _ => .fault (.unitAbsent e.1)
  | none, none, some e => .fault (.unitAbsent e.1)
  | none, none, none => .next (s.onDevice fun d => if d.serving then d.thermalReading r else d)

end Sys2Proof.Machine
end

