-- ==== Sys2Proof/Machine/Tier.lean ====
section
/-! DEFINITION. The deep tier at work (R440 to R463): promotions, settlements, superblocks and the flash manager. -/

namespace Sys2Proof.Machine

/-- m.release (R249): an intent, which changes no value; its references leave at its step's commit (R447). -/
def execMRelease (run op : Nat) (s : State) : Host.Outcome State Fault Refusal :=
  .next (s.onDev fun d => d.runOp run op 0x0701)

/-! ### Superblocks and blocks (R455 to R459) -/

/-- A block's key: its plane index and number. -/
def blockKeyOf (plane block : Nat) : Nat := plane * 16777216 + block

/-- Slots of one superblock. -/
def Flash.superSlots (f : Flash) : Nat := geomPlanes f.geom * geomBlockSlots f.geom

/-- Free good blocks of a plane. -/
def Flash.freeBlocks (f : Flash) (plane : Nat) : List Nat :=
  (List.range f.geom.blocks).filter fun b => !f.bad.contains (blockKeyOf plane b) && !f.inUse.contains (blockKeyOf plane b)

/-- Superblocks that free good blocks still make. -/
def Flash.freeSupers (f : Flash) : Nat :=
  match (List.range (geomPlanes f.geom)).map fun p => (f.freeBlocks p).length with
  | [] => 0
  | n :: t => t.foldl min n

/-- The free good block of a plane with the lowest erase count (R458). -/
def Flash.coldBlock (f : Flash) (plane : Nat) : Option Nat :=
  (f.freeBlocks plane).foldl (fun acc b => match acc with
    | none => some b
    | some a => if f.erases.get 0 (blockKeyOf plane b) < f.erases.get 0 (blockKeyOf plane a) then some b else some a) none

/-- A new superblock: one block of every plane (R455, R458). -/
def Flash.newSuper (f : Flash) : Option (Flash × Nat) :=
  let blocks := (List.range (geomPlanes f.geom)).filterMap fun p => (f.coldBlock p).map (blockKeyOf p)
  if blocks.isEmpty || blocks.length < geomPlanes f.geom then none
  else
    let n := f.nextSuper
    some ({ f with supers := f.supers.upd {} n fun _ => { written := true, blocks := blocks }, inUse := f.inUse ++ blocks
                   nextSuper := n + 1 }, n)

/-- Consecutive slots for an extent in the open superblock of staging or of relocation (R455, R457). -/
def Flash.place (f : Flash) (reloc : Bool) (e units : Nat) : Option (Flash × Nat × Nat) :=
  let cur := if reloc then f.openReloc else f.openStage
  let fit := cur.any fun n => (f.supers.get {} n).slots + units ≤ f.superSlots
  let opened : Option (Flash × Nat) :=
    if fit then cur.map fun n => (f, n)
    else if f.superSlots < units then none
    else f.newSuper.map fun x => ((if reloc then { x.1 with openReloc := some x.2 } else { x.1 with openStage := some x.2 }), x.2)
  opened.map fun x =>
    let start := (x.1.supers.get {} x.2).slots
    ({ x.1 with supers := x.1.supers.upd {} x.2 fun y =>
        { y with slots := y.slots + units, valid := y.valid + units, extents := y.extents ++ [e] } }, x.2, start)

/-- An extent's slots in a superblock become invalid. -/
def Flash.invalidate (f : Flash) (n e units : Nat) : Flash :=
  { f with supers := f.supers.upd {} n fun y => { y with valid := y.valid - units, extents := y.extents.filter (· != e) } }

/-- The hub is worn (R459): a plane with a tenth of its blocks retired, or mean erases at rated endurance. -/
def Flash.checkWorn (f : Flash) : Flash := if f.wear = 100 then { f with worn := true } else f

/-- A superblock without valid slots is erased (R457, R459): its blocks are free, or retired at rated endurance. -/
def Flash.eraseSuper (f : Flash) (n : Nat) : Flash :=
  let blocks := (f.supers.get {} n).blocks
  let f := { f with supers := f.supers.upd {} n fun _ => {}, inUse := f.inUse.filter fun b => !blocks.contains b
                    suspect := f.suspect.filter fun b => !blocks.contains b
                    openStage := f.openStage.filter (· != n), openReloc := f.openReloc.filter (· != n) }
  (blocks.foldl (fun f b =>
    let c := f.erases.get 0 b + 1
    { f with erases := f.erases.set 0 b c, bad := if f.geom.endurance ≤ c && !f.bad.contains b then f.bad ++ [b] else f.bad }) f
    ).checkWorn

/-- A superblock's valid extents move, slots unchanged, and it is erased (R441, R457); a promotion in flight makes the move
wait (R463). -/
def Dev.relocate (d : Dev) (h n : Nat) : Dev :=
  let f := d.flashOf h
  let x := f.supers.get {} n
  if !x.written || x.extents.any fun e => (d.extent e).state == .promoting then d
  else
    let f := { f with openStage := f.openStage.filter (· != n), openReloc := f.openReloc.filter (· != n) }
    let r : Option (Dev × Flash) := x.extents.foldl (fun acc e => match acc with
      | none => none
      | some (d, f) =>
        let u := (d.extent e).stored
        match f.place true e u with
        | none => none
        | some (f, m, start) =>
          some (d.modExtent e fun y => { y with superblock := m, startSlot := start }, f.invalidate n e u)) (some (d, f))
    match r with
    | none => d
    | some (d, f) => d.modFlash h fun _ => f.eraseSuper n

/-! ### Promotions (R440, R442 to R449) -/

/-- A promotion of the extent at the head of its hub's sluice begins (R440, R444, R445): its copy takes its frames. -/
def Dev.startPromotion (d : Dev) (e : Nat) : Dev :=
  let x := d.extent e
  let h := extentHub e
  let head := ((d.flashOf h).sluice.head?.map Prod.fst) == some e
  let busy := d.extents.any fun y => extentHub y.1 == h && y.2.underWay
  if x.state ≠ .promoting || !head || busy then d
  else match d.extentTensor e with
  | none => d
  | some _ =>
    let small := decide (x.stored ≤ 512) && d.plainCopy e
    match d.takeCopy (x.ctx, x.owner, true) h (d.promotionOf e) with
    | .error _ => d
    | .ok (d, l) =>
      let d := (d.modExtent e fun y => { y with copy := l, compressed := small }).modCtx x.ctx fun k =>
        { k with flashUse := k.flashUse + 4608 * x.stored }
      let pages := ceilDiv x.stored (geomPlanes (d.flashOf h).geom * (d.flashOf h).geom.slotsPerPage)
      d.modFlash h fun f => { f with sluice := f.sluice.drop 1
                                     supers := f.supers.upd {} x.superblock fun y => { y with reads := y.reads + pages } }

/-- PROMOTION_START (R445): a plan's promotion enters the queue, and begins where its turn has come. -/
def execPromotionStart (extent plan : Nat) (s : State) : Host.Outcome State Fault Refusal :=
  if 16777216 ≤ extent then .fault (.unitAbsent extent)
  else .next (s.onDev fun d =>
    if !(d.extent extent).plans.contains plan || !d.serving then d
    else (d.requestPromotion extent plan d.tide.number).startPromotion extent)

/-- The cells of an extent's contents in its copy's frames. -/
def copyCells (x : Extent) : List Host.Cell :=
  x.contents.filterMap fun c => (x.copy[c.1 / frameBytes]?).map fun f => (frameBytes * f + c.1 % frameBytes, c.2)

/-- A promotion completes (R440, R444): the copy is whole, what waited on the extent is applied, and Dikewatch counts the steps
that waited (R448). -/
def Dev.endPromotion (d : Dev) (e : Nat) : Dev :=
  let x := d.extent e
  let d := if x.compressed then d.each x.copy Dev.openFrame else d.writeMem (copyCells x)
  let waits := (d.runs.filter fun r => r.2.state == .running && r.2.late.any fun l => l.2 == e).length
  let d := d.modDike fun k => { k with promotionWaits := k.promotionWaits + waits }
  let d := d.modExtent e fun y => { y with state := .resident, lastUse := d.tide.number }
  (d.applyReleases e).retryStages

/-- PROMOTION_DONE (R444). -/
def execPromotionDone (extent : Nat) (s : State) : Host.Outcome State Fault Refusal :=
  if 16777216 ≤ extent then .fault (.unitAbsent extent)
  else .next (s.onDev fun d => if (d.extent extent).underWay then d.endPromotion extent else d)

/-- A step waiting on a lost extent stops, to be withheld at its ebb, where its waiters break (R449). -/
def Dev.failWaiting (d : Dev) (e id : Nat) : Dev :=
  match d.runs.find id with
  | none => d
  | some r => match r.late with
    | none => d
    | some (op, x) =>
      if x ≠ e || r.state ≠ .running then d
      else
        let c : CodeEntry := { code := Code.deepReadFail, op := op, step := r.step, index := some e }
        let r := { r with state := .ended, aborted := true, withhold := some (r.withhold.getD c.code), codes := r.codes ++ [c] }
        { d with runs := d.runs.put id r }

/-- An extent whose slots cannot be read becomes LOST (R449). -/
def Dev.loseExtent (d : Dev) (e : Nat) : Dev :=
  let d := (d.dropCopy e).modExtent e fun x => { x with state := .lost, contents := [] }
  ((d.each d.runs.keys fun d r => d.failWaiting e r).applyReleases e).retryStages

/-- PROMOTION_READ_FAIL (R449): the unit comes from the haven partner's mirror, or the extent is lost. -/
def execPromotionReadFail (extent : Nat) (mirror : Option (List Byte)) (s : State) : Host.Outcome State Fault Refusal :=
  if 16777216 ≤ extent then .fault (.unitAbsent extent)
  else .next (s.onDev fun d =>
    let x := d.extent extent
    if !x.underWay then d
    else
      let d := d.dwEvent .flash (dieOfHub (extentHub extent))
      let hv := d.haven x.ctx
      match mirror with
      | some bytes =>
        if hv.bound && hv.mirrorRo then
          d.modExtent extent fun y => { y with contents := (bytes.zipIdx.filter fun b => b.1 != 0).map fun b => (b.2, b.1) }
        else d.loseExtent extent
      | none => d.loseExtent extent)

/-! ### Settlement (R451, R452) -/

/-- The bytes of an extent's copy, by offset. -/
def Dev.copyContents (d : Dev) (x : Extent) : List Host.Cell :=
  if x.compressed then x.contents
  else x.copy.zipIdx.flatMap fun p =>
    (d.mem.filter fun c => c.1 / frameBytes == p.1).map fun c => (frameBytes * p.2 + c.1 % frameBytes, c.2)

/-- The stored units of contents (R436, R439). -/
def storedUnits (contents : List Host.Cell) : Nat := max 1 (min 1024 (Config.compressedUnits contents))

/-- The settlement finds no space (R452): the STAGE commands that completed the extent fail. -/
def Dev.settleFails (d : Dev) (e code : Nat) : Dev :=
  let st := (d.extent e).stagers
  let d := { d with extents := d.extents.map fun (x : Nat × Extent) => (x.1, { x.2 with stagers := x.2.stagers.filter fun s => !st.contains s }) }
  let d := d.modExtent e fun x => { x with state := .filling, complete := true }
  d.each st fun d s => match d.begunCmd s.1 s.2 with
    | some c => d.failCmd s.1 c code (some e)
    | none => d

/-- What a settlement of `units` meets: the code of no space, if any (R452, R457, R459). -/
def Dev.noSpace (d : Dev) (h units : Nat) : Option Nat :=
  let f := d.flashOf h
  if f.worn then some Code.deepWorn
  else if f.room < units || (f.place false 0 units).isNone then some Code.deepFull
  else none

/-- A complete FILLING extent settles (R451): its copy is compressed and sealed under a new serial, and its writes wait at the
sluice's egress gate (R424); none is issued in a tide in which a check has failed for the context (R425). -/
def Dev.startSettlement (d : Dev) (e : Nat) : Dev :=
  let x := d.extent e
  let h := extentHub e
  if x.state ≠ .filling || !x.complete || (d.ctx x.ctx).failed.isSome then d
  else match d.noSpace h (storedUnits (d.copyContents x)) with
  | some code => d.settleFails e code
  | none =>
    let n := (d.flashOf h).serial + 1
    (d.modFlash h fun f => { f with serial := n }).modExtent e fun y =>
      { y with state := .settling, serial := n, gate := some d.tide.epoch }

/-- SETTLEMENT_START (R451). -/
def execSettlementStart (extent : Nat) (s : State) : Host.Outcome State Fault Refusal :=
  if 16777216 ≤ extent then .fault (.unitAbsent extent)
  else .next (s.onDev fun d => if d.serving then d.startSettlement extent else d)

/-- Commands whose last settlement this was succeed. -/
def Dev.settleStagers (d : Dev) (e : Nat) : Dev :=
  let st := (d.extent e).stagers
  let d := d.modExtent e fun x => { x with stagers := [] }
  d.each st fun d s =>
    if d.extents.any fun x => x.2.stagers.contains s then d
    else match d.begunCmd s.1 s.2 with
      | some c => d.succeed s.1 c
      | none => d

/-- A settlement completes (R444, R451): the map names the new slots; without a reference the copy is dropped. -/
def Dev.endSettlement (d : Dev) (e : Nat) : Dev :=
  let x := d.extent e
  let h := extentHub e
  let contents := d.copyContents x
  let units := storedUnits contents
  match (d.flashOf h).place false e units with
  | none => d.settleFails e Code.deepFull
  | some (f, n, start) =>
    let f := if x.stored = 0 then f else f.invalidate x.superblock e x.stored
    let f := { f with supers := f.supers.upd {} n fun y => if y.extents.contains e then y else { y with extents := y.extents ++ [e] } }
    let d := ((d.modFlash h fun _ => f).modCtx x.ctx fun k => { k with flashUse := k.flashUse + 4608 * units }).modExtent e fun y =>
      { y with state := .resident, stored := units, superblock := n, startSlot := start, contents := contents
               covered := [], complete := false }
    let d := d.mirrorCells x.ctx (copyCells (d.extent e))
    ((d.settleStagers e).applyReleases e).retryStages

/-- SETTLEMENT_DONE (R424, R451): not before the gate has let the writes pass. -/
def execSettlementDone (extent : Nat) (s : State) : Host.Outcome State Fault Refusal :=
  if 16777216 ≤ extent then .fault (.unitAbsent extent)
  else .next (s.onDev fun d => if (d.extent extent).state = .settling && (d.extent extent).gate.isNone then d.endSettlement extent else d)

/-- Complete extents left FILLING settle at an ebb at which space exists (R452). -/
def Dev.settleAtEbb (d : Dev) : Dev :=
  d.each ((d.extents.filter fun x => x.2.state == .filling && x.2.complete).map Prod.fst) fun d e =>
    let x := d.extent e
    if (d.noSpace (extentHub e) (storedUnits (d.copyContents x))).isNone then d.startSettlement e else d

/-! ### The flash manager (R457 to R462) -/

/-- The written superblock, not open, with the most invalid slots (R457). -/
def Flash.victim (f : Flash) : Option Nat :=
  (f.supers.filter fun p => p.2.written && f.openStage != some p.1 && f.openReloc != some p.1).foldl (fun acc p =>
    match acc with
    | none => some p.1
    | some n => if (f.supers.get {} n).slots - (f.supers.get {} n).valid < p.2.slots - p.2.valid then some p.1 else some n) none

/-- GARBAGE_COLLECTION (R457). -/
def execGarbageCollection (hub : Nat) (s : State) : Host.Outcome State Fault Refusal :=
  if 4 ≤ hub then .fault (.unitAbsent hub)
  else .next (s.onDev fun d =>
    let f := d.flashOf hub
    if 8 ≤ f.freeSupers then d
    else match f.victim with
    | some n => d.relocate hub n
    | none => d)

/-- The superblock holding the block of lowest erase count among those holding data. -/
def Flash.coldest (f : Flash) : Option (Nat × Nat) :=
  (f.supers.filter fun p => p.2.written && p.2.valid != 0).foldl (fun acc p =>
    p.2.blocks.foldl (fun acc b =>
      let c := f.erases.get 0 b
      match acc with
      | none => some (p.1, c)
      | some (_, m) => if c < m then some (p.1, c) else acc) acc) none

/-- WEAR_LEVEL_RELOCATE (R458). -/
def execWearLevelRelocate (hub : Nat) (s : State) : Host.Outcome State Fault Refusal :=
  if 4 ≤ hub then .fault (.unitAbsent hub)
  else .next (s.onDev fun d =>
    let f := d.flashOf hub
    match f.coldest with
    | some (n, c) => if f.geom.endurance < 10 * (maxNat (f.erases.map Prod.snd) - c) then d.relocate hub n else d
    | none => d)

/-- READ_DISTURB_RELOCATE (R460). -/
def execReadDisturbRelocate (hub superblock : Nat) (s : State) : Host.Outcome State Fault Refusal :=
  if 4 ≤ hub then .fault (.unitAbsent hub)
  else .next (s.onDev fun d =>
    if 100000 ≤ ((d.flashOf hub).supers.get {} superblock).reads then d.relocate hub superblock else d)

/-- PATROL_READ (R449, R456, R461): one page of every plane is read; near its limit the superblock is relocated; a slot
that fails the whole ladder is rewritten from a RESIDENT extent's copy by settlement. -/
def execPatrolRead (hub superblock ladderStep : Nat) (bitErrorsHigh : Bool) (s : State) :
    Host.Outcome State Fault Refusal :=
  if 4 ≤ hub then .fault (.unitAbsent hub)
  else .next (s.onDev fun d =>
    if !((d.flashOf hub).supers.get {} superblock).written then d
    else
      let d := d.modFlash hub fun f => { f with supers := f.supers.upd {} superblock fun y => { y with reads := y.reads + 1 } }
      let d := d.when (4 ≤ ladderStep) fun d => d.dwEvent .flash (dieOfHub hub)
      if 16 ≤ ladderStep then
        d.each ((d.flashOf hub).supers.get {} superblock).extents fun d e =>
          if (d.extent e).state = .resident then
            d.modExtent e fun x => { x with state := .filling, complete := true } else d
      else if 4 ≤ ladderStep || bitErrorsHigh then d.relocate hub superblock else d)

/-- RETENTION_RELOCATE (R461): the uptime clock has passed 30 days since the superblock was programmed. -/
def execRetentionRelocate (hub superblock : Nat) (s : State) : Host.Outcome State Fault Refusal :=
  if 4 ≤ hub then .fault (.unitAbsent hub) else .next (s.onDev fun d => d.relocate hub superblock)

/-- NAND_PROGRAM_FAIL (R462): the block is grown bad and its superblock is relocated. -/
def execNandProgramFail (hub plane block : Nat) (s : State) : Host.Outcome State Fault Refusal :=
  if 4 ≤ hub then .fault (.unitAbsent hub)
  else .next (s.onDev fun d =>
    let f := d.flashOf hub
    let k := blockKeyOf plane block
    if geomPlanes f.geom ≤ plane || f.geom.blocks ≤ block || f.bad.contains k then d
    else
      let d := d.modFlash hub fun f => ({ f with bad := f.bad ++ [k] }).checkWorn
      match f.supers.find? fun p => p.2.blocks.contains k with
      | some p => d.relocate hub p.1
      | none => d)

end Sys2Proof.Machine
end

