-- ==== Sys2Proof/Machine/Tide.lean ====
section
/-! DEFINITION. The tide (chapter 02) and its ebb (R41): the timer, beacons and roles, the boundary, and the actions of the
ebb in their order. -/

namespace Sys2Proof.Machine

/-! ### Firmware swaps (R526, R536, R652, R653) -/

/-- The measurement blocks of a component (R534, R652). -/
def componentBlocks (c : Nat) : List Nat :=
  if c = 1 then [2] else if c = 2 then [3] else if c = 3 then (List.range 16).map (4 + ·)
  else if c = 4 then (List.range 4).map (20 + ·) else if c = 5 then (List.range 4).map (24 + ·) else []

/-- The slot a component runs from: 0 A, 1 B. -/
def Mgmt.slotOf (m : Mgmt) (c : Nat) : Nat := boolNat (m.slotB.contains c)

/-- The digest of a component's image in a slot, for one of its measurement blocks. -/
def Mgmt.imageOf (m : Mgmt) (c slot block : Nat) : List Byte := (m.images.find (2 * c + slot)).getD (Config.bootDigest (block + 32 * slot))

/-- ID_FW.version (R633). -/
def Mgmt.version (m : Mgmt) : BitVec 31 := m.versions.get (Config.fwVersion (m.slotOf 2)) (m.slotOf 2)

/-- A component runs from a slot: its measurement blocks are those of the image there. -/
def Dev.useSlot (d : Dev) (c slot : Nat) : Dev :=
  let d := d.modMgmt fun m => { m with slotB := if slot = 1 then c :: m.slotB.filter (· != c) else m.slotB.filter (· != c) }
  d.modTrust fun x =>
    { x with measures := (componentBlocks c).foldl (fun t b => t.put b (d.mgmt.imageOf c slot b)) x.measures }

/-- A component swaps to its other slot (R526); a new L2 image ends every SPDM session (R536). -/
def Dev.swapSlot (d : Dev) (c : Nat) : Dev :=
  let d := d.useSlot c (1 - d.mgmt.slotOf c)
  if c = 2 then d.modTrust fun x => { x with sessions := [] } else d

/-- Returns and swaps that are due: at an ebb after action 7, or at once while the timer is stopped (R526, R653). -/
def Dev.swapFirmware (d : Dev) : Dev :=
  let d := d.each d.mgmt.returns Dev.swapSlot
  let d := d.modMgmt fun m =>
    { m with returns := [], trials := m.trials.filter fun t => !m.returns.contains t.1 && decide (d.tide.number ≤ t.2) }
  let d := d.each d.mgmt.swaps fun d c =>
    (d.swapSlot c).modMgmt fun m => { m with trials := (m.trials.filter fun t => t.1 != c) ++ [(c, d.tide.number + 1024)] }
  d.modMgmt fun m => { m with swaps := [] }

/-- FW_SELFCHECK_FAIL (R526): the die returns to its previous slot at the next ebb, or at once while the timer is stopped. -/
def execFwSelfcheckFail (component : Nat) (s : State) : Host.Outcome State Fault Refusal :=
  .next (s.onDev fun d =>
    if d.mgmt.trials.any fun t => t.1 == component && decide (d.tide.number ≤ t.2) then
      let d := d.modMgmt fun m => { m with returns := if m.returns.contains component then m.returns else m.returns ++ [component] }
      if d.tideRunning then d else d.swapFirmware
    else d)

/-- A change of MG_CTRL or MG_I3C takes effect (R638). -/
def Dev.applyMgmt (d : Dev) : Dev := d.modMgmt fun m => { m with effective := (m.i3cEnable, m.vdmEnable, m.staticAddr) }

/-! ### The ebb (R41) -/

/-- One field of a counter record: floor(256 × use ÷ capacity), at most 255 (R559). -/
def coarsened (use cap : Nat) : Nat := min 255 (256 * use / cap)

/-- The uses of a record, field by field (R559): fabric bytes over 199.2 GB/s or its rate of each port up, flash bytes over
115 GB/s, both over the period, and the scratchpad's peak over 248 MiB of each tile; engine time and hub bytes are timing,
which stays free (log 9). -/
def Dev.counterUses (d : Dev) (x : Context) (n : Nat) : List Nat :=
  let p := d.tide.period
  let tiles := ((List.range 16).filter (bitOf x.tilesUsed)).length
  (List.range 3).map (fun f => min 255 (Config.counterUse n f)) ++
    [coarsened (10 * x.fabricUse) (p * sumNat (d.portsUp.map fun q => q.2.rate10)), coarsened x.flashUse (115 * p),
     coarsened x.scratchUse (260046848 * tiles)]

/-- Counter records of the tide (R559, R647): one for each context but slot 0 that had a step running or spilling. -/
def Dev.counterRecords (d : Dev) : Dev :=
  let act := d.ctxs.filter fun c => c.2.active
  let d := d.each (act.filter fun c => c.1 != 0) fun d c => d.modMgmt fun m =>
    let n := m.counterNo
    let r : CounterRec :=
      { number := n, tide := d.tide.number, tag := c.2.tag.toNat, tiles := c.2.tilesUsed
        uses := d.counterUses c.2 n }
    { m with counterNo := n + 1, counters := newest 1048576 (m.counters ++ [r]) }
  let d := d.each d.ctxs.keys fun d c => d.modCtx c fun x => { x with flashUse := 0, fabricUse := 0 }
  d.each act fun d c =>
    let mine := (d.runs.filter fun r => r.2.ctx == c.1).flatMap fun r => (d.plan r.2.plan).tiles
    let scratch := d.scratchNow c.1
    d.modCtx c.1 fun x => { x with active := !mine.isEmpty, tilesUsed := mine.foldl (fun m t => m ||| 2 ^ t) 0
                                   scratchUse := scratch }

/-- Action 1: every read is verified, so every gate opens. -/
def Dev.verificationClose (d : Dev) : Dev :=
  let e := d.tide.epoch
  ((d.modTide fun t => { t with verified := [e, e, e, e], epoch := e + 2 }).closeHorizons e).openGates e

/-- Action 2: results committed or withheld, context by context; the answer has the progress signals. -/
def Dev.settleAll (d : Dev) : Dev × List FenceOp :=
  d.openCtxs.foldl (fun acc c => let (d, o) := acc.1.settleCtx c; (d, acc.2 ++ o)) (d, [])

/-- Action 3: the commands that end at this ebb, in one batch (R297). -/
def Dev.ebbCompletions (d : Dev) (ops : List FenceOp) : Dev :=
  let (d, e1) := d.takeDone
  let (d, e2) := d.unloadDue
  let (d, e3) := d.drainsAtEbb
  let (d, e4) := d.groupsAtEbb
  (d.endAll (e1 ++ e2 ++ e3 ++ e4) ops true).counterRecords

/-- Action 6, with the commands it ends: each is announced by a message of its own (R297). -/
def Dev.ebbPoints (d : Dev) : Dev :=
  let (d, es) := d.opStep
  d.endAll es [] false

/-- What else falls to the ebb, after action 7 (R26, R361, R377, R452, R473, R500, R503, R526, R638). -/
def Dev.afterActions (d : Dev) : Dev :=
  let d := d.swapFirmware.dikeAtEbb.dropPorts.rewriteRoutes.rerouteSeams.repairRows.settleAtEbb.tilesReturn.applyMgmt
  d.each d.openCtxs Dev.quotaAtEbb

/-- Action 7: the drains of the shards frozen in this ebb start. -/
def Dev.startDrains (d : Dev) : Dev :=
  d.each ((d.havens.filter fun h => h.2.drainDue).map Prod.fst) fun d c =>
    (d.modHaven c fun h => { h with drainDue := false }).havenDrain c

/-- A freeze of this ebb is still to be decided or made: action 4 has not finished. -/
def Dev.freezesOpen (d : Dev) : Bool := d.jobs.any fun j => j.2.freezing || j.2.vote.isSome

/-- Actions 5, 6 and 7, and what else falls to the ebb. -/
def Dev.finishEbb (d : Dev) : Dev :=
  ((d.modTide fun t => { t with ebbRest := false }).ebbKeys.holdCharters.ebbPoints.startDrains).afterActions

/-- Actions 5 to 7, where they still wait. -/
def Dev.restOfEbb (d : Dev) : Dev := if d.tide.ebbRest then d.finishEbb else d

/-- Actions 5 to 7 follow once action 4 has finished (R41). -/
def Dev.afterFreezes (d : Dev) : Dev := if d.freezesOpen then d else d.restOfEbb

/-- The ebb begins, and its actions follow in their order (R41). -/
def Dev.ebbActions (d : Dev) : Dev :=
  let d := (d.modTide fun t => { t with phase := .ebb, ebbs := t.ebbs + 1 }).passDeadlines
  let d := d.detachRegions.systemLostAtEbb.rollbacks.spillAll.verificationClose
  let withheld := d.openCtxs.filter fun c => (d.withholdCode c).isSome
  let (d, ops) := d.settleAll
  ((d.ebbCompletions ops).switchRestores.voteAtEbb withheld).modTide (fun t => { t with ebbRest := true }) |>.afterFreezes

/-! ### The boundary (R53, R57, R65) -/

/-- The beacon of the present tide on the harbour's ports (R57). -/
def Dev.sendBeacon (d : Dev) : Dev :=
  let t := d.tide
  let d := d.modTide fun x => { x with relayed := x.relayed.put (4 * t.generation.toNat + t.srcRank) t.number }
  d.each (d.portsUp.map Prod.fst) fun d p =>
    d.emit (.port p (.beacon t.number t.generation.toNat t.srcRank t.periodUnits.toNat t.slackPct.toNat t.ebbPct.toNat 0 0))

/-- Class-P meters reset (R77), the boundary counts for waiting commands (R327), and RUN_PLANs that are ready begin and
steps start (R65, R308); then the promotions whose lead has come (R274). -/
def Dev.floodStarts (d : Dev) : Dev :=
  let d := d.each (List.range 16) fun d t => d.modTile t fun x => { x with meter := 0, spent := false }
  let d := d.each d.queues.keys fun d q => d.modQueue q fun x =>
    { x with fetched := x.fetched.map fun (c : Cmd) => { c with boundaries := c.boundaries + 1 } }
  let d := d.each d.queues.keys fun d q => d.beginAtBoundary q (d.queue q).fetched.length
  d.startAll.promoteDue

/-- The device follows a beacon: a backup or follower, or a master that has lost the role. -/
def Tide.follows (t : Tide) : Bool := t.run && !t.neapTimer && t.role != 0 && !t.source

/-- Tide `n` begins. -/
def Dev.beginTide (d : Dev) (n : Nat) : Dev :=
  let d := d.modTide fun t =>
    { t with number := n, ranAny := true, phase := .flood, waiting := false, reported := 0, epoch := 0, verified := [0, 0, 0, 0]
             missed := if t.follows && !t.gotAbove then t.missed + 1 else 0, gotBeacon := false, gotAbove := false
             slew := 0, ebbExtra := 0 }
  let d := { d with held := d.held.map fun (h : Held) => { h with epoch := 0 }
                    runs := d.runs.map fun (x : Nat × Run) => (x.1, { x.2 with horizon := x.2.horizon.map fun _ => 0 })
                    extents := d.extents.map fun (x : Nat × Extent) => (x.1, { x.2 with gate := x.2.gate.map fun _ => 0 }) }
  (if d.tide.source then d.sendBeacon else d).floodStarts

/-- TIDE_BOUNDARY (R53, R56): the number advances by one, or to the highest reported to the source. -/
def execTideBoundary (s : State) : Host.Outcome State Fault Refusal :=
  .next (s.onDevice fun d =>
    if d.tide.phase ≠ .ebb || d.sys.clkLost || d.sys.forced then d
    else (d.missedFreezes.restOfEbb).beginTide (max (d.tide.number + 1) d.tide.reported))

/-- FLOOD_END (R48): slack begins. -/
def execFloodEnd (s : State) : Host.Outcome State Fault Refusal :=
  .next (s.onDev fun d =>
    if d.tide.phase ≠ .flood || d.sys.clkLost || d.sys.forced then d else d.modTide fun t => { t with phase := .slack })

/-! ### The timer (R52, R55, R56) -/

/-- The number of the next tide a standalone or master device starts (R56). -/
def Tide.nextNumber (t : Tide) : Nat := if t.ranAny then t.number + 1 else 0

/-- A master's harbour key is drawn and sent to its neighbours (R479). -/
def Dev.drawHarbourKey (d : Dev) : Dev :=
  let (k, d) := d.draw
  let d := d.modFabric fun f => { f with harbourKey := some k }
  d.each (d.portsUp.map Prod.fst) fun d p => d.emit (.port p (.harbourKey k))

/-- TIDE_CTRL.run is set (R56): the device starts, or waits for a beacon; in neap service every device is standalone. -/
def Dev.startTimer (d : Dev) : Dev :=
  if d.tide.run then d
  else
    let neap := d.sys.service == .neap
    let d := d.modTide fun t =>
      { t with run := true, neapTimer := neap, locked := false, holdover := false, unlocked := false, hops := 0, offsetNs := 0
               missed := 0, gotBeacon := false, gotAbove := false, srcPort := none, towards := none, srcBackup := false, source := false, srcRank := 0 }
    if neap || d.tide.role = 0 then d.beginTide d.tide.nextNumber
    else if d.tide.role = 1 then (d.drawHarbourKey.modTide fun t => { t with source := true }).beginTide d.tide.nextNumber
    else d.modTide fun t => { t with waiting := true }

/-- TIDE_START (R55, R56). -/
def execTideStart (s : State) : Host.Outcome State Fault Refusal :=
  .next (s.onDevice fun d => if d.regsUp then d.startTimer else d)

/-- TIDE_CTRL.run is cleared (R51, R52): ignored while a plan is loaded. -/
def Dev.stopTimer (d : Dev) : Dev :=
  if !d.tide.run then d
  else if d.plans.any fun p => p.2.loaded then d.modTide fun t => { t with cfgReject := true }
  else
    let d := d.modTide fun t => { t with run := false, phase := .stopped, waiting := false, source := false, locked := false
                                         holdover := false, unlocked := false, neapTimer := false }
    d.applyMgmt.swapFirmware

/-- TIDE_STOP (R51, R52). -/
def execTideStop (s : State) : Host.Outcome State Fault Refusal :=
  .next (s.onDevice fun d => if d.regsUp then d.stopTimer else d)

/-- TIDE_NUMBER_LO_READ (R51): the high word is latched. -/
def execTideNumberLoRead (s : State) : Host.Outcome State Fault Refusal :=
  .next (s.onDev fun d =>
    if d.regsUp then d.modTide fun t => { t with numberHi := BitVec.ofNat 32 (t.number / 4294967296) } else d)

/-! ### Beacons (R57 to R64) -/

/-- A beacon's settings are the device's own (R47). -/
def Tide.agrees (t : Tide) (b : Beacon) : Bool :=
  b.periodUnits == t.periodUnits.toNat && b.slackPct == t.slackPct.toNat && b.ebbPct == t.ebbPct.toNat

/-- The beacon of the highest generation is taken, and within it the lowest source rank (R64). -/
def Tide.outranks (t : Tide) (b : Beacon) : Bool :=
  decide (t.generation.toNat < b.generation) || (b.generation == t.generation.toNat &&
    (if t.source then decide (b.srcRank < t.srcRank) else t.srcPort.isNone || decide (b.srcRank ≤ t.srcRank)))

/-- The beacon comes of a source that this backup backs up (R63): the master for rank 1, the master or backup 1 for rank 2. -/
def Tide.heeds (t : Tide) (b : Beacon) : Bool := t.role == 2 && decide (b.srcRank < t.backupRank.toNat)

/-- A beacon is noted in TIDE_STATUS (R51) and its offset disciplined (R59, R62). -/
def Tide.noteBeacon (t : Tide) (b : Beacon) (offset : Int) : Tide :=
  let far := decide (10000 < offset.natAbs)
  { t with generation := BitVec.ofNat 16 b.generation, srcRank := b.srcRank, srcBackup := b.srcRank != 0
           hops := BitVec.ofNat 2 (b.hops + 1), locked := true, holdover := false, gotBeacon := true
           gotAbove := t.gotAbove || t.heeds b, missed := if t.heeds b then 0 else t.missed, towards := none
           srcPort := some b.port, offsetNs := BitVec.ofInt 8 (max (-127) (min 127 offset))
           unlocked := t.unlocked && decide (125 < offset.natAbs)
           slew := if far then 0 else offset
           ebbExtra := if far then (offset % (t.period : Int)).toNat else 0 }

/-- The ports that lead away from a beacon's source (R58): from the source's own basin the global ports, from another
basin the basin ports; a peer that the relay of its basin has reached sends it no further. -/
def Dev.beaconPorts (d : Dev) (b : Beacon) : List Nat := if b.port ≤ 30 && b.hops != 0 then [] else d.awayFrom b.port

/-- A beacon is passed on once, away from its source, within three hops (R57, R58). -/
def Dev.relayBeacon (d : Dev) (b : Beacon) : Dev :=
  let key := 4 * b.generation + b.srcRank
  let sent := match d.tide.relayed.find key with
    | some n => decide (b.tide ≤ n)
    | none => false
  if 2 < b.hops + 1 || sent then d
  else
    let own := Config.residenceNs d.out.length
    let d := d.modTide fun t => { t with relayed := t.relayed.put key b.tide }
    d.each (d.beaconPorts b) fun d q =>
      d.emit (.port q (.beacon b.tide b.generation b.srcRank b.periodUnits b.slackPct b.ebbPct (b.hops + 1) (b.residenceNs + own)))

/-- A first beacon is met (R54, R56): the timer starts at its number, or the source is told of a higher one. -/
def Dev.firstBeacon (d : Dev) (b : Beacon) : Dev :=
  if !d.tide.ranAny || d.tide.number < b.tide then
    (d.modTide fun t => t.noteBeacon b 0).beginTide b.tide |>.modTide fun t =>
      { t with gotBeacon := true, gotAbove := t.heeds b, missed := 0 }
  else (d.modTide fun t => { t with towards := some b.port }).emit (.port b.port (.tideReport (d.tide.number + 1)))

/-- A source yields: it stops beaconing, acts as a follower, and records the event for Dikewatch (R64). -/
def Dev.yieldSource (d : Dev) (b : Beacon) : Dev :=
  ((d.modTide fun t => { t with source := false, srcPort := none }).modDike fun x => { x with yielded := x.yielded + 1 }).logEvent
    2 0 (detail := b.port)

/-- A source meets a beacon of a higher generation (R64). -/
def Tide.outdone (t : Tide) (b : Beacon) : Bool := t.source && decide (t.generation.toNat < b.generation)

/-- A beacon arrives at a device that runs with the harbour (R57 to R64): a source of a lower generation yields to it, and
it is accepted where its settings and its tide number are the device's own. -/
def Dev.takeBeacon (d : Dev) (b : Beacon) : Dev :=
  let up := d.tide.outranks b
  let d := if d.tide.outdone b then d.yieldSource b else d
  if !d.tide.agrees b || !up || 2 < b.hops then d
  else if d.tide.waiting then d.firstBeacon b
  else if b.tide ≠ d.tide.number then d
  else (if d.tide.source then d.yieldSource b else d).modTide fun t => t.noteBeacon b b.offsetNs

/-- BEACON_RECEIVE (R57 to R64): it is passed on, and taken by a device whose timer runs with the harbour; a beacon that
does not authenticate is dropped (R479). -/
def execBeaconReceive (b : Beacon) (s : State) : Host.Outcome State Fault Refusal :=
  if 48 ≤ b.port then .fault (.unitAbsent b.port)
  else .next (s.onDevice fun d =>
    let part := d.tide.run && !d.tide.neapTimer && d.tide.role != 0
    if !b.authentic || (d.port b.port).state ≠ portUp || d.sys.clkLost || d.sys.forced then d
    else if part then (d.takeBeacon b).relayBeacon b else d.relayBeacon b)

/-- TIDE_NUMBER_REPORT (R56): the source takes note; any other device passes the report on towards it. -/
def execTideNumberReport (next : Nat) (s : State) : Host.Outcome State Fault Refusal :=
  .next (s.onDev fun d =>
    if d.tide.source then d.modTide fun t => { t with reported := max t.reported next }
    else match d.tide.towards.or d.tide.srcPort with
    | some p => d.emit (.port p (.tideReport next))
    | none => d)

/-- TIDE_HOLDOVER (R61): 16 ms without a beacon. -/
def execTideHoldover (s : State) : Host.Outcome State Fault Refusal :=
  .next (s.onDevice fun d =>
    if d.tideRunning && d.tide.follows && !d.tide.gotBeacon then d.modTide fun t => { t with holdover := true } else d)

/-- TIDE_UNLOCKED (R61): 64 ms without a beacon; the steps under way that depend on another device break. -/
def execTideUnlocked (s : State) : Host.Outcome State Fault Refusal :=
  .next (s.onDevice fun d =>
    if d.tideRunning && d.tide.follows && !d.tide.gotBeacon then
      (d.modTide fun t => { t with holdover := true, unlocked := true, locked := false }).markUnlocked
    else d)

/-- BACKUP_TAKEOVER (R63): a backup becomes the source at the second boundary in a row without a beacon of the master, or for
rank 2 at the third without one of the master or backup 1, and beacons; the boundary just passed counts. -/
def execBackupTakeover (s : State) : Host.Outcome State Fault Refusal :=
  .next (s.onDevice fun d =>
    let t := d.tide
    let rank := t.backupRank.toNat
    if d.tideRunning && t.follows && t.role = 2 && (rank = 1 || rank = 2) && decide (rank ≤ t.missed) && !t.gotAbove then
      (d.modTide fun t =>
        { t with source := true, srcRank := rank, srcBackup := true, generation := t.generation + 1, hops := 0, locked := false
                 holdover := false, unlocked := false, srcPort := none }).sendBeacon
    else d)

/-- LINK_DELAY_MEASURE (R59): half the round trip is the one-way delay. -/
def execLinkDelayMeasure (port roundTripNs : Nat) (s : State) : Host.Outcome State Fault Refusal :=
  if 48 ≤ port then .fault (.unitAbsent port)
  else .next (s.onDev fun d =>
    if (d.port port).state = portUp then d.modPort port fun x => { x with delayNs := roundTripNs / 2 } else d)

/-! ### EBB_START, and the events its snapshot freezes wait for -/

/-- SNAPSHOT_VOTE (R513), at the coordinator. -/
def execSnapshotVote (job rank : Nat) (freeze : Bool) (s : State) : Host.Outcome State Fault Refusal :=
  .next (s.onLive fun d =>
    if !d.allJobs.contains job || !d.coordinates job || (d.jobRanks job).length ≤ rank || d.tide.phase ≠ .ebb then d
    else ((d.modJob job fun x => { x with votes := (x.votes.filter fun y => y.1 != rank) ++ [(rank, freeze)] }).decideIfVoted job).afterFreezes)

/-- The decision at a rank (R514, R517): freeze or decline; where no vote stands open, the decision abandons the generation
that drains. -/
def Dev.takeDecision (d : Dev) (job : Nat) (freeze : Bool) : Dev :=
    if !d.allJobs.contains job then d
    else match (d.job job).vote with
    | some v => (if freeze then (if v && d.tide.phase = .ebb then d.takeFreeze job else d) else d.declineJob job).afterFreezes
    | none =>
      if freeze || (d.job job).current.isNone then d
      else (d.when (d.coordinates job) fun d => d.tellJob job (.decision (d.jobName job) false)).abandonJob job

/-- SNAPSHOT_DECISION at a rank, or at the keeper of a rank that abandons its generation (R513, R514, R517). -/
def execSnapshotDecision (w : DecisionAt) (freeze : Bool) (s : State) : Host.Outcome State Fault Refusal :=
  .next (s.onLive fun d => match w with
    | .rank job => d.takeDecision job freeze
    | .keeper c source sourceCtx g => if freeze then d else d.emptySlots c source sourceCtx g)

/-- EBB_START (R41). -/
def execEbbStart (s : State) : Host.Outcome State Fault Refusal :=
  .next (s.onDevice fun d => if d.tide.phase ≠ .slack || d.sys.clkLost || d.sys.forced then d else d.ebbActions)

/-! ### Class-P commits (R80, R425, R514) -/

/-- CLASS_P_COMMIT (R80, R425): an ended class-P step whose verification horizon has closed commits at once, or breaks at once
where a check failed; a freeze that waited for it comes before (R514). -/
def execClassPCommit (run : Nat) (s : State) : Host.Outcome State Fault Refusal :=
  .next (s.onDev fun d =>
    match d.runs.find run with
    | none => d
    | some r =>
      if r.cls ≠ 2 || r.state ≠ .ended || r.horizon.isSome then d
      else
        let d := d.waitingFreezes.afterFreezes
        match (d.ctx r.ctx).withhold.or r.withhold with
        | some w =>
          let e := r.breakEntry w
          ((d.taintReaders r e.code).withholdRun r e (d.alsoCodes r)).finishDone
        | none =>
          let (d, ops) := d.commitRun r
          let (d, es) := d.takeDone
          d.endAll es ops false)

end Sys2Proof.Machine
end

