-- ==== Sys2Proof/Machine/Bringup.lean ====
section
/-! DEFINITION. Resets, the loss and return of REFCLK, and bring-up (R583 to R591, R605 to R608). -/

namespace Sys2Proof.Machine

/-! ### Loss of REFCLK (R588 to R591) -/

/-- Blocks of the superblocks into which a hub is programming: an abort leaves them suspect (R589). -/
def Dev.suspectBlocks (d : Dev) (h : Nat) : List Nat :=
  let mine := (d.extents.filter fun e => e.2.state == .settling && extentHub e.1 == h).map fun e => e.2.superblock
  mine.eraseDups.flatMap fun n => ((d.flashOf h).supers.get {} n).blocks

/-- REFCLK_LOSS (R588, R589): nothing new is issued, the stacks refresh themselves, and programs under way are aborted. -/
def execRefclkLoss (s : State) : Host.Outcome State Fault Refusal :=
  .next (s.onDev fun d =>
    if d.sys.clkLost || d.sys.service = .reset then d
    else
      let d := d.modSys fun x => { x with clkLost := true, lossCount := min 255 (x.lossCount + 1), selfRefresh := true }
      d.each (List.range 4) fun d h =>
        let l := d.suspectBlocks h
        if l.isEmpty then d else d.modFlash h fun f => { f with suspect := f.suspect ++ l.filter fun b => !f.suspect.contains b })

/-- FORCING_TAKEOVER (R589, R590): 19 µs after the last edge the outputs are forced and the PLLs released. -/
def execForcingTakeover (s : State) : Host.Outcome State Fault Refusal :=
  .next (s.onDev fun d => if d.sys.clkLost then d.modSys fun x => { x with forced := true, pllLocked := false } else d)

/-- Steps that ran at the loss break with CLOCK_LOSS, their results withheld (R591 item 3). -/
def Dev.clockLossRuns (d : Dev) : Dev :=
  let lost := d.runs.filter fun r => r.2.state == .running
  let d := d.each lost fun d r =>
    let e : CodeEntry := { code := Code.clockLoss, step := r.2.step }
    d.withholdRun { r.2 with codes := r.2.codes ++ [e] } e []
  d.finishDone

/-- Generations not yet DRAINED are abandoned (R517, R591 item 3), as are votes that no decision will meet. -/
def Dev.clockLossJobs (d : Dev) : Dev :=
  d.missedFreezes.each (d.jobs.map Prod.fst) fun d j =>
    let x := d.job j
    if x.current.isNone || x.drained then d
    else
      (if d.coordinates j then d.tellJob j (.decision (d.jobName j) false) else d.tellCoordinator j (.missed (d.jobName j))).abandonJob j

/-- The host link retrains: IDE streams are reset and locked interfaces move to ERROR (R591 item 4). -/
def Dev.linkLost (d : Dev) : Dev :=
  let d := d.modTrust fun x => { x with ide := [], ideLive := [] }
  let d := d.each (d.fns.keys.filter fun f => (d.fn f).tdi == 1 || (d.fn f).tdi == 2) Dev.tdiError
  d.each d.fns.keys fun d f => d.modFn f fun x => { x with ideStream := none }

/-- Superblocks with a suspect block are relocated (R463, R591 item 5). -/
def Dev.relocateSuspects (d : Dev) : Dev :=
  d.each (List.range 4) fun d h =>
    let f := d.flashOf h
    let ns := (f.supers.filter fun p => p.2.blocks.any f.suspect.contains).map Prod.fst
    if f.suspect.isEmpty then d else (d.each ns fun d n => d.relocate h n).modFlash h fun f => { f with suspect := [] }

/-- The tide timer restarts with the number after that of the loss, or waits for a beacon (R591 item 6). -/
def Dev.restartTimer (d : Dev) : Dev :=
  if !d.tideRunning then d
  else if d.tide.follows then d.modTide fun t => { t with phase := .stopped, waiting := true, locked := false, srcPort := none }
  else d.beginTide (d.tide.number + 1)

/-- The recovery of R591, in its order. -/
def Dev.recoverClock (d : Dev) : Dev :=
  let d := d.modSys fun x => { x with clkLost := false, forced := false, pllLocked := true, selfRefresh := false }
  let d := d.clockLossRuns.clockLossJobs.linkLost
  let d := d.each ((d.portsUp).map Prod.fst) fun d p => d.setPort p 1
  let d := d.relocateSuspects.restartTimer
  ((d.modSys fun x => { x with lossSeen := true }).errEvent .clock Code.clockLoss).dwEvent .droop dieOfCd

/-- REFCLK_RETURN (R591): 1,000 edges within tolerance; after a thermal trip the safe states hold. -/
def execRefclkReturn (s : State) : Host.Outcome State Fault Refusal :=
  .next (s.onDevice fun d => if !d.sys.clkLost || d.sys.tripped then d else d.recoverClock)

/-! ### Resets (R583, R584) -/

/-- What a reset keeps: fuses, the flash manager's block records, the boot flash, the rows to be repaired for good (R377, log 59); bit `cause` of GC_RESET_CAUSE is set.
The record of outputs and the count of draws are the model's own. -/
def Dev.resetTo (d : Dev) (cause : Nat) (links : Bool) (sys : Sys) : Dev :=
  let trip := if sys.tripMemory then 16 else 0
  { sys := { sys with resetCause := BitVec.ofNat 5 (2 ^ cause + trip), link0 := if links then d.sys.link0 else (0, 0)
                      link1 := if links then d.sys.link1 else (0, 0), flit0 := links && d.sys.flit0
                      flit1 := links && d.sys.flit1, draws := d.sys.draws }
    life := d.life.afterReset
    hubs := d.hubs.filterMap fun (h : Nat × Hub) =>
      if h.2.softRows.isEmpty && h.2.hardRows.isEmpty then none
      else some (h.1, ({ softRows := h.2.softRows, hardRows := h.2.hardRows } : Hub))
    flash := d.flash.map fun f => (f.1, ({ erases := f.2.erases, bad := f.2.bad } : Flash))
    mgmt := let m := d.mgmt.cancelUpdate
            { images := m.images, versions := m.versions, invalid := m.invalid, slotB := m.slotB, atReset := m.atReset }
    out := d.out }

/-- POWER_ON_RESET (R583): everything but the fuses and flash contents; a thermal trip ends. -/
def execPowerOnReset (s : State) : Host.Outcome State Fault Refusal :=
  .next (s.onDev fun d => d.resetTo 0 false { tripMemory := d.sys.tripped })

/-- The bit of GC_RESET_CAUSE (R609). -/
def resetBit : ResetCause → Nat
  | .perst => 1 | .hotReset => 2 | .flrPf0 => 3

/-- DEVICE_RESET (R583): the strap stands until PERST_N is deasserted again (R626); a thermal trip lasts until power-on
(R604). -/
def Dev.deviceReset (d : Dev) (cause : ResetCause) : Dev :=
  d.resetTo (resetBit cause) (cause == .flrPf0)
    { tripMemory := d.sys.tripMemory, bifur := d.sys.bifur, tripped := d.sys.tripped, forced := d.sys.tripped }

def execDeviceReset (cause : ResetCause) (s : State) : Host.Outcome State Fault Refusal :=
  .next (s.onDev fun d => d.deviceReset cause)

/-- FUNCTION_LEVEL_RESET of PF1 or a VF (R292, R295): that function only. -/
def execFunctionLevelReset (fn : Nat) (s : State) : Host.Outcome State Fault Refusal :=
  if fn = 0 || 16 < fn then .fault (.unitAbsent fn)
  else .next (s.onDev fun d =>
    if !d.regsUp || !d.fnExists fn then d
    else
      let d := (d.silenceFn fn).modFn fn fun f =>
        { f with tdi := 0, tdiNonce := none, admitted := [], unmasked := [], pendingBits := [], msixAddr := [], msixData := [] }
      if fn = 1 then d.modSys fun x => { x with d3hot := (x.d3hot.1, false), sel1 := {} } else d)

/-! ### Bring-up (R605 to R608) -/

/-- The frequency check of R587. -/
def refclkGood (hz : Nat) : Bool := 99470000 ≤ hz && hz ≤ 100030000

/-- The slot each component runs from: A, or B where A does not verify; a new L1 image from where it was written (R605,
R652). -/
def Dev.bootSlots (d : Dev) (slot : Nat) : Dev :=
  let d := d.each [1, 2, 3, 4, 5] fun d c =>
    d.useSlot c (if d.mgmt.atReset.contains c then 1 - d.mgmt.slotOf c else if c = 1 && d.mgmt.slotB.contains 1 then 1 else slot)
  d.modMgmt fun m => { m with atReset := [] }

/-- The device is held: only what R572 or R608 names answers. -/
def Dev.hold (d : Dev) (cause : BitVec 8) (locked : Bool) : Dev :=
  d.modSys fun x => { x with service := .recovery, cause := cause, locked := locked, retryStatus := false }

/-- BRINGUP (R605 stages 1 to 3): the clock check, the fuses, the firmware. -/
def Dev.bringUp (d : Dev) (f : BootFacts) : Dev :=
  let strap := bitOf d.sys.resetCause.toNat 0 || bitOf d.sys.resetCause.toNat 1
  let nonce := d.sys.draws
  let d := d.draw.2.modSys fun x => { x with pllLocked := true, bifur := if strap then f.bifur else x.bifur, bootNonce := nonce }
  let d := d.bootLife
  if d.life.fuseFault then (d.hold 0xFF true).modDike fun x => { x with score := 1023 }
  else if d.life.state = 5 then d.hold 0 true
  else if !f.slotAOk && !f.slotBOk then d.hold 0xFE false
  else (d.bootSlots (boolNat (!f.slotAOk))).modSys fun x => { x with service := .boot }

def execBringup (f : BootFacts) (s : State) : Host.Outcome State Fault Refusal :=
  .next (s.onDev fun d =>
    if d.sys.service ≠ .reset || d.sys.forced || !refclkGood f.refclkHz then d else d.bringUp f)

/-- A hub enters service with its agents (R388, R605). -/
def Dev.hubIn (d : Dev) (h : Nat) (agents : BitVec 5) : Dev :=
  (d.modHub h fun x => { x with up := true }).modArb h fun a => { a with agents := agents }

/-- NEAP_SERVICE_READY (R605 stage 4, R606): CT5 and CT6 at OP0, and hub MH0. -/
def execNeapServiceReady (s : State) : Host.Outcome State Fault Refusal :=
  .next (s.onDevice fun d =>
    if d.sys.service ≠ .boot || d.sys.forced || d.sys.clkLost then d
    else
      let d := d.modSys fun x => { x with service := .neap, retryStatus := false }
      (d.each [5, 6] fun d t => d.modTile t fun x => { x with inService := true, rim := true, current := 0, requested := 0, millivolts := 550 }).hubIn 0 3)

/-- A board conforms on a hub's channels (R454): all eight trained at 3,600 MT/s, with ceil(tR ÷ 5.12 µs) + 1 concurrent plane reads
on each. -/
def geomConforms (g : FlashGeom) : Bool :=
  g.channels.length == 8 && decide (3600 ≤ g.rate) && decide (ceilDiv g.readNs 5120 + 1 ≤ g.chipEnables * g.luns * g.planes)

/-- A hub's channels have trained (R437, R454, R462): its geometry, and the records its channels keep; a board that does not conform
is reported to Dikewatch. -/
def Dev.trainFlash (d : Dev) (h : Nat) (g : FlashGeom) : Dev :=
  let d := d.modDike fun x =>
    { x with nonConforming := x.nonConforming.filter (· != h) ++ if geomConforms g then [] else [h] }
  d.modFlash h fun f =>
    let bad := g.bad.map fun b => blockKeyOf b.1 b.2
    { f with geom := g, bad := f.bad ++ bad.filter fun b => !f.bad.contains b
             erases := g.erases.foldl (fun t e => t.set 0 (blockKeyOf e.1 e.2.1) e.2.2) f.erases }

/-- The spares that self-test calls for come in: a tile's spare cluster for the one that failed, and spare banks (R525, R607). -/
def Dev.coverFailures (d : Dev) (clusters : List (Nat × Nat)) (banks : List Nat) : Dev :=
  let d := d.each clusters fun d c => d.modTile c.1 fun x =>
    if x.clusters.contains 8 then x else { x with clusters := x.clusters.set c.2 8 }
  d.each banks fun d t => d.modTile t fun x => { x with spareBanks := min 64 (x.spareBanks + 1) }

/-- Spring service begins (R592, R605 stage 5, R607). -/
def Dev.springEntry (d : Dev) (flash : List FlashGeom) : Dev :=
  let d := d.modSys fun x => { x with service := .spring }
  let d := d.each (List.range 16) fun d t =>
    (d.modTile t fun x => { x with inService := true, rim := true, current := 1, requested := 1, millivolts := opMv 1 }).emit (.avs t (opMv 1))
  let d := d.each (List.range 4) fun d h => (d.hubIn h 0x1F).modHub h fun x =>
    { x with hardRows := x.hardRows ++ x.softRows, softRows := [] }
  (d.each (flash.take 4).zipIdx fun d g => d.trainFlash g.2 g.1).trainPorts

/-- SPRING_SERVICE_ENTRY (R607, R608, R610): at an ebb, or at once while the timer is stopped; or the unit that failed
stage 5 three times holds the device in neap service. -/
def execSpringServiceEntry (r : Stage5Result) (s : State) : Host.Outcome State Fault Refusal :=
  .next (s.onDevice fun d =>
    if d.sys.service ≠ .neap || d.sys.held then d
    else match r with
    | .failed unit => d.modSys fun x => { x with held := true, cause := BitVec.ofNat 8 unit }
    | .trained flash clusters banks =>
      if d.sys.clkLost || d.sys.forced || (d.tideRunning && d.tide.phase ≠ .ebb) then d
      else (d.springEntry flash).coverFailures clusters banks)

end Sys2Proof.Machine
end

