-- ==== Sys2Proof/Machine/Mgmt.lean ====
section
/-! DEFINITION. The management endpoint (chapter 21): MCTP control, PLDM, firmware update and vendor commands; and the host
link's own events (R290, R292, R332). -/

namespace Sys2Proof.Machine

/-- A request on one of the endpoint's transports, 1 I3C or 2 PCIe (R642); a transport that is not up drops it. -/
def mgmtRequest (t : Nat) (s : State) (f : Dev → Dev) : Host.Outcome State Fault Refusal :=
  if t ≠ 1 && t ≠ 2 then .fault (.unitAbsent t)
  else .next (s.onDevice fun d => if d.transportUp t then d.onTransport t f else d)

/-! ### MCTP control (R643); command and completion codes are PRESUMED from DSP0236 -/

/-- The message types the endpoint accepts beside control (R643). -/
def mctpTypes : List Byte := [0x01, 0x05, 0x06, 0x7E]

def Dev.mctpControl (d : Dev) (t : Nat) (m : MctpControl) : Dev :=
  let say (d : Dev) (cmd code : Nat) (body : List Byte) : Dev := d.emit (.mgmt t (.control cmd code body))
  match m with
  | .setEid e =>
    if e = 0 || e = 0xFF then say d 1 2 [d.mgmt.eid] else say (d.modMgmt fun x => { x with eid := e }) 1 0 [e]
  | .getEid => say d 2 0 [d.mgmt.eid]
  | .getVersionSupport => say d 4 0 [0xF1, 0xF3, 0xF1, 0x00]
  | .getMessageTypeSupport => say d 5 0 (BitVec.ofNat 8 mctpTypes.length :: mctpTypes)
  | .getVendorMessageSupport => say d 6 0 [0xFF, 0x00]
  | .other c => say d c 5 []

/-- MCTP_CONTROL (R642, R643). -/
def execMctpControl (transport : Nat) (m : MctpControl) (s : State) : Host.Outcome State Fault Refusal :=
  mgmtRequest transport s fun d => d.mctpControl transport m

/-! ### PLDM type 2 (R648); command and completion codes are PRESUMED from DSP0240 and DSP0248 -/

/-- The sensors in the order of their records. -/
def sensorList : List Nat := (List.range 148).filter sensorExists

def Dev.pldmPlatform (d : Dev) (t : Nat) (m : PldmPlatform) : Dev :=
  let say (d : Dev) (cmd code : Nat) (body : List Nat) : Dev := d.emit (.mgmt t (.pldm cmd code body))
  match m with
  | .getPdrRepositoryInfo => say d 0x50 0 [sensorList.length]
  | .getPdr n => match sensorList[n]? with
    | some x => say d 0x51 0 [if n + 1 < sensorList.length then n + 1 else 0, x]
    | none => say d 0x51 0x82 []
  | .getSensorReading n =>
    if sensorExists n && !sensorIsState n then say d 0x11 0 [d.sensor n, d.sensorLevel n] else say d 0x11 0x80 []
  | .getStateSensorReadings n => if sensorIsState n then say d 0x21 0 [d.sensor n] else say d 0x21 0x80 []
  | .setEventReceiver e => say (d.modMgmt fun x => { x with receiver := some (t, e) }) 0x04 0 []
  | .pollForEvent => say d 0x0B 0 [d.errors.count]
  | .other c => say d c 5 []

/-- PLDM_PLATFORM_REQUEST (R560, R648). -/
def execPldmPlatformRequest (transport : Nat) (m : PldmPlatform) (s : State) : Host.Outcome State Fault Refusal :=
  mgmtRequest transport s fun d => d.pldmPlatform transport m

/-! ### Firmware update (R652, R653); command and completion codes are PRESUMED from DSP0267 -/

/-- The largest chunk the device asks for on a transport (R653). -/
def Mgmt.chunk (m : Mgmt) : Nat := min m.maxXfer (if m.transport = 1 then 1024 else 4096)

/-- The device asks for the next chunk; on a transport that is disabled the update is cancelled (R655). -/
def Dev.requestChunk (d : Dev) : Dev :=
  if d.transportUp d.mgmt.transport then d.emit (.mgmt d.mgmt.transport (.requestData d.mgmt.received d.mgmt.chunk))
  else d.modMgmt Mgmt.cancelUpdate

/-- REQUEST_UPDATE (R653): one update runs at a time; the code is ALREADY_IN_UPDATE_MODE. -/
def execRequestUpdate (transport component maxTransfer : Nat) (s : State) : Host.Outcome State Fault Refusal :=
  mgmtRequest transport s fun d =>
    let say (d : Dev) (code : Nat) : Dev := d.emit (.mgmt transport (.pldm 0x10 code []))
    if d.mgmt.update ≠ .idle then say d 0x81
    else if (componentBlocks component).isEmpty || maxTransfer = 0 then say d 2
    else
      (say (d.modMgmt fun m => { m with update := .downloading, component := component, transport := transport
                                        maxXfer := maxTransfer, received := 0 }) 0).requestChunk

/-- The slot an update writes: the inactive one, or A in recovery (R608, R653). -/
def Dev.updateSlot (d : Dev) : Nat := if d.sys.service = .recovery then 0 else 1 - d.mgmt.slotOf d.mgmt.component

/-- A component's image is complete: it is verified, or the inactive slot is marked invalid (R653). -/
def Dev.verifyUpdate (d : Dev) (ok : Bool) (digest : List Byte) (version : BitVec 31) : Dev :=
  let c := d.mgmt.component
  let slot := d.updateSlot
  let d := if ok then
      d.modMgmt fun m =>
        { m with update := .verified, images := m.images.put (2 * c + slot) digest, invalid := m.invalid.filter (· != c)
                 versions := if c = 2 then m.versions.put slot version else m.versions }
    else d.modMgmt Mgmt.cancelUpdate
  d.emit (.mgmt d.mgmt.transport (.verifyComplete ok))

/-- UPDATE_COMPONENT_DATA (R653). -/
def execUpdateComponentData (u : UpdateData) (s : State) : Host.Outcome State Fault Refusal :=
  .next (s.onDev fun d =>
    if d.mgmt.update ≠ .downloading || !d.endpointUp then d
    else match u with
    | .chunk offset bytes =>
      if offset ≠ d.mgmt.received || d.mgmt.chunk < bytes.length then d
      else (d.modMgmt fun m => { m with received := m.received + bytes.length }).requestChunk
    | .complete sigOk names digest version => d.verifyUpdate (sigOk && names) digest version)

/-- The activation of a verified image (R608, R652, R653): L1 at the next device reset, any other die's at the next ebb or
at once; in recovery the device then resets itself. -/
def Dev.activate (d : Dev) : Dev :=
  let c := d.mgmt.component
  let d := d.emit (.mgmt d.mgmt.transport (.pldm 0x1A 0 []))
  let d := d.modMgmt fun m => { m with update := .idle }
  if d.sys.service = .recovery then
    (d.resetTo 0 true { tripMemory := d.sys.tripMemory, bifur := d.sys.bifur }).modSys fun x =>
      { x with resetCause := if x.tripMemory then 16 else 0 }
  else if c = 1 then d.modMgmt fun m => { m with atReset := if m.atReset.contains 1 then m.atReset else 1 :: m.atReset }
  else
    let d := d.modMgmt fun m => { m with swaps := if m.swaps.contains c then m.swaps else m.swaps ++ [c] }
    if d.tideRunning then d else d.swapFirmware

/-- ACTIVATE_FIRMWARE (R653). -/
def execActivateFirmware (s : State) : Host.Outcome State Fault Refusal :=
  .next (s.onDevice fun d =>
    if !d.endpointUp || d.mgmt.update = .idle then d
    else if d.mgmt.update ≠ .verified then d.emit (.mgmt d.mgmt.transport (.pldm 0x1A 0x8A []))
    else d.activate)

/-! ### Vendor-defined commands (R646) -/

/-- LC_CMD (R573): TRANSITION, DEBUG_OPEN and DEBUG_CLOSE; others have no effect. -/
def Dev.lcCommand (d : Dev) (w : W32) : Dev :=
  match field w 0 4 with
  | 1 => d.requestTransition (field w 4 3)
  | 2 => d.debugOpen
  | 3 => d.debugClose
  | _ => d

/-- LC_CMD's command starts now: it is one, nothing is in progress, and no failed token holds it back (R569, R573). -/
def Dev.lcStarts (d : Dev) (w : W32) : Bool :=
  !d.life.busy && d.lifeUp && ((field w 0 4 = 1 && !d.life.lockout) || field w 0 4 = 2 || field w 0 4 = 3)

/-- LC_REQUEST (R644 to R646): as writing LC_DATA and then LC_CMD; answered once the command is complete. -/
def execLcRequest (m : LcRequestMsg) (s : State) : Host.Outcome State Fault Refusal :=
  mgmtRequest m.transport s fun d =>
    let say (d : Dev) (status : Nat) : Dev := d.emit (.mgmt m.transport (.vendor 0x01 status []))
    if !m.secured then say d 2
    else if m.data.length ≠ 64 then say d 3
    else if d.life.busy || !d.lcStarts m.cmdWord && d.life.lockout then say d 1
    else
      let d := d.modLife fun l => { l with data := m.data.zipIdx.foldl (fun t x => t.set 0 x.2 x.1) l.data }
      if d.lcStarts m.cmdWord then
        (d.modMgmt fun x => { x with busy := x.busy ++ [(m.transport, 0x7E)] }).lcCommand m.cmdWord
      else d.emit (.mgmt m.transport (.vendor 0x01 0 [BitVec.ofNat 32 d.life.code.toNat]))

/-- LC_STATE (R573). -/
def LifeCycle.stateWord (l : LifeCycle) : Nat :=
  l.state % 8 + 8 * boolNat l.pending + 16 * boolNat l.fuseFault + 256 * (l.tokenFails % 16)

/-- A request of type 0x7E finds one outstanding on its transport (R644). -/
def Dev.vendorBusy (d : Dev) (t : Nat) : Bool := d.mgmt.busy.contains (t, 0x7E)

/-- LC_READ (R646). -/
def execLcRead (transport : Nat) (s : State) : Host.Outcome State Fault Refusal :=
  mgmtRequest transport s fun d =>
    let l := d.life
    if d.vendorBusy transport then d.emit (.mgmt transport (.vendor 0x02 1 []))
    else d.emit (.mgmt transport (.vendor 0x02 0
      ([BitVec.ofNat 32 l.stateWord, l.rights, BitVec.ofNat 32 l.boots] ++ (wordsOfBytes (Config.random l.challenge)).take 8)))

/-- The 32-byte form of a counter record (R647). -/
def CounterRec.words (r : CounterRec) : List W32 :=
  let u (i : Nat) : Nat := min 255 (r.uses.getD i 0)
  [BitVec.ofNat 32 r.tide, BitVec.ofNat 32 (r.tide / 4294967296), BitVec.ofNat 32 (r.tag + 65536 * (r.tiles % 65536)),
   BitVec.ofNat 32 (u 0 + 256 * u 1 + 65536 * u 2 + 16777216 * u 3), BitVec.ofNat 32 (u 4 + 256 * u 5), 0, 0, 0]

/-- The answer to a request for entries of a ring of which `held` are held and `written` were written: status, next
number, and which of those held to send (R646, R655). -/
def ringAnswer (held written first count : Nat) : Nat × Nat × Nat × Nat :=
  let oldest := written - held
  let start := max first oldest
  let n := min (min 127 count) (written - start)
  (if first < oldest then 4 else 0, start + n, start - oldest, n)

/-- The response body: the next number and the entries. -/
def ringBody (next : Nat) (entries : List (List W32)) : List W32 :=
  [BitVec.ofNat 32 next, BitVec.ofNat 32 (next / 4294967296)] ++ entries.flatten

/-- GET_COUNTERS (R646, R647). -/
def execGetCounters (transport first count : Nat) (s : State) : Host.Outcome State Fault Refusal :=
  mgmtRequest transport s fun d =>
    if d.vendorBusy transport then d.emit (.mgmt transport (.vendor 0x10 1 []))
    else
      let (st, next, skip, n) := ringAnswer d.mgmt.counters.length d.mgmt.counterNo first count
      d.emit (.mgmt transport (.vendor 0x10 st (ringBody next (((d.mgmt.counters.drop skip).take n).map CounterRec.words))))

/-- GET_EVENTS (R646, R650). -/
def execGetEvents (transport first count : Nat) (s : State) : Host.Outcome State Fault Refusal :=
  mgmtRequest transport s fun d =>
    if d.vendorBusy transport then d.emit (.mgmt transport (.vendor 0x11 1 []))
    else
      let (st, next, skip, n) := ringAnswer d.errors.log.length d.errors.count first count
      d.emit (.mgmt transport (.vendor 0x11 st (ringBody next (((d.errors.log.drop skip).take n).map LogEntry.words))))

/-! ### Links -/

/-- D3HOT_TRANSITION (R292): of PF0 or PF1. -/
def execD3hotTransition (fn : Nat) (d3hot : Bool) (s : State) : Host.Outcome State Fault Refusal :=
  if 2 ≤ fn then .fault (.unitAbsent fn)
  else .next (s.onDev fun d =>
    if !d.fnExists fn || d.sys.retryStatus then d
    else d.modSys fun x => { x with d3hot := if fn = 0 then (d3hot, x.d3hot.2) else (x.d3hot.1, d3hot) })

/-- A link that goes down loses its IDE streams; of link 0 the locked interfaces move to ERROR (R295, R591). -/
def Dev.linkDown (d : Dev) (l : Nat) : Dev :=
  let d := d.modTrust fun x => { x with ide := x.ide.filter fun i => i.1 != l, ideLive := x.ideLive.filter fun i => i.1 != l }
  if l ≠ 0 then d
  else
    let d := d.each (d.fns.keys.filter fun f => (d.fn f).tdi == 1 || (d.fn f).tdi == 2) Dev.tdiError
    d.each d.fns.keys fun d f => d.modFn f fun x => { x with ideStream := none }

/-- HOST_LINK_RETRAIN (R290, R332): the link trains at a generation 4 to 6 and a width it has, or stays down; flit mode is
always used at 64 GT/s, and below where the partner supports it. -/
def execHostLinkRetrain (link : Nat) (mode : LinkMode) (width : Nat) (s : State) : Host.Outcome State Fault Refusal :=
  if 2 ≤ link then .fault (.unitAbsent link)
  else .next (s.onDev fun d =>
    if link = 1 && !d.sys.bifur then d
    else
      let ok := 4 ≤ mode.gen && mode.gen ≤ 6 && (width = 4 || width = 8 || (width = 16 && !d.sys.bifur))
      let v := if ok then (mode.gen, width) else (0, 0)
      let f := ok && (mode.gen = 6 || mode.flit)
      let d := d.modSys fun x => if link = 0 then { x with link0 := v, flit0 := f } else { x with link1 := v, flit1 := f }
      if ok then d else d.linkDown link)

/-- DYNAMIC_ADDRESS_ASSIGNMENT (R642): MG_STATUS.i3c_active is set. -/
def execDynamicAddressAssignment (addr : BitVec 7) (s : State) : Host.Outcome State Fault Refusal :=
  .next (s.onDev fun d => if d.transportUp 1 then d.modMgmt fun m => { m with dynAddr := some addr } else d)

end Sys2Proof.Machine
end

