-- ==== Sys2Proof/Machine/Registers.lean ====
section
/-! DEFINITION. Writes to BAR0 (chapter 20): access sizes, the set-up lock, the block map, and every register a write
changes. -/

namespace Sys2Proof.Machine

/-! ### Helpers -/

/-- The low word of a 64-bit register replaced. -/
def setLo (x : W64) (w : W32) (low : Nat) : W64 :=
  BitVec.ofNat 64 (x.toNat / 4294967296 * 4294967296 + w.toNat / 2 ^ low * 2 ^ low)

/-- The high word of a 64-bit register replaced. -/
def setHi (x : W64) (w : W32) : W64 := BitVec.ofNat 64 (x.toNat % 4294967296 + 4294967296 * w.toNat)

/-- A select register of a function is written (R629). -/
def Dev.modSel (d : Dev) (fn : Nat) (f : Selects → Selects) : Dev :=
  d.modSys fun x => if fn = 1 then { x with sel1 := f x.sel1 } else { x with sel0 := f x.sel0 }

/-- A write to an RWL field (R11, R630): after the lock it is ignored, and ERR_SUMMARY.lock_write is set. -/
def Dev.rwl (d : Dev) (f : Dev → Dev) : Dev := if d.sys.setupLock then d.errEvent .lockWrite else f d

/-- The elements of `l` whose bit of `w`, counted from `base`, is clear: what a W1C write of flags leaves. -/
def w1cFlags (w : W32) (base : Nat) (l : List Nat) : List Nat :=
  l.filter fun n => n < base || base + 32 ≤ n || !bitOf w.toNat (n - base)

/-! ### Global control and service state (R500, R505, R609) -/

/-- GC_CTRL.setup_lock (R609, R630): writing 1 locks, and after the lock the write is refused as any other. -/
def Dev.writeGcCtrl (d : Dev) (w : W32) : Dev :=
  d.rwl fun d => if bitOf w.toNat 0 then d.modSys fun x => { x with setupLock := true } else d

/-- SETUP_LOCK (R630). -/
def execSetupLock (s : State) : Host.Outcome State Fault Refusal :=
  .next (s.onDev fun d => if d.regsUp then d.writeGcCtrl 1 else d)

def Dev.writeGlobal (d : Dev) (off : Nat) (w : W32) : Dev :=
  match off with
  | 0x1004 => d.writeGcCtrl w
  | 0x1008 => d.modSys fun x => { x with resetCause := x.resetCause &&& ~~~(BitVec.ofNat 5 w.toNat) }
  | 0x1010 => if bitOf w.toNat 2 then d.modSys fun x => { x with lossSeen := false } else d
  | 0x1020 => d.modPower fun x => { x with cap := some (field w 0 13) }
  | 0x1030 => d.modSel 0 fun x => { x with tile := field w 0 4 }
  | _ => d

/-- The fabric registers (R500). -/
def Dev.writeFabric (d : Dev) (off : Nat) (w : W32) : Dev :=
  let p := d.sys.sel0.port
  match off with
  | 0x1800 => d.rwl fun d => d.modFabric fun f => { f with address := BitVec.ofNat 10 w.toNat }
  | 0x1804 => d.rwl fun d => d.modFabric fun f => { f with harbour := w }
  | 0x1808 =>
    let d := if bitOf w.toNat 1 then d.modFabric fun f => { f with cfgReject := false } else d
    d.setTrain (bitOf w.toNat 0)
  | 0x1810 => d.modSel 0 fun x => { x with port := field w 0 6 }
  | 0x1814 =>
    if 48 ≤ p then d.modFabric fun f => { f with cfgReject := true }
    else (d.modPort p fun x => { x with maxRate := BitVec.ofNat 2 (field w 1 2), enable := bitOf w.toNat 0 }).trainPorts
  | 0x1830 => d.each (List.range 32) fun d n => if bitOf w.toNat n then d.modPort n fun x => { x with downFlag := false } else d
  | 0x1834 =>
    d.each (List.range 16) fun d n => if bitOf w.toNat n then d.modPort (32 + n) fun x => { x with downFlag := false } else d
  | _ =>
    if 0x1820 ≤ off && off ≤ 0x182C && off % 4 = 0 then
      d.rwl fun d => d.modFabric fun f => { f with spareMap := f.spareMap.set 0xFFFFFFFF ((off - 0x1820) / 4) w }
    else d

/-- The Dikewatch registers (R505). -/
def Dev.writeDike (d : Dev) (off : Nat) (w : W32) : Dev :=
  match off with
  | 0x1904 => d.modDike fun x => { x with evacuate := BitVec.ofNat 10 (field w 20 10), secure := BitVec.ofNat 10 (field w 10 10)
                                          watch := BitVec.ofNat 10 (field w 0 10) }
  | 0x1908 => d.modSel 0 fun x => { x with dwIn := field w 0 4 }
  | 0x190C =>
    let i := d.sys.sel0.dwIn
    if i ≤ 9 then d.modDike fun x => { x with cfg := x.cfg.set none i (some (field w 10 16, field w 0 10)) } else d
  | 0x1914 => d.modDike fun x =>
      { x with systemLost := x.systemLost && !bitOf w.toNat 4, evacuated := x.evacuated && !bitOf w.toNat 3
               levelUp := x.levelUp &&& ~~~(BitVec.ofNat 3 w.toNat) }
  | 0x1918 => d.modSel 0 fun x => { x with dwBlk := field w 0 8 }
  | _ => d

/-! ### Queue, function and context tables (R328, R329, R336) -/

/-- QT_CTRL (R300, R328, R331): cfg_reject is W1C, enable starts or stops the queue. -/
def Dev.writeQtCtrl (d : Dev) (fn : Nat) (w : W32) : Dev :=
  let q := (d.sys.sel fn).queue
  let d := if bitOf w.toNat 1 && !d.entryLocked fn q true then d.modQueue q fun x => { x with cfgReject := false } else d
  if bitOf w.toNat 0 then d.enableQueue fn else d.clearEnable fn

/-- The queue registers, through PF0 or PF1. -/
def Dev.writeQt (d : Dev) (fn off : Nat) (w : W32) : Dev :=
  let q := (d.sys.sel fn).queue
  let entry (f : Queue → Queue) : Dev := if d.entryLocked fn q false then d.rejectQueue q else d.modQueue q f
  match off with
  | 0x10000 => d.modSel fn fun x => { x with queue := field w 0 12 }
  | 0x10008 => entry fun x => { x with ring := setLo x.ring w 12 }
  | 0x1000C => entry fun x => { x with ring := setHi x.ring w }
  | 0x10010 => entry fun x => { x with cpl := setLo x.cpl w 12 }
  | 0x10014 => entry fun x => { x with cpl := setHi x.cpl w }
  | 0x10018 => entry fun x => { x with db := setLo x.db w 4 }
  | 0x1001C => entry fun x => { x with db := setHi x.db w }
  | 0x10020 => entry fun x =>
      { x with psumBit := BitVec.ofNat 9 (field w 17 9), function := BitVec.ofNat 5 (field w 12 5), format := BitVec.ofNat 2 (field w 10 2)
               cls := BitVec.ofNat 2 (field w 8 2), cplLog2 := BitVec.ofNat 4 (field w 4 4), ringLog2 := BitVec.ofNat 4 (field w 0 4) }
  | 0x10024 => entry fun x => { x with vector := BitVec.ofNat 11 (field w 16 11), context := BitVec.ofNat 16 (field w 0 16) }
  | 0x10028 => d.writeQtCtrl fn w
  | _ => d

/-- A write to the frozen entry of a VF is ignored and sets cfg_reject (R294), which its queues' QT_CTRL hold (log 40). -/
def Dev.rejectFn (d : Dev) (n : Nat) : Dev :=
  d.each ((d.queues.filter fun x => x.2.function.toNat == n).map Prod.fst) Dev.rejectQueue

/-- FN_CTRL (R294, R329): of a locked VF only clearing poll_enable is carried out, and moves its interface to ERROR. -/
def Dev.writeFnCtrl (d : Dev) (n : Nat) (w : W32) : Dev :=
  let on := bitOf w.toNat 0
  if d.frozenFn n then
    (if (d.fn n).pollEnable && !on then (d.tdiError n).modFn n fun f => { f with pollEnable := false } else d.rejectFn n)
  else d.modFn n fun f => { f with pollEnable := on, atomicFail := f.atomicFail && !bitOf w.toNat 1 }

/-- The function registers: PF1 reaches only its own entry (R632). -/
def Dev.writeFn (d : Dev) (fn off : Nat) (w : W32) : Dev :=
  let n := (d.sys.sel fn).fn
  if off = 0x10100 then d.modSel fn fun x => { x with fn := field w 0 5 }
  else if !d.fnExists n || (fn = 1 && n ≠ 1) then d
  else
    let entry (f : Function → Function) : Dev := if d.frozenFn n then d.rejectFn n else d.modFn n f
    match off with
    | 0x10108 => entry fun x => { x with sum := setLo x.sum w 6 }
    | 0x1010C => entry fun x => { x with sum := setHi x.sum w }
    | 0x10110 => entry fun x => { x with psum := setLo x.psum w 6 }
    | 0x10114 => entry fun x => { x with psum := setHi x.psum w }
    | 0x10118 => d.writeFnCtrl n w
    | _ => d

/-- The context registers (R336, R337): the entry takes writes only while its slot is CLOSED. -/
def Dev.writeCtx (d : Dev) (off : Nat) (w : W32) : Dev :=
  let c := d.sys.sel0.ctx
  let entry (f : Context → Context) : Dev :=
    d.modCtx c fun x => if x.state = .closed then f x else { x with cfgReject := true }
  match off with
  | 0x10200 => d.modSel 0 fun x => { x with ctx := field w 0 12 }
  | 0x10204 => entry fun x => { x with homeFn := BitVec.ofNat 5 (field w 16 5), tag := BitVec.ofNat 16 (field w 0 16) }
  | 0x10208 => entry fun x => { x with vaGib := BitVec.ofNat 18 (field w 0 18) }
  | 0x1020C => entry fun x => { x with mapCount := BitVec.ofNat 13 (field w 12 13), mapBase := BitVec.ofNat 12 (field w 0 12) }
  | 0x10210 => entry fun x => { x with fenceCount := BitVec.ofNat 11 (field w 10 11), fenceBase := BitVec.ofNat 10 (field w 0 10) }
  | 0x10218 => entry fun x => { x with recBase := setLo x.recBase w 4 }
  | 0x1021C => entry fun x => { x with recBase := setHi x.recBase w }
  | 0x10220 => entry fun x => { x with initT1 := BitVec.ofNat 21 (field w 0 21) }
  | 0x10224 => entry fun x => { x with initT2 := BitVec.ofNat 25 (field w 0 25) }
  | 0x10228 =>
    let d := if bitOf w.toNat 2 then d.modCtx c fun x => { x with cfgReject := false } else d
    if field w 0 2 = 1 then d.openCommand c else if field w 0 2 = 2 then d.closeCommand c else d
  | _ => d

/-! ### Interrupts (R297) -/

/-- A word of an MSI-X entry; a vector unmasked with its pending bit set sends its message (log 14). -/
def Dev.writeMsix (d : Dev) (fn entry word : Nat) (w : W32) : Dev :=
  match word with
  | 0 => d.modFn fn fun f => { f with msixAddr := f.msixAddr.set 0 entry (setLo (f.msixAddr.get 0 entry) w 0) }
  | 1 => d.modFn fn fun f => { f with msixAddr := f.msixAddr.set 0 entry (setHi (f.msixAddr.get 0 entry) w) }
  | 2 => d.modFn fn fun f => { f with msixData := f.msixData.set 0 entry w }
  | _ =>
    if bitOf w.toNat 0 then d.modFn fn fun f => { f with unmasked := f.unmasked.filter (· != entry) }
    else
      let due := (d.fn fn).pendingBits.contains entry
      let d := d.modFn fn fun f =>
        { f with unmasked := if f.unmasked.contains entry then f.unmasked else f.unmasked ++ [entry]
                 pendingBits := f.pendingBits.filter (· != entry) }
      if due then d.msix fn entry else d

/-! ### Tide, errors, arbiters, mailboxes (R51, R390, R573, R634, R638) -/

/-- The tide registers: TIDE_PERIOD and TIDE_ROLE take no write while run is 1 or a plan is loaded (R51, R52, R85). -/
def Dev.writeTide (d : Dev) (off : Nat) (w : W32) : Dev :=
  let held := d.tide.run || d.plans.any fun p => p.2.loaded
  let idle (f : Tide → Tide) : Dev := d.modTide fun t => if held then { t with cfgReject := true } else f t
  match off with
  | 0x30000 =>
    let d := if bitOf w.toNat 1 then d.modTide fun t => { t with cfgReject := false } else d
    if bitOf w.toNat 0 then d.startTimer else d.stopTimer
  | 0x30004 => idle fun t =>
      { t with spillLimit := BitVec.ofNat 4 (field w 24 4), ebbPct := BitVec.ofNat 4 (field w 16 4)
               slackPct := BitVec.ofNat 5 (field w 8 5), periodUnits := BitVec.ofNat 6 (field w 0 6) }
  | 0x30008 => idle fun t => { t with backupRank := BitVec.ofNat 2 (field w 2 2), role := BitVec.ofNat 2 (field w 0 2) }
  | _ => d

/-- The error summary registers (R634). -/
def Dev.writeErr (d : Dev) (off : Nat) (w : W32) : Dev :=
  match off with
  | 0x40000 => d.modErrors fun x => { x with summary := x.summary &&& ~~~(BitVec.ofNat 15 w.toNat) }
  | 0x40004 => d.modErrors fun x => { x with mask := BitVec.ofNat 15 w.toNat }
  | _ => d

/-- ARB_SEL names a hub or a port (R390). -/
def arbExists (u : Nat) : Bool := u < 4 || (8 ≤ u && u < 56)

/-- The classes a requester accepts (R390, R391, R498): channels by their own class, agents N, B or S. -/
def arbClasses (u r : Nat) : List Nat :=
  let channel := if u < 4 then r < 64 else r < 20
  if r < 64 && channel then (if r % 4 < 2 then [0, 1] else [r % 4])
  else if (u < 4 && 64 ≤ r && r ≤ 68) || (8 ≤ u && (r = 64 || r = 65)) then [0, 1, 3]
  else []

/-- The arbiter registers (R390). -/
def Dev.writeArb (d : Dev) (off : Nat) (w : W32) : Dev :=
  let u := d.sys.sel0.arb
  let r := d.sys.sel0.req
  let unit (f : Arbiter → Arbiter) : Dev := if arbExists u then d.modArb u f else d
  match off with
  | 0x50000 => d.modSel 0 fun x => { x with arb := field w 0 6 }
  | 0x50004 => d.modSel 0 fun x => { x with req := field w 0 7 }
  | 0x50008 =>
    if (arbClasses u r).contains (field w 0 2) then unit fun a => { a with cfg := a.cfg.set none r (some (field w 0 2, field w 2 8)) }
    else d
  | 0x5000C => unit fun a => { a with thresh := BitVec.ofNat 16 w.toNat }
  | 0x50010 => if arbExists u then d.rwl fun d => d.modArb u fun a => { a with sShare := BitVec.ofNat 5 w.toNat } else d
  | 0x50018 => unit fun a => { a with starve := w1cFlags w 0 a.starve }
  | 0x5001C => unit fun a => { a with starve := w1cFlags w 32 a.starve }
  | 0x50020 => unit fun a => { a with starve := w1cFlags (w &&& 0x1F) 64 a.starve }
  | 0x50028 => if field w 0 31 = 0 then d else unit fun a => { a with lfsr := BitVec.ofNat 31 w.toNat }
  | 0x50040 => { d with meshThresh := BitVec.ofNat 16 w.toNat }
  | 0x50044 => { d with meshStarve := w1cFlags w 0 d.meshStarve }
  | 0x50048 => { d with meshStarve := w1cFlags (w &&& 0xFFF) 32 d.meshStarve }
  | _ => d

/-- The life-cycle mailbox (R573). -/
def Dev.writeLc (d : Dev) (off : Nat) (w : W32) : Dev :=
  if off = 0x60004 then d.lcCommand w
  else if 0x60400 ≤ off && off ≤ 0x607FC && off % 4 = 0 then
    d.modLife fun l => { l with data := l.data.set 0 ((off - 0x60400) / 4) w }
  else d

/-- The management registers (R638): a change takes effect at the next ebb, or at once while the timer is stopped. -/
def Dev.writeMg (d : Dev) (off : Nat) (w : W32) : Dev :=
  let now (d : Dev) : Dev := if d.tideRunning then d else d.applyMgmt
  match off with
  | 0x60800 => d.rwl fun d => now (d.modMgmt fun m => { m with vdmEnable := bitOf w.toNat 1, i3cEnable := bitOf w.toNat 0 })
  | 0x60804 => d.rwl fun d => now (d.modMgmt fun m => { m with staticAddr := BitVec.ofNat 7 w.toNat })
  | _ => d

/-! ### The block map (R627, R632) -/

/-- One 32-bit write through PF0 or PF1: PF1 reaches the queue table, its own function entry and its interrupts. -/
def Dev.writePf (d : Dev) (fn off : Nat) (w : W32) : Dev :=
  if 0x20000 ≤ off && off < 0x28000 then d.writeMsix fn ((off - 0x20000) / 16) (off % 16 / 4) w
  else if 0x10000 ≤ off && off < 0x10100 then d.writeQt fn off w
  else if 0x10100 ≤ off && off < 0x10200 then d.writeFn fn off w
  else if fn ≠ 0 then d
  else if off < 0x1800 then d.writeGlobal off w
  else if off < 0x1900 then d.writeFabric off w
  else if off < 0x1A00 then d.writeDike off w
  else if off < 0x10300 then d.writeCtx off w
  else if off < 0x40000 then d.writeTide off w
  else if off < 0x50000 then d.writeErr off w
  else if off < 0x60000 then d.writeArb off w
  else if off < 0x60800 then d.writeLc off w
  else d.writeMg off w

/-- One 32-bit write through a function; a VF's BAR0 holds its MSI-X table alone (R291, R297). -/
def Dev.writeReg (d : Dev) (fn off : Nat) (w : W32) : Dev :=
  if !d.fnExists fn then d
  else if d.regsUp then
    (if fn < 2 then d.writePf fn off w else if off < 0x400 then d.writeMsix fn (off / 16) (off % 16 / 4) w else d)
  else if d.lifeUp && fn = 0 && 0x60000 ≤ off && off < 0x60800 then d.writeLc off w
  else d

/-- REGISTER_WRITE (R627): aligned 32- and 64-bit writes, the low word first; any other is ignored. -/
def execRegisterWrite (fn offset size : Nat) (value : W64) (s : State) : Host.Outcome State Fault Refusal :=
  if 16 < fn then .fault (.unitAbsent fn)
  else .next (s.onDevice fun d =>
    let lo := BitVec.ofNat 32 value.toNat
    let hi := BitVec.ofNat 32 (value.toNat / 4294967296)
    if size = 4 && offset % 4 = 0 then d.writeReg fn offset lo
    else if size = 8 && offset % 8 = 0 then (d.writeReg fn offset lo).writeReg fn (offset + 4) hi
    else d)

end Sys2Proof.Machine
end

