-- ==== Sys2Proof/Machine/Dispatch.lean ====
section
/-! DEFINITION. The one dispatch: each command's arm calls its meaning. -/

namespace Sys2Proof.Machine

def exec (i : Instr) (s : State) : Host.Outcome State Fault Refusal :=
  match i with
  | .fenceSignal q => Sys2Proof.Machine.execFenceSignal q s
  | .fenceWait q => Sys2Proof.Machine.execFenceWait q s
  | .fenceWaitTimeout q => Sys2Proof.Machine.execFenceWaitTimeout q s
  | .mapPages q => Sys2Proof.Machine.execMapPages q s
  | .unmapPages q => Sys2Proof.Machine.execUnmapPages q s
  | .pageInvalidate entry => Sys2Proof.Machine.execPageInvalidate entry s
  | .quotaSet q => Sys2Proof.Machine.execQuotaSet q s
  | .quotaGraceExpiry slot => Sys2Proof.Machine.execQuotaGraceExpiry slot s
  | .putTensor q => Sys2Proof.Machine.execPutTensor q s
  | .getTensor q => Sys2Proof.Machine.execGetTensor q s
  | .stage q => Sys2Proof.Machine.execStage q s
  | .loadPlan q => Sys2Proof.Machine.execLoadPlan q s
  | .loadPlanComplete core => Sys2Proof.Machine.execLoadPlanComplete core s
  | .unloadPlan q => Sys2Proof.Machine.execUnloadPlan q s
  | .runPlan q => Sys2Proof.Machine.execRunPlan q s
  | .charterCreate q => Sys2Proof.Machine.execCharterCreate q s
  | .charterKey q => Sys2Proof.Machine.execCharterKey q s
  | .charterBind q => Sys2Proof.Machine.execCharterBind q s
  | .charterAdmit q => Sys2Proof.Machine.execCharterAdmit q s
  | .charterClose q => Sys2Proof.Machine.execCharterClose q s
  | .groupOpen q => Sys2Proof.Machine.execGroupOpen q s
  | .groupOpenTimeout group => Sys2Proof.Machine.execGroupOpenTimeout group s
  | .groupControlReceive src m => Sys2Proof.Machine.execGroupControlReceive src m s
  | .groupClose q => Sys2Proof.Machine.execGroupClose q s
  | .snapshot w => Sys2Proof.Machine.execSnapshot w s
  | .secureNowRequest job rank nsBeforeBoundary => Sys2Proof.Machine.execSecureNowRequest job rank nsBeforeBoundary s
  | .snapshotVote job rank freeze => Sys2Proof.Machine.execSnapshotVote job rank freeze s
  | .snapshotDecision w freeze => Sys2Proof.Machine.execSnapshotDecision w freeze s
  | .fillDone slot => Sys2Proof.Machine.execFillDone slot s
  | .havenUnitReceive u => Sys2Proof.Machine.execHavenUnitReceive u s
  | .drainConfirmed slot => Sys2Proof.Machine.execDrainConfirmed slot s
  | .snapshotComplete w => Sys2Proof.Machine.execSnapshotComplete w s
  | .restore q r => Sys2Proof.Machine.execRestore q r s
  | .havenBind q => Sys2Proof.Machine.execHavenBind q s
  | .havenUnbind q => Sys2Proof.Machine.execHavenUnbind q s
  | .havenBindTimeout slot => Sys2Proof.Machine.execHavenBindTimeout slot s
  | .takeover q => Sys2Proof.Machine.execTakeover q s
  | .takeoverSubstitution m => Sys2Proof.Machine.execTakeoverSubstitution m s
  | .drainTileUnforced q => Sys2Proof.Machine.execDrainTileUnforced q s
  | .drainTileForced q => Sys2Proof.Machine.execDrainTileForced q s
  | .drainTileReturn q => Sys2Proof.Machine.execDrainTileReturn q s
  | .setOppoint q => Sys2Proof.Machine.execSetOppoint q s
  | .commandDecode q packet => Sys2Proof.Machine.execCommandDecode q packet s
  | .allQueueSummaryPoll fn r => Sys2Proof.Machine.execAllQueueSummaryPoll fn r s
  | .classPSummaryPoll fn r => Sys2Proof.Machine.execClassPSummaryPoll fn r s
  | .summarySwapFail fn => Sys2Proof.Machine.execSummarySwapFail fn s
  | .completionSpaceFreed q cplHead => Sys2Proof.Machine.execCompletionSpaceFreed q cplHead s
  | .queueEnable fn => Sys2Proof.Machine.execQueueEnable fn s
  | .queueDisable fn => Sys2Proof.Machine.execQueueDisable fn s
  | .contextOpen => Sys2Proof.Machine.execContextOpen s
  | .contextClose => Sys2Proof.Machine.execContextClose s
  | .tideStart => Sys2Proof.Machine.execTideStart s
  | .tideStop => Sys2Proof.Machine.execTideStop s
  | .tideNumberLoRead => Sys2Proof.Machine.execTideNumberLoRead s
  | .setupLock => Sys2Proof.Machine.execSetupLock s
  | .fabricTrainEnable train => Sys2Proof.Machine.execFabricTrainEnable train s
  | .registerWrite fn offset size value => Sys2Proof.Machine.execRegisterWrite fn offset size value s
  | .lcTransition target => Sys2Proof.Machine.execLcTransition target s
  | .lcTransitionDone => Sys2Proof.Machine.execLcTransitionDone s
  | .tokenLockoutExpiry => Sys2Proof.Machine.execTokenLockoutExpiry s
  | .debugOpen => Sys2Proof.Machine.execDebugOpen s
  | .debugClose => Sys2Proof.Machine.execDebugClose s
  | .tideBoundary => Sys2Proof.Machine.execTideBoundary s
  | .floodEnd => Sys2Proof.Machine.execFloodEnd s
  | .ebbStart => Sys2Proof.Machine.execEbbStart s
  | .retirementComplete key => Sys2Proof.Machine.execRetirementComplete key s
  | .quarantineEnd key => Sys2Proof.Machine.execQuarantineEnd key s
  | .fwSelfcheckFail component => Sys2Proof.Machine.execFwSelfcheckFail component s
  | .stepEnd run ranNs => Sys2Proof.Machine.execStepEnd run ranNs s
  | .spillLimitAbort run => Sys2Proof.Machine.execSpillLimitAbort run s
  | .classPStepStart q => Sys2Proof.Machine.execClassPStepStart q s
  | .classPCommit run => Sys2Proof.Machine.execClassPCommit run s
  | .pMeterSpent tile => Sys2Proof.Machine.execPMeterSpent tile s
  | .mxContract run op overlap => Sys2Proof.Machine.execMxContract run op overlap s
  | .vEw run op => Sys2Proof.Machine.execVEw run op s
  | .vReduce run op => Sys2Proof.Machine.execVReduce run op s
  | .vScan run op => Sys2Proof.Machine.execVScan run op s
  | .vSegscan run op => Sys2Proof.Machine.execVSegscan run op s
  | .vSummary run op => Sys2Proof.Machine.execVSummary run op s
  | .gGather run op => Sys2Proof.Machine.execGGather run op s
  | .gScatter run op => Sys2Proof.Machine.execGScatter run op s
  | .tReshape run op => Sys2Proof.Machine.execTReshape run op s
  | .tTranspose run op => Sys2Proof.Machine.execTTranspose run op s
  | .tSlice run op => Sys2Proof.Machine.execTSlice run op s
  | .sRequant run op => Sys2Proof.Machine.execSRequant run op s
  | .sSetscale run op => Sys2Proof.Machine.execSSetscale run op s
  | .sGetscale run op => Sys2Proof.Machine.execSGetscale run op s
  | .sReset run op => Sys2Proof.Machine.execSReset run op s
  | .nDraw run op => Sys2Proof.Machine.execNDraw run op s
  | .nRound run op => Sys2Proof.Machine.execNRound run op s
  | .mPrefetch run op => Sys2Proof.Machine.execMPrefetch run op s
  | .mRelease run op => Sys2Proof.Machine.execMRelease run op s
  | .fReduce run op r => Sys2Proof.Machine.execFReduce run op r s
  | .fGather run op r => Sys2Proof.Machine.execFGather run op r s
  | .fAlltoall run op r => Sys2Proof.Machine.execFAlltoall run op r s
  | .fSend run op r => Sys2Proof.Machine.execFSend run op r s
  | .fRecv run op r => Sys2Proof.Machine.execFRecv run op r s
  | .cBranch run c => Sys2Proof.Machine.execCBranch run c s
  | .cLoop run c rs => Sys2Proof.Machine.execCLoop run c rs s
  | .verificationEpoch reports => Sys2Proof.Machine.execVerificationEpoch reports s
  | .integrityCheckFail frame granule epoch runs ctxs => Sys2Proof.Machine.execIntegrityCheckFail frame granule epoch runs ctxs s
  | .quarantineScanDone region failed => Sys2Proof.Machine.execQuarantineScanDone region failed s
  | .treeLineLost region line => Sys2Proof.Machine.execTreeLineLost region line s
  | .eccUncorrectableLine frame granule runs ctxs => Sys2Proof.Machine.execEccUncorrectableLine frame granule runs ctxs s
  | .repairLands frame granule data => Sys2Proof.Machine.execRepairLands frame granule data s
  | .repairDeadline frame granule => Sys2Proof.Machine.execRepairDeadline frame granule s
  | .frameRemapDone frame => Sys2Proof.Machine.execFrameRemapDone frame s
  | .scrubberPass hub corrected => Sys2Proof.Machine.execScrubberPass hub corrected s
  | .reencryptSweepDone region => Sys2Proof.Machine.execReencryptSweepDone region s
  | .arbStarvation unit req => Sys2Proof.Machine.execArbStarvation unit req s
  | .seamFlitFail seam dir flit readers => Sys2Proof.Machine.execSeamFlitFail seam dir flit readers s
  | .promotionStart extent plan => Sys2Proof.Machine.execPromotionStart extent plan s
  | .promotionDone extent => Sys2Proof.Machine.execPromotionDone extent s
  | .promotionReadFail extent mirror => Sys2Proof.Machine.execPromotionReadFail extent mirror s
  | .settlementStart extent => Sys2Proof.Machine.execSettlementStart extent s
  | .settlementDone extent => Sys2Proof.Machine.execSettlementDone extent s
  | .garbageCollection hub => Sys2Proof.Machine.execGarbageCollection hub s
  | .wearLevelRelocate hub => Sys2Proof.Machine.execWearLevelRelocate hub s
  | .readDisturbRelocate hub superblock => Sys2Proof.Machine.execReadDisturbRelocate hub superblock s
  | .patrolRead hub superblock ladderStep bitErrorsHigh => Sys2Proof.Machine.execPatrolRead hub superblock ladderStep bitErrorsHigh s
  | .retentionRelocate hub superblock => Sys2Proof.Machine.execRetentionRelocate hub superblock s
  | .nandProgramFail hub plane block => Sys2Proof.Machine.execNandProgramFail hub plane block s
  | .beaconReceive b => Sys2Proof.Machine.execBeaconReceive b s
  | .tideNumberReport next => Sys2Proof.Machine.execTideNumberReport next s
  | .tideHoldover => Sys2Proof.Machine.execTideHoldover s
  | .tideUnlocked => Sys2Proof.Machine.execTideUnlocked s
  | .backupTakeover => Sys2Proof.Machine.execBackupTakeover s
  | .linkDelayMeasure port roundTripNs => Sys2Proof.Machine.execLinkDelayMeasure port roundTripNs s
  | .linkHandshake h => Sys2Proof.Machine.execLinkHandshake h s
  | .harbourKeyReceive port key authentic => Sys2Proof.Machine.execHarbourKeyReceive port key authentic s
  | .laneDegrade port lane rate => Sys2Proof.Machine.execLaneDegrade port lane rate s
  | .portRetrain port replays => Sys2Proof.Machine.execPortRetrain port replays s
  | .packetReceive p => Sys2Proof.Machine.execPacketReceive p s
  | .packetResend id report => Sys2Proof.Machine.execPacketResend id report s
  | .evacuationStop slot => Sys2Proof.Machine.execEvacuationStop slot s
  | .coreFault die core => Sys2Proof.Machine.execCoreFault die core s
  | .keySlotFreed engineClass => Sys2Proof.Machine.execKeySlotFreed engineClass s
  | .refclkLoss => Sys2Proof.Machine.execRefclkLoss s
  | .forcingTakeover => Sys2Proof.Machine.execForcingTakeover s
  | .refclkReturn => Sys2Proof.Machine.execRefclkReturn s
  | .powerOnReset => Sys2Proof.Machine.execPowerOnReset s
  | .deviceReset cause => Sys2Proof.Machine.execDeviceReset cause s
  | .functionLevelReset fn => Sys2Proof.Machine.execFunctionLevelReset fn s
  | .bringup f => Sys2Proof.Machine.execBringup f s
  | .neapServiceReady => Sys2Proof.Machine.execNeapServiceReady s
  | .springServiceEntry r => Sys2Proof.Machine.execSpringServiceEntry r s
  | .thermalTrip => Sys2Proof.Machine.execThermalTrip s
  | .powerSample p => Sys2Proof.Machine.execPowerSample p s
  | .thermalSample t => Sys2Proof.Machine.execThermalSample t s
  | .droopStretch tile => Sys2Proof.Machine.execDroopStretch tile s
  | .tdispLockInterface fn => Sys2Proof.Machine.execTdispLockInterface fn s
  | .tdispStartInterface fn => Sys2Proof.Machine.execTdispStartInterface fn s
  | .tdispStopInterface fn => Sys2Proof.Machine.execTdispStopInterface fn s
  | .ideKmMessage m => Sys2Proof.Machine.execIdeKmMessage m s
  | .spdmRequest transport m => Sys2Proof.Machine.execSpdmRequest transport m s
  | .mctpControl transport m => Sys2Proof.Machine.execMctpControl transport m s
  | .pldmPlatformRequest transport m => Sys2Proof.Machine.execPldmPlatformRequest transport m s
  | .requestUpdate transport component maxTransfer => Sys2Proof.Machine.execRequestUpdate transport component maxTransfer s
  | .updateComponentData d => Sys2Proof.Machine.execUpdateComponentData d s
  | .activateFirmware => Sys2Proof.Machine.execActivateFirmware s
  | .lcRequest m => Sys2Proof.Machine.execLcRequest m s
  | .lcRead transport => Sys2Proof.Machine.execLcRead transport s
  | .getCounters transport first count => Sys2Proof.Machine.execGetCounters transport first count s
  | .getEvents transport first count => Sys2Proof.Machine.execGetEvents transport first count s
  | .takeoverRequestReceive m => Sys2Proof.Machine.execTakeoverRequestReceive m s
  | .takeoverTimeout slot => Sys2Proof.Machine.execTakeoverTimeout slot s
  | .havenBindReceive slot partner partnerCtx => Sys2Proof.Machine.execHavenBindReceive slot partner partnerCtx s
  | .evacuationHold job rank => Sys2Proof.Machine.execEvacuationHold job rank s
  | .d3hotTransition fn d3hot => Sys2Proof.Machine.execD3hotTransition fn d3hot s
  | .hostLinkRetrain link mode width => Sys2Proof.Machine.execHostLinkRetrain link mode width s
  | .dynamicAddressAssignment addr => Sys2Proof.Machine.execDynamicAddressAssignment addr s

end Sys2Proof.Machine
end

