-- ==== Sys2Proof/Machine/Crossing.lean ====
section
/-! DEFINITION. What leaves a logic die (R35): the form in which stacked memory, NAND and the fabric hold or carry owner data, and
the delivery of keys to engines (R38, R539).  The state keeps the plaintext; these are the bytes outside the dies. -/

namespace Sys2Proof.Machine

/-! ### Stacked memory (R401 to R403) -/

/-- A list cut into 16-byte blocks. -/
def blocks16 (l : List Byte) : List (List Byte) := (List.range (ceilDiv l.length 16)).map fun i => (l.drop (16 * i)).take 16

def xorBytes (a b : List Byte) : List Byte := a.zipWith (· ^^^ ·) b

/-- A granule of a mutable region has been written, and a frame of a read-only one opened (R404, R412). -/
def Dev.granuleWritten (d : Dev) (f g : Nat) : Bool :=
  if d.frameReadOnly f then (d.region (d.regionOf f)).epochs.get 0 (d.frameIx f) != 0
  else let m := (d.counterBlock (d.blockKey f g)).minors.get 0 (g % 64); m != 0 && m != 127

/-- The IV of a granule's AES block (R401); `mark` sets bit 31 of word 0. -/
def Dev.granuleIv (d : Dev) (f g b : Nat) (mark : Bool) : List Byte :=
  let r := d.region (d.regionOf f)
  let x := d.counterBlock (d.blockKey f g)
  let ro := d.frameReadOnly f
  bytesOfNat 4 (b + 8 * g + 2147483648 * boolNat mark) ++
  bytesOfNat 4 (f + 2097152 * boolNat ro + 8388608 * (if ro then 0 else x.minors.get 0 (g % 64))) ++
  bytesOfNat 4 r.generation ++ bytesOfNat 4 (if ro then r.epochs.get 0 (d.frameIx f) else x.major)

/-- The identifier a granule is encrypted under: its block's, or that of its region. -/
def Dev.granuleId (d : Dev) (f g : Nat) : Nat :=
  if d.frameReadOnly f then (d.region (d.regionOf f)).key else (d.counterBlock (d.blockKey f g)).key

/-- K_enc and K_mac of an identifier (R538). -/
def Dev.encKey (d : Dev) (k : Nat) : List Byte := (d.memKeys k).take 32
def Dev.macKey (d : Dev) (k : Nat) : List Byte := (d.memKeys k).drop 32

/-- The plaintext of a granule. -/
def Dev.granulePlain (d : Dev) (f g : Nat) : List Byte := (List.range 128).map fun i => Mem.read d.mem (frameBytes * f + 128 * g + i)

/-- A granule as the stacks hold it (R401): C_b = P_b XOR AES-256(K_enc, IV_b). -/
def Dev.granuleCipher (d : Dev) (f g : Nat) : List Byte :=
  ((blocks16 (d.granulePlain f g)).zipIdx.flatMap fun p =>
    xorBytes p.1 (Config.aes256 (d.encKey (d.granuleId f g)) (d.granuleIv f g p.2 false)))

/-- The 64-bit tag over blocks and a binding block (R402). -/
def tagOver (mac : List Byte) (body : List (List Byte)) (bind : List Byte) : List Byte :=
  (xorBytes (Config.ghash (Config.aes256 mac (List.replicate 16 0)) (body ++ [bind])) (Config.aes256 mac bind)).take 8

/-- A granule's tag in the region's MAC frames (R402). -/
def Dev.granuleTag (d : Dev) (f g : Nat) : List Byte :=
  tagOver (d.macKey (d.granuleId f g)) (blocks16 (d.granuleCipher f g)) (d.granuleIv f g 0 true)

/-- MAC line `i` of a frame: the tags of granules 16i to 16i + 15 (R402). -/
def Dev.macLine (d : Dev) (f i : Nat) : List Byte := (List.range 16).flatMap fun j => d.granuleTag f (16 * i + j)

/-- A counter block or node as its 64 bytes (R404); a node's key_id is reserved (R408). -/
def CounterBlock.bytes (x : CounterBlock) (level : Nat) : List Byte :=
  bytesOfNat 4 x.major ++ bytesOfNat 56 (sumNat ((List.range 64).map fun i => x.minors.get 0 i * 2 ^ (7 * i))) ++
    bytesOfNat 4 (if level = 0 then x.key else 0)

/-- The line of a level, 0 the counter block. -/
def Dev.line (d : Dev) (level key : Nat) : CounterBlock := if level = 0 then d.counterBlock key else d.node key

/-- A line's index within its level of the region (R403, R408). -/
def lineIndex (level key : Nat) : Nat := if level = 0 then key % 131072 else if level = 1 then key % 4096 - 33 else key % 4096 - 1

/-- The binding block of a line's tag (R403), with bit 31 of word 0 set. -/
def Dev.lineBinding (d : Dev) (level key : Nat) : List Byte :=
  let r := lineRegion level key
  let (_, k, i) := parentLine level key
  bytesOfNat 4 (level + 4 * lineIndex level key + 2147483648) ++
  bytesOfNat 4 (d.regionFrame r 0 + 4194304 + 8388608 * (d.node k).minors.get 0 i) ++
  bytesOfNat 4 (d.region r).generation ++ bytesOfNat 4 (d.node k).major

/-- A line's tag in the reserve's tag array (R403): it changes whenever its parent's counter for it does. -/
def Dev.lineTag (d : Dev) (level key : Nat) : List Byte :=
  tagOver (d.macKey (d.region (lineRegion level key)).key) (blocks16 ((d.line level key).bytes level)) (d.lineBinding level key)

/-! ### NAND slots (R441) -/

/-- The plaintext of a stored unit: the extent's contents as R439's codec arranges them, which is internal (log 8). -/
def Extent.unitPlain (x : Extent) (u : Nat) : List Byte := (List.range 4096).map fun i => Mem.read x.contents (4096 * u + i)

/-- The IV of AES block `b` of a unit (R441). -/
def Extent.unitIv (x : Extent) (e u b : Nat) (mark : Bool) : List Byte :=
  bytesOfNat 4 (b + 256 * u + 2147483648 * boolNat mark) ++ bytesOfNat 4 e ++ bytesOfNat 4 x.serial ++ bytesOfNat 4 0

/-- A 4,608-byte slot (R441): payload, extent, unit, serial and tag, and the parity over them. -/
def Dev.nandSlot (d : Dev) (e u : Nat) : List W32 :=
  let x := d.extent e
  let key := d.flashKey x.ctx x.owner
  let enc := hkdf key "ONV-FENC" []
  let mac := hkdf key "ONV-FMAC" []
  let cipher := (blocks16 (x.unitPlain u)).zipIdx.map fun p => xorBytes p.1 (Config.aes256 enc (x.unitIv e u p.2 false))
  let head : List Byte := bytesOfNat 4 e ++ bytesOfNat 4 u ++ bytesOfNat 4 x.serial ++ bytesOfNat 4 0
  let ws := wordsOfBytes (cipher.flatten ++ head ++ tagOver mac (cipher ++ [head]) (x.unitIv e u 0 true))
  ws ++ (Config.ldpcParity ws).take 122

/-! ### Fabric packets (R469, R481) -/

/-- The 32-byte header of a packet (R469). -/
def packetHeader (p : FabricPacket) (hops : Nat) (detour : Bool) : List Byte :=
  bytesOfNat 4 (p.dst + 1024 * p.src + 1048576 * p.cls + 4194304 * hops + 33554432 * boolNat detour + 67108864 * p.type) ++
  bytesOfNat 4 p.window ++ bytesOfNat 8 p.offset ++ bytesOfNat 4 p.length ++ bytesOfNat 8 p.seq ++ bytesOfNat 4 p.op.toNat

/-- The key of group-control packets (R485). -/
def Dev.controlKey (d : Dev) : List Byte := hkdf (d.fabric.harbourKey.getD []) "ONV-GRP" []

/-- Link frames of a packet: 248 bytes of it in each (R466). -/
def linkFrames (payload : Nat) : Nat := ceilDiv (32 + payload + 16) 248

/-- The nonce of a packet (R481): src, dst and seq. -/
def packetNonce (p : FabricPacket) : List Byte := bytesOfNat 4 (p.src + 1024 * p.dst) ++ bytesOfNat 8 p.seq

/-- A packet as it crosses a link (R481): the header is additional data with hops and detour zero, the payload encrypted. -/
def sealPacket (p : FabricPacket) (key : List Byte) : List Byte :=
  let (ct, tag) := Config.gcmSeal key (packetNonce p) (packetHeader p 0 false) p.payload
  packetHeader p p.hops p.detour ++ ct ++ tag

/-! ### Keys for engines (R38, R539) -/

/-- The keys the key manager delivers (R538). -/
inductive KeyName where
  | rng (ctx : Nat)
  | memory (id : Nat)
  | seam (s : Nat) (dir : Bool)
  | group (g : Nat)
  | harbour
  | hop (port : Nat)
  | envelope (charter owner : Nat)
  | snapshot (ctx tide : Nat)
  | flash (ctx owner : Nat)
  /-- A key from which others derive: root, device, boot, branch and domain keys. -/
  | inner
  deriving DecidableEq, Repr

/-- The engine attribute a key carries (R538, R539). -/
def KeyName.cls : KeyName → KeyClass
  | .rng _ => .tile | .memory _ => .hub | .seam _ _ => .seam | .group _ => .link | .harbour => .link | .hop _ => .link
  | .envelope _ _ => .sluice | .snapshot _ _ => .snapshot | .flash _ _ => .flash | .inner => .none

/-- The key of a name. -/
def Dev.keyBytes (d : Dev) : KeyName → List Byte
  | .rng c => d.rngKey c
  | .memory k => d.memKeys k
  | .seam s dir => d.seamKey s dir
  | .group g => (d.group g).key.getD []
  | .harbour => d.fabric.harbourKey.getD []
  | .hop p => (d.port p).hopKey.getD []
  | .envelope k o => (d.charter k).envKey o
  | .snapshot c t => d.snapKey c t
  | .flash c o => d.flashKey c o
  | .inner => []

/-- An engine of a class asks for a key (R38, R539): it is sent only to an engine of the class its attribute names; any other request
is refused and logged, and no key is sent. -/
def Dev.requestKey (d : Dev) (engine : KeyClass) (die : Nat) (k : KeyName) : Dev × Option (List Byte) :=
  if engine = k.cls && engine ≠ .none then (d, some (d.keyBytes k))
  else (d.logEvent 2 0 (die := die) (detail := 8 * engine.code + k.cls.code), none)

end Sys2Proof.Machine
end

