-- ==== Sys2Proof/Machine/Debug.lean ====
section
/-! DEFINITION. What debug certificates open (R5, R562, R575 to R580): the JTAG port's instructions, the consent view and the state
view. -/

namespace Sys2Proof.Machine

/-! ### The JTAG port (R36, R564, R565, R575, R579) -/

/-- The right an instruction needs; none is needed for BYPASS and IDCODE. -/
def JtagInstr.right : JtagInstr → Option Nat
  | .bypass => none | .idcode => none
  | .samplePreload => some 0 | .extest => some 0 | .clamp => some 0
  | .fwDebug => some 1 | .trace => some 2 | .fuseRead => some 3 | .memTest => some 4 | .returnRead => some 5

/-- A vendor certificate in force grants a right of the port. -/
def LifeCycle.vendorRight (l : LifeCycle) (r : Nat) : Bool := l.certs.any fun c => !c.owner && bitOf c.rights.toNat r

/-- Every context other than slot 0 is CLOSED. -/
def Dev.allClosed (d : Dev) : Bool := d.ctxs.all fun c => c.1 == 0 || c.2.state == .closed

/-- The port answers an instruction: all of them in BLANK and TEST, BYPASS and IDCODE alone in SCRAP, and what a certificate opens
otherwise; MEM_TEST needs every context closed, RETURN_READ the state RETURN. -/
def Dev.jtagOpen (d : Dev) (i : JtagInstr) : Bool :=
  match i.right with
  | none => true
  | some r =>
    if d.life.state ≤ 1 then true
    else if 5 ≤ d.life.state then false
    else d.life.vendorRight r && (r != 4 || d.allClosed) && (r != 5 || d.life.state == 4)

/-- An instruction is shifted into the port (R579): one it does not answer selects BYPASS; EXTEST drives the outputs. -/
def Dev.jtagSelect (d : Dev) (i : JtagInstr) : Dev :=
  let i := if d.jtagOpen i then i else .bypass
  d.modLife fun l => { l with jtag := i, driven := l.driven || i == .extest }

/-- A byte of stacked memory as the port reads it in plaintext (R564, R575): in BLANK and TEST, with MEM_TEST in PROVISION, with
RETURN_READ in RETURN; nowhere else. -/
def Dev.jtagRead (d : Dev) (a : Nat) : Option Byte :=
  let allowed := decide (d.life.state ≤ 1) || (d.life.state == 2 && d.life.jtag == .memTest && d.jtagOpen .memTest) ||
    (d.life.state == 4 && d.life.jtag == .returnRead && d.jtagOpen .returnRead)
  if allowed then some (Mem.read d.mem a) else none

/-! ### Owners' rights (R562, R577) -/

/-- An owner certificate of a charter's owner in force grants a right. -/
def Dev.ownerGrants (d : Dev) (k o r : Nat) : Bool :=
  let x := d.charter k
  d.life.certs.any fun c => c.owner && c.charter == x.digest && x.owners[o]? == some c.key && bitOf c.rights.toNat r

/-- The consent right stands for a context: every owner of its charter has given it, or, without a charter, the vendor (R562, R577). -/
def Dev.consents (d : Dev) (ctx : Nat) : Bool :=
  match (d.ctx ctx).charter with
  | some k => (List.range (d.charter k).owners.length).all fun o => d.ownerGrants k o 6
  | none => d.life.vendorRight 6

/-- What the consent view adds to R559 and R560 (R575): power and temperature as they are read each millisecond, the power to 0.1 W. -/
structure ConsentView where
  tenths : Nat
  tempC  : Nat
  deriving DecidableEq, Repr

/-- The consent view of a context (R577): a request without the right fails with DEBUG_DENIED. -/
def Dev.consentView (d : Dev) (ctx : Nat) : Except Nat ConsentView :=
  if d.consents ctx then .ok { tenths := d.power.powerMw / 100, tempC := maxNat (d.dike.temps.map Prod.snd) }
  else .error Code.debugDenied

/-- The header of a tensor's scale-table entry (R164), shown where the consent right or STATE_VIEW stands for its context. -/
def Dev.headerView (d : Dev) (plan t : Nat) : Except Nat (List W32) :=
  let p := d.plan plan
  let view := match (d.ctx p.ctx).charter with
    | some k => d.ownerGrants k (p.module.ownerOf t) 7
    | none => d.life.vendorRight 7
  if !p.loaded || !(d.consents p.ctx || view) then .error Code.debugDenied
  else match (p.tensors.getD t {}).entry with
    | some e => .ok ((d.scales.get {} e).header (d.ctx p.ctx).tag.toNat)
    | none => .ok []

/-- The state view of a tensor for an owner, or, where its context has no charter, for the vendor (R577): only tensors of the owner's
domain, each as an envelope under its E_o with direction 1 and the next outgoing seq, never as plaintext. -/
def Dev.stateView (d : Dev) (plan t owner : Nat) : Except Nat (Dev × List W32) :=
  let p := d.plan plan
  let x := p.tensors.getD t {}
  let n := (p.module.tensor t).storedBytes
  let bytes := d.committedBytes x 0 n
  if !p.loaded then .error Code.debugDenied
  else match (d.ctx p.ctx).charter with
  | some k =>
    if d.ownerGrants k owner 7 && p.module.ownerOf t == owner then
      let c : Cmd := { payload := [BitVec.ofNat 32 (plan + 1024 * p.generation), BitVec.ofNat 32 t, 0, 0, 0, BitVec.ofNat 32 n] }
      .ok (d.modCharter k fun y => { y with seqOut := y.seqOut.set 1 owner (y.seqOut.get 1 owner + 1) },
        sealEnvelope (d.charter k) k owner c x.coarse bytes)
    else .error Code.debugDenied
  | none =>
    if d.life.vendorRight 7 then .ok (d, wordsOfBytes (padTo 0 (64 * ceilDiv n 64) bytes)) else .error Code.debugDenied

end Sys2Proof.Machine
end

