-- ==== Sys2Proof/WellFormed.lean ====
section
/-! DEFINITION. Which commands and events are well formed: every number of a unit, slot, frame or message lies within the
numbering the spec gives it.  A meaning answers an ill-formed one with a fault or leaves the state as it is. -/

namespace Sys2Proof

/-- Queue numbers 0 to 4,095 (R298). -/
def okQueue (q : Nat) : Bool := decide (q < 4096)

/-- Context slots 0 to 4,095 (R333). -/
def okSlot (c : Nat) : Bool := decide (c < 4096)

/-- Group slots 0 to 1,023 (R483). -/
def okGroup (g : Nat) : Bool := decide (g < 1024)

/-- Fabric addresses and ranks have 10 bits (R470, R483). -/
def okAddress (a : Nat) : Bool := decide (a < 1024)

/-- Job numbers of the model: a group slot, or 1,024 plus a context slot (R511). -/
def okJob (j : Nat) : Bool := decide (j < 5120)

/-- Tiles CT0 to CT15 (R8). -/
def okTile (t : Nat) : Bool := decide (t < 16)

/-- Hubs MH0 to MH3 (R8). -/
def okHub (h : Nat) : Bool := decide (h < 4)

/-- Ports 0 to 47 (R464). -/
def okPort (p : Nat) : Bool := decide (p < 48)

/-- A frame number names a frame (R27). -/
def okFrame (f : Nat) : Bool := decide (f < 2097152) && decide (f % 524288 < 393216)

/-- A 128-byte granule of a frame that exists (R404). -/
def okGranule (f g : Nat) : Bool := okFrame f && decide (g < 16384)

/-- Protection regions: 716 of each hub (R394). -/
def okRegion (r : Nat) : Bool := decide (r < 2864)

/-- Memory key identifiers 1 to 4,095 (R396). -/
def okKey (k : Nat) : Bool := decide (0 < k) && decide (k < 4096)

/-- Extents 0 to 16,777,215 (R433). -/
def okExtent (e : Nat) : Bool := decide (e < 16777216)

/-- Superblock numbers have 21 bits (R436). -/
def okSuperblock (n : Nat) : Bool := decide (n < 2097152)

/-- Local operation indices have 16 bits, and 0xFFFF names none (R315). -/
def okOp (op : Nat) : Bool := decide (op < 65535)

/-- Transports of the management endpoint: 1 the I3C bus, 2 PCIe (R642). -/
def okTransport (t : Nat) : Bool := decide (t = 1) || decide (t = 2)

/-- Function codes 0 to 16 (R291). -/
def okFn (f : Nat) : Bool := decide (f < 17)

/-- A virtual function: codes 2 to 16 (R291). -/
def okVf (f : Nat) : Bool := decide (2 ≤ f) && decide (f < 17)

/-- Plan slots 0 to 1,023 (R282). -/
def okPlan (p : Nat) : Bool := decide (p < 1024)

/-- Every doorbell names a queue. -/
def okBells (l : List DoorbellRead) : Bool := l.all fun b => okQueue b.queue

/-- A beacon's fields fit the frame of R57. -/
def Beacon.ok (b : Beacon) : Bool :=
  okPort b.port && decide (b.tide < 2 ^ 64) && decide (b.generation < 65536) && decide (b.srcRank < 4) &&
    decide (b.periodUnits < 64) && decide (b.slackPct < 32) && decide (b.ebbPct < 16) && decide (b.hops < 4)

/-- A fabric packet's header fields fit R469. -/
def FabricPacket.ok (p : FabricPacket) : Bool :=
  okAddress p.dst && okAddress p.src && decide (p.cls < 4) && decide (p.type < 16) && decide (p.length ≤ 4096) &&
    decide (p.payload.length ≤ 4096)

/-- A handshake's fields fit R478. -/
def Handshake.ok (h : Handshake) : Bool := okPort h.port && okAddress h.address && okPort h.farPort && decide (h.lcState < 8)

/-- A group-control message names a rank below 1,024 (R483, R485). -/
def GroupControl.ok : GroupControl → Bool
  | .mismatch g _ o => decide (g < 2 ^ 64) && decide (o < 65536)
  | .request _ _ _ rank => okAddress rank
  | .nonce _ _ => true
  | .refuse _ code => decide (code < 65536)
  | .abort _ step op origin => decide (step < 65536) && okOp op && okAddress origin

/-- A sealed snapshot unit: 4 KiB and its tag, addressed to a context (R508). -/
def HavenUnit.ok (u : HavenUnit) : Bool :=
  decide (u.keeperCtx < 65536) && okAddress u.source && decide (u.sourceCtx < 65536) && decide (u.unit < u.units)

/-- Where a SNAPSHOT takes place (R511). -/
def SnapshotAt.ok : SnapshotAt → Bool
  | .queue q => okQueue q
  | .rank job interval _ _ => okJob job && decide (interval < 4294967296)
  | .reply job r _ => okJob job && okAddress r

/-- A keeper hears of a decision only where the generation is abandoned (R517). -/
def DecisionAt.gives (w : DecisionAt) (freeze : Bool) : Bool :=
  match w with
  | .rank _ => true
  | .keeper _ _ _ _ => !freeze

/-- Where a decision arrives (R513, R517). -/
def DecisionAt.ok : DecisionAt → Bool
  | .rank job => okJob job
  | .keeper c src srcCtx _ => okSlot c && okAddress src && decide (srcCtx < 65536)

/-- Failed clusters and banks of stage 5 are those of a tile, and its spares cover them (R525, R607). -/
def Stage5Result.ok : Stage5Result → Bool
  | .trained _ clusters banks => clusters.all (fun c => decide (c.1 < 16 ∧ c.2 < 8)) && (clusters.map Prod.fst).eraseDups.length == clusters.length &&
      banks.all fun t => decide (t < 16 ∧ banks.count t ≤ 64)
  | .failed unit => decide (unit < 256)

/-- Where a completion takes place (R515). -/
def CompleteAt.ok : CompleteAt → Bool
  | .coordinator j => okJob j
  | .rank j => okJob j
  | .keeper c src srcCtx _ => okSlot c && okAddress src && decide (srcCtx < 65536)

/-- A job substitution names devices and ranks of the harbour (R519). -/
def Substitution.ok (m : Substitution) : Bool :=
  m.lost.all okAddress &&
  okAddress m.rank && okAddress m.failed && okAddress m.spare && okAddress m.keeper && m.ranks.all okAddress

/-- A takeover request names devices and a rank of the harbour (R519). -/
def TakeoverRequest.ok (m : TakeoverRequest) : Bool :=
  okAddress m.rank && okAddress m.failed && okAddress m.spare && okAddress m.keeper

/-- A power reading has the sixteen tile rails and the thirteen others of R614. -/
def PowerReading.ok (p : PowerReading) : Bool := decide (p.tileMw.length = 16) && decide (p.overMax.length = 16)

/-- A temperature report names stacks 0 to 23 (R28). -/
def ThermalReading.ok (t : ThermalReading) : Bool :=
  (t.stackTemps.all fun e => decide (e.1 < 24)) && t.banks.all fun e => decide (e.1 < 16) && decide (e.2 < 2112)

/-- The IDE_KM messages name one of two links and an 8-bit stream (R293). -/
def IdeKm.ok : IdeKm → Bool
  | .keyProg l s k => decide (l < 2) && decide (s < 256) && decide (k < 2)
  | .keySetGo l s k => decide (l < 2) && decide (s < 256) && decide (k < 2)
  | .keySetStop l s => decide (l < 2) && decide (s < 256)
  | .query l => decide (l < 2)
  | .bindVf f s => okVf f && decide (s < 256)

/-- The operands of a command or event lie within the spec's numbering. -/
def Instr.wf : Instr → Bool
  | .fenceSignal q => okQueue q
  | .fenceWait q => okQueue q
  | .fenceWaitTimeout q => okQueue q
  | .mapPages q => okQueue q
  | .unmapPages q => okQueue q
  | .pageInvalidate e => decide (e < 2097152)
  | .quotaSet q => okQueue q
  | .quotaGraceExpiry c => okSlot c
  | .putTensor q => okQueue q
  | .getTensor q => okQueue q
  | .stage q => okQueue q
  | .loadPlan q => okQueue q
  | .loadPlanComplete core => decide (core < 8)
  | .unloadPlan q => okQueue q
  | .runPlan q => okQueue q
  | .charterCreate q => okQueue q
  | .charterKey q => okQueue q
  | .charterBind q => okQueue q
  | .charterAdmit q => okQueue q
  | .charterClose q => okQueue q
  | .groupOpen q => okQueue q
  | .groupOpenTimeout g => okGroup g
  | .groupControlReceive src m => okAddress src && m.ok
  | .groupClose q => okQueue q
  | .snapshot w => w.ok
  | .secureNowRequest j r _ => okJob j && okAddress r
  | .snapshotVote j r _ => okJob j && okAddress r
  | .snapshotDecision w freeze => w.ok && w.gives freeze
  | .fillDone c => okSlot c
  | .havenUnitReceive u => u.ok
  | .drainConfirmed c => okSlot c
  | .snapshotComplete w => w.ok
  | .restore q _ => okQueue q
  | .havenBind q => okQueue q
  | .havenUnbind q => okQueue q
  | .havenBindTimeout c => okSlot c
  | .takeover q => okQueue q
  | .takeoverSubstitution m => m.ok
  | .drainTileUnforced q => okQueue q
  | .drainTileForced q => okQueue q
  | .drainTileReturn q => okQueue q
  | .setOppoint q => okQueue q
  | .commandDecode q _ => okQueue q
  | .allQueueSummaryPoll f r => okFn f && decide (r.words.length = 64) && okBells r.first && okBells r.again
  | .classPSummaryPoll f r => okFn f && decide (r.words.length = 8) && okBells r.first && okBells r.again
  | .summarySwapFail f => okFn f
  | .completionSpaceFreed q _ => okQueue q
  | .queueEnable f => decide (f < 2)
  | .queueDisable f => decide (f < 2)
  | .contextOpen => true
  | .contextClose => true
  | .tideStart => true
  | .tideStop => true
  | .tideNumberLoRead => true
  | .setupLock => true
  | .fabricTrainEnable _ => true
  | .registerWrite f _ size _ => okFn f && (decide (size = 4) || decide (size = 8))
  | .lcTransition t => decide (t < 16)
  | .lcTransitionDone => true
  | .tokenLockoutExpiry => true
  | .debugOpen => true
  | .debugClose => true
  | .tideBoundary => true
  | .floodEnd => true
  | .ebbStart => true
  | .retirementComplete k => okKey k
  | .quarantineEnd k => okKey k
  | .fwSelfcheckFail c => decide (c < 256)
  | .stepEnd run _ => decide (0 < run)
  | .spillLimitAbort run => decide (0 < run)
  | .classPStepStart q => okQueue q
  | .classPCommit run => decide (0 < run)
  | .pMeterSpent t => okTile t
  | .mxContract run op l => decide (0 < run) && okOp op && l.all okOp
  | .vEw run op => decide (0 < run) && okOp op
  | .vReduce run op => decide (0 < run) && okOp op
  | .vScan run op => decide (0 < run) && okOp op
  | .vSegscan run op => decide (0 < run) && okOp op
  | .vSummary run op => decide (0 < run) && okOp op
  | .gGather run op => decide (0 < run) && okOp op
  | .gScatter run op => decide (0 < run) && okOp op
  | .tReshape run op => decide (0 < run) && okOp op
  | .tTranspose run op => decide (0 < run) && okOp op
  | .tSlice run op => decide (0 < run) && okOp op
  | .sRequant run op => decide (0 < run) && okOp op
  | .sSetscale run op => decide (0 < run) && okOp op
  | .sGetscale run op => decide (0 < run) && okOp op
  | .sReset run op => decide (0 < run) && okOp op
  | .nDraw run op => decide (0 < run) && okOp op
  | .nRound run op => decide (0 < run) && okOp op
  | .mPrefetch run op => decide (0 < run) && okOp op
  | .mRelease run op => decide (0 < run) && okOp op
  | .fReduce run op _ => decide (0 < run) && okOp op
  | .fGather run op _ => decide (0 < run) && okOp op
  | .fAlltoall run op _ => decide (0 < run) && okOp op
  | .fSend run op _ => decide (0 < run) && okOp op
  | .fRecv run op _ => decide (0 < run) && okOp op
  | .cBranch run c => decide (0 < run) && okOp c.op
  | .cLoop run c _ => decide (0 < run) && okOp c.op
  | .verificationEpoch l => decide (l.length = 4)
  | .integrityCheckFail f g _ _ _ => okGranule f g
  | .quarantineScanDone r l => okRegion r && l.all fun p => okGranule p.1 p.2
  | .treeLineLost r _ => okRegion r
  | .eccUncorrectableLine f g _ _ => okGranule f g
  | .repairLands f g data => okGranule f g && decide (data.length = 128)
  | .repairDeadline f g => okGranule f g
  | .frameRemapDone f => okFrame f
  | .scrubberPass h _ => okHub h
  | .reencryptSweepDone r => okRegion r
  | .arbStarvation u req => (okHub u || (decide (8 ≤ u) && decide (u ≤ 56))) && decide (req < 128)
  | .seamFlitFail n _ _ _ => decide (n < 108)
  | .promotionStart e p => okExtent e && okPlan p
  | .promotionDone e => okExtent e
  | .promotionReadFail e _ => okExtent e
  | .settlementStart e => okExtent e
  | .settlementDone e => okExtent e
  | .garbageCollection h => okHub h
  | .wearLevelRelocate h => okHub h
  | .readDisturbRelocate h n => okHub h && okSuperblock n
  | .patrolRead h n _ _ => okHub h && okSuperblock n
  | .retentionRelocate h n => okHub h && okSuperblock n
  | .nandProgramFail h _ b => okHub h && decide (b < 16777216)
  | .beaconReceive b => b.ok
  | .tideNumberReport n => decide (n < 2 ^ 64)
  | .tideHoldover => true
  | .tideUnlocked => true
  | .backupTakeover => true
  | .linkDelayMeasure p _ => okPort p
  | .linkHandshake h => h.ok
  | .harbourKeyReceive p k _ => okPort p && decide (k.length = 32)
  | .laneDegrade p l _ => okPort p && decide (l < 8)
  | .portRetrain p _ => okPort p
  | .packetReceive p => p.ok
  | .packetResend _ _ => true
  | .evacuationStop c => okSlot c
  | .coreFault die core => (okTile die || decide (die = 0x30)) && decide (core < 8)
  | .keySlotFreed c => decide (c < 7)
  | .refclkLoss => true
  | .forcingTakeover => true
  | .refclkReturn => true
  | .powerOnReset => true
  | .deviceReset _ => true
  | .functionLevelReset f => decide (0 < f) && okFn f
  | .bringup _ => true
  | .neapServiceReady => true
  | .springServiceEntry r => r.ok
  | .thermalTrip => true
  | .powerSample p => p.ok
  | .thermalSample t => t.ok
  | .droopStretch t => okTile t
  | .tdispLockInterface f => okVf f
  | .tdispStartInterface f => okVf f
  | .tdispStopInterface f => okVf f
  | .ideKmMessage m => m.ok
  | .spdmRequest t _ => decide (t < 3)
  | .mctpControl t _ => okTransport t
  | .pldmPlatformRequest t _ => okTransport t
  | .requestUpdate t _ _ => okTransport t
  | .updateComponentData _ => true
  | .activateFirmware => true
  | .lcRequest m => okTransport m.transport
  | .lcRead t => okTransport t
  | .getCounters t _ _ => okTransport t
  | .getEvents t _ _ => okTransport t
  | .takeoverRequestReceive m => m.ok
  | .takeoverTimeout c => okSlot c
  | .havenBindReceive c p x => okSlot c && okAddress p && decide (x < 65536)
  | .evacuationHold j r => okJob j && okAddress r
  | .d3hotTransition f _ => decide (f < 2)
  | .hostLinkRetrain l _ _ => decide (l < 2)
  | .dynamicAddressAssignment _ => true

end Sys2Proof
end

