-- ==== Sys2Proof/Safety.lean ====
section
/-! DEFINITION. What counts as a safe run, in the terms the claims use: a command that answers a next state, the bytes of
stacked memory that stay as they were, and a memory in its canonical form. -/

namespace Sys2Proof.Machine

/-- The command answers a next state, and that state has the property. -/
def Answers (i : Instr) (s : State) (P : State → Prop) : Prop := ∃ t, exec i s = .next t ∧ P t

/-- Every byte of stacked memory reads as before. -/
def SameMemory (s t : State) : Prop := ∀ a, Mem.read t.dev.mem a = Mem.read s.dev.mem a

/-- The memory is in its canonical form. -/
def State.memoryOk (s : State) : Prop := Mem.wf s.dev.mem = true

/-- A step is safe where it neither faults nor is refused. -/
def State.safeStep (s : State) : Prop := ∃ t, step s = .next t

/-- A command stands at the head of queue `q` with its waits met and every check of its beginning passed (R301, R311). -/
@[reducible] def HeadReady (s : State) (q op : Nat) (want : Cmd → Bool) (c : Cmd) (ctx : Nat) : Prop :=
  s.dev.atHead q op want = .ready c ctx

/-- The device as command `c` begins at the head of queue `q` (R301, R347), and the command with its map epoch. -/
def begun (s : State) (q ctx : Nat) (c : Cmd) : Dev × Cmd := s.dev.beginCmd q ctx c

/-- The command answers the state that has device `d` and the queue as it was. -/
def AnswersDev (i : Instr) (s : State) (d : Dev) : Prop := exec i s = .next { s with dev := d }

/-- The command answers the state that has device `d`, with the messages that the sensors' changes send (R649), and the queue
as it was. -/
def AnswersSent (i : Instr) (s : State) (d : Dev) : Prop := exec i s = .next { s with dev := s.dev.sensorEvents d }

/-- The operation rows that are neither a collective nor a construct: run, operation, opcode and the operations of the same
region still in flight (R213, R238, R657). -/
def plainOp : Instr → Option (Nat × Nat × Nat × List Nat)
  | .mxContract run op l => some (run, op, 0x0100, l)
  | .vEw run op => some (run, op, 0x0200, [])
  | .vReduce run op => some (run, op, 0x0210, [])
  | .vScan run op => some (run, op, 0x0211, [])
  | .vSegscan run op => some (run, op, 0x0212, [])
  | .vSummary run op => some (run, op, 0x0213, [])
  | .gGather run op => some (run, op, 0x0300, [])
  | .gScatter run op => some (run, op, 0x0301, [])
  | .tReshape run op => some (run, op, 0x0400, [])
  | .tTranspose run op => some (run, op, 0x0401, [])
  | .tSlice run op => some (run, op, 0x0402, [])
  | .sRequant run op => some (run, op, 0x0500, [])
  | .sSetscale run op => some (run, op, 0x0501, [])
  | .sGetscale run op => some (run, op, 0x0502, [])
  | .sReset run op => some (run, op, 0x0503, [])
  | .nDraw run op => some (run, op, 0x0600, [])
  | .nRound run op => some (run, op, 0x0601, [])
  | .mPrefetch run op => some (run, op, 0x0700, [])
  | .mRelease run op => some (run, op, 0x0701, [])
  | _ => none

/-- The collective rows: run, operation, opcode and how the collective ended on the fabric (R250, R252). -/
def collectiveOp : Instr → Option (Nat × Nat × Nat × CollResult)
  | .fReduce run op r => some (run, op, 0x0800, r)
  | .fGather run op r => some (run, op, 0x0801, r)
  | .fAlltoall run op r => some (run, op, 0x0802, r)
  | .fSend run op r => some (run, op, 0x0803, r)
  | .fRecv run op r => some (run, op, 0x0804, r)
  | _ => none

/-- The rows of bounded control: run, operation, opcode (R206 to R208). -/
def constructOp : Instr → Option (Nat × Nat × Nat)
  | .cBranch run c => some (run, c.op, 0x0900)
  | .cLoop run c _ => some (run, c.op, 0x0901)
  | _ => none

/-- No read of an operation of a run meets a bad granule or an extent that is not yet readable (R381, R448). -/
@[reducible] def ReadsClear (d : Dev) (run op : Nat) : Prop :=
  d.badReads (d.runOf run) [op] = [] ∧ d.lateExtents (d.runOf run) [op] = []

/-- The operation records of a run's step. -/
def opsOf (d : Dev) (run : Nat) : List OpRec := (d.plan (d.runOf run).plan).module.stepOps (d.runOf run).step

/-- Operation `op` of a run depends on one that was skipped or faulted (R145, R214). -/
def dependsOnSkipped (d : Dev) (run op : Nat) : Bool := isSkipped (opsOf d run) [] (d.runOf run) op

/-- Of the operations a row names as in flight, those that the operation does not depend on (R143, R657). -/
def overlapping (d : Dev) (run op : Nat) (l : List Nat) : List Nat :=
  l.filter fun j => !((dependencyClosure (opsOf d run)).getD op []).contains j

/-- The extents a STAGE touches, opened for staging one after another (R444). -/
def stageOpened (d : Dev) (b : Binding) (t : TensorDecl) (es : List (Nat × Nat)) : Except NoFrame Dev :=
  es.foldl (fun acc x => match acc with
    | .error z => .error z
    | .ok d => d.openExtent b t x.1 x.2) (Except.ok d)

/-- The cells of a write that are not discarded: those of frames whose identifier is in use (R419). -/
def Dev.accepted (d : Dev) (cells : List Host.Cell) : List Host.Cell := cells.filter fun c => !d.frameRefused (c.1 / frameBytes)

/-- Ebb actions 5 to 7 do not follow a job's decision: none of them waits, or another job's freeze is still open (R41). -/
def Dev.ebbStays (d : Dev) (j : Nat) : Prop :=
  d.tide.ebbRest = false ∨ ∃ n, n ≠ j ∧ ((d.job n).freezing = true ∨ (d.job n).vote.isSome = true)

/-- A command but for what evaluating its waits records (R353, R355). -/
def Cmd.noWaits (c : Cmd) : Cmd := { c with waits := [], upstream := none }

/-- A RUN_PLAN under way but for the codes it is to carry. -/
def RunCmd.noCodes (r : RunCmd) : RunCmd := { r with codes := [] }

/-- Devices `d` and `e` agree on everything but what ending one command of queue `q` that names fence `f` writes: that
queue, that fence, the evaluated waits at the heads of other queues, FENCE_LEAP for a RUN_PLAN under way, stale counts, MSI-X
pending bits, the error state and the outputs (R315, R352 to R356). -/
structure EndsOnly (q : Nat) (f : Option Nat) (d e : Dev) : Prop where
  rest   : e = { d with fns := e.fns, queues := e.queues, ctxs := e.ctxs, fences := e.fences, errors := e.errors, out := e.out
                        runCmds := e.runCmds }
  queues : ∀ n, n ≠ q → e.queue n = { d.queue n with fetched := (e.queue n).fetched } ∧
             (e.queue n).fetched.map Cmd.noWaits = (d.queue n).fetched.map Cmd.noWaits
  runs   : e.runCmds.map RunCmd.noCodes = d.runCmds.map RunCmd.noCodes
  fences : ∀ n, f ≠ some n → e.fence n = d.fence n
  ctxs   : ∀ n, ∃ k, e.ctx n = { d.ctx n with stale := k }
  fns    : ∀ n, ∃ l, e.fn n = { d.fn n with pendingBits := l }

/-- The commands that may change a byte of stacked memory: they put, restore or promote tensor data, assign or copy frames,
commit results, land repairs, or reset the device (R41, R324, R382, R441, R583). -/
def mayWriteMemory : Instr → Bool
  | .putTensor _ | .stage _ | .loadPlanComplete _ | .snapshotVote _ _ _ | .snapshotDecision _ _ | .havenUnitReceive _
  | .havenBind _ | .takeoverSubstitution _ | .takeoverRequestReceive _ | .keySlotFreed _ | .tideBoundary | .ebbStart
  | .classPCommit _ | .repairLands _ _ _ | .promotionStart _ _ | .promotionDone _ | .promotionReadFail _ _
  | .settlementDone _ | .refclkReturn | .powerOnReset | .deviceReset _ | .activateFirmware => true
  | _ => false

end Sys2Proof.Machine
end

