-- ==== Sys2Proof/Certificates/Slice0/Obligations.lean ====
section
/-! DEFINITION. The statements for the provers. -/

open Sys2Proof Sys2Proof.Machine

/-- For every command c, state s and rest: a step with c in front of rest is exec of c with rest as the queue. On an empty
queue a step runs one cycle of the arbiters (the model's choice, logs 1 and 49): it changes only arbiters and turns of
the mesh, and nothing while the device is out of service. (INDEX) -/
def Obligations.StepTakesTheFront : Prop :=
  ∀ (c : Instr) (rest : List Instr) (s : State),
    step { s with pending := c :: rest } = exec c { s with pending := rest } ∧
    ∃ t, step { s with pending := [] } = .next t ∧ t.pending = [] ∧
      t.dev = { s.dev with arbs := t.dev.arbs, meshTurns := t.dev.meshTurns } ∧
      (s.dev.sys.service ≠ .neap → s.dev.sys.service ≠ .spring → t.dev = s.dev)

/-- For every command i and states s, t: if exec i s answers next t then t has the queue of s (the queue is the model's
own, log 1). (INDEX) -/
def Obligations.ExecKeepsTheQueue : Prop :=
  ∀ (i : Instr) (s t : State), exec i s = .next t → t.pending = s.pending

/-- In every state whose T1 memory is in canonical form (addresses strictly rising, no zero byte listed), a step that
answers a next state keeps that form. The form is the model's own; that a byte nothing has written reads zero is R406
and R412. (R406, R412) -/
def Obligations.StepKeepsMemoryForm : Prop :=
  ∀ s t : State, s.memoryOk → step s = .next t → t.memoryOk

/-- At State.reset: memory is in canonical form and every byte reads zero; the device is in its reset state with no
command waiting; the tide timer is stopped; every queue is disabled, every context CLOSED, every fence value 0,
PENDING with code 0, no plan is loaded and no run stands; the set-up lock is open; every function is unpolled; S_SHARE
of every arbiter is 15; MG_I3C is 0x4C with its enable set; ERR_SUMMARY is 0. Zero for a fence's value before a
context opens it is the model's choice (log 2). (R55, R583, R584, R390, R638) -/
def Obligations.ResetState : Prop :=
  State.reset.memoryOk ∧ (∀ a, Mem.read State.reset.dev.mem a = 0) ∧ State.reset.pending = [] ∧
    State.reset.dev.sys.service = .reset ∧ State.reset.dev.tideRunning = false ∧
    (∀ q, (State.reset.dev.queue q).enable = false) ∧ (∀ c, (State.reset.dev.ctx c).state = .closed) ∧
    (∀ f, (State.reset.dev.fence f).value = 0 ∧ (State.reset.dev.fence f).state = .pending ∧ (State.reset.dev.fence f).code = 0) ∧
    (∀ p, (State.reset.dev.plan p).loaded = false) ∧ State.reset.dev.runs = [] ∧ State.reset.dev.sys.setupLock = false ∧
    (∀ n, (State.reset.dev.fn n).pollEnable = false) ∧ (∀ u, (State.reset.dev.arb u).sShare = 15) ∧
    State.reset.dev.mgmt.staticAddr = 0x4C ∧ State.reset.dev.mgmt.i3cEnable = true ∧ State.reset.dev.errors.summary = 0

/-- In every state with the set-up lock set: a step of any command but a reset (POWER_ON_RESET, DEVICE_RESET, or an
ACTIVATE_FIRMWARE that leaves recovery by a reset) leaves every RWL field of R630 as it was, the lock included; a
register write to an RWL field while the registers answer sets ERR_SUMMARY.lock_write; and measurement block 30 is the
digest of those fields. (R630) -/
def Obligations.LockedFieldsStay : Prop :=
  (∀ (c : Instr) (rest : List Instr) (s t : State), s.pending = c :: rest → s.dev.sys.setupLock = true →
      c ≠ .powerOnReset → (∀ k, c ≠ .deviceReset k) → (c = .activateFirmware → s.dev.sys.service ≠ .recovery) →
      step s = .next t → t.dev.sys.setupLock = true ∧ t.dev.lockedWords = s.dev.lockedWords) ∧
    (∀ (s : State) (off : Nat) (v : W64), s.dev.sys.setupLock = true → s.dev.regsUp = true →
      (off ∈ [0x1004, 0x1800, 0x1804, 0x1820, 0x1824, 0x1828, 0x182C, 0x60800, 0x60804] ∨
        (off = 0x50010 ∧ arbExists s.dev.sys.sel0.arb)) →
      Answers (.registerWrite 0 off 4 v) s fun t => bitOf t.dev.errors.summary.toNat 10 = true ∧
        t.dev.lockedWords = s.dev.lockedWords) ∧
    (∀ d : Dev, d.sys.setupLock = true → d.measure 30 = Config.sha512 (d.lockedWords.flatMap (bytesOfNat 4)))

/-- For every command i that mayWriteMemory does not name and all states s, t: if exec i s answers next t, then every byte
of T1 memory reads in t as in s. The commands it names put or restore tensor data, assign or copy frames, commit
results, land repairs, or reset the device. (R27, R41, R324, R382, R441) -/
def Obligations.OnlyTheseWriteMemory : Prop :=
  ∀ (i : Instr) (s t : State), mayWriteMemory i = false → exec i s = .next t → SameMemory s t

/-- For every device, queue and command: ending the command with success or with a code changes of another queue only the
evaluated waits of its head, no fence but the one it signals, of a RUN_PLAN under way only the codes it carries, of a
context only CTX_STALE, of a function only its MSI-X pending bits, and beside these only the error state and the
outputs. (R315, R353, R354, R356) -/
def Obligations.EndingTouchesOnlyItsOwn : Prop :=
  ∀ (d : Dev) (q : Nat) (c : Cmd) (ws : List W32) (es : List CodeEntry) (code : Nat) (ix : Option Nat),
    EndsOnly q c.signal d (d.succeed q c ws es) ∧ EndsOnly q c.signal d (d.failCmd q c code ix ws)

/-- A command without result ends with success on a queue that has completion space and none waiting, through a function
that writes, its context not over quota, its signal (if any) no leap: the header of R315 with broken 0, no code, the
phase of R317, cmd_head, the fence slot and value and the tide is written at ring base + 64 x (unit mod ring units),
and the queue's count of completion units rises by one. (R315, R317, R318) -/
def Obligations.CompletionIsPosted : Prop :=
  ∀ (d : Dev) (q : Nat) (c : Cmd), d.muted c = false → (d.queue q).waitCpl = [] → 1 ≤ (d.queue q).freeUnits →
    d.fnWrites (d.queue q).function.toNat = true →
    (∀ k, d.ctxOfTag c.context = some k → (d.ctx k).overQuota = false) →
    (∀ f, c.signal = some f → signalRead (d.fence f).value c.signalValue ≠ .leap) →
    let n := (d.queue q).cplUnits
    let u := ringUnits (d.queue q).cplLog2
    Out.hostWrite (d.queue q).function.toNat (((d.queue q).cpl.toNat + 64 * (n % u)) % 18446744073709551616)
      ([BitVec.ofNat 32 (c.opcode + 256 * c.format + 8192 * boolNat c.signal.isSome + 65536 * c.context), c.cmdId,
        BitVec.ofNat 32 (q + 2147483648 * ((n / u + 1) % 2)), BitVec.ofNat 32 c.head, BitVec.ofNat 32 c.signalSlot,
        c.signalValue, BitVec.ofNat 32 d.tideLow] ++ List.replicate 9 0) ∈ (d.succeed q c).out ∧
    ((d.succeed q c).queue q).cplUnits = n + 1

/-- The completion of the chapter's RUN_PLAN of queue 37 at completion unit 160 of a 64-unit ring (context 0x0012, F2,
cmd_id 0xA7, cmd_head 322, fence 901, value 7, tide 57104) has the sixteen words the chapter gives. (R315, R317) -/
def Obligations.WorkedCompletionHeader : Prop :=
  ∀ c : Cmd, c.opcode = 0x32 → c.format = 2 → c.context = 0x12 → c.cmdId = 0xA7 → c.signal = some 901 → c.head = 322 →
    c.signalSlot = 901 → c.signalValue = 7 →
    completionHeader 37 160 64 { cmd := c, broken := false, codes := [], tide := 57104, result := [] } =
      [0x00122232, 0x000000A7, 0x80000025, 0x00000142, 0x00000385, 0x00000007, 0x0000DF10, 0, 0, 0, 0, 0, 0, 0, 0, 0]

/-- For every fence f of value V and signal s, with dist = (s - V) mod 2^32. At 0: the fence keeps value and code, a
PENDING one becomes SIGNALLED and any other is unchanged, and no stale count rises. From 1 to 2^31 - 1: the value
becomes s, the state SIGNALLED and the code 0. From 2^31 to 3 x 2^30 - 1: the value stays and a fence not BROKEN
becomes BROKEN with FENCE_LEAP. From there on: every fence is unchanged and CTX_STALE of the fence's context rises by
one, up to its maximum. (R352) -/
def Obligations.SignalByDistance : Prop :=
  ∀ (d : Dev) (f : Nat) (s : W32) (ctx q : Nat),
    let x := d.fence f
    let y := (d.signalFence f s ctx q).1.fence f
    let dist := (s.toNat + 4294967296 - x.value.toNat) % 4294967296
    (dist = 0 → (d.signalFence f s ctx q).1.ctxs = d.ctxs ∧ y.value = x.value ∧ y.code = x.code ∧
      (x.state = .pending → y.state = .signalled) ∧ (x.state ≠ .pending → y = x)) ∧
    (0 < dist → dist < 2147483648 → y.value = s ∧ y.state = .signalled ∧ y.code = 0) ∧
    (2147483648 ≤ dist → dist < 3221225472 → y.value = x.value ∧ y.state = .broken ∧
      (x.state ≠ .broken → y.code = Code.fenceLeap)) ∧
    (3221225472 ≤ dist → (d.signalFence f s ctx q).1.fences = d.fences ∧
      ∀ c, d.ctxOfFence f = some c → ((d.signalFence f s ctx q).1.ctx c).stale = satAt 0xFFFFFFFF ((d.ctx c).stale + 1)) ∧
    (∀ g, g ≠ f → (d.signalFence f s ctx q).1.fence g = d.fence g)

/-- Breaking a fence that is BROKEN changes nothing at all. Breaking any other sets it BROKEN with the code and origin
given and keeps its value. A signal of a BROKEN fence leaves it BROKEN with its code and origin unless it is ahead,
and then the value is the signal's, the state SIGNALLED and the code 0. (R354, R355) -/
def Obligations.FirstBreakStands : Prop :=
  ∀ (d : Dev) (f : Nat) (b : FenceBreak) (s : W32),
    ((d.fence f).state = .broken → d.breakFence f b = d) ∧
    ((d.fence f).state ≠ .broken → ((d.breakFence f b).fence f).state = .broken ∧
      ((d.breakFence f b).fence f).code = b.code ∧ ((d.breakFence f b).fence f).originSlot = b.originSlot ∧
      ((d.breakFence f b).fence f).originCode = b.originCode ∧
      ((d.breakFence f b).fence f).value = (d.fence f).value) ∧
    ((d.fence f).state = .broken → signalRead (d.fence f).value s ≠ .ahead →
      (d.signalFence f s).1.fence f = d.fence f) ∧
    ((d.fence f).state = .broken → signalRead (d.fence f).value s = .ahead →
      ((d.signalFence f s).1.fence f).value = s ∧ ((d.signalFence f s).1.fence f).state = .signalled ∧
      ((d.signalFence f s).1.fence f).code = 0)

/-- A wait for w is met exactly when the fence is not BROKEN and (V - w) mod 2^32 is below 2^31; a command's waits read
broken at the first wait entry whose fence is BROKEN, else met exactly when all are met. Evaluating a command's waits
drops exactly those met while none is broken, keeps a broken one for good, and a break already found is what its waits
read from then on. (R353, R354, R355) -/
def Obligations.WaitsBySerialNumber : Prop :=
  (∀ (x : Fence) (w : W32), x.meets w = true ↔
      x.state ≠ .broken ∧ (x.value.toNat + 4294967296 - w.toNat) % 4294967296 < 2147483648) ∧
    (∀ (d : Dev) (ws : List (Nat × Nat × W32)),
      (d.waitState ws = .met ↔ ∀ w ∈ ws, (d.fence w.2.1).meets w.2.2 = true) ∧
      (∀ a w b, ws = a ++ w :: b → (∀ v ∈ a, (d.fence v.2.1).state ≠ .broken) → (d.fence w.2.1).state = .broken →
        d.waitState ws = .broken w.2.1 (d.fence w.2.1).originCode)) ∧
    (∀ (d : Dev) (c : Cmd),
      (∀ u, c.upstream = some u → d.evalWaits c = c ∧ d.cmdWaits c = .broken u.1 u.2) ∧
      (c.upstream = none → d.cmdWaits c = d.waitState c.waits) ∧
      (∀ u o, c.upstream = none → d.waitState c.waits = .broken u o → (d.evalWaits c).upstream = some (u, o)) ∧
      (c.upstream = none → (∀ u o, d.waitState c.waits ≠ .broken u o) →
        d.evalWaits c = { c with waits := c.waits.filter fun w => !(d.fence w.2.1).meets w.2.2 }))

/-- A FENCE_SIGNAL or FENCE_WAIT that stands ready at the head of queue q, names fence f of its queue's context and a
value ahead of the fence's: the command completes, fence f holds the value, is SIGNALLED with code 0, and nothing
changes but what ending a command changes. (R327, R311, R352) -/
def Obligations.FenceCommandsSignal : Prop :=
  ∀ (s : State) (q f ctx k : Nat) (c : Cmd) (i : Instr) (op : Nat),
    (i = .fenceSignal q ∧ op = Op.fenceSignal) ∨ (i = .fenceWait q ∧ op = Op.fenceWait) →
    HeadReady s q op (fun _ => true) c ctx → c.signal = some f →
    s.dev.ctxOfTag (s.dev.queue q).context.toNat = some k → s.dev.ownsFence k f = true →
    signalRead (s.dev.fence f).value c.signalValue = .ahead →
    Answers i s fun t => (t.dev.fence f).value = c.signalValue ∧ (t.dev.fence f).state = .signalled ∧
      (t.dev.fence f).code = 0 ∧ EndsOnly q (some f) s.dev t.dev ∧ SameMemory s t

/-- The first fetched FENCE_WAIT of queue q whose limit has passed with its waits unmet, naming fence f of its context,
not BROKEN: f becomes BROKEN with FENCE_TIMEOUT and keeps its value. If one of its waits is broken instead, f breaks
with UPSTREAM_ERROR and takes the upstream slot and origin code. (R327, R364) -/
def Obligations.FenceWaitTimesOut : Prop :=
  ∀ (s : State) (q f k : Nat) (c : Cmd),
    (s.dev.queue q).fetched.find? (fun c => c.timedOut && s.dev.cmdWaits c != .met) = some c →
    c.signal = some f → s.dev.ctxOfTag (s.dev.queue q).context.toNat = some k → s.dev.ownsFence k f = true →
    (s.dev.fence f).state ≠ .broken →
    (s.dev.cmdWaits c = .unmet → Answers (.fenceWaitTimeout q) s fun t =>
      (t.dev.fence f).state = .broken ∧ (t.dev.fence f).code = Code.fenceTimeout ∧
      (t.dev.fence f).value = (s.dev.fence f).value ∧ EndsOnly q (some f) s.dev t.dev) ∧
    (∀ u o, s.dev.cmdWaits c = .broken u o → Answers (.fenceWaitTimeout q) s fun t =>
      (t.dev.fence f).state = .broken ∧ (t.dev.fence f).code = Code.upstreamError ∧
      (t.dev.fence f).originSlot = u ∧ (t.dev.fence f).originCode = o ∧ EndsOnly q (some f) s.dev t.dev)

/-- ALL_QUEUE_SUMMARY_POLL (classes N, B and S) and CLASS_P_SUMMARY_POLL (class P) of a function that polls, whose summary
shows one bit, of an enabled, unhalted queue of that function and kind with no completion waiting, the Swap returning
no bit: the word is swapped; if the tail read does not fall and does not lead the consumed count by more than the
ring, the queue takes tail and cpl_head and nothing else changes; otherwise the queue halts with DESC_MALFORMED. Where
the Swap of the all-queue summary returns the bit, the tail read again is the one taken. (R302, R303, R304, R306) -/
def Obligations.PollTakesTails : Prop :=
  ∀ (s : State) (fn bit : Nat) (classP : Bool) (b : DoorbellRead) (words : List SummaryWord),
    b.queue < 4096 → words.length ≤ (if classP then 8 else 64) → summaryBits (words.map SummaryWord.plain) = [bit] →
    s.dev.bellQueue fn classP bit = some b.queue → s.dev.serving = true → s.dev.fnExists fn = true → s.dev.inD3hot fn = false →
    (s.dev.fn fn).pollEnable = true → (s.dev.queue b.queue).enable = true → (s.dev.queue b.queue).halted = false →
    (s.dev.queue b.queue).function.toNat = fn → ((s.dev.queue b.queue).cls.toNat == 2) = classP →
    (s.dev.queue b.queue).waitCpl = [] →
    let poll (again : List DoorbellRead) : Instr :=
      if classP then .classPSummaryPoll fn ⟨words, [b], again⟩ else .allQueueSummaryPoll fn ⟨words, [b], again⟩
    let swap := Out.hostSwap fn ((s.dev.summaryAddr fn classP + 8 * (bit / 64)) % 18446744073709551616)
    let returned := summaryBits (words.map fun w => if w.plain = 0 then 0 else w.swapped)
    (returned = [] → (s.dev.queue b.queue).tail ≤ b.tail →
      b.tail ≤ (s.dev.queue b.queue).consumed + ringUnits (s.dev.queue b.queue).ringLog2 →
      Answers (poll []) s fun t => t.dev = { s.dev with queues := t.dev.queues, out := s.dev.out ++ [swap] } ∧
        t.dev.queue b.queue = { s.dev.queue b.queue with tail := b.tail, cplHead := b.cplHead } ∧
        ∀ n, n ≠ b.queue → t.dev.queue n = s.dev.queue n) ∧
    (∀ b' : DoorbellRead, classP = false → returned = [bit] → b'.queue = b.queue → (s.dev.queue b.queue).tail ≤ b.tail →
      b.tail ≤ b'.tail → b'.tail ≤ (s.dev.queue b.queue).consumed + ringUnits (s.dev.queue b.queue).ringLog2 →
      Answers (poll [b']) s fun t =>
        t.dev.queue b.queue = { s.dev.queue b.queue with tail := b'.tail, cplHead := b'.cplHead }) ∧
    (returned = [] → b.tail < (s.dev.queue b.queue).tail ∨
        (s.dev.queue b.queue).consumed + ringUnits (s.dev.queue b.queue).ringLog2 < b.tail →
      Answers (poll []) s fun t => (t.dev.queue b.queue).halted = true ∧
        (t.dev.queue b.queue).code = BitVec.ofNat 16 Code.descMalformed ∧ bitOf t.dev.errors.summary.toNat 0 = true)

/-- SUMMARY_SWAP_FAIL of a polling function clears its poll enable, sets atomic_fail and ERR_SUMMARY bit 1, and changes
only functions, error state and outputs. COMPLETION_SPACE_FREED of a queue with one waiting completion that now fits
writes it: none waits any longer and the completion units rise by its size; with none waiting only cpl_head changes.
QUEUE_DISABLE of an enabled queue that no interface freezes clears enable, drops every fetched command, and breaks the
fence of each that it may change. (R307, R318, R331) -/
def Obligations.QueueEventsTakeEffect : Prop :=
  (∀ (s : State) (fn : Nat), s.dev.fnExists fn = true → (s.dev.fn fn).pollEnable = true →
      Answers (.summarySwapFail fn) s fun t => (t.dev.fn fn).pollEnable = false ∧ (t.dev.fn fn).atomicFail = true ∧
        bitOf t.dev.errors.summary.toNat 1 = true ∧
        t.dev = { s.dev with fns := t.dev.fns, errors := t.dev.errors, out := t.dev.out }) ∧
    (∀ (s : State) (q head : Nat) (c : Completion), q < 4096 → s.dev.inD3hot (s.dev.queue q).function.toNat = false →
      ((s.dev.queue q).waitCpl = [] → Answers (.completionSpaceFreed q head) s fun t =>
        t.dev = { s.dev with queues := t.dev.queues } ∧ t.dev.queue q = { s.dev.queue q with cplHead := head }) ∧
      ((s.dev.queue q).waitCpl = [c] →
        1 + (unitsOf c.result).length ≤ { s.dev.queue q with cplHead := head : Queue }.freeUnits →
        Answers (.completionSpaceFreed q head) s fun t => (t.dev.queue q).waitCpl = [] ∧
          (t.dev.queue q).cplUnits = (s.dev.queue q).cplUnits + 1 + (unitsOf c.result).length)) ∧
    (∀ (s : State) (fn : Nat), fn < 2 → s.dev.regsUp = true → s.dev.fnExists fn = true →
      let q := (s.dev.sys.sel fn).queue
      (s.dev.queue q).enable = true → (fn = 1 → (s.dev.queue q).function.toNat = 1) →
      s.dev.frozenFn (s.dev.queue q).function.toNat = false →
      Answers (.queueDisable fn) s fun t => (t.dev.queue q).enable = false ∧ (t.dev.queue q).fetched = [] ∧
        (t.dev.queue q).chain = none ∧
        ∀ c ∈ (s.dev.queue q).fetched, ∀ f k, c.signal = some f →
          s.dev.ctxOfTag (s.dev.queue q).context.toNat = some k → s.dev.ownsFence k f = true →
          (t.dev.fence f).state = .broken)

/-- QUEUE_ENABLE through PF0 or PF1 of a disabled queue that the function may set up: if the entry passes the checks, the
queue is enabled, not halted, with tail, consumed and completion counts 0 and nothing waiting, its other fields and
every other queue unchanged; if a check fails, enable stays 0, cfg_reject is set and the code is the one the check
gives. (R291, R300, R303) -/
def Obligations.QueueEnableStartsFresh : Prop :=
  ∀ (s : State) (fn : Nat), fn < 2 → s.dev.regsUp = true → s.dev.fnExists fn = true →
    let q := (s.dev.sys.sel fn).queue
    (s.dev.queue q).enable = false → s.dev.entryLocked fn q true = false → (fn = 1 → (s.dev.queue q).function.toNat = 1) →
    (s.dev.enableCheck q = none → Answers (.queueEnable fn) s fun t =>
      t.dev.queue q = { s.dev.queue q with enable := true, halted := false, tail := 0, consumed := 0, cplHead := 0,
                                           cplUnits := 0, reserved := 0, waitCpl := [] } ∧
      (∀ n, n ≠ q → t.dev.queue n = s.dev.queue n) ∧ t.dev = { s.dev with queues := t.dev.queues, fns := t.dev.fns }) ∧
    (∀ e, s.dev.enableCheck q = some e → Answers (.queueEnable fn) s fun t =>
      t.dev.queue q = { s.dev.queue q with cfgReject := true, code := BitVec.ofNat 16 e } ∧
      (∀ n, n ≠ q → t.dev.queue n = s.dev.queue n) ∧ t.dev = { s.dev with queues := t.dev.queues })

/-- A queue that may fetch has a whole packet below its tail, with completion space free, no chain open and no chain
begun: if the header form holds and no check of decode fails, the command joins the end of the queue's fetched
commands with its units consumed and its completion space reserved, its context the queue's own (or, on class S, the
header's). If a check fails with code e, the command ends with e instead. (R309, R313, R318, R656) -/
def Obligations.DecodeQueuesTheCommand : Prop :=
  ∀ (s : State) (q : Nat) (w : List W32),
    let x := s.dev.queue q
    let p := parsePacket w
    let units := 1 + p.payloadUnits
    let need := 1 + p.resultUnits
    let fn := x.function.toNat
    let h : Cmd := { p with head := x.consumed + units, seq := x.nextSeq, fn := fn, era := (s.dev.fn fn).era }
    let c : Cmd := if x.cls.toNat = 3 then h else { h with context := x.context.toNat }
    let d := s.dev.modQueue q fun x =>
      { x with consumed := x.consumed + units, nextSeq := x.nextSeq + 1, reserved := x.reserved + need }
    q < 4096 → s.dev.serving = true → x.enable = true → x.halted = false → s.dev.inD3hot x.function.toNat = false →
    16 ≤ w.length → p.payloadUnits ≤ ringUnits x.ringLog2 → w.length = 16 * units → x.consumed + units ≤ x.tail →
    x.chain = none → x.reserved + need ≤ x.freeUnits → headerForm (d.queue q) w h = none → p.chain = false →
    ((d.closedTo c).or (d.decodeChecks (d.queue q) c) = none → Answers (.commandDecode q w) s fun t =>
      (t.dev.queue q).fetched = x.fetched ++ [c] ∧ (t.dev.queue q).consumed = x.consumed + units ∧
      (t.dev.queue q).reserved = x.reserved + need ∧ SameMemory s t) ∧
    (∀ e, (d.closedTo c).or (d.decodeChecks (d.queue q) c) = some e →
      Answers (.commandDecode q w) s fun t => t.dev = (d.failCmd q c e).promoteDue)

/-- With the registers answering, the selected slot CLOSED and its fields passing the checks: CONTEXT_OPEN leaves the slot
OPEN with CTX_STALE and both uses 0, every mapping-table entry of its window invalid, every fence of its range value
0, PENDING, code 0, every entry outside the window and every other context as before. A slot not CLOSED is left as it
is but for cfg_reject. (R338, R339) -/
def Obligations.ContextOpens : Prop :=
  ∀ s : State, s.dev.regsUp = true →
    let c := s.dev.sys.sel0.ctx
    let x := s.dev.ctx c
    let inWindow (e : Nat) : Prop := x.mapBase.toNat * 512 ≤ e ∧ e < (x.mapBase.toNat + x.mapCount.toNat) * 512
    (x.state = .closed → s.dev.openCheck c = none → Answers .contextOpen s fun t =>
      (t.dev.ctx c).state = .opened ∧ (t.dev.ctx c).tag = x.tag ∧ (t.dev.ctx c).stale = 0 ∧ (t.dev.ctx c).useT1 = 0 ∧
      (t.dev.ctx c).useT2 = 0 ∧ (∀ e, inWindow e → t.dev.mapEntry e = {}) ∧
      (∀ e, ¬ inWindow e → t.dev.mapEntry e = s.dev.mapEntry e) ∧
      (∀ f ∈ x.fenceSlots, (t.dev.fence f).value = 0 ∧ (t.dev.fence f).state = .pending ∧ (t.dev.fence f).code = 0) ∧
      (∀ n, n ≠ c → t.dev.ctx n = s.dev.ctx n) ∧ SameMemory s t) ∧
    (x.state ≠ .closed → Answers .contextOpen s fun t => t.dev.ctx c = { x with cfgReject := true } ∧
      (∀ n, n ≠ c → t.dev.ctx n = s.dev.ctx n) ∧ t.dev = { s.dev with ctxs := t.dev.ctxs })

/-- With the registers answering and the selected slot neither CLOSED nor CLOSING (and, for slot 0, no other context
open): CONTEXT_CLOSE sets the slot CLOSING and every queue bound to its tag stands disabled with nothing fetched.
Otherwise the slot only gets cfg_reject. (R340) -/
def Obligations.ContextCloses : Prop :=
  ∀ s : State, s.dev.regsUp = true →
    let c := s.dev.sys.sel0.ctx
    let x := s.dev.ctx c
    let closes : Prop := x.state ≠ .closed ∧ x.state ≠ .closing ∧ (c = 0 → ∀ n ∈ s.dev.openCtxs, n = 0)
    (closes → Answers .contextClose s fun t => (t.dev.ctx c).state = .closing ∧ (t.dev.ctx c).tag = x.tag ∧
      (∀ q, (s.dev.queue q).enable = true → (s.dev.queue q).context = x.tag →
        (t.dev.queue q).enable = false ∧ (t.dev.queue q).fetched = []) ∧ SameMemory s t) ∧
    (¬ closes → Answers .contextClose s fun t => t.dev.ctx c = { x with cfgReject := true } ∧
      t.dev = { s.dev with ctxs := t.dev.ctxs })

/-- A MAP_PAGES ready at the head of its queue: if every entry passes, every page of every entry has a valid entry
afterwards; if one fails, the mapping table is unchanged. An UNMAP_PAGES ready at the head: if every entry passes, the
context's epoch rises by one and every named page's entry is dead as of the new epoch; if one fails, table and epoch
are unchanged. Memory is unchanged by either. (R344, R346, R347) -/
def Obligations.MappingAllOrNothing : Prop :=
  (∀ (s : State) (q ctx : Nat) (c : Cmd), HeadReady s q Op.mapPages (fun _ => true) c ctx →
      let reqs := (wordGroups 8 c.payload).map readMapReq
      (∀ l, (begun s q ctx c).1.mapAll ctx 0 reqs [] = .ok l → Answers (.mapPages q) s fun t =>
        (∀ r ∈ reqs, ∀ i, i < r.count → ∃ e, (s.dev.ctx ctx).entryOf (r.va / frameBytes + i) = some e ∧
          (t.dev.mapEntry e).valid = true) ∧ SameMemory s t) ∧
      (∀ e i, (begun s q ctx c).1.mapAll ctx 0 reqs [] = .error (e, i) →
        Answers (.mapPages q) s fun t => t.dev.maps = s.dev.maps ∧ EndsOnly q c.signal s.dev t.dev)) ∧
    (∀ (s : State) (q ctx : Nat) (c : Cmd), HeadReady s q Op.unmapPages (fun _ => true) c ctx →
      (∀ ps, (begun s q ctx c).1.unmapAll ctx 0 (wordGroups 4 c.payload) [] = .ok ps → Answers (.unmapPages q) s fun t =>
        (t.dev.ctx ctx).epoch = (s.dev.ctx ctx).epoch + 1 ∧
        (∀ p ∈ ps, ∃ e, (s.dev.ctx ctx).entryOf p = some e ∧ (t.dev.mapEntry e).dead = some ((s.dev.ctx ctx).epoch + 1)) ∧
        SameMemory s t) ∧
      (∀ i, (begun s q ctx c).1.unmapAll ctx 0 (wordGroups 4 c.payload) [] = .error i →
        Answers (.unmapPages q) s fun t => t.dev.maps = s.dev.maps ∧ EndsOnly q c.signal s.dev t.dev))

/-- PAGE_INVALIDATE of a dead entry whose epoch no begun command of the context precedes leaves the entry invalid; while
one does, nothing changes. QUOTA_SET ready at the head of its queue sets both quotas of a context but slot 0 to the
operands, and over_quota exactly when a use exceeds its quota; those of slot 0, which holds none, stay.
QUOTA_GRACE_EXPIRY at an ebb from t0 + g on: with T1 use within quota the grace ends and nothing else changes; above
it, the grace is marked passed. (R334, R348, R358, R360, R361) -/
def Obligations.PagesLeaveAndQuotasChange : Prop :=
  (∀ (s : State) (e ep c : Nat), e < 2097152 → (s.dev.mapEntry e).dead = some ep → s.dev.ctxOfEntry e = some c →
      (s.dev.epochRetired c ep = true → Answers (.pageInvalidate e) s fun t => t.dev.mapEntry e = {} ∧ SameMemory s t) ∧
      (s.dev.epochRetired c ep = false → AnswersDev (.pageInvalidate e) s s.dev)) ∧
    (∀ (s : State) (q ctx : Nat) (c : Cmd), HeadReady s q Op.quotaSet (fun _ => true) c ctx →
      Answers (.quotaSet q) s fun t =>
        (ctx ≠ 0 → (t.dev.ctx ctx).quotaT1 = BitVec.ofNat 21 (c.pf 0 0 21) ∧
          (t.dev.ctx ctx).quotaT2 = BitVec.ofNat 25 (c.pf 1 0 25) ∧
          ((t.dev.ctx ctx).overQuota = true ↔
            c.pf 0 0 21 < (s.dev.ctx ctx).useT1 ∨ c.pf 1 0 25 < (s.dev.ctx ctx).useT2)) ∧
        (ctx = 0 → (t.dev.ctx 0).quotaT1 = (s.dev.ctx 0).quotaT1 ∧ (t.dev.ctx 0).quotaT2 = (s.dev.ctx 0).quotaT2) ∧
        (∀ n, n ≠ ctx → (t.dev.ctx n).quotaT1 = (s.dev.ctx n).quotaT1) ∧ SameMemory s t) ∧
    (∀ (s : State) (c t0 g : Nat), c < 4096 → (s.dev.ctx c).grace = some (t0, g, false) → s.dev.tide.phase = .ebb →
      t0 + g ≤ s.dev.tide.number → (s.dev.ctx c).state.isOpen = true →
      ((s.dev.ctx c).useT1 ≤ (s.dev.ctx c).quotaT1.toNat →
        AnswersDev (.quotaGraceExpiry c) s (s.dev.modCtx c fun x => { x with grace := none })) ∧
      ((s.dev.ctx c).quotaT1.toNat < (s.dev.ctx c).useT1 → s.dev.copiesByUse c = [] →
        AnswersDev (.quotaGraceExpiry c) s (s.dev.modCtx c fun x => { x with grace := some (t0, g, true) })))

/-- The eight E2M1 patterns with S clear have the magnitudes 0, 0.5, 1, 1.5, 2, 3, 4 and 6; with S set the value is the
negative of the magnitude. (R88) -/
def Obligations.E2M1Values : Prop :=
  ∀ p m : Nat, (p, m) ∈ [(0, 0), (1, 1), (2, 2), (3, 3), (4, 4), (5, 6), (6, 8), (7, 12)] →
    (∃ x, Fmt.decode Fmt.e2m1 p = .fin x ∧ x.eq { num := (m : Int), den := 2 } = true) ∧
    (∃ x, Fmt.decode Fmt.e2m1 (p + 8) = .fin x ∧ x.eq { num := -(m : Int), den := 2 } = true)

/-- For values a, b (fractions with positive denominators, infinities or NaN) and the predicates eq, ne, lt, le, gt, ge,
uo coded 0 to 6: with either operand NaN, uo alone is true. Otherwise uo is false and the others are as named in the
numeric order, minus infinity below every finite value and plus infinity above; zero of either sign is one value, 0.
(R117) -/
def Obligations.ComparePredicates : Prop :=
  (∀ (p : Nat) (a b : Val), a.isNan || b.isNan → comparePred p a b = (p == 6)) ∧
  (∀ a b : Frac, 0 < a.den → 0 < b.den →
    let x : Rat := (a.num : Rat) / (a.den : Rat)
    let y : Rat := (b.num : Rat) / (b.den : Rat)
    comparePred 0 (.fin a) (.fin b) = decide (x = y) ∧ comparePred 1 (.fin a) (.fin b) = decide (x ≠ y) ∧
    comparePred 2 (.fin a) (.fin b) = decide (x < y) ∧ comparePred 3 (.fin a) (.fin b) = decide (x ≤ y) ∧
    comparePred 4 (.fin a) (.fin b) = decide (y < x) ∧ comparePred 5 (.fin a) (.fin b) = decide (y ≤ x) ∧
    comparePred 6 (.fin a) (.fin b) = false) ∧
  (∀ (a : Frac) (v : Val), v = .fin a ∨ v = .inf false →
    [0, 1, 2, 3, 4, 5, 6].map (fun p => comparePred p (.inf true) v) = [false, true, true, true, false, false, false] ∧
    [0, 1, 2, 3, 4, 5, 6].map (fun p => comparePred p v (.inf true)) = [false, true, false, false, true, true, false]) ∧
  (∀ a : Frac,
    [0, 1, 2, 3, 4, 5, 6].map (fun p => comparePred p (.inf false) (.fin a)) = [false, true, false, false, true, true, false] ∧
    [0, 1, 2, 3, 4, 5, 6].map (fun p => comparePred p (.fin a) (.inf false)) = [false, true, true, true, false, false, false]) ∧
  (∀ n : Bool, [0, 1, 2, 3, 4, 5, 6].map (fun p => comparePred p (.inf n) (.inf n)) =
    [true, false, false, true, false, true, false]) ∧
  (∀ (f p q : Nat), f < 8 → p % 2 ^ (Fmt.width f - 1) = 0 → q % 2 ^ (Fmt.width f - 1) = 0 →
    comparePred 0 (Fmt.decode f p) (Fmt.decode f q) = true)

/-- For every magnitude x with positive denominator, rounded to a multiple of 1: nearest even leaves an error of at most a
half and takes the even multiple at exactly a half; toward zero takes the greatest multiple not above x; stochastic
takes that one or the next, the next exactly when the 16-bit draw u is below floor(r x 65,536), r being the fraction
left, so an exact value stays. (R104, R105, R106) -/
def Obligations.RoundingModes : Prop :=
  ∀ (x : Frac) (u : Nat), 0 ≤ x.num → 0 < x.den →
    let n := x.num.toNat
    let near := roundUnits 0 u x 0
    (2 * n ≤ 2 * near * x.den + x.den ∧ 2 * near * x.den ≤ 2 * n + x.den ∧
      (2 * n = 2 * near * x.den + x.den ∨ 2 * near * x.den = 2 * n + x.den → near % 2 = 0)) ∧
    (roundUnits 1 u x 0 * x.den ≤ n ∧ n < (roundUnits 1 u x 0 + 1) * x.den) ∧
    (roundUnits 2 u x 0 = roundUnits 1 u x 0 + (if u < (n % x.den) * 65536 / x.den then 1 else 0)) ∧
    (n % x.den = 0 → roundUnits 2 u x 0 * x.den = n)

/-- For INT8 and INT4, a rounded integer n (nearest even or stochastic, sign of x): with saturate the written pattern
reads n clamped to -128..127 or -8..7; with wrap it is n modulo 2^8 or 2^4 in two's complement. (R110) -/
def Obligations.IntegerOverflow : Prop :=
  ∀ (f u mode : Nat) (x : Frac), f = Fmt.int8 ∨ f = Fmt.int4 → mode ≠ 1 →
    let q := roundUnits mode u x.abs 0
    let n : Int := if x.isNeg then -(q : Int) else (q : Int)
    let w := Fmt.width f
    let lo : Int := if f = Fmt.int8 then -128 else -8
    let hi : Int := if f = Fmt.int8 then 127 else 7
    Fmt.decode f (Fmt.roundInt f { mode := mode, wrap := false } u x) = .ofInt (max lo (min hi n)) ∧
    (Fmt.roundInt f { mode := mode, wrap := true } u x : Int) = n % (2 ^ w : Nat)

/-- Every finite pattern of the 4-, 6- and 8-bit formats but the negative zeros, decoded and converted back in round to
nearest even, is itself. The chapter's E2M1 block 18.6, -2.2, -0.02 (after the coarse scale) is written with fine code
2 as 0x6, 0x9, 0x0; under stochastic rounding the first is 0x7 for the draw 21,298 and 0x6 for 21,299. The chapter's
contraction block leaves 271 x 2^90 units of its anchor -94 with no bit lost, and 25.40625 written to BF16 is 0x41CB.
(R87, R103, R106, R113, R136) -/
def Obligations.WorkedNumbers : Prop :=
  (∀ f ∈ [Fmt.e2m1, Fmt.e3m2, Fmt.e2m3, Fmt.e4m3, Fmt.e5m2, Fmt.int8, Fmt.int4], ∀ p < 2 ^ Fmt.width f,
    (Fmt.decode f p).isFin = true → (Fmt.isInt f = true ∨ p ≠ 2 ^ (Fmt.width f - 1)) →
    Fmt.encode f {} 0 (Fmt.decode f p) = (p, false)) ∧
  Fmt.convertBlock Fmt.e2m1 {} [(.fin { num := 186, den := 10 }, 0), (.fin { num := -22, den := 10 }, 0),
    (.fin { num := -2, den := 100 }, 0)] = { patterns := [6, 9, 0], fine := 2, bad := [] } ∧
  (Fmt.convertBlock Fmt.e2m1 { mode := 2 } [(.fin { num := 186, den := 10 }, 21298)]).patterns = [7] ∧
  (Fmt.convertBlock Fmt.e2m1 { mode := 2 } [(.fin { num := 186, den := 10 }, 21299)]).patterns = [6] ∧
  (({ anchor := -94 : Esr }).addBlock 0x3D 2 true true 0
    [(Fmt.decode 3 0x5C, Fmt.decode 3 0x3C), (Fmt.decode 3 0xB4, Fmt.decode 3 0x48),
     (Fmt.decode 3 0x01, Fmt.decode 3 0x7E)]).1 = { anchor := -94, sig := 271 * 2 ^ 90 } ∧
  Fmt.encode Fmt.bf16 {} 0 (.fin { num := 2540625, den := 100000 }) = (0x41CB, false)

/-- Adding to a register without infinity a list of integers (units of its anchor) of which every running sum stays in
-2^239 to 2^239 - 1 leaves exactly the old significand plus their sum, with flags and anchor unchanged; so two orders
of one list that both stay in range leave the same register. A sum outside freezes the significand and sets the
infinity of its sign, and later additions change nothing. (R129, R134, R135, R136) -/
def Obligations.EsrSumsExactly : Prop :=
  (∀ (e : Esr) (l : List Int), e.isInf = false →
    (∀ k ≤ l.length, -(2 : Int) ^ 239 ≤ e.int + (l.take k).sum ∧ e.int + (l.take k).sum < (2 : Int) ^ 239) →
    l.foldl (fun x t => (x.addUnits t).1) e = { e with sig := BitVec.ofInt 240 (e.int + l.sum) } ∧
    (l.foldl (fun x t => (x.addUnits t).1) e).int = e.int + l.sum) ∧
  (∀ (e : Esr) (t : Int), e.isInf = false → e.int + t < -(2 : Int) ^ 239 ∨ (2 : Int) ^ 239 ≤ e.int + t →
    ((e.addUnits t).2 = true ∧ (e.addUnits t).1.sig = e.sig ∧ (e.addUnits t).1.isInf = true ∧
     ((e.addUnits t).1.posInf = true ∧ e.posInf = false ↔ 0 < t))) ∧
  (∀ (e : Esr) (t : Int), e.isInf = true → e.addUnits t = (e, false))

/-- For INT32 a, b: add, subtract and multiply give the exact result where it is in range, else its low 32 bits under wrap
and the nearer end under saturate. Division by zero faults with cause 2. Otherwise quotient and remainder satisfy a =
b x q + r with |r| < |b| and r zero or of a's sign, except -2^31 / -1, whose quotient is 2^31 - 1 under saturate and
-2^31 under wrap with remainder 0. shr is the floor of a / 2^(b mod 32). (R188, R189) -/
def Obligations.IntegerLanes : Prop :=
  ∀ (wrap : Bool) (a b : Int), int32Min ≤ a → a ≤ int32Max → int32Min ≤ b → b ≤ int32Max →
    (∀ c ∈ [(0x20, a + b), (0x21, a - b), (0x22, a * b)], ∃ v, intFn c.1 wrap a b = .ok v ∧ int32Min ≤ v ∧ v ≤ int32Max ∧
      (int32Min ≤ c.2 → c.2 ≤ int32Max → v = c.2) ∧ (wrap = true → (c.2 - v) % 4294967296 = 0) ∧
      (wrap = false → c.2 < int32Min → v = int32Min) ∧ (wrap = false → int32Max < c.2 → v = int32Max)) ∧
    (b = 0 → intFn 0x23 wrap a b = .error 2 ∧ intFn 0x24 wrap a b = .error 2) ∧
    (b ≠ 0 → ¬ (a = int32Min ∧ b = -1) → ∃ q r, intFn 0x23 wrap a b = .ok q ∧ intFn 0x24 wrap a b = .ok r ∧
      a = b * q + r ∧ r.natAbs < b.natAbs ∧ (r = 0 ∨ (r < 0 ↔ a < 0))) ∧
    (a = int32Min → b = -1 → intFn 0x23 wrap a b = .ok (if wrap then int32Min else int32Max) ∧ intFn 0x24 wrap a b = .ok 0) ∧
    intFn 0x2A wrap a b = .ok (Int.fdiv a (2 ^ (b % 32).toNat))

/-- Every operation row but collectives and constructs, where the operation may issue: if nothing it depends on was
skipped and its reads meet no bad granule or absent extent, its run becomes applyOut of evalOp (codes, output, slot,
region, draws) with the operation done; if something was, it is skipped and done and nothing else of the run changes.
Beside that run only the plan's record of last draws follows the streams drawn. Where an extent is not yet readable
the run only notes the last one and the operation waits; an operation that may not issue changes nothing (the model's
choice, log 16). (R145, R176, R213, R214, R238) -/
def Obligations.OperationsRun : Prop :=
  ∀ (i : Instr) (s : State) (run op opcode : Nat) (l : List Nat), plainOp i = some (run, op, opcode, l) →
    let r := s.dev.runOf run
    let becomes (r' : Run) : Dev := ({ s.dev with runs := s.dev.runs.put run r' } : Dev).noteDraws r'
    (∀ o, s.dev.canIssue run op opcode = some o → ReadsClear s.dev run op → dependsOnSkipped s.dev run op = false →
      AnswersDev i s (becomes (s.dev.applyOut r op o
        (evalOp (s.dev.plan r.plan) (s.dev.envOf r) o op (overlapping s.dev run op l) (.failed 0)) none))) ∧
    (∀ o, s.dev.canIssue run op opcode = some o → dependsOnSkipped s.dev run op = true →
      AnswersDev i s (becomes ((r.mark op).end op))) ∧
    (∀ o, s.dev.canIssue run op opcode = some o → dependsOnSkipped s.dev run op = false → s.dev.lateExtents r [op] ≠ [] →
      AnswersDev i s { s.dev with runs := s.dev.runs.put run { r with late := (s.dev.lateExtents r [op]).getLast? } }) ∧
    (s.dev.canIssue run op opcode = none → AnswersDev i s s.dev)

/-- Every collective row, where the operation may issue, its scales are valid and nothing it depends on was skipped. Not
issued, its reads clear, the result no failure, a destination without credit: it is issued and not done, its run keeps
its bytes, a credit leaves for each rank it takes data from, and the inputs for ranks without credit are noted to
wait. Issued and nothing of it waiting, or its result a failure: its run becomes applyOut of evalOp with that result;
with a failure the run's bytes stay and the operation counts as skipped. Issued with inputs still waiting: nothing
changes. Beside the run only the last draws, held egress, outputs, sent packets and contexts' counts change. (R40,
R61, R250, R251, R252, R490, R494) -/
def Obligations.CollectivesRun : Prop :=
  ∀ (i : Instr) (s : State) (run op opcode : Nat) (c : CollResult) (o : OpRec), collectiveOp i = some (run, op, opcode, c) →
    s.dev.canIssue run op opcode = some o → dependsOnSkipped s.dev run op = false →
    let r : Run := { s.dev.runOf run with id := run }
    let e := s.dev.envOf r
    let cc := s.dev.collNow r o c
    let x := (s.dev.collGroup r o).1
    let beside (t : State) : Prop :=
      (∀ n, n ≠ run → t.dev.runOf n = s.dev.runOf n) ∧
      t.dev = { s.dev with runs := t.dev.runs, plans := t.dev.plans, held := t.dev.held, out := t.dev.out
                           fabric := t.dev.fabric, ctxs := t.dev.ctxs }
    e.outputValid o.writes = true → e.scalesValid (if o.opcode = 0x0804 then [] else [o.collInput]) = true →
    (r.issued.contains op = true → (s.dev.collWaits r op o = false ∨ ∃ k a, cc = .failed k a) →
      Answers i s fun t =>
        t.dev.runOf run = s.dev.applyOut { r with toSend := r.toSend.filter fun y => y.1 != op } op o
          (evalOp (s.dev.plan r.plan) e o op [] cc) (some cc) ∧ beside t ∧
        (∀ k a, cc = .failed k a → (t.dev.runOf run).overlay = r.overlay ∧ op ∈ (t.dev.runOf run).skipped)) ∧
    (r.issued.contains op = true → s.dev.collWaits r op o = true → (∃ ins, cc = .delivered ins) → AnswersDev i s s.dev) ∧
    (r.issued.contains op = false → ReadsClear s.dev run op → (∃ ins, cc = .delivered ins) →
      (∃ k ∈ s.dev.collDests r o, s.dev.hasCredit r op o k = false) →
      Answers i s fun t => op ∈ (t.dev.runOf run).issued ∧ (t.dev.runOf run).overlay = r.overlay ∧
        (t.dev.runOf run).done = r.done ∧ beside t ∧
        (∀ k ∈ s.dev.collDests r o, s.dev.hasCredit r op o k = false → (op, k) ∈ (t.dev.runOf run).toSend) ∧
        ∀ k ∈ s.dev.collSources r o, Out.fabric (x.ranks.getD k 0) (.credit x.groupId r.step op) ∈ t.dev.out)

/-- C_BRANCH and C_LOOP where the construct may issue and the reads of the step's operations are clear: afterwards the
construct and every record of its arms or body count as done, the step still runs with the same number, and beside the
run only the plan's last draws, held egress, outputs, sent packets and contexts' counts change; every other run is as
before. (R206, R207, R208, R213) -/
def Obligations.ConstructsRun : Prop :=
  ∀ (i : Instr) (s : State) (run op opcode : Nat) (o : OpRec), constructOp i = some (run, op, opcode) →
    s.dev.canIssue run op opcode = some o → (∀ k < (opsOf s.dev run).length, ReadsClear s.dev run k) →
    Answers i s fun t => (∀ k, op ≤ k → k ≤ op + sumNat o.lengths → k ∈ (t.dev.runOf run).done) ∧
      (t.dev.runOf run).state = .running ∧ (t.dev.runOf run).step = (s.dev.runOf run).step ∧
      (∀ n, n ≠ run → t.dev.runOf n = s.dev.runOf n) ∧
      t.dev = { s.dev with runs := t.dev.runs, plans := t.dev.plans, held := t.dev.held, out := t.dev.out
                           fabric := t.dev.fabric, ctxs := t.dev.ctxs }

/-- With valid coarse scales of inputs and outputs: t.reshape gives element i of its input as element i; s.requant and
n.round give the input's exact values in order; g.gather with an index inside the extent gives the source at the
indexed position, and outside it 0 with a LANE_FAULT; m.prefetch and m.release give no value; s.getscale gives the
coarse scale as FP32; a collective that failed gives no result and its code, and is skipped. (R243, R245, R246, R249,
R251) -/
def Obligations.OperationResults : Prop :=
  ∀ (p : Plan) (e : OpEnv) (o : OpRec) (k : Nat) (l : List Nat) (c : CollResult), e.outputValid o.writes = true →
    (o.opcode = 0x0400 → e.scalesValid [o.tensorAt 3] = true → ∃ rs, (evalOp p e o k l c).results = some rs ∧
      rs.length = countOf (e.decl o.out).dims ∧
      ∀ i, i < rs.length → (rs.getD i { val := .zero }).val = (e.tensor (o.tensorAt 3)).exact.getD i .zero) ∧
    (o.opcode = 0x0500 ∨ o.opcode = 0x0601 → e.scalesValid [o.tensorAt 3] = true →
      (evalOp p e o k l c).results = some ((e.tensor (o.tensorAt 3)).exact.map fun v => { val := v })) ∧
    (o.opcode = 0x0300 → e.scalesValid [o.tensorAt 4, o.tensorAt 5] = true → ∃ rs, (evalOp p e o k l c).results = some rs ∧
      ∀ i, i < countOf (e.decl o.out).dims →
        let pos := unravel (e.decl o.out).dims i
        let x := e.tensor (o.tensorAt 4)
        let axis := o.f 3 0 3
        ∀ v, (e.tensor (o.tensorAt 5)).exact[pos.getD axis 0]? = some v →
          (∀ n, indexAt v (x.dims.getD axis 1) = .ok n →
            (rs.getD i { val := .zero }).val = x.exact.getD (ravel x.dims (pos.set axis n)) .zero) ∧
          (∀ n, indexAt v (x.dims.getD axis 1) = .error n → (rs.getD i { val := .zero }).val = .zero ∧
            ∃ y ∈ (evalOp p e o k l c).codes, y.code = Code.laneFault)) ∧
    (o.opcode = 0x0700 ∨ o.opcode = 0x0701 → evalOp p e o k l c = {}) ∧
    (o.opcode = 0x0502 → evalOp p e o k l c = { slot := some (.f32 (e.tensor (o.tensorAt 3)).coarse) }) ∧
    (∀ n a, o.isCollective = true → c = .failed n a → (evalOp p e o k l c).results = none ∧ (evalOp p e o k l c).skip = true)

/-- STEP_END of a run whose operations have all run, while the device serves, the run not spilled or of class P: the run
is ended with its results kept, TIDE_HOLDOVER added in holdover and TIDE_UNLOCKED, once, where the step has a
collective or falls on a snapshot candidate of its job (log entry 47) while unlocked; only runs, scale entries, tile
meters and the slack count change, and on class P each tile's meter rises by the time it ran. SPILL_LIMIT_ABORT past
the limit, outside flood: the run is ended and aborted and holds no results, STEP_TIMEOUT is the last of its codes,
and the error is a TIDE_UNLOCKED it has taken, else that; only that run and Dikewatch's events change. (R61, R69, R72,
R73, R77) -/
def Obligations.StepsEnd : Prop :=
  (∀ (s : State) (run ns : Nat), s.dev.stepFinished run = true → s.dev.serving = true →
    let r := s.dev.runOf run
    (r.spilled = false ∨ r.cls = 2) → (s.dev.plan r.plan).tiles.Nodup →
    Answers (.stepEnd run ns) s fun t =>
      (t.dev.runOf run).state = .ended ∧ (t.dev.runOf run).overlay = r.overlay ∧
      (t.dev.runOf run).codes = r.codes ++
        (if s.dev.tide.holdover then [{ code := Code.tideHoldover, step := r.step }] else []) ++
        (if s.dev.tide.unlocked && s.dev.usesPeers r && !r.codes.any (fun e => e.code == Code.tideUnlocked) then [{ code := Code.tideUnlocked, step := r.step }] else []) ∧
      (∀ n, n ≠ run → t.dev.runOf n = s.dev.runOf n) ∧
      t.dev = { s.dev with runs := t.dev.runs, scales := t.dev.scales, tiles := t.dev.tiles
                           tide := { s.dev.tide with slackUses := t.dev.tide.slackUses } } ∧
      (r.cls = 2 → ∀ n ∈ (s.dev.plan r.plan).tiles, (t.dev.tile n).meter = (s.dev.tile n).meter + ns)) ∧
  (∀ (s : State) (run : Nat) (r : Run), s.dev.runs.find run = some r → r.state = .running → r.spilled = true →
    r.lastTide + s.dev.tide.spillLimit.toNat + 1 ≤ s.dev.tide.number → s.dev.tide.phase ≠ .flood →
    Answers (.spillLimitAbort run) s fun t =>
      (t.dev.runOf run).state = .ended ∧ (t.dev.runOf run).aborted = true ∧ (t.dev.runOf run).overlay = [] ∧
      (∃ e first, e.code = Code.stepTimeout ∧ (t.dev.runOf run).codes = (s.dev.endCodes r).codes ++ [e] ∧
        (t.dev.runOf run).error = some first ∧
        ((∃ u ∈ (s.dev.endCodes r).codes, u.code = Code.tideUnlocked) → first.code = Code.tideUnlocked) ∧
        ((∀ u ∈ (s.dev.endCodes r).codes, u.code ≠ Code.tideUnlocked) → first = e)) ∧
      (∀ n, n ≠ run → t.dev.runOf n = s.dev.runOf n) ∧ t.dev = { s.dev with runs := t.dev.runs, dike := t.dev.dike })

/-- CLASS_P_STEP_START of a queue whose oldest unstarted class-P RUN_PLAN meets no other class-P work, with the timer
running: before its first tide it waits and nothing changes; otherwise, if its start gate is open, the next run runs
its step at the plan's position, which rises by one. A class-P RUN_PLAN that begins while a meter of its tiles is
spent starts from the next boundary on and its record has P_RESERVATION_SPENT. P_METER_SPENT sets the tile's meter to
at least its reservations and marks it spent. CLASS_P_COMMIT of an ended class-P run with its horizon closed, withheld
by nothing, with no freeze and no ebb waiting: its bytes are in memory, but for frames whose identifier is out of use,
and the run is gone. (R41, R77, R80, R174) -/
def Obligations.ClassPSteps : Prop :=
  (∀ (s : State) (q : Nat) (r : RunCmd), s.dev.nextP q = some r → s.dev.pBusy r = false → s.dev.tideRunning = true →
    (s.dev.tide.number < r.due → AnswersDev (.classPStepStart q) s s.dev) ∧
    (r.due ≤ s.dev.tide.number → s.dev.startGate r = .go →
      Answers (.classPStepStart q) s fun t => (t.dev.runOf s.dev.nextRun).state = .running ∧
        (t.dev.runOf s.dev.nextRun).step = r.first + r.started ∧ (t.dev.runOf s.dev.nextRun).plan = r.plan ∧
        (t.dev.runOf s.dev.nextRun).position = (s.dev.plan r.plan).position ∧
        (t.dev.plan r.plan).position = (s.dev.plan r.plan).position + 1 ∧ t.dev.nextRun = s.dev.nextRun + 1 ∧
        (∀ n, n ≠ s.dev.nextRun → t.dev.runOf n = s.dev.runOf n) ∧ SameMemory s t)) ∧
  (∀ (s : State) (q ctx : Nat) (c : Cmd), HeadReady s q Op.runPlan (fun _ => true) c ctx →
    s.dev.rngRoom ctx c.planSlot = true → (s.dev.plan c.planSlot).deadTo (begun s q ctx c).2.epoch = false →
    s.dev.groupGone c.planSlot = false → (s.dev.plan c.planSlot).cls = 2 →
    (s.dev.plan c.planSlot).tiles.any (fun t => (s.dev.tile t).spent) = true →
    Answers (.runPlan q) s fun t => ∃ x ∈ t.dev.runCmds, x.queue = q ∧ x.cmd = (begun s q ctx c).2 ∧
      x.due = s.dev.tide.number + 1 ∧ ∃ e ∈ x.codes, e.code = Code.pReservationSpent) ∧
  (∀ (s : State) (n : Nat), n < 16 → s.dev.tideRunning = true → AnswersDev (.pMeterSpent n) s
    (s.dev.modTile n fun x =>
      { x with meter := max x.meter (rhoOn (s.dev.plansBut none) n * s.dev.tide.flood / 256), spent := true })) ∧
  (∀ (s : State) (run : Nat) (r : Run), s.dev.runs.find run = some r → r.id = run → r.cls = 2 → r.state = .ended → r.horizon = none → s.dev.tide.ebbRest = false →
    (∀ j ∈ s.dev.jobs, j.2.freezing = false) → r.withhold = none → (s.dev.ctx r.ctx).withhold = none →
    Answers (.classPCommit run) s fun t => t.dev.mem = Mem.writeAll (s.dev.accepted r.overlay) s.dev.mem ∧
      (∀ n, n ≠ run → t.dev.runOf n = s.dev.runOf n) ∧ t.dev.runs.find run = none)

/-- Each ready at the head of its queue, no step of the context in its way, no page of its plan dead to it. PUT_TENSOR or
STAGE of a tensor not in T2 that opens: memory is the old one with exactly the tensor's cells at the offset written,
those of frames whose identifier is out of use left out. Of a T2 tensor whose extents take no wait, quota and flash
key slots allowing and every touched extent opened: memory is the opened device's with exactly those cells written.
GET_TENSOR with nothing lost, bad or held: its completion with coarse scale, length and committed bytes is held at the
gate (unsealed form: word for word), and memory is unchanged. (R324, R325, R326, R424, R444, R450) -/
def Obligations.TransfersMoveData : Prop :=
  (∀ (i : Instr) (op : Nat) (s : State) (q ctx : Nat) (c : Cmd) (d1 : Dev) (cs : Option W32) (bytes : List Byte),
    (i = .putTensor q ∧ op = Op.putTensor) ∨ (i = .stage q ∧ op = Op.stage) →
    HeadReady s q op (fun _ => true) c ctx → s.dev.stepBusy ctx c.planSlot (c.pf 1 0 16) true = false →
    s.dev.namesDeep c = false →
    let p := (s.dev.plan c.planSlot).tensors.getD (c.pf 1 0 16) {}
    (s.dev.plan c.planSlot).deadTo (begun s q ctx c).2.epoch = false →
    (begun s q ctx c).1.carried (begun s q ctx c).2 ctx (c.pf 1 0 16) = some (d1, cs, bytes) →
    Answers i s fun t => t.dev.mem = Mem.writeAll (d1.accepted (d1.tensorCells p (c.p64 3) bytes)) s.dev.mem ∧
      (∀ a, a ∉ (d1.tensorCells p (c.p64 3) bytes).map Prod.fst → Mem.read t.dev.mem a = Mem.read s.dev.mem a) ∧
      t.dev.runs = s.dev.runs ∧ t.dev.maps = s.dev.maps) ∧
  (∀ (i : Instr) (op : Nat) (s : State) (q ctx : Nat) (c : Cmd) (d1 d2 : Dev) (cs : Option W32) (bytes : List Byte),
    (i = .stage q ∧ op = Op.stage) ∨ (i = .putTensor q ∧ op = Op.putTensor) →
    HeadReady s q op (fun _ => true) c ctx → s.dev.stepBusy ctx c.planSlot (c.pf 1 0 16) true = false →
    s.dev.namesDeep c = true → s.dev.flashRoom ctx (s.dev.cmdOwner c) (s.dev.stageHubs c) = true →
    let d := (begun s q ctx c).1.giveFlash ctx (s.dev.cmdOwner c) (s.dev.stageHubs c)
    let p := (s.dev.plan c.planSlot).tensors.getD (c.pf 1 0 16) {}
    let decl := (s.dev.plan c.planSlot).module.tensor (c.pf 1 0 16)
    let es := touched p (c.p64 3) (c.p 5)
    d.stageWaits (begun s q ctx c).2 = false → (s.dev.plan c.planSlot).deadTo (begun s q ctx c).2.epoch = false →
    d.carried (begun s q ctx c).2 ctx (c.pf 1 0 16) = some (d1, cs, bytes) →
    (d.ctx ctx).useT1 + sumNat (es.map fun x => d.stageFrames decl x.1 x.2) ≤ (d.ctx ctx).quotaT1.toNat →
    stageOpened d1 (ctx, (d.plan c.planSlot).module.ownerOf (c.pf 1 0 16), true) decl es = .ok d2 →
    Answers i s fun t => t.dev.mem = Mem.writeAll (d2.accepted (d2.tensorCells p (c.p64 3) bytes)) d2.mem ∧
      (∀ x ∈ es, ∀ u ∈ coveredUnits (c.p64 3) (c.p 5) x.2, u ∈ (t.dev.extent x.1).covered)) ∧
  (∀ (s : State) (q ctx : Nat) (c : Cmd), HeadReady s q Op.getTensor (fun _ => true) c ctx →
    s.dev.stepBusy ctx c.planSlot (c.pf 1 0 16) false = false →
    let p := (s.dev.plan c.planSlot).tensors.getD (c.pf 1 0 16) {}
    (s.dev.plan c.planSlot).deadTo (begun s q ctx c).2.epoch = false → (∀ x ∈ touched p (c.p64 3) (c.p 5), (s.dev.extent x.1).state ≠ .lost) → s.dev.getBad c = [] →
    (s.dev.ctx ctx).failed = none →
    Answers (.getTensor q) s fun t => SameMemory s t ∧ ∃ ws,
      t.dev.held = s.dev.held ++ [{ ctx := ctx, epoch := s.dev.tide.epoch
                                    item := .ending { queue := q, cmd := (begun s q ctx c).2, result := ws } }] ∧
      (c.isSealed = false → ws = padTo 0 16 [p.coarse, BitVec.ofNat 32 (c.p 5)] ++
        wordsOfBytes (padTo 0 (64 * ceilDiv (c.p 5) 64) (s.dev.committedBytes p (c.p64 3) (c.p 5)))))

/-- LOAD_PLAN ready at the head with a free core: the core holds the load and nothing else changes; with none it waits.
LOAD_PLAN_COMPLETE of a core whose load does not wait, its context not evacuated: a module that loads leaves the
loaded device with the command ended with the plan's handle; one refused leaves everything but the command's ending
and the core as it was. RUN_PLAN with no page dead to it, no closed group and key slots on its tiles: its record joins
the begun RUN_PLANs, due from the next tide, of class P from this one unless a meter of its tiles is spent.
UNLOAD_PLAN: the command joins the plan's unloads. (R264, R266, R284, R321, R322, R323) -/
def Obligations.PlanCommandsTakeEffect : Prop :=
  (∀ (s : State) (q ctx : Nat) (c : Cmd), HeadReady s q Op.loadPlan (fun _ => true) c ctx →
    (∀ k, s.dev.freeCore = some k → AnswersDev (.loadPlan q) s ((begun s q ctx c).1.setLoad k
      (some { queue := q, cmd := (begun s q ctx c).2, ctx := ctx, neap := s.dev.sys.service == .neap }))) ∧
    (s.dev.freeCore = none → AnswersDev (.loadPlan q) s s.dev)) ∧
  (∀ (s : State) (k : Nat) (l : Load), k < 8 → s.dev.load k = some l → s.dev.loadWaits l.ctx = false →
    (s.dev.ctx l.ctx).evacuated = false →
    (∀ d slot, (s.dev.setLoad k none).loadModule (reqOf l) (moduleBytes l.cmd) (l.cmd.p 4) = .ok (d, slot) →
      Answers (.loadPlanComplete k) s fun t => EndsOnly l.queue l.cmd.signal d t.dev ∧
        t.dev = d.succeed l.queue l.cmd [BitVec.ofNat 32 ((d.plan slot).handle slot)]) ∧
    (∀ r, (s.dev.setLoad k none).loadModule (reqOf l) (moduleBytes l.cmd) (l.cmd.p 4) = .error r →
      Answers (.loadPlanComplete k) s fun t => EndsOnly l.queue l.cmd.signal (s.dev.setLoad k none) t.dev)) ∧
  (∀ (s : State) (q ctx : Nat) (c : Cmd), HeadReady s q Op.runPlan (fun _ => true) c ctx →
    s.dev.rngRoom ctx c.planSlot = true → (s.dev.plan c.planSlot).deadTo (begun s q ctx c).2.epoch = false →
    s.dev.groupGone c.planSlot = false →
    let f := s.dev.foundDue (s.dev.plan c.planSlot) (c.p 1) (s.dev.tide.number + 1)
    Answers (.runPlan q) s fun t => t.dev.runCmds = s.dev.runCmds ++
      [{ queue := q, cmd := (begun s q ctx c).2, ctx := ctx, plan := c.planSlot, cls := (s.dev.plan c.planSlot).cls
         first := c.p 1, count := c.p 2, due := f.1, codes := f.2
         progress := if c.pf 3 16 1 = 1 then some (c.pf 3 0 16, BitVec.ofNat 32 (c.p 4)) else none }] ∧
      (f.1 = if (s.dev.plan c.planSlot).cls = 2 ∧ (s.dev.plan c.planSlot).tiles.any (fun t => (s.dev.tile t).spent) = false
        then s.dev.tide.number else s.dev.tide.number + 1) ∧
      t.dev.runs = s.dev.runs ∧ SameMemory s t) ∧
  (∀ (s : State) (q ctx : Nat) (c : Cmd), HeadReady s q Op.unloadPlan (fun _ => true) c ctx →
    AnswersDev (.unloadPlan q) s ((begun s q ctx c).1.modPlan c.planSlot fun p =>
      { p with unloading := p.unloading ++ [(q, (begun s q ctx c).2)] }))

/-- Ready at the head of queue q for tile n. Unforced, every plan placed elsewhere: the tile is draining, each of its
plans has a move, the drain waits for its end; one plan not placed: only the command ends. Forced: the tile is
draining and each of its plans has a move or is suspended. The return form: the tile returns at the next ebb exactly
if it was drained, and beside it only the command's ending changes anything. (R286, R288, R327) -/
def Obligations.DrainsTakeEffect : Prop :=
  ∀ (s : State) (q ctx n : Nat) (c : Cmd), c.pf 0 0 8 = n →
    (HeadReady s q Op.drainTile (fun c => c.pf 0 8 2 == 0) c ctx →
      (((begun s q ctx c).1.replaceAll n).2 = [] → Answers (.drainTileUnforced q) s fun t => (t.dev.tile n).draining = true ∧
        (q, (begun s q ctx c).2, n) ∈ t.dev.drains ∧ (∀ p ∈ s.dev.plansOnTile n, (t.dev.plan p).moving.isSome = true) ∧
        SameMemory s t) ∧
      (((begun s q ctx c).1.replaceAll n).2 ≠ [] → Answers (.drainTileUnforced q) s fun t => EndsOnly q c.signal s.dev t.dev)) ∧
    (HeadReady s q Op.drainTile (fun c => c.pf 0 8 2 == 1) c ctx → Answers (.drainTileForced q) s fun t =>
      (t.dev.tile n).draining = true ∧ (q, (begun s q ctx c).2, n) ∈ t.dev.drains ∧
      (∀ p ∈ s.dev.plansOnTile n, (t.dev.plan p).moving.isSome = true ∨ (t.dev.plan p).suspended = true) ∧ SameMemory s t) ∧
    (HeadReady s q Op.drainTile (fun c => c.pf 0 8 2 == 2) c ctx → Answers (.drainTileReturn q) s fun t =>
      (t.dev.tile n).returning = (s.dev.tile n).drained ∧
      EndsOnly q c.signal (s.dev.modTile n fun x => { x with returning := x.drained }) t.dev)

/-- FABRIC_TRAIN_ENABLE in spring with a harbour: setting it trains every enabled port that is off and no other; clearing
it drops the ports at the ebb. LINK_HANDSHAKE on a training port: all checks passed, the port is up with the far
address, port and hop key; a failed check leaves it in state 5, bad wiring in 4, with FABRIC_AUTH logged; other ports
stay. HARBOUR_KEY_RECEIVE keeps a new authentic key and passes it on. LANE_DEGRADE at a rate of 2^−12 or less only
records the rate for Dikewatch; above it, it takes a spare or halves the port and retrains it, or leaves it in state
6. PORT_RETRAIN after more than 1,024 replays retrains it. LINK_DELAY_MEASURE records half the round trip. (R59, R466,
R468, R478, R479, R500) -/
def Obligations.PortsTrainAndDegrade : Prop :=
  (∀ s : State, s.dev.regsUp = true → s.dev.sys.service = .spring → s.dev.fabric.harbour ≠ 0 →
    Answers (.fabricTrainEnable true) s fun t => t.dev.fabric.train = true ∧ SameMemory s t ∧ ∀ p, p < 48 →
      (t.dev.port p).state = if (s.dev.port p).enable && (s.dev.port p).state = 0 then 1 else (s.dev.port p).state) ∧
  (∀ s : State, s.dev.regsUp = true → AnswersDev (.fabricTrainEnable false) s
    (s.dev.modFabric fun f => { f with train := false, dropAtEbb := true })) ∧
  (∀ (s : State) (h : Handshake), h.port < 48 → (s.dev.port h.port).state = 1 ∨ (s.dev.port h.port).state = 2 → h.rate ≤ 2 →
    let agrees : Prop := h.harbour = s.dev.fabric.harbour ∧ h.lcState = s.dev.life.state ∧ h.chainOk = true ∧ h.sigOk = true
    (agrees → s.dev.miswired h = false → Answers (.linkHandshake h) s fun t => (t.dev.port h.port).state = portUp ∧
      (t.dev.port h.port).farAddr = h.address ∧ (t.dev.port h.port).farPort = h.farPort ∧
      (t.dev.port h.port).hopKey = some (hkdf h.secret "ONV-HOP" []) ∧
      (∀ n, n ≠ h.port → t.dev.port n = s.dev.port n)) ∧
    (¬ agrees → Answers (.linkHandshake h) s fun t => (t.dev.port h.port).state = 5 ∧
      (∃ e ∈ t.dev.errors.log, e.number = s.dev.errors.count ∧ e.code = Code.fabricAuth) ∧
      (∀ n, n ≠ h.port → t.dev.port n = s.dev.port n)) ∧
    (agrees → s.dev.miswired h = true → Answers (.linkHandshake h) s fun t => (t.dev.port h.port).state = 4 ∧
      (∀ n, n ≠ h.port → t.dev.port n = s.dev.port n))) ∧
  (∀ (s : State) (p : Nat) (k : List Byte), p < 48 → (s.dev.port p).state = portUp → s.dev.tide.source = false →
    s.dev.fabric.harbourKey ≠ some k → Answers (.harbourKeyReceive p k true) s fun t =>
      t.dev.out = s.dev.out ++ (s.dev.awayFrom p).map (fun q => Out.port q (.harbourKey k)) ∧
      t.dev = { s.dev with fabric := { s.dev.fabric with harbourKey := some k }, out := t.dev.out }) ∧
  (∀ (s : State) (p lane rate : Nat), p < 48 → lane < 8 → (s.dev.port p).state = portUp →
    (rate ≤ 256 → AnswersDev (.laneDegrade p lane rate) s (s.dev.modDike fun x => { x with fecMargin := x.fecMargin.set 0 p rate })) ∧
    (∀ x, 256 < rate → s.dev.freeSpare p = some x → Answers (.laneDegrade p lane rate) s fun t => (t.dev.port p).state = 1 ∧
      (t.dev.port p).spares = (s.dev.port p).spares ++ [x] ∧ (∀ n, n ≠ p → t.dev.port n = s.dev.port n)) ∧
    (256 < rate → s.dev.freeSpare p = none → Answers (.laneDegrade p lane rate) s fun t => lane ∈ (t.dev.port p).badLanes ∧
      (((t.dev.port p).badLanes.any (· < 4) && (t.dev.port p).badLanes.any (4 ≤ ·)) = true → (t.dev.port p).state = 6) ∧
      (((t.dev.port p).badLanes.any (· < 4) && (t.dev.port p).badLanes.any (4 ≤ ·)) = false →
        (t.dev.port p).state = 1 ∧ (t.dev.port p).half = true) ∧ (∀ n, n ≠ p → t.dev.port n = s.dev.port n))) ∧
  (∀ (s : State) (p n : Nat), p < 48 → (s.dev.port p).state = portUp →
    (1024 < n → Answers (.portRetrain p n) s fun t => (t.dev.port p).state = 1 ∧ (t.dev.port p).hopKey = none ∧
      (t.dev.port p).retrains = (s.dev.port p).retrains ++ [s.dev.tide.number] ∧ (∀ m, m ≠ p → t.dev.port m = s.dev.port m)) ∧
    (n ≤ 1024 → AnswersDev (.portRetrain p n) s s.dev) ∧
    AnswersDev (.linkDelayMeasure p n) s (s.dev.modPort p fun x => { x with delayNs := n / 2 }))

/-- In spring, on a device that has not stopped for a lost structure, for a packet to this device: a failed tag only
counts. A duplicate is only acknowledged again. A write (type 0) new to a plan's window, of a tensor that an operation
issued by a running step writes, joins the seen sequences, is acknowledged, lands in that run's results and leaves
memory alone; where no step has issued such an operation it is dropped unacknowledged; one whose window refuses it
only counts and is answered so. A packet for another device goes on by one port with one hop more: classes P and S by
the first minimal port that is up, else, without detour set, by the first non-minimal one with detour set, and from
then on by that; after four hops, or with no port left, it is dropped; whatever its class it leaves by a port of a
route or not at all. PACKET_RESEND sends a packet again up to five times; after that no packet to its destination
awaits acknowledgement, and, where none of them carries group control, each run that joined its collective has the
code; a refused packet awaits nothing, and each run that joined its collective has REMOTE_FAULT. (R474, R475, R477,
R482, R489, R490, R501) -/
def Obligations.PacketsLandOrAreRefused : Prop :=
  (∀ (s : State) (p : FabricPacket), s.dev.dike.stopped = false → p.dst = s.dev.fabric.address.toNat → s.dev.sys.service = .spring →
    (p.tagOk = false → AnswersDev (.packetReceive p) s (s.dev.modFabric fun f => { f with tagFails := f.tagFails + 1 })) ∧
    (p.tagOk = true → p.type = 5 → Answers (.packetReceive p) s fun t =>
      (∀ u ∈ t.dev.fabric.unacked, ¬ (u.2.dst = p.src ∧ u.2.seq = p.seq ∧ u.2.key = s.dev.keyOfPacket p)) ∧ t.dev = { s.dev with fabric := t.dev.fabric }) ∧
    (p.tagOk = true → p.type ≠ 4 → p.type ≠ 5 → s.dev.seqOf p ∈ s.dev.fabric.seen →
      AnswersDev (.packetReceive p) s (s.dev.emit (.fabric p.src (.ack s.dev.fabric.address.toNat p.seq)))) ∧
    (p.tagOk = true → p.type = 0 → s.dev.seqOf p ∉ s.dev.fabric.seen → s.dev.windowUse p = .refused →
      AnswersDev (.packetReceive p) s
        ((s.dev.modFabric fun f => { f with refusals := f.refusals + 1 }).emit (.fabric p.src (.refused p.seq)))) ∧
    (∀ slot, p.tagOk = true → p.type = 0 → s.dev.seqOf p ∉ s.dev.fabric.seen → s.dev.windowUse p = .plan slot →
      s.dev.takesWrite slot p = none → AnswersDev (.packetReceive p) s s.dev) ∧
    (∀ slot k r, p.tagOk = true → p.type = 0 → s.dev.seqOf p ∉ s.dev.fabric.seen → s.dev.windowUse p = .plan slot →
      s.dev.takesWrite slot p = some (k, r) → Answers (.packetReceive p) s fun t => s.dev.seqOf p ∈ t.dev.fabric.seen ∧
        Out.fabric p.src (.ack s.dev.fabric.address.toNat p.seq) ∈ t.dev.out ∧ SameMemory s t ∧
        ∀ x o, (s.dev.plan slot).tensorAtOffset p.offset = some (x, o) →
          (t.dev.runOf k).overlay = (s.dev.tensorCells ((s.dev.plan slot).tensors.getD x {}) o p.payload).foldl
            (fun l c => Ovl.set l c.1 c.2) r.overlay)) ∧
  (∀ (s : State) (p : FabricPacket), p.dst ≠ s.dev.fabric.address.toNat → s.dev.sys.service = .spring →
    let up (l : List Nat) : List Nat := l.filter fun q => (s.dev.port q).state == portUp
    let r := s.dev.fabric.routes.get {} p.dst
    (∀ q, p.hops < 4 → 2 ≤ p.cls → (up r.minimal).head? = some q → (p.detour = true ∨ p.dst ∉ s.dev.fabric.detoured) →
      AnswersDev (.packetReceive p) s (s.dev.emit (.port q (.packet { p with hops := p.hops + 1 })))) ∧
    (∀ q, p.hops < 4 → 2 ≤ p.cls → (up r.minimal = [] ∨ p.dst ∈ s.dev.fabric.detoured) → p.detour = false →
      (up r.nonMinimal).head? = some q → Answers (.packetReceive p) s fun t => p.dst ∈ t.dev.fabric.detoured ∧
        t.dev = { s.dev with fabric := { s.dev.fabric with detoured := t.dev.fabric.detoured }
                             out := s.dev.out ++ [.port q (.packet { p with hops := p.hops + 1, detour := true })] }) ∧
    (4 ≤ p.hops ∨ (up r.minimal = [] ∧ (p.detour = true ∨ up r.nonMinimal = [])) → AnswersDev (.packetReceive p) s s.dev) ∧
    (∃ t, exec (.packetReceive p) s = .next t ∧ (t.dev = s.dev ∨ ∃ q ∈ up r.minimal ++ up r.nonMinimal, ∃ x,
      t.dev = { s.dev with fabric := { s.dev.fabric with detoured := t.dev.fabric.detoured }
                           out := s.dev.out ++ [.port q (.packet { p with hops := p.hops + 1, detour := x })] }))) ∧
  (∀ (s : State) (id k : Nat) (u : Unacked) (w : SendReport), s.dev.fabric.unacked.find? (fun x => x.1 == id) = some (k, u) →
    (∀ m, w ≠ .refused → u.sends < 5 → u.msg = some m → AnswersDev (.packetResend id w) s
      ((s.dev.modFabric fun f => { f with unacked := f.unacked.upd {} id fun x => { x with sends := x.sends + 1 } }).emit
        (.fabric u.dst m))) ∧
    (w ≠ .refused → 5 ≤ u.sends → Answers (.packetResend id w) s fun t => (∀ x ∈ t.dev.fabric.unacked, x.2.dst ≠ u.dst) ∧
      SameMemory s t ∧
      ((∀ x ∈ s.dev.fabric.unacked, x.2.dst = u.dst → ∀ g, x.2.msg ≠ some (.group g)) →
        ∀ m, u.msg = some (.collective m) → ∀ n ∈ s.dev.joined m.groupId m.step m.op, ∃ e ∈ (t.dev.runOf n).codes, e.code =
          if w = .tagFails then Code.fabricAuth else if s.dev.portsUp.isEmpty then Code.linkDown else Code.peerLost)) ∧
    (w = .refused → Answers (.packetResend id w) s fun t => t.dev.fabric.unacked.find id = none ∧ SameMemory s t ∧
      ∀ m, u.msg = some (.collective m) → ∀ n ∈ s.dev.joined m.groupId m.step m.op,
        ∃ e ∈ (t.dev.runOf n).codes, e.code = Code.remoteFault))

/-- GROUP_OPEN ready at its head with a good rank list and a free slot: the slot is opening under the identity, and a rank
other than 0 sends its request. On a device that has not stopped and holds a harbour key: at rank 0 a matching request
joins the matched ranks and the group opens exactly when all have matched; a mismatched one frees the slot. On another
rank, rank 0's nonce opens the group with the derived key and its refusal frees the slot. GROUP_OPEN_TIMEOUT frees an
opening slot. A freed slot's generation rises by one. GROUP_CLOSE of an open group of the context sets it closing; of
any other handle only the command ends. (R483, R484, R485, R486) -/
def Obligations.GroupsOpenAndClose : Prop :=
  (∀ (s : State) (q ctx g : Nat) (c : Cmd), HeadReady s q Op.groupOpen (fun _ => true) c ctx →
    let n := c.pf 2 0 11
    let ranks := (List.range n).map fun r => bitsOf (wordAt c.payload (16 + r / 2)) (16 * (r % 2)) 10
    let me := s.dev.fabric.address.toNat
    (∀ r < n, bitsOf (wordAt c.payload (16 + r / 2)) (16 * (r % 2) + 10) 6 = 0) → ranks.contains me = true →
    noDup ranks = true → (List.range 1024).find? (fun g => (s.dev.group g).state == .free) = some g →
    ranks.idxOf me ≠ 0 → Answers (.groupOpen q) s fun t => (t.dev.group g).state = .opening ∧ (t.dev.group g).ranks = ranks ∧
      (t.dev.group g).groupId = c.p64 0 ∧ (t.dev.group g).cmd = some (q, (begun s q ctx c).2) ∧
      (∀ n, n ≠ g → t.dev.group n = s.dev.group n) ∧ t.dev.out = s.dev.out ++ [.fabric (ranks.getD 0 0)
        (.group (.request (c.p64 0) (listDigest ranks) (s.dev.charterDigest ctx) (ranks.idxOf me)))]) ∧
  (∀ (s : State) (q ctx g : Nat) (c : Cmd), HeadReady s q Op.groupOpen (fun _ => true) c ctx →
    let n := c.pf 2 0 11
    let ranks := (List.range n).map fun r => bitsOf (wordAt c.payload (16 + r / 2)) (16 * (r % 2)) 10
    let me := s.dev.fabric.address.toNat
    (∀ r < n, bitsOf (wordAt c.payload (16 + r / 2)) (16 * (r % 2) + 10) 6 = 0) → ranks.contains me = true →
    noDup ranks = true → (List.range 1024).find? (fun g => (s.dev.group g).state == .free) = some g →
    ranks.idxOf me = 0 → s.dev.fabric.early = [] → Answers (.groupOpen q) s fun t => (t.dev.group g).state = .opening ∧
      (t.dev.group g).ranks = ranks ∧ (t.dev.group g).matched = [0] ∧ (∀ n, n ≠ g → t.dev.group n = s.dev.group n) ∧
      t.dev.out = s.dev.out) ∧
  (∀ (s : State) (g : Nat), g < 1024 → (s.dev.group g).state = .opening → Answers (.groupOpenTimeout g) s fun t =>
    t.dev.group g = { generation := (s.dev.group g).generation + 1 } ∧ (∀ n, n ≠ g → t.dev.group n = s.dev.group n) ∧
    ∀ q c, (s.dev.group g).cmd = some (q, c) → EndsOnly q c.signal (s.dev.freeGroup g) t.dev) ∧
  (∀ (s : State) (g gid src r n : Nat) (l k : List Byte), s.dev.dike.stopped = false → s.dev.fabric.harbourKey.isSome = true →
    s.dev.openingGroup gid = some g → (s.dev.group g).state = .opening →
    let x := s.dev.group g
    let good : Prop := x.ranks.getD r 1024 = src ∧ l = listDigest x.ranks ∧ k = s.dev.charterDigest x.ctx
    (x.rank = 0 → good → Answers (.groupControlReceive src (.request gid l k r)) s fun t => r ∈ (t.dev.group g).matched ∧
      ((t.dev.group g).state = .opening ∨ (t.dev.group g).state = .opened) ∧
      ((t.dev.group g).state = .opened ↔ ∀ i < x.ranks.length, i ∈ (t.dev.group g).matched)) ∧
    (x.rank = 0 → ¬ good → Answers (.groupControlReceive src (.request gid l k r)) s fun t =>
      t.dev.group g = { generation := x.generation + 1 }) ∧
    (x.rank ≠ 0 → x.ranks.getD 0 1024 = src → Answers (.groupControlReceive src (.nonce gid n)) s fun t =>
      (t.dev.group g).state = .opened ∧ (t.dev.group g).nonce = n ∧
      (t.dev.group g).key = some (s.dev.linkKey x.ctx x.groupId n)) ∧
    (x.rank ≠ 0 → x.ranks.getD 0 1024 = src → Answers (.groupControlReceive src (.refuse gid n)) s fun t =>
      t.dev.group g = { generation := x.generation + 1 })) ∧
  (∀ (s : State) (q ctx : Nat) (c : Cmd), HeadReady s q Op.groupClose (fun _ => true) c ctx →
    let g := c.p 0 % 1024
    let owned : Prop := (s.dev.group g).state = .opened ∧ (s.dev.group g).handle g = c.p 0 ∧ (s.dev.group g).ctx = ctx
    (owned → AnswersDev (.groupClose q) s ((begun s q ctx c).1.modGroup g fun y =>
      { y with state := .closing, cmd := some (q, (begun s q ctx c).2) })) ∧
    (¬ owned → Answers (.groupClose q) s fun t => EndsOnly q c.signal s.dev t.dev))

/-- VERIFICATION_EPOCH: each hub's verified epoch is the greater of old and reported, and egress stays held exactly while
its epoch exceeds the least of the four. INTEGRITY_CHECK_FAIL outside the reserve: each reading context is withheld
with INTEGRITY_ALARM and holds no egress, its region is in quarantine. QUARANTINE_SCAN_DONE with the clock running
ends the quarantine, and each failed granule of a mutable region is bad with INTEGRITY_ALARM, of a read-only one held
for repair. TREE_LINE_LOST of a mutable region with frames beneath: they are bad with TREE_LOST and the context
withheld; both system copies stop the device. ECC_UNCORRECTABLE_LINE: the frame is remapped, a mutable granule is bad,
a read-only one held. Memory keeps its bytes. (R40, R381, R382, R423, R424, R425, R426, R428, R528) -/
def Obligations.ChecksThatFail : Prop :=
  (∀ (s : State) (l : List Nat), Answers (.verificationEpoch l) s fun t =>
    let v := (List.range 4).map fun h => max (s.dev.tide.verified.getD h 0) (l.getD h 0)
    t.dev.tide.verified = v ∧ (∀ e ∈ v, e + 2 ≤ t.dev.tide.epoch) ∧ s.dev.tide.epoch ≤ t.dev.tide.epoch ∧
    t.dev.held = s.dev.held.filter (fun h => !decide (h.epoch ≤ v.foldl min (v.headD 0))) ∧ SameMemory s t) ∧
  (∀ (s : State) (f g e : Nat) (rs cs : List Nat), granuleExists f g = true →
    (frameReserved f = true → AnswersDev (.integrityCheckFail f g e rs cs) s
      (s.dev.modHub (hubOf f) fun x => { x with rebuilt := x.rebuilt + 1 })) ∧
    (frameReserved f = false → Answers (.integrityCheckFail f g e rs cs) s fun t =>
      (∀ c ∈ s.dev.readers rs cs, ((s.dev.ctx c).withhold = none → (t.dev.ctx c).withhold = some Code.integrityAlarm) ∧
        (t.dev.ctx c).failed.isSome = true ∧ ∀ h ∈ t.dev.held, h.ctx ≠ c) ∧
      (∀ r ∈ rs, (s.dev.runs.find r).isSome = true → (t.dev.runOf r).withhold.isSome = true) ∧
      (t.dev.region (s.dev.regionOf f)).quarantine = (s.dev.region (s.dev.regionOf f)).bound.isSome ∧ SameMemory s t)) ∧
  (∀ (s : State) (r : Nat) (l : List (Nat × Nat)), r < 2864 → (s.dev.region r).quarantine = true → s.dev.sys.clkLost = false →
    Answers (.quarantineScanDone r l) s fun t => (t.dev.region r).quarantine = false ∧ SameMemory s t ∧
      ∀ p ∈ l, granuleExists p.1 p.2 = true → s.dev.regionOf p.1 = r →
        (s.dev.frameReadOnly p.1 = false → (t.dev.badLine (granuleKey p.1 p.2)).code = Code.integrityAlarm) ∧
        (s.dev.frameReadOnly p.1 = true → (t.dev.badLine (granuleKey p.1 p.2)).holding = true)) ∧
  (∀ (s : State) (r : Nat), r < 2864 → AnswersDev (.treeLineLost r (.system true)) s { s.dev with lost := true } ∧
    AnswersDev (.treeLineLost r (.system false)) s (s.dev.modHub (r / 716) fun x => { x with rebuilt := x.rebuilt + 1 })) ∧
  (∀ (s : State) (r : Nat) (l : LostLine) (b : Binding), r < 2864 → (∀ x, l ≠ .system x) → (s.dev.region r).bound = some b →
    b.2.2 = false → Answers (.treeLineLost r l) s fun t => SameMemory s t ∧
      (s.dev.lostFrames r l ≠ [] → (s.dev.ctx b.1).withhold = none → (t.dev.ctx b.1).withhold = some Code.treeLost) ∧
      (∀ p ∈ s.dev.lostGranules r l, p.1 ∈ s.dev.lostFrames r l → (t.dev.badLine (granuleKey p.1 p.2)).code = Code.treeLost)) ∧
  (∀ (s : State) (f g : Nat) (rs cs : List Nat), granuleExists f g = true → frameReserved f = false →
    Answers (.eccUncorrectableLine f g rs cs) s fun t => SameMemory s t ∧
      (f ∈ (t.dev.hub (hubOf f)).copying ∨ f ∈ (t.dev.hub (hubOf f)).redirect ∨ f ∈ (t.dev.hub (hubOf f)).retired) ∧
      (s.dev.frameReadOnly f = true → (t.dev.badLine (granuleKey f g)).holding = true) ∧
      (s.dev.frameReadOnly f = false → (t.dev.badLine (granuleKey f g)).code = Code.eccUncorrectable ∧
        ∀ r ∈ rs, (s.dev.runs.find r).isSome = true → (t.dev.runOf r).withhold.isSome = true))

/-- REPAIR_LANDS of 128 bytes for a bad read-only granule whose identifier is in use writes what T2 holds of it, or where
T2 holds no copy exactly the bytes that came, and the granule is good. REPAIR_DEADLINE at the ebb releases a held line
and withholds the runs held. FRAME_REMAP_DONE moves a copied frame into the redirect table. SCRUBBER_PASS counts its
pass and corrected rows. REENCRYPT_SWEEP_DONE with the clock running leaves region and counter blocks under the new
identifier. RETIREMENT_COMPLETE quarantines an identifier no copy uses; QUARANTINE_END frees it from the sixteenth
ebb. ARB_STARVATION of a present requester, not flagged, under a threshold flags it. SEAM_FLIT_FAIL counts; the fourth
failure of one flit takes the seam down and withholds the runs named whose data crosses it. (R26, R375, R378, R383,
R384, R387, R389, R414, R418, R421) -/
def Obligations.ProtectionUpkeep : Prop :=
  (∀ (s : State) (f g : Nat) (data : List Byte), granuleExists f g = true → s.dev.frameReadOnly f = true →
    (s.dev.badLines.any fun b => b.1 == granuleKey f g) = true → data.length = 128 →
    s.dev.frameRefused f = false → Answers (.repairLands f g data) s fun t =>
      (∀ i < 128, Mem.read t.dev.mem (frameBytes * f + 128 * g + i) = (s.dev.repairData f g data).getD i 0) ∧
      (s.dev.deepCopyOf f = none → s.dev.repairData f g data = data) ∧
      (∀ a, a < frameBytes * f + 128 * g ∨ frameBytes * f + 128 * g + 128 ≤ a →
        Mem.read t.dev.mem a = Mem.read s.dev.mem a) ∧ t.dev.badLines.find (granuleKey f g) = none) ∧
  (∀ (s : State) (f g : Nat), granuleExists f g = true →
    (s.dev.tide.phase ≠ .ebb → AnswersDev (.repairDeadline f g) s s.dev) ∧
    (s.dev.tide.phase = .ebb → (s.dev.badLine (granuleKey f g)).holding = true → Answers (.repairDeadline f g) s fun t =>
      (t.dev.badLine (granuleKey f g)).holding = false ∧ SameMemory s t ∧
      ∀ r ∈ (s.dev.badLine (granuleKey f g)).runs, ∀ x, s.dev.runs.find r = some x →
        (t.dev.runOf r).withhold = some (x.withhold.getD Code.sharedPoison))) ∧
  (∀ (s : State) (f : Nat), frameExists f = true → f ∈ (s.dev.hub (hubOf f)).copying → AnswersDev (.frameRemapDone f) s
    (s.dev.modHub (hubOf f) fun x => { x with copying := x.copying.filter (· != f), redirect := x.redirect ++ [f] })) ∧
  (∀ (s : State) (h : Nat) (l : List (Nat × Nat)), h < 4 → (s.dev.hub h).up = true → Answers (.scrubberPass h l) s fun t =>
    t.dev = { s.dev with hubs := t.dev.hubs, dike := t.dev.dike } ∧ t.dev.hub h = { s.dev.hub h with
      scrubs := (s.dev.hub h).scrubs + 1
      rowErrors := (s.dev.hub h).rowErrors ++
        (l.filter fun p => hubOf p.1 == h && frameExists p.1 && decide (p.2 < frameBytes)).map fun p =>
          (s.dev.rowOf p.1 p.2, p.1, s.dev.tide.number) }) ∧
  (∀ (s : State) (r k : Nat), r < 2864 → (s.dev.region r).sweepTo = some k → s.dev.sys.clkLost = false → Answers (.reencryptSweepDone r) s fun t =>
    (t.dev.region r).key = k ∧ (t.dev.region r).sweepTo = none ∧ SameMemory s t ∧
    ∀ c ∈ t.dev.counters, c.1 / 131072 = r → c.2.key = k) ∧
  (∀ (s : State) (k : Nat), 0 < k → k < 4096 →
    ((s.dev.keyId k).state = .retiring → (s.dev.hubs.any fun h => h.2.copying.any fun f =>
        (s.dev.region (s.dev.regionOf f)).bound.isSome && (s.dev.region (s.dev.regionOf f)).key == k) = false →
      Answers (.retirementComplete k) s fun t => (t.dev.keyId k).state = .quarantine ∧ SameMemory s t) ∧
    ((s.dev.keyId k).state = .quarantine → s.dev.tide.phase = .ebb →
      ((s.dev.keyId k).began + 16 ≤ s.dev.tide.ebbs → AnswersDev (.quarantineEnd k) s (s.dev.modKey k fun _ => {})) ∧
      (s.dev.tide.ebbs < (s.dev.keyId k).began + 16 → AnswersDev (.quarantineEnd k) s s.dev))) ∧
  (∀ (s : State) (u r : Nat), s.dev.reqPresent u r = true →
    ((u < 4 ∨ 8 ≤ u ∧ u < 56) → (s.dev.arb u).thresh ≠ 0 → r ∉ (s.dev.arb u).starve → Answers (.arbStarvation u r) s fun t =>
      (t.dev.arb u).starve = (s.dev.arb u).starve ++ [r] ∧ bitOf t.dev.errors.summary.toNat 3 = true ∧
      t.dev = { s.dev with arbs := t.dev.arbs, errors := t.dev.errors, fns := t.dev.fns, out := t.dev.out }) ∧
    (u = 56 → s.dev.meshThresh ≠ 0 → r ∉ s.dev.meshStarve → Answers (.arbStarvation u r) s fun t =>
      t.dev.meshStarve = s.dev.meshStarve ++ [r] ∧ bitOf t.dev.errors.summary.toNat 3 = true)) ∧
  (∀ (s : State) (n flit : Nat) (dir : Bool) (rs cs : List Nat), n < 108 → (s.dev.seam n).down = false →
    let at' (x : Nat × Nat) : Nat := if dir then x.2 else x.1
    at' (s.dev.seam n).seqs = flit →
    (at' (s.dev.seam n).fails < 3 → Answers (.seamFlitFail n dir flit ⟨rs, cs⟩) s fun t => (t.dev.seam n).down = false ∧
      at' (t.dev.seam n).fails = at' (s.dev.seam n).fails + 1 ∧ t.dev = { s.dev with seams := t.dev.seams, dike := t.dev.dike }) ∧
    (3 ≤ at' (s.dev.seam n).fails → Answers (.seamFlitFail n dir flit ⟨rs, cs⟩) s fun t => (t.dev.seam n).down = true ∧
      bitOf t.dev.errors.summary.toNat 14 = true ∧ SameMemory s t ∧
      ∀ r ∈ rs, s.dev.runCrosses n r = true → (t.dev.runOf r).withhold.isSome = true))

/-- On a device that has not stopped for a lost structure: SNAPSHOT ready at the coordinator of a bound source, or its
schedule at another rank, installs the interval, first tide and stop; the command of several ranks ends with the last
answer that its rank holds the schedule, or with one that cannot, and then no schedule stands. SECURE_NOW_REQUEST
makes the next boundary a candidate, or, less than 4 us before one outside the ebb, the following one. SNAPSHOT_VOTE
at the ebb: with a vote missing it is only kept; where the rest of the ebb does not follow at once, all in and one
against, the job declines, is a candidate again and its context's next commit says so, memory unchanged; all for and
no class-P step running, the generation of this tide drains. SNAPSHOT_DECISION to freeze after an own vote for it
freezes likewise; against, it declines, and where it was the last open one the rest of the ebb is done; or it abandons
the generation that drains. At a keeper no slot of that generation stays filling or drained. (R511, R513, R514, R517) -/
def Obligations.SnapshotsAreDecided : Prop :=
  (∀ (s : State) (q ctx : Nat) (c : Cmd), HeadReady s q Op.snapshot (fun _ => true) c ctx →
    let j := jobOf (c.p 0) ctx
    s.dev.jobHandleOk (c.p 0) ctx = true → s.dev.coordinates j = true → s.dev.isSource ctx = true →
    (s.dev.job j).scheduling = none → Answers (.snapshot (.queue q)) s fun t =>
      (1 < (s.dev.jobRanks j).length → (t.dev.job j).scheduling = some (q, (begun s q ctx c).2)) ∧ (t.dev.job j).scheduled = !(c.pf 4 17 1 == 1) ∧
      (t.dev.job j).interval = c.p 1 ∧ (t.dev.job j).nextTide = c.p64 2 ∧ (∀ n, n ≠ j → t.dev.job n = s.dev.job n) ∧
      t.dev.runs = s.dev.runs ∧ SameMemory s t) ∧
  (∀ (s : State) (j n first : Nat) (stop : Bool), s.dev.allJobs.contains j = true → s.dev.coordinates j = false →
    let bound := s.dev.isSource (s.dev.jobCtx j)
    AnswersDev (.snapshot (.rank j n first stop)) s ((if bound || stop then s.dev.modJob j fun x =>
      { x with scheduled := !stop, interval := n, nextTide := first, candidate := !stop && first == 0, progress := none }
      else s.dev).emit (.fabric ((s.dev.jobRanks j).getD (s.dev.coordRank j) 0)
        (.scheduleHeld (s.dev.jobName j) (s.dev.jobRank j) bound)))) ∧
  (∀ (s : State) (j r q : Nat) (c : Cmd), s.dev.allJobs.contains j = true → s.dev.coordinates j = true →
    r < (s.dev.jobRanks j).length → (s.dev.job j).scheduling = some (q, c) →
    (Answers (.snapshot (.reply j r false)) s fun t => (t.dev.job j).scheduling = none ∧ (t.dev.job j).scheduled = false ∧
      SameMemory s t) ∧
    ((∀ n < (s.dev.jobRanks j).length, n = s.dev.jobRank j ∨ n = r ∨ n ∈ (s.dev.job j).holders) →
      Answers (.snapshot (.reply j r true)) s fun t => (t.dev.job j).scheduling = none ∧
        (∀ k ∈ (t.dev.queue q).begun, k.seq ≠ c.seq) ∧ SameMemory s t)) ∧
  (∀ (s : State) (j r ns : Nat), s.dev.dike.stopped = false → s.dev.allJobs.contains j = true →
    (4000 ≤ ns ∨ s.dev.tide.phase = .ebb → Answers (.secureNowRequest j r ns) s fun t => (t.dev.job j).candidate = true ∧
      t.dev = { s.dev with jobs := t.dev.jobs, out := t.dev.out }) ∧
    (ns < 4000 → s.dev.tide.phase ≠ .ebb → AnswersDev (.secureNowRequest j r ns) s
      (s.dev.modJob j fun x => { x with candidateAfter := true }))) ∧
  (∀ (s : State) (j r : Nat) (f : Bool), s.dev.dike.stopped = false → s.dev.allJobs.contains j = true → s.dev.coordinates j = true →
    r < (s.dev.jobRanks j).length → s.dev.tide.phase = .ebb →
    let vs := ((s.dev.job j).votes.filter fun y => y.1 != r) ++ [(r, f)]
    let all (p : Nat → Prop) : Prop := ∀ n < (s.dev.jobRanks j).length, p n
    (¬ all (fun n => ∃ v ∈ vs, v.1 = n) → (s.dev.tide.ebbRest = false ∨ s.dev.freezesOpen = true) → AnswersDev (.snapshotVote j r f) s
      (s.dev.modJob j fun x => { x with votes := vs })) ∧
    (all (fun n => ∃ v ∈ vs, v.1 = n) → ¬ all (fun n => (n, true) ∈ vs) → s.dev.ebbStays j → Answers (.snapshotVote j r f) s fun t =>
      (t.dev.job j).votes = [] ∧ (t.dev.job j).candidate = true ∧ (t.dev.ctx (s.dev.jobCtx j)).skipDue = true ∧
      SameMemory s t) ∧
    (all (fun n => (n, true) ∈ vs) → s.dev.jobPRuns j = false → s.dev.ebbStays j → Answers (.snapshotVote j r f) s fun t =>
      (t.dev.job j).votes = [] ∧ (t.dev.job j).current = some s.dev.tide.number)) ∧
  (∀ (s : State) (j : Nat), s.dev.dike.stopped = false → s.dev.allJobs.contains j = true →
    ((s.dev.job j).vote = some true → s.dev.tide.phase = .ebb → s.dev.jobPRuns j = false → s.dev.ebbStays j →
      Answers (.snapshotDecision (.rank j) true) s fun t => (t.dev.job j).current = some s.dev.tide.number ∧
        (t.dev.job j).vote = none) ∧
    ((s.dev.job j).vote.isSome = true → s.dev.ebbStays j → Answers (.snapshotDecision (.rank j) false) s fun t => (t.dev.job j).vote = none ∧
      (t.dev.job j).candidate = true ∧ SameMemory s t) ∧
    ((s.dev.job j).vote.isSome = true → (∀ x ∈ s.dev.jobs, x.1 = j ∨ (x.2.freezing = false ∧ x.2.vote = none)) →
      Answers (.snapshotDecision (.rank j) false) s fun t => t.dev.tide.ebbRest = false) ∧
    ((s.dev.job j).vote = none → (s.dev.job j).current.isSome = true → Answers (.snapshotDecision (.rank j) false) s fun t =>
      (t.dev.job j).current = none ∧ SameMemory s t)) ∧
  (∀ (s : State) (c a x g : Nat), s.dev.dike.stopped = false → Answers (.snapshotDecision (.keeper c a x g) false) s fun t =>
    SameMemory s t ∧ ∀ k ∈ (t.dev.haven c).keeps, k.source = a → k.sourceCtx = x → ∀ y ∈ k.slots, y.generation = g →
      y.state ≠ .filling ∧ y.state ≠ .drained)

/-- On a device that has not stopped for a lost structure: FILL_DONE ends the fill of every window entry and nothing else.
HAVEN_UNIT_RECEIVE into a filling slot: the slot is drained and confirmed exactly when the unit completes it.
DRAIN_CONFIRMED ends the context's drain and marks its jobs of that generation drained. SNAPSHOT_COMPLETE at the
coordinator whose job has drained makes the generation the restore point, signals the progress fence if that is ahead,
and drops the current generation; on another rank the restore point likewise; at the keeper a drained slot of the
generation is complete. (R508, R514, R515, R516) -/
def Obligations.GenerationsDrainAndComplete : Prop :=
  (∀ (s : State) (c : Nat), c < 4096 → Answers (.fillDone c) s fun t => t.dev = { s.dev with maps := t.dev.maps } ∧
    (∀ e ∈ s.dev.windowEntries c, t.dev.mapEntry e = { s.dev.mapEntry e with fill := false }) ∧
    (∀ e, e ∉ s.dev.windowEntries c → t.dev.mapEntry e = s.dev.mapEntry e)) ∧
  (∀ (s : State) (u : HavenUnit) (c : Nat) (k : Keeping), s.dev.dike.stopped = false → s.dev.ctxOfTag u.keeperCtx = some c →
    (s.dev.haven c).keeps.find? (fun k => k.bound && k.source == u.source && k.sourceCtx == u.sourceCtx) = some k →
    let b := k.slotFor u.generation
    (k.slot b).state = .filling → (k.slot b).generation = u.generation →
    let whole : Prop := ∀ i < u.units, i = u.unit ∨ ((k.slot b).units.find i).isSome = true
    Answers (.havenUnitReceive u) s fun t => SameMemory s t ∧ ∃ y ∈ (t.dev.haven c).keeps, y.source = u.source ∧
      y.sourceCtx = u.sourceCtx ∧ (y.slot b).units.find u.unit = some u.bytes ∧
      (whole → (y.slot b).state = .drained ∧ t.dev.out = s.dev.out ++ [.fabric u.source (.confirm u.sourceCtx u.generation)]) ∧
      (¬ whole → (y.slot b).state = .filling ∧ t.dev.out = s.dev.out)) ∧
  (∀ (s : State) (c g : Nat), c < 4096 → (s.dev.haven c).draining = some g → Answers (.drainConfirmed c) s fun t =>
    (t.dev.haven c).draining = none ∧ (t.dev.haven c).shard = none ∧ SameMemory s t ∧
    ∀ j ∈ s.dev.jobsOfCtx c, (s.dev.job j).current = some g → (t.dev.job j).drained = true) ∧
  (∀ (s : State) (j g : Nat), s.dev.dike.stopped = false → (s.dev.job j).current = some g → s.dev.allJobs.contains j = true → (s.dev.job j).drained = true →
    (s.dev.coordinates j = true → Answers (.snapshotComplete (.coordinator j)) s fun t => (t.dev.job j).restore = some g ∧
      (t.dev.job j).current = none ∧ SameMemory s t ∧ ∀ q f k, (s.dev.job j).progress = some (q, f) →
        s.dev.ctxOfTag (s.dev.queue q).context.toNat = some k → s.dev.ownsFence k f = true →
        signalRead (s.dev.fence f).value (BitVec.ofNat 32 g) = .ahead →
        (t.dev.fence f).value = BitVec.ofNat 32 g ∧ (t.dev.fence f).state = .signalled) ∧
    (s.dev.coordinates j = false → AnswersDev (.snapshotComplete (.rank j)) s
      (s.dev.modJob j fun x => { x with restore := some g, current := none, drained := false }))) ∧
  (∀ (s : State) (c a x g : Nat), s.dev.dike.stopped = false → Answers (.snapshotComplete (.keeper c a x g)) s fun t =>
    t.dev = { s.dev with havens := t.dev.havens } ∧ ∀ k ∈ (t.dev.haven c).keeps, k.source = a → k.sourceCtx = x →
      ¬ (k.slotA.state = .drained ∧ k.slotA.generation = g) ∧ ¬ (k.slotB.state = .drained ∧ k.slotB.generation = g))

/-- On a device that has not stopped for a lost structure: HAVEN_BIND ready with the context's bind slot free and the
partner in another basin: as a source with frames for its twins and a key slot, the partner is named and bound exactly
if its own bind has come; as a keeper new to the source, the source joins its list; with no snapshot key slot it
waits. HAVEN_BIND_RECEIVE at an open context completes the source's bind, or stays as an offer. HAVEN_BIND_TIMEOUT
drops the binding and the command. HAVEN_UNBIND of a bound source ends the binding; of none only the command ends.
RESTORE with the wanted generation, matching digests and no scale entry out of use: the shard waits for the ebb; an
incomplete pull only ends the command. (R506, R507, R522, R523, R539) -/
def Obligations.HavensBindAndRestore : Prop :=
  (∀ (s : State) (q ctx : Nat) (c : Cmd), HeadReady s q Op.havenBind (fun c => c.pf 0 2 1 == 0) c ctx →
    let a := c.pf 1 0 10
    let x := c.pf 2 0 16
    let h := s.dev.haven ctx
    h.cmd = none → basinOf a ≠ basinOf s.dev.fabric.address.toNat →
    (∀ d1, c.pf 0 0 1 = 0 → h.partner = none → s.dev.snapshotSlots < 64 →
      (begun s q ctx c).1.chargeTwins ctx = .ok d1 → Answers (.havenBind q) s fun t =>
        (t.dev.haven ctx).partner = some (a, x) ∧ ((t.dev.haven ctx).bound = true ↔ (a, x) ∈ h.offers) ∧
        ((a, x) ∉ h.offers → (t.dev.haven ctx).cmd = some (q, (begun s q ctx c).2)) ∧
        Out.fabric a (.havenBind (s.dev.ctx ctx).tag.toNat x) ∈ t.dev.out) ∧
    (c.pf 0 0 1 = 0 → h.partner = none → 64 ≤ s.dev.snapshotSlots → AnswersDev (.havenBind q) s (s.dev.waitKey 5 q)) ∧
    (c.pf 0 0 1 = 1 → (h.keeps.any fun k => k.source == a && k.sourceCtx == x) = false → Answers (.havenBind q) s fun t =>
      ∃ k ∈ (t.dev.haven ctx).keeps, k.source = a ∧ k.sourceCtx = x ∧ (k.bound = true ↔ (a, x) ∈ h.offers))) ∧
  (∀ (s : State) (c a x : Nat), s.dev.dike.stopped = false → c < 4096 → (s.dev.ctx c).state.isOpen = true →
    ((s.dev.haven c).partner = some (a, x) → (s.dev.haven c).bound = false → Answers (.havenBindReceive c a x) s fun t =>
      (t.dev.haven c).bound = true ∧ (t.dev.haven c).cmd = none ∧ SameMemory s t) ∧
    ((s.dev.haven c).partner ≠ some (a, x) → (s.dev.haven c).keeps = [] → AnswersDev (.havenBindReceive c a x) s
      (s.dev.modHaven c fun h => { h with offers := h.offers ++ [(a, x)] }))) ∧
  (∀ (s : State) (ctx q : Nat) (c : Cmd), ctx < 4096 → (s.dev.haven ctx).cmd = some (q, c) →
    Answers (.havenBindTimeout ctx) s fun t => (t.dev.haven ctx).cmd = none ∧ SameMemory s t ∧
      (c.pf 0 0 1 = 0 → (t.dev.haven ctx).partner = none ∧ (t.dev.haven ctx).bound = false) ∧
      (c.pf 0 0 1 = 1 → ∀ k ∈ (t.dev.haven ctx).keeps, ¬ (k.source = c.pf 1 0 10 ∧ k.sourceCtx = c.pf 2 0 16))) ∧
  (∀ (s : State) (q ctx : Nat) (c : Cmd), HeadReady s q Op.havenBind (fun c => c.pf 0 2 1 == 1) c ctx → c.pf 0 0 1 = 0 →
    s.dev.drainInFlight c ctx = false →
    let mine : Prop := (s.dev.haven ctx).partner = some (c.pf 1 0 10, c.pf 2 0 16) ∧ (s.dev.haven ctx).bound = true
    (mine → Answers (.havenUnbind q) s fun t => (t.dev.haven ctx).partner = none ∧ (t.dev.haven ctx).bound = false ∧
      SameMemory s t) ∧
    (¬ mine → Answers (.havenUnbind q) s fun t => EndsOnly q c.signal s.dev t.dev)) ∧
  (∀ (s : State) (q ctx : Nat) (c : Cmd), HeadReady s q Op.restore (fun _ => true) c ctx →
    (s.dev.runs.any fun x => x.2.ctx == ctx) = false → (s.dev.haven ctx).restoring = none →
    s.dev.jobHandleOk (c.p 0) ctx = true → s.dev.isSource ctx = true →
    (∀ sh : Shard, s.dev.wanted (jobOf (c.p 0) ctx) (c.p64 1) sh.generation = true →
      sh.plans.map ShardPlan.digest = (s.dev.ctxPlans ctx).map (fun p => p.2.module.digest) →
      (∀ p ∈ s.dev.ctxPlans ctx, ∀ t ∈ p.2.tensors, ∀ e, t.entry = some e → s.dev.entryRefused e = false) → AnswersDev (.restore q (.shard sh)) s
        ((begun s q ctx c).1.modHaven ctx fun h => { h with restoring := some (q, (begun s q ctx c).2, sh) })) ∧
    (Answers (.restore q .incomplete) s fun t => EndsOnly q c.signal s.dev t.dev))

/-- On a device that has not stopped for a lost structure: TAKEOVER ready on a context without a partner, its keeper in
another basin, none under way: it is remembered and the request goes to the contact. TAKEOVER_TIMEOUT forgets it and
only ends the command. TAKEOVER_REQUEST_RECEIVE with no open group is refused to the spare; at the coordinator a
request that fails its check is refused, and one that passes, for another spare, replaces the rank and marks the job
for rollback to the restore point. TAKEOVER_SUBSTITUTION at a surviving rank takes list, nonce and key; at the spare a
free group slot opens with them and the keeper is its bound partner; a refusal ends the command. (R518, R519, R520) -/
def Obligations.TakeoversReplaceARank : Prop :=
  (∀ (s : State) (q ctx : Nat) (c : Cmd), HeadReady s q Op.takeover (fun _ => true) c ctx →
    (s.dev.haven ctx).takeover = none → (s.dev.haven ctx).partner = none →
    basinOf (c.pf 4 0 10) ≠ basinOf s.dev.fabric.address.toNat → Answers (.takeover q) s fun t =>
      (t.dev.haven ctx).takeover = some (q, (begun s q ctx c).2) ∧ ∃ m : TakeoverRequest,
        t.dev.out = s.dev.out ++ [.fabric (c.pf 3 16 10) (.takeoverRequest m)] ∧ m.groupId = c.p64 0 ∧
        m.rank = c.pf 2 0 11 ∧ m.failed = c.pf 3 0 10 ∧ m.spare = s.dev.fabric.address.toNat) ∧
  (∀ (s : State) (ctx q : Nat) (c : Cmd), ctx < 4096 → (s.dev.haven ctx).takeover = some (q, c) →
    Answers (.takeoverTimeout ctx) s fun t => (t.dev.haven ctx).takeover = none ∧
      EndsOnly q c.signal (s.dev.modHaven ctx fun h => { h with takeover := none }) t.dev) ∧
  (∀ (s : State) (m : TakeoverRequest), s.dev.dike.stopped = false → s.dev.openGroup m.groupId = none → ∃ x : Substitution,
    AnswersDev (.takeoverRequestReceive m) s (s.dev.emit (.fabric m.spare (.substitution x))) ∧
    x.code = Code.fabricAuth ∧ x.spareCtx = m.spareCtx) ∧
  (∀ (s : State) (m : TakeoverRequest) (g : Nat), s.dev.dike.stopped = false → s.dev.openGroup m.groupId = some g → s.dev.coordinates g = true →
    (∀ e, s.dev.requestCode g m = some e → ∃ x : Substitution,
      AnswersDev (.takeoverRequestReceive m) s (s.dev.emit (.fabric m.spare (.substitution x))) ∧ x.code = e) ∧
    (s.dev.requestCode g m = none → m.spare ≠ s.dev.fabric.address.toNat → Answers (.takeoverRequestReceive m) s fun t =>
      (t.dev.group g).ranks = (s.dev.group g).ranks.set m.rank m.spare ∧
      (t.dev.job g).substituted = some ((s.dev.job g).restore.getD 0))) ∧
  (∀ (s : State) (m : Substitution) (g : Nat), s.dev.dike.stopped = false → m.code = 0 → m.spare ≠ s.dev.fabric.address.toNat →
    s.dev.openGroup m.groupId = some g → Answers (.takeoverSubstitution m) s fun t => (t.dev.group g).ranks = m.ranks ∧
      (t.dev.group g).nonce = m.nonce ∧ (t.dev.group g).key = some (s.dev.linkKey (s.dev.group g).ctx m.groupId m.nonce) ∧
      (t.dev.job g).substituted = some m.restore ∧ (t.dev.job g).restore = some m.restore) ∧
  (∀ (s : State) (m : Substitution) (ctx q : Nat) (c : Cmd), s.dev.dike.stopped = false → m.spare = s.dev.fabric.address.toNat →
    s.dev.ctxOfTag m.spareCtx = some ctx → (s.dev.haven ctx).takeover = some (q, c) →
    (m.code ≠ 0 → Answers (.takeoverSubstitution m) s fun t =>
      EndsOnly q c.signal (s.dev.modHaven ctx fun h => { h with takeover := none }) t.dev) ∧
    (∀ g, m.code = 0 → (List.range 1024).find? (fun g => (s.dev.group g).state == .free) = some g →
      Answers (.takeoverSubstitution m) s fun t => (t.dev.group g).state = .opened ∧ (t.dev.group g).ranks = m.ranks ∧
        (t.dev.group g).rank = m.rank ∧ (t.dev.haven ctx).partner = some (m.keeper, m.keeperCtx) ∧
        (t.dev.haven ctx).bound = true ∧ (t.dev.haven ctx).takeover = none))

/-- On a device that has not stopped for a lost structure: EVACUATION_HOLD of a rank of a job holds the job and its
context. EVACUATION_STOP of a context with jobs whose evacuation is due: the context is evacuated, no fetched command
of its tag is left in a queue, ERR_SUMMARY's Dikewatch bit is set and memory is unchanged. CORE_FAULT of a pilot in
service sets the core-fault bit and withholds each context with a step on the tile; of a loader core it uses a spare
while one is left, else the core is down and idle. The rows that carry a generation run: FILL_DONE leaves no entry of
the window filling, HAVEN_UNIT_RECEIVE into a filling slot answers, DRAIN_CONFIRMED ends the drain, SNAPSHOT_COMPLETE
at a rank sets the restore point. (R508, R514, R515, R521, R525, R527) -/
def Obligations.HoldsEvacuationsAndCores : Prop :=
  (∀ (s : State) (j r : Nat), s.dev.dike.stopped = false → s.dev.allJobs.contains j = true → r < (s.dev.jobRanks j).length →
    Answers (.evacuationHold j r) s fun t => (t.dev.job j).held = true ∧ (t.dev.ctx (s.dev.jobCtx j)).held = true ∧
      t.dev = { s.dev with jobs := t.dev.jobs, ctxs := t.dev.ctxs, out := t.dev.out }) ∧
  (∀ (s : State) (c : Nat), c < 4096 → s.dev.jobsOfCtx c ≠ [] → (s.dev.ctx c).evacuated = false → s.dev.evacDue c = true →
    Answers (.evacuationStop c) s fun t => (t.dev.ctx c).evacuated = true ∧ t.dev.dike.evacuated = true ∧
      bitOf t.dev.errors.summary.toNat 5 = true ∧ SameMemory s t ∧
      ∀ q, ∀ k ∈ (t.dev.queue q).fetched, k.context ≠ (s.dev.ctx c).tag.toNat) ∧
  (∀ (s : State) (n k : Nat), n < 16 → s.dev.sys.service = .neap ∨ s.dev.sys.service = .spring →
    Answers (.coreFault n k) s fun t => bitOf t.dev.errors.summary.toNat 11 = true ∧ SameMemory s t ∧
      ∀ r ∈ s.dev.runs, (s.dev.plan r.2.plan).tiles.contains n = true → (s.dev.ctx r.2.ctx).withhold = none →
        (t.dev.ctx r.2.ctx).withhold = some Code.coreFault) ∧
  (∀ (s : State) (k : Nat), k < 8 → s.dev.sys.service = .neap ∨ s.dev.sys.service = .spring → s.dev.coresDown.contains k = false →
    (0 < s.dev.spareCores → Answers (.coreFault dieOfCd k) s fun t => t.dev.spareCores = s.dev.spareCores - 1 ∧
      t.dev.loads = s.dev.loads ∧ bitOf t.dev.errors.summary.toNat 11 = true) ∧
    (s.dev.spareCores = 0 → Answers (.coreFault dieOfCd k) s fun t => k ∈ t.dev.coresDown ∧ t.dev.load k = none ∧
      bitOf t.dev.errors.summary.toNat 11 = true)) ∧
  (∀ (s : State) (c : Nat), c < 4096 → Answers (.fillDone c) s fun t => ∀ e ∈ s.dev.windowEntries c, (t.dev.mapEntry e).fill = false) ∧
  (∀ (s : State) (u : HavenUnit) (c : Nat) (k : Keeping), s.dev.dike.stopped = false → s.dev.ctxOfTag u.keeperCtx = some c →
    (s.dev.haven c).keeps.find? (fun k => k.bound && k.source == u.source && k.sourceCtx == u.sourceCtx) = some k →
    (k.slot (k.slotFor u.generation)).state = .filling → (k.slot (k.slotFor u.generation)).generation = u.generation →
    Answers (.havenUnitReceive u) s fun t => SameMemory s t ∧ ∃ y ∈ (t.dev.haven c).keeps, y.source = u.source ∧
      y.sourceCtx = u.sourceCtx ∧ (y.slot (k.slotFor u.generation)).units.find u.unit = some u.bytes) ∧
  (∀ (s : State) (c g : Nat), c < 4096 → (s.dev.haven c).draining = some g →
    Answers (.drainConfirmed c) s fun t => (t.dev.haven c).draining = none) ∧
  (∀ (s : State) (j g : Nat), s.dev.dike.stopped = false → (s.dev.job j).current = some g → s.dev.allJobs.contains j = true →
    (s.dev.job j).drained = true → s.dev.coordinates j = false →
    Answers (.snapshotComplete (.rank j)) s fun t => (t.dev.job j).restore = some g ∧ (t.dev.job j).current = none)

/-- CHARTER_CREATE ready outside FIELD, or with a charter not valid, only ends the command; in FIELD a valid charter whose
required measurement is the device's takes the lowest empty slot, KEYING. CHARTER_KEY on a KEYING charter waits while
32 envelope slots are in use; else a good wrap record adds the owner's key, and the charter is ACTIVE exactly when
every owner's is there, while a bad one only ends the command. CHARTER_BIND ties an ACTIVE charter to a context with
none, without plans or valid pages; else only the command ends. CHARTER_ADMIT with an owner's good signature admits
that owner on the queue's function; with a bad one only the command ends. CHARTER_CLOSE empties the slot once no
context that is not CLOSED is bound, else leaves it CLOSING. KEY_SLOT_FREED drops the waits of its class and takes up
the one command that waited: a RUN_PLAN, a KEY, a HAVEN_BIND, or a STAGE or PUT_TENSOR. (R539, R543, R544, R545, R546,
R547, R548, R549, R555, R565) -/
def Obligations.ChartersLiveAndClose : Prop :=
  (∀ (s : State) (q ctx : Nat) (c : Cmd), HeadReady s q Op.charterOpen (fun c => c.pf 0 0 3 == 0) c ctx →
    (s.dev.life.state ≠ 3 ∨ s.dev.validCharter (c.bytesFrom 1) = none → Answers (.charterCreate q) s fun t =>
        EndsOnly q c.signal s.dev t.dev) ∧
    (∀ x k, s.dev.life.state = 3 → s.dev.validCharter (c.bytesFrom 1) = some x →
      (List.range 256).find? (fun k => (s.dev.charter k).state == .empty) = some k →
      (∀ m, x.minMeasure = some m → m = s.dev.measureSet) → Answers (.charterCreate q) s fun t =>
        t.dev.charter k = { x with state := .keying } ∧
        EndsOnly q c.signal (s.dev.modCharter k fun _ => { x with state := .keying }) t.dev)) ∧
  (∀ (s : State) (q ctx : Nat) (c : Cmd), HeadReady s q Op.charterOpen (fun c => c.pf 0 0 3 == 1) c ctx →
    let k := c.pf 1 0 8
    let o := c.pf 2 0 4
    let x := s.dev.charter k
    x.state = .keying →
    (32 ≤ s.dev.sluiceSlots → AnswersDev (.charterKey q) s (s.dev.waitKey 4 q)) ∧
    (∀ key, s.dev.sluiceSlots < 32 → x.keys.find o = none →
      s.dev.unwrap x k o ((c.bytesFrom 1).take 144) = some key → Answers (.charterKey q) s fun t =>
        (t.dev.charter k).keys = x.keys.put o key ∧
        ((t.dev.charter k).state = .active ↔ (x.keys.put o key).length = x.owners.length) ∧
        (∀ n, n ≠ k → t.dev.charter n = s.dev.charter n) ∧ EndsOnly q c.signal (s.dev.modTrust fun _ => t.dev.trust) t.dev) ∧
    (s.dev.sluiceSlots < 32 → s.dev.unwrap x k o ((c.bytesFrom 1).take 144) = none →
      Answers (.charterKey q) s fun t => EndsOnly q c.signal s.dev t.dev)) ∧
  (∀ (s : State) (q ctx : Nat) (c : Cmd), HeadReady s q Op.charterOpen (fun c => c.pf 0 0 3 == 2) c ctx →
    let k := c.pf 1 0 8
    let fits : Prop := (s.dev.charter k).state = .active ∧ (s.dev.ctx ctx).charter = none ∧ s.dev.ctxPlans ctx = [] ∧
      ∀ e ∈ s.dev.windowEntries ctx, (s.dev.mapEntry e).valid = false
    (fits → Answers (.charterBind q) s fun t => (t.dev.ctx ctx).charter = some k ∧
      EndsOnly q c.signal (s.dev.modCtx ctx fun x => { x with charter := some k }) t.dev) ∧
    (¬ fits → Answers (.charterBind q) s fun t => EndsOnly q c.signal s.dev t.dev)) ∧
  (∀ (s : State) (q ctx : Nat) (c : Cmd), HeadReady s q Op.charterOpen (fun c => c.pf 0 0 3 == 3) c ctx →
    let k := c.pf 1 0 8
    let o := c.pf 2 0 4
    let fn := (s.dev.queue q).function.toNat
    let message := Config.sha512 (ascii "ONV-ADMIT" ++ (s.dev.charter k).digest ++ bytesOfNat 8 s.dev.sys.serial.toNat ++
      bytesOfNat 1 fn ++ ((s.dev.fn fn).tdiNonce.map Config.random).getD [])
    ∀ owner, (s.dev.charter k).state = .active → (s.dev.ctx ctx).charter = some k → s.dev.admittedFn fn = true →
      (s.dev.charter k).owners[o]? = some owner →
      (Config.ed25519Verify owner message ((c.bytesFrom 1).take 64) = true → Answers (.charterAdmit q) s fun t =>
        (∀ p, p ∈ (t.dev.fn fn).admitted ↔ p = (k, o) ∨ p ∈ (s.dev.fn fn).admitted) ∧
        EndsOnly q c.signal (s.dev.modFn fn fun f => { f with admitted := (t.dev.fn fn).admitted }) t.dev) ∧
      (Config.ed25519Verify owner message ((c.bytesFrom 1).take 64) = false → Answers (.charterAdmit q) s fun t =>
        EndsOnly q c.signal s.dev t.dev)) ∧
  (∀ (s : State) (q ctx : Nat) (c : Cmd), HeadReady s q Op.charterClose (fun _ => true) c ctx →
    let k := c.pf 0 0 8
    let bound : Prop := ∃ p ∈ s.dev.ctxs, p.2.state ≠ .closed ∧ p.2.charter = some k
    let live : Prop := (s.dev.charter k).state = .keying ∨ (s.dev.charter k).state = .active
    (live → bound → Answers (.charterClose q) s fun t =>
      EndsOnly q c.signal (s.dev.modCharter k fun x => { x with state := .closing }) t.dev) ∧
    (live → ¬ bound → Answers (.charterClose q) s fun t => t.dev.charter k = {} ∧
      (∀ n, n ≠ k → t.dev.charter n = s.dev.charter n) ∧
      ∀ x, x ∈ t.dev.life.certs ↔ x ∈ s.dev.life.certs ∧ ¬ (x.owner = true ∧ x.charter = (s.dev.charter k).digest)) ∧
    (¬ live → Answers (.charterClose q) s fun t => EndsOnly q c.signal s.dev t.dev)) ∧
  (∀ (s : State) (n : Nat), n < 7 →
    let d := s.dev.modTrust fun t => { t with keyWaits := t.keyWaits.filter fun w => w.1 != n }
    let waiting := s.dev.trust.keyWaits.filter fun w => w.1 == n
    ((n ≠ 0 ∧ n ≠ 4 ∧ n ≠ 5 ∧ n ≠ 6 ∨ waiting = []) → AnswersDev (.keySlotFreed n) s d) ∧
    (∀ q, n = 0 → waiting = [(n, q)] → Answers (.keySlotFreed n) s fun t => exec (.runPlan q) { s with dev := d } = .next t) ∧
    (∀ q, n = 6 → waiting = [(n, q)] → Answers (.keySlotFreed n) s fun t =>
      ∃ u, exec (.stage q) { s with dev := d } = .next u ∧ exec (.putTensor q) u = .next t) ∧
    (∀ q, n = 4 → waiting = [(n, q)] → Answers (.keySlotFreed n) s fun t => exec (.charterKey q) { s with dev := d } = .next t) ∧
    (∀ q, n = 5 → waiting = [(n, q)] → Answers (.keySlotFreed n) s fun t => exec (.havenBind q) { s with dev := d } = .next t))

/-- While the registers answer: TDISP_LOCK_INTERFACE of an unlocked interface with a selective stream draws the nonce,
sends it and locks; without a stream, or locked already, nothing changes. TDISP_START_INTERFACE moves CONFIG_LOCKED to
RUN. TDISP_STOP_INTERFACE unlocks, and out of RUN silences the function: none of its enabled queues stays enabled or
keeps a fetched command, and what it began belongs to an earlier era. IDE_KM outside every session changes nothing;
inside one it programs, starts and stops key sets, answers a query and binds a VF to a live stream. SPDM_REQUEST over
a transport that is up answers with exactly one message and changes only management and trust: NEGOTIATE_ALGORITHMS
makes the responder ready, KEY_EXCHANGE opens one of at most eight sessions once it is ready and END_SESSION ends one;
before that the answer is an error (codes: the model's choice, log 13). (R293, R294, R295, R535) -/
def Obligations.InterfacesAndSessions : Prop :=
  (∀ (s : State) (fn : Nat), 2 ≤ fn → fn ≤ 16 → s.dev.regsUp = true →
    ((s.dev.fn fn).tdi = 0 → (s.dev.fn fn).ideStream.isSome = true → Answers (.tdispLockInterface fn) s fun t =>
      t.dev.fn fn = { s.dev.fn fn with tdi := 1, tdiNonce := some s.dev.sys.draws } ∧
      (∀ n, n ≠ fn → t.dev.fn n = s.dev.fn n) ∧ t.dev.out = s.dev.out ++ [.tdisp fn s.dev.sys.draws] ∧
      t.dev = { s.dev with fns := t.dev.fns, sys := { s.dev.sys with draws := s.dev.sys.draws + 1 }, out := t.dev.out }) ∧
    ((s.dev.fn fn).tdi ≠ 0 ∨ (s.dev.fn fn).ideStream = none → AnswersDev (.tdispLockInterface fn) s s.dev) ∧
    ((s.dev.fn fn).tdi = 1 → AnswersDev (.tdispStartInterface fn) s (s.dev.modFn fn fun f => { f with tdi := 2 })) ∧
    ((s.dev.fn fn).tdi ≠ 1 → AnswersDev (.tdispStartInterface fn) s s.dev) ∧
    ((s.dev.fn fn).tdi = 1 ∨ (s.dev.fn fn).tdi = 3 → AnswersDev (.tdispStopInterface fn) s
      (s.dev.modFn fn fun f => { f with tdi := 0, tdiNonce := none, admitted := [] })) ∧
    ((s.dev.fn fn).tdi = 2 → Answers (.tdispStopInterface fn) s fun t =>
      t.dev.fn fn = { s.dev.fn fn with tdi := 0, tdiNonce := none, admitted := [], silent := true,
                                           era := (s.dev.fn fn).era + 1 } ∧
      (∀ n, n ≠ fn → t.dev.fn n = s.dev.fn n) ∧
      (∀ q, (s.dev.queue q).enable = true → (s.dev.queue q).function.toNat = fn →
        (t.dev.queue q).enable = false ∧ (t.dev.queue q).fetched = []) ∧
      t.dev = { s.dev with fns := t.dev.fns, queues := t.dev.queues })) ∧
  (∀ (s : State) (m : IdeKm), s.dev.regsUp = true → s.dev.trust.sessions = [] → AnswersDev (.ideKmMessage m) s s.dev) ∧
  (∀ (s : State) (l st k fn : Nat), s.dev.regsUp = true → s.dev.trust.sessions ≠ [] →
    (l < s.dev.links → st ≤ 16 → Answers (.ideKmMessage (.keyProg l st k)) s fun t =>
      t.dev = { s.dev with trust := { s.dev.trust with ide := t.dev.trust.ide } } ∧
      ∀ x, x ∈ t.dev.trust.ide ↔ x = (l, st, k) ∨ x ∈ s.dev.trust.ide) ∧
    ((l, st, k) ∈ s.dev.trust.ide → Answers (.ideKmMessage (.keySetGo l st k)) s fun t =>
      t.dev = { s.dev with trust := { s.dev.trust with ideLive := t.dev.trust.ideLive } } ∧
      ∀ x, x ∈ t.dev.trust.ideLive ↔ x = (l, st, k) ∨ (x ∈ s.dev.trust.ideLive ∧ ¬ (x.1 = l ∧ x.2.1 = st))) ∧
    Answers (.ideKmMessage (.keySetStop l st)) s (fun t =>
      (∀ x, x ∈ t.dev.trust.ide ↔ x ∈ s.dev.trust.ide ∧ ¬ (x.1 = l ∧ x.2.1 = st)) ∧
      (∀ x, x ∈ t.dev.trust.ideLive ↔ x ∈ s.dev.trust.ideLive ∧ ¬ (x.1 = l ∧ x.2.1 = st)) ∧
      (l = 0 → ∀ p ∈ t.dev.fns, p.2.ideStream ≠ some st) ∧ (l ≠ 0 → t.dev.fns = s.dev.fns)) ∧
    AnswersDev (.ideKmMessage (.query l)) s (s.dev.emit (.mgmt 0 (.vendor 0 l
      (s.dev.trust.ideLive.map fun x => BitVec.ofNat 32 (x.1 + 256 * x.2.1 + 65536 * x.2.2))))) ∧
    (2 ≤ fn → fn ≤ 16 → 1 ≤ st → (s.dev.fn fn).tdi = 0 → (∃ x ∈ s.dev.trust.ideLive, x.1 = 0 ∧ x.2.1 = st) →
      AnswersDev (.ideKmMessage (.bindVf fn st)) s (s.dev.modFn fn fun f => { f with ideStream := some st }))) ∧
  (∀ (s : State) (n : Nat) (m : SpdmMsg), n < 3 → s.dev.transportUp n = true → Answers (.spdmRequest n m) s fun t =>
    (∃ x, t.dev.out = s.dev.out ++ [.mgmt n x]) ∧
    t.dev = { s.dev with mgmt := t.dev.mgmt, trust := t.dev.trust, out := t.dev.out } ∧
    (m = .negotiateAlgorithms → t.dev.trust = { s.dev.trust with spdmReady := true }) ∧
    (∀ k, m = .keyExchange false k → s.dev.trust.spdmReady = true → s.dev.life.state ≠ 5 → s.dev.trust.sessions.length < 8 →
      t.dev.trust = { s.dev.trust with sessions := s.dev.trust.sessions.filter (· != k) ++ [k] }) ∧
    (∀ k, m = .endSession k → k ∈ s.dev.trust.sessions →
      t.dev.trust = { s.dev.trust with sessions := s.dev.trust.sessions.filter (· != k) }) ∧
    (∀ b k, m = .keyExchange b k → s.dev.trust.spdmReady = false → t.dev.trust = s.dev.trust ∧
      t.dev.out = s.dev.out ++ [.mgmt n (.spdmError 0x04)]))

/-- LC_TRANSITION while no command runs and no lockout holds: exactly with fewer than 8 failed tokens, a transition of
R568, its precondition, a quiet device and the right token it programs its intent row and waits; a wrong token counts,
locks out and gives LIFECYCLE_TOKEN; any other refusal only gives its code; each sets ERR_SUMMARY.lifecycle. While one
runs or the lockout holds it changes nothing. LC_TRANSITION_DONE with a commit row left: the new state waits for a
reset, every debug certificate is gone, the new root's bank is good and the old ones are destroyed.
TOKEN_LOCKOUT_EXPIRY only lifts the lockout. DEBUG_OPEN adds exactly the certificate that R576 accepts, or gives
DEBUG_DENIED and adds none. DEBUG_CLOSE drops them all, and the JTAG port goes back to BYPASS unless the device is
open. (R568, R569, R570, R573, R576, R578, R634) -/
def Obligations.LifeCycleMoves : Prop :=
  (∀ (d : Dev) (target t : Nat), d.transitionCheck target = .ok t ↔ d.life.tokenFails < 8 ∧
    transitionOf d.life.state target = some t ∧ d.life.ready t = true ∧ d.quietForLife = true ∧
    Config.sha512 (d.life.bytes 8) = tokenOf t) ∧
  (∀ (s : State) (target : Nat), s.dev.life.busy = false → s.dev.life.lockout = false → s.dev.lifeUp = true →
    (∀ t rows, s.dev.transitionCheck target = .ok t → programFlag s.dev.life.intents t = some rows →
      AnswersDev (.lcTransition target) s
        (s.dev.modLife fun l => { l with intents := rows, busy := true, transition := some t })) ∧
    (∀ code, s.dev.transitionCheck target = .error (code, true) → Answers (.lcTransition target) s fun t =>
      t.dev.life = { s.dev.life with tokenFails := s.dev.life.tokenFails + 1, lockout := true, code := BitVec.ofNat 16 code,
                                     data := [] } ∧
      bitOf t.dev.errors.summary.toNat 13 = true ∧ SameMemory s t) ∧
    (∀ code, s.dev.transitionCheck target = .error (code, false) → Answers (.lcTransition target) s fun t =>
      t.dev.life = { s.dev.life with code := BitVec.ofNat 16 code, data := [] } ∧
      bitOf t.dev.errors.summary.toNat 13 = true ∧ SameMemory s t)) ∧
  (∀ (s : State) (target : Nat), s.dev.life.busy = true ∨ s.dev.life.lockout = true →
    AnswersDev (.lcTransition target) s s.dev) ∧
  (∀ (s : State) (n : Nat), s.dev.life.transition = some n → s.dev.sys.clkLost = false →
    (programFlag s.dev.life.commits n).isSome = true → Answers .lcTransitionDone s fun t =>
      t.dev.life.pending = true ∧ t.dev.life.transition = none ∧ t.dev.life.busy = false ∧ t.dev.life.certs = [] ∧
      t.dev.life.code = 0 ∧ t.dev.life.state = s.dev.life.state ∧
      (n = 3 ∨ n = 4 → t.dev.life.banks.get 0 (rootBank n) = 2) ∧
      (n = 4 → t.dev.life.banks.get 0 0 = 3 ∧ t.dev.life.banks.get 0 1 = 3) ∧
      (n = 5 → t.dev.life.udsGone = true ∧ ∀ b < 4, t.dev.life.banks.get 0 b = 3) ∧
      bitOf t.dev.errors.summary.toNat 13 = true ∧ SameMemory s t) ∧
  (∀ s : State, AnswersDev .tokenLockoutExpiry s (s.dev.modLife fun l => { l with lockout := false })) ∧
  (∀ s : State, s.dev.life.busy = false → s.dev.lifeUp = true →
    (s.dev.debugCert = none → Answers .debugOpen s fun t =>
      t.dev.life = { s.dev.life with code := BitVec.ofNat 16 Code.debugDenied, data := [] } ∧
      bitOf t.dev.errors.summary.toNat 13 = true) ∧
    (∀ x n multi, s.dev.debugCert = some (x, n, multi) → Answers .debugOpen s fun t =>
      t.dev.life = { s.dev.life with certs := s.dev.life.certs ++ [x], boots := if multi then n else s.dev.life.boots,
                                     advanced := s.dev.life.advanced || multi, code := 0, data := [] } ∧
      bitOf t.dev.errors.summary.toNat 13 = true) ∧
    Answers .debugClose s fun t => t.dev.life = ({ s.dev.life with certs := [], code := 0, data := [] } : LifeCycle).releasePort ∧
      bitOf t.dev.errors.summary.toNat 13 = true)

/-- SET_OPPOINT ready with a code from its checks only ends the command; passing them, exactly its tiles request the
target, and no byte of memory changes. DROOP_STRETCH counts one droop event of the tile for Dikewatch. THERMAL_TRIP
drives THERMTRIP_N and forces the outputs, and with the control PLL locked sets every tile's rail to 0 V. POWER_SAMPLE
in service: the present power is the sum of the rails and each tile keeps its ten newest readings. THERMAL_SAMPLE in
service: each reported temperature stands, the thermal flag says whether any die is at 100 degrees or more, and a
stack reported once refreshes at double rate exactly above 95. (R594, R595, R599, R602, R604, R621, R560) -/
def Obligations.PowerAndHeat : Prop :=
  (∀ (s : State) (q ctx : Nat) (c : Cmd), HeadReady s q Op.setOppoint (fun _ => true) c ctx →
    let mask := c.pf 0 0 16
    let target := c.pf 0 16 2
    (∀ code, s.dev.oppointCheck mask target = some code → Answers (.setOppoint q) s fun t =>
      EndsOnly q c.signal s.dev t.dev) ∧
    (s.dev.oppointCheck mask target = none → Answers (.setOppoint q) s fun t => SameMemory s t ∧
      (∀ n < 16, bitOf mask n = true → t.dev.tile n = { s.dev.tile n with requested := target }) ∧
      (∀ n, n ≥ 16 ∨ bitOf mask n = false → t.dev.tile n = s.dev.tile n) ∧ t.dev.sys = s.dev.sys)) ∧
  (∀ (s : State) (n : Nat), n < 16 → AnswersDev (.droopStretch n) s (s.dev.dwEvent .droop n)) ∧
  (∀ s : State, s.dev.sys.tripped = false → Answers .thermalTrip s fun t => t.dev.sys.tripped = true ∧
    t.dev.sys.forced = true ∧ Out.thermtrip ∈ t.dev.out ∧ SameMemory s t ∧
    (s.dev.sys.pllLocked = true → ∀ n < 16, t.dev.tile n = { s.dev.tile n with millivolts := 0 } ∧ Out.avs n 0 ∈ t.dev.out) ∧
    (s.dev.sys.pllLocked = false → t.dev.tiles = s.dev.tiles)) ∧
  (∀ (s : State) (p : PowerReading), s.dev.serving = true → p.tileMw.length = 16 → p.railMw.length = 12 →
    Answers (.powerSample p) s fun t => t.dev.power.powerMw = sumNat (p.tileMw ++ p.railMw) ∧ SameMemory s t ∧
      (∀ n < 16, (t.dev.tile n).window = (p.tileMw.getD n 0 :: (s.dev.tile n).window).take 10 ∧
        (t.dev.tile n).current = (s.dev.tile n).current ∧ (t.dev.tile n).requested = (s.dev.tile n).requested)) ∧
  (∀ (s : State) (r : ThermalReading), s.dev.serving = true → (∀ e ∈ r.dies, e.1 ∈ dieCodes) →
    (∀ e ∈ r.stackTemps, e.1 < 24) → (∀ e ∈ r.banks, e.1 < 16) → (r.dies.map Prod.fst).Nodup → (r.stackTemps.map Prod.fst).Nodup →
    Answers (.thermalSample r) s fun t => SameMemory s t ∧
      (∀ e ∈ r.dies, t.dev.dike.temps.get 0 e.1 = e.2) ∧ (∀ e ∈ r.stackTemps, t.dev.power.stackC.get 0 e.1 = e.2) ∧
      (t.dev.power.thermalActive = true ↔ ∃ x ∈ t.dev.dike.temps, 100 ≤ x.2) ∧
      (∀ e ∈ r.stackTemps, (e.1 ∈ (t.dev.hub (e.1 / 6)).refresh2x ↔ 95 < e.2)))

/-- PROMOTION_START for a plan that holds a RESTING extent, the sluice empty: it is PROMOTING; with a promotion in flight
in the hub it is only queued, else it takes its frames. PROMOTION_DONE of an uncompressed copy in flight: exactly its
contents are written, in frames whose identifier is in use, and the extent is RESIDENT. PROMOTION_READ_FAIL: a bound
partner's mirror gives the contents; without one the extent is LOST and the runs waiting on it end aborted with
DEEP_READ_FAIL. SETTLEMENT_START of a complete FILLING extent with space takes the next serial and is SETTLING, its
writes waiting at the gate; without space, or after a failed check of its context in this tide, it stays FILLING.
SETTLEMENT_DONE once the gate is open: with a reference the extent is RESIDENT in its new slots with the copy's
contents, and the one command that waited succeeds; with none and no pin the copy is dropped and it is RESTING. (R424,
R440, R444, R445, R447, R449, R451, R452) -/
def Obligations.ExtentsPromoteAndSettle : Prop :=
  (∀ (s : State) (e plan : Nat), e < 16777216 → (s.dev.extent e).plans.contains plan = true → s.dev.serving = true →
    (s.dev.extent e).state = .resting → (s.dev.extent e).copy = [] → (s.dev.flashOf (extentHub e)).sluice = [] →
    let d1 := s.dev.requestPromotion e plan s.dev.tide.number
    let busy : Prop := ∃ y ∈ s.dev.extents, y.1 ≠ e ∧ extentHub y.1 = extentHub e ∧ y.2.underWay = true
    let free : Prop := ∀ y ∈ s.dev.extents, extentHub y.1 = extentHub e → y.2.underWay = false
    (busy → Answers (.promotionStart e plan) s fun t => (t.dev.extent e).state = .promoting ∧
      (t.dev.extent e).copy = (s.dev.extent e).copy ∧ plan ∈ (t.dev.extent e).refs ∧
      (t.dev.flashOf (extentHub e)).sluice = [(e, s.dev.tide.number)] ∧
      t.dev = { s.dev with extents := t.dev.extents, flash := t.dev.flash }) ∧
    (∀ x i d2 l, free → d1.extentTensor e = some (x, i) →
      let small := (s.dev.extent e).stored ≤ 512 && !d1.gathered e && !d1.aliasSource e
      d1.takeCopy ((s.dev.extent e).ctx, (s.dev.extent e).owner, true) (extentHub e)
        (copyFrames (s.dev.extent e).stored (extentPageCount x i) (!d1.gathered e && !d1.aliasSource e)) = .ok (d2, l) → Answers (.promotionStart e plan) s fun t =>
          (t.dev.extent e).state = .promoting ∧ (t.dev.extent e).copy = l ∧ (t.dev.extent e).compressed = small ∧
          plan ∈ (t.dev.extent e).refs ∧ (t.dev.flashOf (extentHub e)).sluice = [] ∧ t.dev.mem = d2.mem)) ∧
  (∀ (s : State) (e : Nat), e < 16777216 → (s.dev.extent e).underWay = true → (s.dev.extent e).compressed = false →
    (s.dev.extent e).releases = [] → (s.dev.extent e).refs ≠ [] → (s.dev.extent e).freeing = false → s.dev.stageQueue = [] →
    (s.dev.extents.map Prod.fst).Nodup →
    Answers (.promotionDone e) s fun t => t.dev.mem = Mem.writeAll (s.dev.accepted (copyCells (s.dev.extent e))) s.dev.mem ∧
      t.dev.extent e = { s.dev.extent e with state := .resident, lastUse := s.dev.tide.number } ∧
      ∀ n, n ≠ e → t.dev.extent n = s.dev.extent n) ∧
  (∀ (s : State) (e : Nat) (bytes : List Byte), e < 16777216 → (s.dev.extent e).underWay = true →
    let h := s.dev.haven (s.dev.extent e).ctx
    (h.bound = true → h.mirrorRo = true → AnswersDev (.promotionReadFail e (some bytes)) s
      ((s.dev.dwEvent .flash (dieOfHub (extentHub e))).modExtent e fun x =>
        { x with contents := (bytes.zipIdx.filter fun b => b.1 != 0).map fun b => (b.2, b.1) })) ∧
    ((s.dev.extent e).releases = [] → (s.dev.extent e).freeing = false → s.dev.stageQueue = [] →
    (s.dev.extents.map Prod.fst).Nodup →
      Answers (.promotionReadFail e none) s fun t => (t.dev.extent e).state = .lost ∧ (t.dev.extent e).copy = [] ∧
        (t.dev.extent e).contents = [] ∧ ∀ n r op, s.dev.runs.find n = some r → r.late = some (op, e) → r.state = .running →
          ∃ r', t.dev.runs.find n = some r' ∧ r'.state = .ended ∧ r'.aborted = true ∧
            r'.withhold = some (r.withhold.getD Code.deepReadFail) ∧
            ({ code := Code.deepReadFail, op := op, step := r.step, index := some e } : CodeEntry) ∈ r'.codes)) ∧
  (∀ (s : State) (e : Nat), e < 16777216 → s.dev.serving = true → (s.dev.extent e).state = .filling →
    (s.dev.extent e).complete = true →
    let h := extentHub e
    let n := (s.dev.flashOf h).serial + 1
    let none' := s.dev.noSpace h (storedUnits (s.dev.copyContents (s.dev.extent e)))
    (none' = none → (s.dev.ctx (s.dev.extent e).ctx).failed = none →
      AnswersDev (.settlementStart e) s ((s.dev.modFlash h fun f => { f with serial := n }).modExtent e fun x =>
        { x with state := .settling, serial := n, gate := some s.dev.tide.epoch })) ∧
    ((s.dev.ctx (s.dev.extent e).ctx).failed.isSome = true → AnswersDev (.settlementStart e) s s.dev) ∧
    (none'.isSome = true → Answers (.settlementStart e) s fun t => (t.dev.extent e).state = .filling ∧
      (t.dev.extent e).complete = true ∧ SameMemory s t)) ∧
  (∀ (s : State) (e : Nat) (f : Flash) (n start : Nat), e < 16777216 → (s.dev.extent e).state = .settling →
    (s.dev.extent e).gate = none →
    let x := s.dev.extent e
    let contents := s.dev.copyContents x
    (s.dev.flashOf (extentHub e)).place false e (storedUnits contents) = some (f, n, start) →
    x.releases = [] → x.freeing = false → s.dev.stageQueue = [] →
    (s.dev.extents.map Prod.fst).Nodup →
    (x.refs ≠ [] → x.stagers = [] → Answers (.settlementDone e) s fun t => SameMemory s t ∧
      t.dev.extent e = { x with state := .resident, stored := storedUnits contents, superblock := n, startSlot := start
                                contents := contents, covered := [], complete := false }) ∧
    (∀ q k c g o, x.refs ≠ [] → x.stagers = [(q, k)] → (∀ y ∈ s.dev.extents, y.1 ≠ e → (q, k) ∉ y.2.stagers) →
      s.dev.begunCmd q k = some c → c.signal = some g → s.dev.ctxOfTag (s.dev.queue q).context.toNat = some o →
      s.dev.ownsFence o g = true → signalRead (s.dev.fence g).value c.signalValue = .ahead →
      Answers (.settlementDone e) s fun t => (t.dev.fence g).value = c.signalValue ∧ (t.dev.fence g).state = .signalled ∧
        (t.dev.extent e).stagers = []) ∧
    (x.refs = [] → x.stagers = [] → s.dev.stepReads e = false →
      (∀ y ∈ x.copy, ∀ b ∈ s.dev.badLines, b.1 / 16384 = y → b.2.holding = false) →
      Answers (.settlementDone e) s fun t => (t.dev.extent e).state = .resting ∧ (t.dev.extent e).copy = [] ∧
        (t.dev.extent e).contents = contents ∧ SameMemory s t))

/-- Relocating superblock n of hub h changes of every extent at most its place, of other hubs nothing, and no memory; a
superblock with no valid extent, or with one for which there is room, is erased: its entry is empty, every block of it
has one more erase, and the extent names its new slots. GARBAGE_COLLECTION relocates its victim below 8 free
superblocks, else nothing; WEAR_LEVEL_RELOCATE the coldest superblock once its erases lag by more than a tenth of
endurance; READ_DISTURB_RELOCATE from 100,000 reads; RETENTION_RELOCATE always. PATROL_READ counts a read of a written
superblock, reports a die from ladder step 4, relocates below step 16, and at 16 returns its RESIDENT extents to
FILLING, complete. NAND_PROGRAM_FAIL retires the block and relocates the superblock that holds it. (R441, R457, R458,
R459, R460, R461, R462, R463) -/
def Obligations.FlashRelocates : Prop :=
  (∀ (d : Dev) (h n : Nat), let e := d.relocate h n
    e.mem = d.mem ∧ (∀ k, ∃ m i, e.extent k = { d.extent k with superblock := m, startSlot := i }) ∧
    (∀ k, k ≠ h → e.flashOf k = d.flashOf k) ∧ e = { d with extents := e.extents, flash := e.flash }) ∧
  (∀ (d : Dev) (h n : Nat), let x := (d.flashOf h).supers.get {} n
    let f : Flash := { d.flashOf h with openStage := (d.flashOf h).openStage.filter (· != n)
                                        openReloc := (d.flashOf h).openReloc.filter (· != n) }
    let erased (e : Dev) : Prop := (e.flashOf h).supers.get {} n = {} ∧
      ∀ b ∈ x.blocks, (d.flashOf h).erases.get 0 b < (e.flashOf h).erases.get 0 b ∧ b ∉ (e.flashOf h).inUse
    x.written = true →
    (x.extents = [] → erased (d.relocate h n)) ∧
    (∀ k g m i, x.extents = [k] → (d.extent k).state ≠ .promoting → f.place true k (d.extent k).stored = some (g, m, i) →
      ((d.relocate h n).extent k).superblock = m ∧ ((d.relocate h n).extent k).startSlot = i ∧
      (m ≠ n → erased (d.relocate h n))) ∧
    (∀ k, k ∈ x.extents → (d.extent k).state = .promoting → d.relocate h n = d)) ∧
  (∀ (s : State) (h : Nat), h < 4 → let f := s.dev.flashOf h
    (8 ≤ f.freeSupers → AnswersDev (.garbageCollection h) s s.dev) ∧
    (∀ n, f.freeSupers < 8 → f.victim = some n → AnswersDev (.garbageCollection h) s (s.dev.relocate h n)) ∧
    (∀ n c, f.coldest = some (n, c) → f.geom.endurance < 10 * (maxNat (f.erases.map Prod.snd) - c) →
      AnswersDev (.wearLevelRelocate h) s (s.dev.relocate h n)) ∧
    (∀ n c, f.coldest = some (n, c) → 10 * (maxNat (f.erases.map Prod.snd) - c) ≤ f.geom.endurance →
      AnswersDev (.wearLevelRelocate h) s s.dev) ∧
    (∀ n, (100000 ≤ (f.supers.get {} n).reads → AnswersDev (.readDisturbRelocate h n) s (s.dev.relocate h n)) ∧
      ((f.supers.get {} n).reads < 100000 → AnswersDev (.readDisturbRelocate h n) s s.dev) ∧
      AnswersDev (.retentionRelocate h n) s (s.dev.relocate h n))) ∧
  (∀ (s : State) (h n k : Nat) (high : Bool), h < 4 → ((s.dev.flashOf h).supers.get {} n).written = true →
    let d := s.dev.modFlash h fun f => { f with supers := f.supers.upd {} n fun y => { y with reads := y.reads + 1 } }
    (k < 4 → high = false → AnswersDev (.patrolRead h n k high) s d) ∧
    (k < 4 → high = true → AnswersDev (.patrolRead h n k high) s (d.relocate h n)) ∧
    (4 ≤ k → k < 16 → AnswersDev (.patrolRead h n k high) s ((d.dwEvent .flash (dieOfHub h)).relocate h n)) ∧
    (16 ≤ k → Answers (.patrolRead h n k high) s fun t => SameMemory s t ∧ t.dev.flash = d.flash ∧
      ∀ e, t.dev.extent e = if e ∈ ((s.dev.flashOf h).supers.get {} n).extents ∧ (s.dev.extent e).state = .resident then { s.dev.extent e with state := .filling, complete := true }
        else s.dev.extent e)) ∧
  (∀ (s : State) (h plane block : Nat), h < 4 → let f := s.dev.flashOf h
    plane < geomPlanes f.geom → block < f.geom.blocks → blockKeyOf plane block ∉ f.bad →
    let d := s.dev.modFlash h fun f => ({ f with bad := f.bad ++ [blockKeyOf plane block] }).checkWorn
    ((∀ p ∈ f.supers, blockKeyOf plane block ∉ p.2.blocks) → AnswersDev (.nandProgramFail h plane block) s d) ∧
    (∀ p, f.supers.find? (fun p => p.2.blocks.contains (blockKeyOf plane block)) = some p →
      AnswersDev (.nandProgramFail h plane block) s (d.relocate h p.1)))

/-- With the clock running and no output forced: TIDE_BOUNDARY at the ebb starts the flood of the next number, or of the
highest reported, with every class-P meter 0; FLOOD_END turns flood to slack; EBB_START turns slack to ebb, counts it
and verifies every read so far; its last actions wait only while a job's freeze is open. At the ebb a context with no
withholding code whose one due run was not aborted commits it: memory is the old one with the run's bytes, in frames
whose identifier is in use; with a code memory stays. TIDE_START of a stopped timer starts the next tide where the
device is standalone or master (its harbour key drawn), else waits for a beacon. TIDE_STOP stops it, or with a plan
loaded only sets cfg_reject. TIDE_NUMBER_LO_READ latches the high word. (R41, R42, R48, R51, R52, R53, R55, R56, R77) -/
def Obligations.TideTurns : Prop :=
  (∀ s : State, s.dev.sys.clkLost = false → s.dev.sys.forced = false →
    (s.dev.tide.phase = .ebb → Answers .tideBoundary s fun t => t.dev.tide.phase = .flood ∧
      t.dev.tide.number = max (s.dev.tide.number + 1) s.dev.tide.reported ∧
      ∀ n < 16, (t.dev.tile n).meter = 0 ∧ (t.dev.tile n).spent = false) ∧
    (s.dev.tide.phase = .ebb → s.dev.tide.ebbRest = false → (∀ p ∈ s.dev.jobs, p.2.freezing = false ∧ p.2.vote = none) →
      Answers .tideBoundary s fun t => t.dev.tide = { s.dev.tide with
        number := max (s.dev.tide.number + 1) s.dev.tide.reported, ranAny := true, phase := .flood, waiting := false
        reported := 0, epoch := 0, verified := [0, 0, 0, 0], gotBeacon := false, gotAbove := false, slew := 0, ebbExtra := 0
        missed := if s.dev.tide.follows && !s.dev.tide.gotAbove then s.dev.tide.missed + 1 else 0
        relayed := t.dev.tide.relayed }) ∧
    (s.dev.tide.phase ≠ .ebb → AnswersDev .tideBoundary s s.dev) ∧
    (s.dev.tide.phase = .flood → AnswersDev .floodEnd s (s.dev.modTide fun t => { t with phase := .slack })) ∧
    (s.dev.tide.phase ≠ .flood → AnswersDev .floodEnd s s.dev) ∧
    (s.dev.tide.phase = .slack → Answers .ebbStart s fun t => t.dev.tide = { s.dev.tide with
        phase := .ebb, ebbs := s.dev.tide.ebbs + 1, epoch := s.dev.tide.epoch + 2
        verified := [s.dev.tide.epoch, s.dev.tide.epoch, s.dev.tide.epoch, s.dev.tide.epoch]
        slackUses := t.dev.tide.slackUses, ebbRest := t.dev.tide.ebbRest } ∧
      s.dev.tide.slackUses ≤ t.dev.tide.slackUses ∧
      (t.dev.tide.ebbRest = true → ∃ p ∈ t.dev.jobs, p.2.freezing = true ∨ p.2.vote.isSome = true)) ∧
    (s.dev.tide.phase ≠ .slack → AnswersDev .ebbStart s s.dev)) ∧
  (∀ (d : Dev) (c : Nat), (∀ w, d.withholdCode c = some w → (d.settleCtx c).1.mem = d.mem) ∧
    (∀ (n : Nat) (r : Run), d.withholdCode c = none → (d.runs.filter fun x => x.2.ctx == c && d.commitsNow x.2) = [(n, r)] →
      d.runs.find n = some r → r.id = n → r.aborted = false →
      (d.settleCtx c).1.mem = Mem.writeAll ((d.releaseStep r).accepted r.overlay) d.mem ∧ (d.settleCtx c).1.runs.find n = none)) ∧
  (∀ s : State, s.dev.regsUp = true → s.dev.tide.run = false →
    let next := if s.dev.tide.ranAny then s.dev.tide.number + 1 else 0
    (s.dev.sys.service = .neap ∨ s.dev.tide.role = 0 → Answers .tideStart s fun t => t.dev.tide.run = true ∧
      t.dev.tide.phase = .flood ∧ t.dev.tide.number = next ∧ t.dev.tide.source = false) ∧
    (s.dev.sys.service = .spring → s.dev.tide.role = 1 → Answers .tideStart s fun t => t.dev.tide.run = true ∧
      t.dev.tide.phase = .flood ∧ t.dev.tide.number = next ∧ t.dev.tide.source = true ∧
      t.dev.fabric.harbourKey = some (Config.random s.dev.sys.draws)) ∧
    (s.dev.sys.service = .spring → s.dev.tide.role ≠ 0 → s.dev.tide.role ≠ 1 → Answers .tideStart s fun t =>
      t.dev.tide.run = true ∧ t.dev.tide.waiting = true ∧ t.dev.tide.phase = s.dev.tide.phase ∧
      t.dev = { s.dev with tide := t.dev.tide, out := t.dev.out })) ∧
  (∀ s : State, s.dev.regsUp = true → s.dev.tide.run = true →
    ((∃ p ∈ s.dev.plans, p.2.loaded = true) → AnswersDev .tideStop s (s.dev.modTide fun t => { t with cfgReject := true })) ∧
    ((∀ p ∈ s.dev.plans, p.2.loaded = false) → Answers .tideStop s fun t => t.dev.tideRunning = false ∧
      t.dev.tide.run = false ∧ t.dev.tide.number = s.dev.tide.number ∧
      t.dev.mgmt.effective = (s.dev.mgmt.i3cEnable, s.dev.mgmt.vdmEnable, s.dev.mgmt.staticAddr) ∧
      t.dev = { s.dev with tide := t.dev.tide, mgmt := t.dev.mgmt, trust := t.dev.trust, out := t.dev.out })) ∧
  (∀ s : State, s.dev.regsUp = true → AnswersDev .tideNumberLoRead s
    (s.dev.modTide fun t => { t with numberHi := BitVec.ofNat 32 (t.number / 4294967296) }))

/-- A beacon that does not authenticate or comes on a port not up changes nothing. Any other is passed on at most once for
its source and tide: within three hops, with one hop and the device's residence added, on each port that leads away
from its source. It does nothing more at a device that takes no part, nor where it has no rank over the present
source, disagrees in its settings, has gone more than two hops, or names another tide than a following device's. One
that passes for the running follower's tide locks the timer to its source, clears holdover and keeps TIDE_UNLOCKED
only while the offset exceeds 125 ns; a source of a lower generation yields. A waiting device meets a higher number
(or its first) by starting that tide, and a lower one by reporting its own next number back. The source keeps the
highest report; another device passes it towards its source. TIDE_HOLDOVER and TIDE_UNLOCKED set their flags on a
follower without a beacon. A backup that has missed enough boundaries becomes source under the next generation. (R47,
R54, R56, R57, R58, R59, R61, R62, R63, R64, R479) -/
def Obligations.BeaconsGuideTheTide : Prop :=
  (∀ (d : Dev) (b : Beacon),
    let key := 4 * b.generation + b.srcRank
    let own : Prop := b.hops < 2 ∧ ∀ n, d.tide.relayed.find key = some n → n < b.tide
    (¬ own → d.relayBeacon b = d) ∧
    (own → d.relayBeacon b = { d with tide := { d.tide with relayed := d.tide.relayed.put key b.tide }, out := (d.relayBeacon b).out } ∧
      ∃ r, ∀ p, (b.port ≤ 30 → b.hops = 0) → p ∈ d.awayFrom b.port → Out.port p (.beacon b.tide b.generation b.srcRank b.periodUnits
        b.slackPct b.ebbPct (b.hops + 1) (b.residenceNs + r)) ∈ (d.relayBeacon b).out)) ∧
  (∀ (s : State) (b : Beacon), b.port < 48 → s.dev.sys.clkLost = false → s.dev.sys.forced = false →
    let t := s.dev.tide
    let heard : Prop := b.authentic = true ∧ (s.dev.port b.port).state = portUp
    let part : Prop := heard ∧ t.run = true ∧ t.neapTimer = false ∧ t.role ≠ 0
    let good : Prop := part ∧ t.agrees b = true ∧ t.outranks b = true ∧ b.hops ≤ 2
    (¬ heard → AnswersDev (.beaconReceive b) s s.dev) ∧
    (heard → ¬ good → t.outdone b = false → AnswersDev (.beaconReceive b) s (s.dev.relayBeacon b)) ∧
    (good → t.source = false → t.waiting = false → b.tide ≠ t.number →
      AnswersDev (.beaconReceive b) s (s.dev.relayBeacon b)) ∧
    (part → t.outdone b = true → Answers (.beaconReceive b) s fun u => u.dev.tide.source = false ∧
      u.dev.dike.yielded = s.dev.dike.yielded + 1) ∧
    (good → t.waiting = false → b.tide = t.number → Answers (.beaconReceive b) s fun u =>
      (t.source = false → u.dev = { s.dev with tide := u.dev.tide, out := u.dev.out }) ∧ u.dev.tide.source = false ∧
      u.dev.tide.number = t.number ∧ u.dev.tide.phase = t.phase ∧ u.dev.tide.locked = true ∧ u.dev.tide.holdover = false ∧
      u.dev.tide.gotBeacon = true ∧ u.dev.tide.srcPort = some b.port ∧ u.dev.tide.srcRank = b.srcRank ∧
      (t.heeds b = true → u.dev.tide.missed = 0 ∧ u.dev.tide.gotAbove = true) ∧
      (t.heeds b = false → u.dev.tide.missed = t.missed ∧ u.dev.tide.gotAbove = t.gotAbove) ∧
      u.dev.tide.generation = BitVec.ofNat 16 b.generation ∧ u.dev.tide.hops = BitVec.ofNat 2 (b.hops + 1) ∧
      u.dev.tide.offsetNs = BitVec.ofInt 8 (max (-127) (min 127 b.offsetNs)) ∧
      (u.dev.tide.unlocked = true ↔ t.unlocked = true ∧ 125 < b.offsetNs.natAbs)) ∧
    (good → t.source = false → t.waiting = true → t.ranAny = false ∨ t.number < b.tide → Answers (.beaconReceive b) s fun u =>
      u.dev.tide.number = b.tide ∧ u.dev.tide.phase = .flood ∧ u.dev.tide.waiting = false ∧ u.dev.tide.locked = true) ∧
    (good → t.source = false → t.waiting = true → t.ranAny = true → b.tide ≤ t.number → Answers (.beaconReceive b) s fun u =>
      u.dev = { s.dev with tide := { t with towards := some b.port, relayed := u.dev.tide.relayed }, out := u.dev.out } ∧
      Out.port b.port (.tideReport (t.number + 1)) ∈ u.dev.out)) ∧
  (∀ (s : State) (n : Nat),
    (s.dev.tide.source = true → AnswersDev (.tideNumberReport n) s (s.dev.modTide fun t =>
      { t with reported := max t.reported n })) ∧
    (∀ p, s.dev.tide.source = false → s.dev.tide.towards = some p ∨ (s.dev.tide.towards = none ∧ s.dev.tide.srcPort = some p) →
      AnswersDev (.tideNumberReport n) s (s.dev.emit (.port p (.tideReport n)))) ∧
    (s.dev.tide.source = false → s.dev.tide.towards = none → s.dev.tide.srcPort = none →
      AnswersDev (.tideNumberReport n) s s.dev)) ∧
  (∀ s : State, s.dev.tideRunning = true → s.dev.tide.follows = true → s.dev.tide.gotBeacon = false →
    AnswersSent .tideHoldover s (s.dev.modTide fun t => { t with holdover := true }) ∧
    AnswersSent .tideUnlocked s (s.dev.modTide fun t => { t with holdover := true, unlocked := true, locked := false }).markUnlocked) ∧
  (∀ (s : State) (k : Nat), s.dev.tideRunning = true → s.dev.tide.follows = true → s.dev.tide.gotAbove = false →
    s.dev.tide.role = 2 → s.dev.tide.backupRank.toNat = k → k = 1 ∨ k = 2 →
    (k ≤ s.dev.tide.missed → Answers .backupTakeover s fun t => t.dev.tide.source = true ∧ t.dev.tide.srcRank = k ∧
      t.dev.tide.generation = s.dev.tide.generation + 1 ∧ t.dev.tide.number = s.dev.tide.number ∧
      t.dev = { s.dev with tide := t.dev.tide, out := t.dev.out } ∧
      ∀ p ∈ s.dev.portsUp, Out.port p.1 (.beacon s.dev.tide.number t.dev.tide.generation.toNat k
        s.dev.tide.periodUnits.toNat s.dev.tide.slackPct.toNat s.dev.tide.ebbPct.toNat 0 0) ∈ t.dev.out) ∧
    (s.dev.tide.missed < k → AnswersDev .backupTakeover s s.dev)) ∧
  (∀ s : State, (s.dev.tide.follows = false ∨ s.dev.tide.gotBeacon = true → AnswersDev .tideHoldover s s.dev ∧
    AnswersDev .tideUnlocked s s.dev) ∧
    (s.dev.tide.follows = false ∨ s.dev.tide.gotAbove = true → AnswersDev .backupTakeover s s.dev))

/-- POWER_ON_RESET and DEVICE_RESET leave exactly the reset state but for the fuses, the flash manager's block records,
the boot flash, the rows to be repaired for good, the reset cause and what a thermal trip or the strap keeps; memory
reads zero. FUNCTION_LEVEL_RESET of PF1 or a VF clears that function's interface and vectors and silences it: what it
began belongs to an earlier era. BRINGUP with REFCLK in tolerance takes the state its fuses give: a fuse fault or
SCRAP locks the device in recovery, two bad slots hold it there, else it boots. NEAP_SERVICE_READY brings CT5 and CT6
in at OP0 with hub MH0; SPRING_SERVICE_ENTRY, at an ebb or with the timer stopped, every tile at OP1, every hub with
its row repairs made lasting and its channels' geometry, with the spare clusters and banks that self-test calls for; a
unit that failed only holds the device. (R291, R292, R295, R583, R584, R592, R604, R605, R606, R607, R608) -/
def Obligations.ResetsAndService : Prop :=
  (∀ (s t : State) (i : Instr), i = .powerOnReset ∨ (∃ k, i = .deviceReset k) → exec i s = .next t →
    (∀ a, Mem.read t.dev.mem a = 0) ∧ t.dev.life = s.dev.life.afterReset ∧
    t.dev.mgmt = { images := s.dev.mgmt.images, versions := s.dev.mgmt.versions, slotB := s.dev.mgmt.slotB
                   atReset := s.dev.mgmt.atReset, invalid := t.dev.mgmt.invalid } ∧
    (∀ h, t.dev.flashOf h = { erases := (s.dev.flashOf h).erases, bad := (s.dev.flashOf h).bad }) ∧
    ((s.dev.hubs.map Prod.fst).Nodup → ∀ h, t.dev.hub h =
      ({ softRows := (s.dev.hub h).softRows, hardRows := (s.dev.hub h).hardRows } : Hub)) ∧
    t.dev = { ({} : Dev) with sys := t.dev.sys, life := t.dev.life, hubs := t.dev.hubs, flash := t.dev.flash
                              mgmt := t.dev.mgmt, out := s.dev.out }) ∧
  (∀ s : State, Answers .powerOnReset s fun t => t.dev.sys = { ({} : Sys) with
    resetCause := if s.dev.sys.tripped then 17 else 1, tripMemory := s.dev.sys.tripped, draws := s.dev.sys.draws }) ∧
  (∀ (s : State) (k : ResetCause), Answers (.deviceReset k) s fun t => t.dev.sys = { ({} : Sys) with
    resetCause := BitVec.ofNat 5 (2 ^ resetBit k + if s.dev.sys.tripMemory then 16 else 0)
    tripMemory := s.dev.sys.tripMemory, bifur := s.dev.sys.bifur, tripped := s.dev.sys.tripped
    forced := s.dev.sys.tripped, draws := s.dev.sys.draws
    link0 := if k = .flrPf0 then s.dev.sys.link0 else (0, 0), link1 := if k = .flrPf0 then s.dev.sys.link1 else (0, 0)
    flit0 := decide (k = .flrPf0) && s.dev.sys.flit0, flit1 := decide (k = .flrPf0) && s.dev.sys.flit1 }) ∧
  (∀ (s : State) (n : Nat), 1 ≤ n → n ≤ 16 → s.dev.regsUp = true → s.dev.fnExists n = true →
    Answers (.functionLevelReset n) s fun t => t.dev.fn n = { s.dev.fn n with
        tdi := 0, tdiNonce := none, admitted := [], unmasked := [], pendingBits := [], msixAddr := [], msixData := [], silent := true
        era := (s.dev.fn n).era + 1 } ∧
      (∀ m, m ≠ n → t.dev.fn m = s.dev.fn m) ∧
      (∀ q, (s.dev.queue q).enable = true → (s.dev.queue q).function.toNat = n →
        (t.dev.queue q).enable = false ∧ (t.dev.queue q).fetched = []) ∧ (n ≠ 1 → t.dev.sys = s.dev.sys) ∧
      t.dev = { s.dev with sys := t.dev.sys, fns := t.dev.fns, queues := t.dev.queues }) ∧
  (∀ (s : State) (f : BootFacts), s.dev.sys.service = .reset → s.dev.sys.forced = false →
    (refclkGood f.refclkHz = true → Answers (.bringup f) s fun t => t.dev.sys.pllLocked = true ∧ SameMemory s t ∧
      t.dev.life.state = t.dev.life.fusedState ∧
      (t.dev.life.fuseFault = true → t.dev.sys.service = .recovery ∧ t.dev.sys.cause = 0xFF ∧ t.dev.sys.locked = true) ∧
      (t.dev.life.fuseFault = false → t.dev.life.state = 5 → t.dev.sys.service = .recovery ∧ t.dev.sys.locked = true) ∧
      (t.dev.life.fuseFault = false → t.dev.life.state ≠ 5 → f.slotAOk = false → f.slotBOk = false →
        t.dev.sys.service = .recovery ∧ t.dev.sys.cause = 0xFE ∧ t.dev.sys.locked = false) ∧
      (t.dev.life.fuseFault = false → t.dev.life.state ≠ 5 → f.slotAOk = true ∨ f.slotBOk = true → t.dev.sys.service = .boot)) ∧
    (refclkGood f.refclkHz = false → AnswersDev (.bringup f) s s.dev)) ∧
  (∀ s : State, s.dev.sys.service = .boot → s.dev.sys.forced = false → s.dev.sys.clkLost = false →
    Answers .neapServiceReady s fun t => t.dev.sys = { s.dev.sys with service := .neap, retryStatus := false } ∧ SameMemory s t ∧
      (∀ n, n = 5 ∨ n = 6 → t.dev.tile n = { s.dev.tile n with inService := true, rim := true, current := 0, requested := 0,
                                                                 millivolts := 550 }) ∧
      (∀ n, n ≠ 5 → n ≠ 6 → t.dev.tile n = s.dev.tile n) ∧ (t.dev.hub 0).up = true ∧ (t.dev.arb 0).agents = 3 ∧
      ∀ h, h ≠ 0 → t.dev.hub h = s.dev.hub h) ∧
  (∀ (s : State) (flash : List FlashGeom) (cs : List (Nat × Nat)) (bs : List Nat) (unit : Nat), s.dev.sys.service = .neap → s.dev.sys.held = false →
    AnswersSent (.springServiceEntry (.failed unit)) s
      (s.dev.modSys fun x => { x with held := true, cause := BitVec.ofNat 8 unit }) ∧
    (s.dev.sys.clkLost = false → s.dev.sys.forced = false → s.dev.tideRunning = false ∨ s.dev.tide.phase = .ebb →
      Answers (.springServiceEntry (.trained flash cs bs)) s fun t => t.dev.sys.service = .spring ∧ SameMemory s t ∧
        (∀ n < 16, t.dev.tile n = { s.dev.tile n with inService := true, rim := true, current := 1, requested := 1,
                                                           millivolts := 600, clusters := (t.dev.tile n).clusters, spareBanks := (t.dev.tile n).spareBanks }) ∧
        (∀ n < 16, (∀ c ∈ cs, c.1 ≠ n) → (t.dev.tile n).clusters = (s.dev.tile n).clusters) ∧
        (∀ n k, n < 16 → k < 8 → cs = [(n, k)] → (s.dev.tile n).clusters = [0, 1, 2, 3, 4, 5, 6, 7] →
          (t.dev.tile n).clusters = [0, 1, 2, 3, 4, 5, 6, 7].set k 8) ∧
        (∀ n < 16, n ∉ bs → (t.dev.tile n).spareBanks = (s.dev.tile n).spareBanks) ∧
        (∀ h < 4, (t.dev.hub h).up = true ∧ (t.dev.arb h).agents = 0x1F ∧ (t.dev.hub h).softRows = [] ∧
          (t.dev.hub h).hardRows = (s.dev.hub h).hardRows ++ (s.dev.hub h).softRows) ∧
        ∀ h g, h < 4 → flash[h]? = some g → (t.dev.flashOf h).geom = g))

/-- REFCLK_LOSS out of reset: the loss is counted up to 255, the stacks refresh themselves, blocks being programmed are
suspect, and nothing else changes; a second loss changes nothing. FORCING_TAKEOVER in a loss forces the outputs and
releases the PLLs, otherwise nothing. REFCLK_RETURN without a thermal trip ends loss, forcing and self-refresh, sets
loss_seen and ERR_SUMMARY's clock bit, resets every IDE stream, moves each locked or running interface to ERROR and
each port that was up to training; with the timer stopped no running step is left, and a running timer restarts with
the next number, or, on a follower, waits for a beacon. While the clock runs and no output is forced, the three
boundaries turn ebb to flood, flood to slack and slack to ebb. A stopped timer starts where the device is standalone
or in neap service, and a running one stops with no plan loaded. POWER_ON_RESET and DEVICE_RESET leave the device in
its reset state, an FLR leaves the interface unlocked, BRINGUP locks the PLLs, and the two service rows enter their
service. (R48, R52, R53, R55, R583, R588, R589, R590, R591, R604, R605, R606) -/
def Obligations.ClockLossAndReturn : Prop :=
  (∀ s : State, (s.dev.sys.clkLost = false → s.dev.sys.service ≠ .reset → Answers .refclkLoss s fun t =>
      t.dev.sys = { s.dev.sys with clkLost := true, lossCount := min 255 (s.dev.sys.lossCount + 1), selfRefresh := true } ∧
      t.dev = { s.dev with sys := t.dev.sys, flash := t.dev.flash } ∧
      ∀ h < 4, ∀ b, b ∈ (t.dev.flashOf h).suspect ↔ b ∈ s.dev.suspectBlocks h ∨ b ∈ (s.dev.flashOf h).suspect) ∧
    (s.dev.sys.clkLost = true → AnswersDev .refclkLoss s s.dev) ∧
    (s.dev.sys.clkLost = true → AnswersDev .forcingTakeover s
      (s.dev.modSys fun x => { x with forced := true, pllLocked := false })) ∧
    (s.dev.sys.clkLost = false → AnswersDev .forcingTakeover s s.dev) ∧
    (s.dev.sys.clkLost = false ∨ s.dev.sys.tripped = true → AnswersDev .refclkReturn s s.dev)) ∧
  (∀ s : State, s.dev.sys.clkLost = true → s.dev.sys.tripped = false → Answers .refclkReturn s fun t =>
    t.dev.sys.clkLost = false ∧ t.dev.sys.forced = false ∧ t.dev.sys.pllLocked = true ∧ t.dev.sys.selfRefresh = false ∧
    t.dev.sys.lossSeen = true ∧ bitOf t.dev.errors.summary.toNat 6 = true ∧ t.dev.trust.ide = [] ∧ t.dev.trust.ideLive = [] ∧
    (∀ n, (s.dev.fn n).tdi = 1 ∨ (s.dev.fn n).tdi = 2 → (t.dev.fn n).tdi = 3) ∧
    (∀ p, (s.dev.port p).state = portUp → (t.dev.port p).state = 1) ∧
    (s.dev.tideRunning = false → (∀ x ∈ s.dev.runs, x.2.id = x.1) → ∀ x ∈ t.dev.runs, x.2.state ≠ .running) ∧
    (s.dev.tideRunning = true → s.dev.tide.follows = false → t.dev.tide.number = s.dev.tide.number + 1 ∧ t.dev.tide.phase = .flood) ∧
    (s.dev.tideRunning = true → s.dev.tide.follows = true → t.dev.tide.waiting = true ∧ t.dev.tide.phase = .stopped)) ∧
  (∀ s : State, s.dev.sys.clkLost = false → s.dev.sys.forced = false →
    (s.dev.tide.phase = .ebb → Answers .tideBoundary s fun t => t.dev.tide.phase = .flood) ∧
    (s.dev.tide.phase = .flood → Answers .floodEnd s fun t => t.dev.tide.phase = .slack) ∧
    (s.dev.tide.phase = .slack → Answers .ebbStart s fun t => t.dev.tide.phase = .ebb) ∧
    (s.dev.sys.service = .boot → Answers .neapServiceReady s fun t => t.dev.sys.service = .neap) ∧
    (∀ flash cs bs, s.dev.sys.service = .neap → s.dev.sys.held = false → s.dev.tideRunning = false ∨ s.dev.tide.phase = .ebb →
      Answers (.springServiceEntry (.trained flash cs bs)) s fun t => t.dev.sys.service = .spring)) ∧
  (∀ s : State, s.dev.regsUp = true →
    (s.dev.tide.run = false → s.dev.sys.service = .neap ∨ s.dev.tide.role = 0 → Answers .tideStart s fun t =>
      t.dev.tide.run = true ∧ t.dev.tide.phase = .flood) ∧
    (s.dev.tide.run = true → (∀ p ∈ s.dev.plans, p.2.loaded = false) → Answers .tideStop s fun t => t.dev.tideRunning = false) ∧
    Answers .tideNumberLoRead s (fun t => t.dev.tide.numberHi = BitVec.ofNat 32 (s.dev.tide.number / 4294967296)) ∧
    (∀ n, 1 ≤ n → n ≤ 16 → s.dev.fnExists n = true → Answers (.functionLevelReset n) s fun t => (t.dev.fn n).tdi = 0)) ∧
  (∀ s : State, Answers .powerOnReset s (fun t => t.dev.sys.service = .reset) ∧
    (∀ k, Answers (.deviceReset k) s fun t => t.dev.sys.service = .reset) ∧
    (∀ f : BootFacts, s.dev.sys.service = .reset → s.dev.sys.forced = false → refclkGood f.refclkHz = true →
      Answers (.bringup f) s fun t => t.dev.sys.pllLocked = true))

/-- Over a transport that is up: every MCTP control and PLDM platform request is answered by exactly one message and
changes management alone; SET_EID sets the identifier, an existing numeric sensor answers with its reading,
SetEventReceiver names the receiver. LC_READ, GET_COUNTERS and GET_EVENTS answer with the life-cycle words or with
ring entries, at most 127, none that the ring no longer holds, status 4 where older ones are gone. LC_REQUEST of
DEBUG_CLOSE drops the certificates and is answered; unsecured or short it only gives a status. REQUEST_UPDATE starts
one download; each next chunk counts; a complete good image is put into the inactive slot, a bad one marks that slot
invalid. ACTIVATE_FIRMWARE swaps the component at once with the timer stopped, at the ebb while it runs, and for L1 at
the next reset; FW_SELFCHECK_FAIL on trial swaps it back. (Message codes: the model's choice, log 13.) (R526, R642,
R643, R644, R646, R647, R648, R650, R652, R653) -/
def Obligations.ManagementAnswers : Prop :=
  (∀ (s : State) (n : Nat), n = 1 ∨ n = 2 → s.dev.transportUp n = true →
    (∀ i, (∃ m, i = .mctpControl n m) ∨ (∃ m, i = .pldmPlatformRequest n m) → Answers i s fun t =>
      (∃ x, t.dev.out = s.dev.out ++ [.mgmt n x]) ∧ t.dev = { s.dev with mgmt := t.dev.mgmt, out := t.dev.out }) ∧
    (∀ e : BitVec 8, e ≠ 0 → e ≠ 0xFF → Answers (.mctpControl n (.setEid e)) s fun t => t.dev.mgmt.eid = e ∧
      t.dev.out = s.dev.out ++ [.mgmt n (.control 1 0 [e])]) ∧
    (∀ k, sensorExists k = true → sensorIsState k = false → Answers (.pldmPlatformRequest n (.getSensorReading k)) s fun t =>
      t.dev.out = s.dev.out ++ [.mgmt n (.pldm 0x11 0 [s.dev.sensor k, s.dev.sensorLevel k])]) ∧
    (∀ e, Answers (.pldmPlatformRequest n (.setEventReceiver e)) s fun t => t.dev.mgmt.receiver = some (n, e)) ∧
    (s.dev.vendorBusy n = false → Answers (.lcRead n) s fun t => t.dev.life = s.dev.life ∧
      t.dev.out = s.dev.out ++ [.mgmt n (.vendor 0x02 0 ([BitVec.ofNat 32 s.dev.life.stateWord, s.dev.life.rights,
        BitVec.ofNat 32 s.dev.life.boots] ++ (wordsOfBytes (Config.random s.dev.life.challenge)).take 8))]) ∧
    (∀ first count, s.dev.vendorBusy n = false → s.dev.mgmt.counterNo - s.dev.mgmt.counters.length ≤ first →
      Answers (.getCounters n first count) s fun t => ∃ es : List CounterRec, es.length ≤ min 127 count ∧
        es = (s.dev.mgmt.counters.drop (first - (s.dev.mgmt.counterNo - s.dev.mgmt.counters.length))).take es.length ∧
        t.dev.out = s.dev.out ++ [.mgmt n (.vendor 0x10 0 (ringBody (first + es.length) (es.map CounterRec.words)))]) ∧
    (∀ first count, s.dev.vendorBusy n = false →
      Answers (.getEvents n first count) s fun t => ∃ st next, ∃ es : List LogEntry, es.length ≤ min 127 count ∧
        (∀ e ∈ es, e ∈ s.dev.errors.log) ∧ (st = 4 ↔ first < s.dev.errors.count - s.dev.errors.log.length) ∧
        t.dev.out = s.dev.out ++ [.mgmt n (.vendor 0x11 st (ringBody next (es.map LogEntry.words)))])) ∧
  (∀ (s : State) (m : LcRequestMsg), m.transport = 1 ∨ m.transport = 2 → s.dev.transportUp m.transport = true →
    (m.secured = false → Answers (.lcRequest m) s fun t => t.dev.life = s.dev.life ∧
      t.dev.out = s.dev.out ++ [.mgmt m.transport (.vendor 0x01 2 [])]) ∧
    (m.secured = true → m.data.length ≠ 64 → Answers (.lcRequest m) s fun t => t.dev.life = s.dev.life ∧
      t.dev.out = s.dev.out ++ [.mgmt m.transport (.vendor 0x01 3 [])]) ∧
    (m.secured = true → m.data.length = 64 → field m.cmdWord 0 4 = 3 → s.dev.life.busy = false → s.dev.lifeUp = true →
      (∀ b ∈ s.dev.mgmt.busy, b.2 ≠ 0x7E) → Answers (.lcRequest m) s fun t => t.dev.life.certs = [] ∧ t.dev.life.code = 0 ∧
        Out.mgmt m.transport (.vendor 0x01 0 [0]) ∈ t.dev.out)) ∧
  (∀ (s : State) (n c k : Nat), n = 1 ∨ n = 2 → s.dev.transportUp n = true →
    (s.dev.mgmt.update = .idle → componentBlocks c ≠ [] → k ≠ 0 → Answers (.requestUpdate n c k) s fun t =>
      t.dev.mgmt.update = .downloading ∧ t.dev.mgmt.component = c ∧ t.dev.mgmt.received = 0 ∧ t.dev.out = s.dev.out ++
        [.mgmt n (.pldm 0x10 0 []), .mgmt n (.requestData 0 (min k (if n = 1 then 1024 else 4096)))]) ∧
    (s.dev.mgmt.update ≠ .idle → Answers (.requestUpdate n c k) s fun t => t.dev.mgmt.update = s.dev.mgmt.update ∧
      t.dev.mgmt.component = s.dev.mgmt.component ∧ t.dev.mgmt.received = s.dev.mgmt.received)) ∧
  (∀ s : State, s.dev.mgmt.update = .downloading → s.dev.endpointUp = true →
    let c := s.dev.mgmt.component
    (∀ bytes, bytes.length ≤ s.dev.mgmt.chunk → s.dev.transportUp s.dev.mgmt.transport = true →
      AnswersDev (.updateComponentData (.chunk s.dev.mgmt.received bytes)) s
        ((s.dev.modMgmt fun m => { m with received := m.received + bytes.length }).emit
          (.mgmt s.dev.mgmt.transport (.requestData (s.dev.mgmt.received + bytes.length) s.dev.mgmt.chunk)))) ∧
    (∀ digest v, Answers (.updateComponentData (.complete true true digest v)) s fun t => t.dev.mgmt.update = .verified ∧
      t.dev.mgmt.images.find (2 * c + s.dev.updateSlot) = some digest ∧ c ∉ t.dev.mgmt.invalid) ∧
    (∀ a b digest v, (a && b) = false → Answers (.updateComponentData (.complete a b digest v)) s fun t =>
      t.dev.mgmt.update = .idle ∧ c ∈ t.dev.mgmt.invalid ∧ t.dev.mgmt.images = s.dev.mgmt.images)) ∧
  (∀ s : State, s.dev.endpointUp = true → s.dev.mgmt.update = .verified → s.dev.sys.service ≠ .recovery →
    let c := s.dev.mgmt.component
    (c = 1 → Answers .activateFirmware s fun t => 1 ∈ t.dev.mgmt.atReset ∧ t.dev.mgmt.update = .idle) ∧
    (c ≠ 1 → s.dev.tideRunning = true → Answers .activateFirmware s fun t => c ∈ t.dev.mgmt.swaps ∧ t.dev.mgmt.update = .idle) ∧
    (c ≠ 1 → s.dev.tideRunning = false → s.dev.mgmt.swaps = [] → s.dev.mgmt.returns = [] → Answers .activateFirmware s fun t =>
      t.dev.mgmt.slotOf c = 1 - s.dev.mgmt.slotOf c ∧ t.dev.mgmt.swaps = [] ∧ t.dev.mgmt.update = .idle)) ∧
  (∀ s : State, s.dev.endpointUp = true → s.dev.mgmt.update = .verified → s.dev.sys.service = .recovery →
    Answers .activateFirmware s fun t => t.dev.sys.service = .reset ∧ ∀ a, Mem.read t.dev.mem a = 0) ∧
  (∀ (s : State) (c n : Nat), (c, n) ∈ s.dev.mgmt.trials → s.dev.tide.number ≤ n →
    (s.dev.tideRunning = true → Answers (.fwSelfcheckFail c) s fun t => c ∈ t.dev.mgmt.returns ∧
      t.dev = { s.dev with mgmt := { s.dev.mgmt with returns := t.dev.mgmt.returns } }) ∧
    (s.dev.tideRunning = false → s.dev.mgmt.swaps = [] → s.dev.mgmt.returns = [] → Answers (.fwSelfcheckFail c) s fun t =>
      t.dev.mgmt.slotOf c = 1 - s.dev.mgmt.slotOf c ∧ t.dev.mgmt.returns = []))

/-- D3HOT_TRANSITION of PF0 or PF1 once configuration is answered sets only that function's state. HOST_LINK_RETRAIN at
generation 4 to 6 and a width the link has sets only its generation, width and flit mode, which 64 GT/s always uses;
otherwise the link is down, its IDE streams are gone, and with link 0 each locked or running interface is in ERROR.
DYNAMIC_ADDRESS_ASSIGNMENT over I3C keeps the address. SETUP_LOCK sets the lock, and once set only
ERR_SUMMARY.lock_write. REGISTER_WRITE through PF0 while the registers answer: a 64-bit write of an open queue entry's
ring base acts as two words, low first, low 12 bits zero; ERR_SUMMARY bits written 1 clear and no other; ERR_MASK
takes its bits; an access of another size or not aligned, or while nothing answers, changes nothing. Over a transport
that is up each management request gives its one answer, and the rows of a firmware update move it on. (R11, R290,
R292, R295, R328, R332, R609, R627, R630, R634, R642, R653) -/
def Obligations.LinksAndRegisters : Prop :=
  (∀ (s : State) (b : Bool), s.dev.sys.retryStatus = false →
    AnswersDev (.d3hotTransition 0 b) s (s.dev.modSys fun x => { x with d3hot := (b, x.d3hot.2) }) ∧
    (s.dev.sys.bifur = true → AnswersDev (.d3hotTransition 1 b) s (s.dev.modSys fun x => { x with d3hot := (x.d3hot.1, b) }))) ∧
  (∀ (s : State) (l gen width : Nat) (flit : Bool), l < 2 → (l = 1 → s.dev.sys.bifur = true) →
    let fits : Prop := 4 ≤ gen ∧ gen ≤ 6 ∧ (width = 4 ∨ width = 8 ∨ (width = 16 ∧ s.dev.sys.bifur = false))
    (fits → AnswersDev (.hostLinkRetrain l ⟨gen, flit⟩ width) s (s.dev.modSys fun x =>
      if l = 0 then { x with link0 := (gen, width), flit0 := decide (gen = 6) || flit }
      else { x with link1 := (gen, width), flit1 := decide (gen = 6) || flit })) ∧
    (¬ fits → Answers (.hostLinkRetrain l ⟨gen, flit⟩ width) s fun t => (l = 0 → t.dev.sys.link0 = (0, 0)) ∧
      (l = 1 → t.dev.sys.link1 = (0, 0) ∧ t.dev.fns = s.dev.fns) ∧
      (∀ x, x ∈ t.dev.trust.ideLive ↔ x ∈ s.dev.trust.ideLive ∧ x.1 ≠ l) ∧
      (l = 0 → ∀ n, (s.dev.fn n).tdi = 1 ∨ (s.dev.fn n).tdi = 2 → (t.dev.fn n).tdi = 3) ∧ SameMemory s t)) ∧
  (∀ (s : State) (a : BitVec 7), s.dev.transportUp 1 = true →
    AnswersDev (.dynamicAddressAssignment a) s (s.dev.modMgmt fun m => { m with dynAddr := some a })) ∧
  (∀ s : State, s.dev.regsUp = true →
    (s.dev.sys.setupLock = false → AnswersDev .setupLock s (s.dev.modSys fun x => { x with setupLock := true })) ∧
    (s.dev.sys.setupLock = true → Answers .setupLock s fun t => bitOf t.dev.errors.summary.toNat 10 = true ∧
      t.dev = { s.dev with errors := t.dev.errors, fns := t.dev.fns, out := t.dev.out })) ∧
  (∀ (s : State) (v : W64), s.dev.regsUp = true →
    let q := s.dev.sys.sel0.queue
    (s.dev.entryLocked 0 q false = false → Answers (.registerWrite 0 0x10008 8 v) s fun t =>
      t.dev.queue q = { s.dev.queue q with ring := BitVec.ofNat 64 (v.toNat / 4096 * 4096) } ∧
      (∀ n, n ≠ q → t.dev.queue n = s.dev.queue n) ∧ t.dev = { s.dev with queues := t.dev.queues }) ∧
    (s.dev.entryLocked 0 q false = true → Answers (.registerWrite 0 0x10008 8 v) s fun t =>
      t.dev.queue q = { s.dev.queue q with cfgReject := true } ∧ (∀ n, n ≠ q → t.dev.queue n = s.dev.queue n) ∧
      t.dev = { s.dev with queues := t.dev.queues }) ∧
    Answers (.registerWrite 0 0x40000 4 v) s (fun t => (∀ n < 15, bitOf t.dev.errors.summary.toNat n =
        (bitOf s.dev.errors.summary.toNat n && !bitOf v.toNat n)) ∧
      t.dev = { s.dev with errors := { s.dev.errors with summary := t.dev.errors.summary } }) ∧
    Answers (.registerWrite 0 0x40004 4 v) s (fun t => (∀ n < 15, bitOf t.dev.errors.mask.toNat n = bitOf v.toNat n) ∧
      t.dev = { s.dev with errors := { s.dev.errors with mask := t.dev.errors.mask } })) ∧
  (∀ (s : State) (n off size : Nat) (v : W64), n ≤ 16 →
    (size ≠ 4 ∧ size ≠ 8 ∨ off % size ≠ 0 ∨ s.dev.fnExists n = false ∨ (s.dev.regsUp = false ∧ s.dev.sys.locked = false)) →
    AnswersDev (.registerWrite n off size v) s s.dev) ∧
  (∀ (s : State) (n : Nat), n = 1 ∨ n = 2 → s.dev.transportUp n = true →
    (∀ m, Answers (.mctpControl n m) s fun t => ∃ x, t.dev.out = s.dev.out ++ [.mgmt n x]) ∧
    (∀ m, Answers (.pldmPlatformRequest n m) s fun t => ∃ x, t.dev.out = s.dev.out ++ [.mgmt n x]) ∧
    (∀ c k, s.dev.mgmt.update = .idle → componentBlocks c ≠ [] → k ≠ 0 → Answers (.requestUpdate n c k) s fun t =>
      t.dev.mgmt.update = .downloading ∧ t.dev.mgmt.component = c) ∧
    (∀ m : LcRequestMsg, m.transport = n → m.secured = false → Answers (.lcRequest m) s fun t => t.dev.life = s.dev.life ∧
      t.dev.out = s.dev.out ++ [.mgmt n (.vendor 0x01 2 [])]) ∧
    (s.dev.vendorBusy n = false → Answers (.lcRead n) s fun t => ∃ l, t.dev.out = s.dev.out ++ [.mgmt n (.vendor 0x02 0 l)]) ∧
    (∀ first count, s.dev.vendorBusy n = false → Answers (.getEvents n first count) s fun t =>
      ∃ st l, t.dev.out = s.dev.out ++ [.mgmt n (.vendor 0x11 st l)]) ∧
    (∀ first count, s.dev.vendorBusy n = false → s.dev.mgmt.counterNo - s.dev.mgmt.counters.length ≤ first →
      Answers (.getCounters n first count) s fun t => ∃ l, t.dev.out = s.dev.out ++ [.mgmt n (.vendor 0x10 0 l)])) ∧
  (∀ s : State, s.dev.endpointUp = true →
    (∀ bytes, s.dev.mgmt.update = .downloading → bytes.length ≤ s.dev.mgmt.chunk → s.dev.transportUp s.dev.mgmt.transport = true →
      Answers (.updateComponentData (.chunk s.dev.mgmt.received bytes)) s fun t =>
        t.dev.mgmt.received = s.dev.mgmt.received + bytes.length) ∧
    (s.dev.mgmt.update = .verified → s.dev.sys.service ≠ .recovery → s.dev.mgmt.component ≠ 1 → s.dev.tideRunning = true →
      Answers .activateFirmware s fun t => s.dev.mgmt.component ∈ t.dev.mgmt.swaps ∧ t.dev.mgmt.update = .idle)) ∧
  (∀ (s : State) (c n : Nat), (c, n) ∈ s.dev.mgmt.trials → s.dev.tide.number ≤ n → s.dev.tideRunning = true →
    Answers (.fwSelfcheckFail c) s fun t => c ∈ t.dev.mgmt.returns)
end

