-- ==== Sys2Proof/Laws/Tab.lean ====
section
/-! SUPPORT. Laws of sparse tables: a read after a write of the same key gives what was written, any other key reads as
before.  They hold of every list, so no premise on its form is needed. -/

namespace Sys2Proof.Machine

theorem Tab.get_erase_self {α : Type} (d : α) (k : Nat) (t : Tab α) : Tab.get d (Tab.erase t k) k = d := by
  induction t with
  | nil => rfl
  | cons p t ih =>
    obtain ⟨k', v⟩ := p
    by_cases h : k' = k
    · simp [Tab.erase, h, ih]
    · simp [Tab.erase, Tab.get, h, ih]

theorem Tab.get_erase_other {α : Type} (d : α) (k m : Nat) (h : m ≠ k) (t : Tab α) :
    Tab.get d (Tab.erase t k) m = Tab.get d t m := by
  induction t with
  | nil => rfl
  | cons p t ih =>
    obtain ⟨k', v⟩ := p
    by_cases hk : k' = k
    · have : k' ≠ m := fun e => h (e.symm.trans hk)
      simp [Tab.erase, Tab.get, hk, ih]
      intro e; exact absurd (hk.trans e) this
    · simp [Tab.erase, Tab.get, hk, ih]

theorem Tab.get_insert_self {α : Type} (d : α) (k : Nat) (v : α) (t : Tab α) (h : ∀ p ∈ t, p.1 ≠ k) :
    Tab.get d (Tab.insert k v t) k = v := by
  induction t with
  | nil => simp [Tab.insert, Tab.get]
  | cons p t ih =>
    obtain ⟨k', v'⟩ := p
    have hk : k' ≠ k := h (k', v') (List.mem_cons_self ..)
    by_cases hlt : k < k'
    · simp [Tab.insert, Tab.get, hlt]
    · simp [Tab.insert, Tab.get, hlt, hk]
      exact ih fun p hp => h p (List.mem_cons_of_mem _ hp)

theorem Tab.get_insert_other {α : Type} (d : α) (k m : Nat) (v : α) (h : m ≠ k) (t : Tab α) :
    Tab.get d (Tab.insert k v t) m = Tab.get d t m := by
  induction t with
  | nil => simp [Tab.insert, Tab.get, Ne.symm h]
  | cons p t ih =>
    obtain ⟨k', v'⟩ := p
    by_cases hlt : k < k'
    · simp [Tab.insert, Tab.get, hlt, Ne.symm h]
    · simp [Tab.insert, Tab.get, hlt, ih]

theorem Tab.erase_keys {α : Type} (k : Nat) (t : Tab α) : ∀ p ∈ Tab.erase t k, p.1 ≠ k := by
  induction t with
  | nil => intro p hp; cases hp
  | cons q t ih =>
    obtain ⟨k', v⟩ := q
    intro p hp
    by_cases hk : k' = k
    · simp [Tab.erase, hk] at hp; exact ih p hp
    · simp [Tab.erase, hk] at hp
      cases hp with
      | inl e => exact e ▸ hk
      | inr e => exact ih p e

/-- An entry just set reads as it was set. -/
@[simp] theorem Tab.get_set_self {α : Type} [DecidableEq α] (d : α) (t : Tab α) (k : Nat) (v : α) :
    Tab.get d (Tab.set d t k v) k = v := by
  unfold Tab.set
  split
  · next h => rw [Tab.get_erase_self, h]
  · exact Tab.get_insert_self d k v _ (Tab.erase_keys k t)

/-- Any other entry reads as before. -/
theorem Tab.get_set_other {α : Type} [DecidableEq α] (d : α) (t : Tab α) (k m : Nat) (v : α) (h : m ≠ k) :
    Tab.get d (Tab.set d t k v) m = Tab.get d t m := by
  unfold Tab.set
  split
  · exact Tab.get_erase_other d k m h t
  · rw [Tab.get_insert_other d k m v h, Tab.get_erase_other d k m h]

/-- What a table reads after an update. -/
theorem Tab.get_upd {α : Type} [DecidableEq α] (d : α) (t : Tab α) (k m : Nat) (f : α → α) :
    Tab.get d (Tab.upd d t k f) m = if m = k then f (Tab.get d t k) else Tab.get d t m := by
  unfold Tab.upd
  split
  · next h => subst h; exact Tab.get_set_self ..
  · next h => exact Tab.get_set_other d t k m _ h

@[simp] theorem Tab.get_upd_self {α : Type} [DecidableEq α] (d : α) (t : Tab α) (k : Nat) (f : α → α) :
    Tab.get d (Tab.upd d t k f) k = f (Tab.get d t k) := Tab.get_set_self ..

theorem Tab.get_upd_other {α : Type} [DecidableEq α] (d : α) (t : Tab α) (k m : Nat) (f : α → α) (h : m ≠ k) :
    Tab.get d (Tab.upd d t k f) m = Tab.get d t m := Tab.get_set_other d t k m _ h

end Sys2Proof.Machine
end

