-- ==== Sys2Proof/Laws/State.lean ====
section
/-! SUPPORT. What each update of the device leaves alone: one lemma for each field and update, true by definition, so that no
later proof unfolds a record update; and what an updated table reads. -/

namespace Sys2Proof.Machine

@[simp] theorem State.onDev_dev (s : State) (f : Dev → Dev) : (s.onDev f).dev = f s.dev := rfl
@[simp] theorem State.onDev_pending (s : State) (f : Dev → Dev) : (s.onDev f).pending = s.pending := rfl

/-! #### modFn -/

@[simp] theorem Dev.modFn_sys (d : Dev) (n : Nat) (f : Function → Function) : (d.modFn n f).sys = d.sys := rfl
@[simp] theorem Dev.modFn_queues (d : Dev) (n : Nat) (f : Function → Function) : (d.modFn n f).queues = d.queues := rfl
@[simp] theorem Dev.modFn_ctxs (d : Dev) (n : Nat) (f : Function → Function) : (d.modFn n f).ctxs = d.ctxs := rfl
@[simp] theorem Dev.modFn_maps (d : Dev) (n : Nat) (f : Function → Function) : (d.modFn n f).maps = d.maps := rfl
@[simp] theorem Dev.modFn_fences (d : Dev) (n : Nat) (f : Function → Function) : (d.modFn n f).fences = d.fences := rfl
@[simp] theorem Dev.modFn_tide (d : Dev) (n : Nat) (f : Function → Function) : (d.modFn n f).tide = d.tide := rfl
@[simp] theorem Dev.modFn_tiles (d : Dev) (n : Nat) (f : Function → Function) : (d.modFn n f).tiles = d.tiles := rfl
@[simp] theorem Dev.modFn_seams (d : Dev) (n : Nat) (f : Function → Function) : (d.modFn n f).seams = d.seams := rfl
@[simp] theorem Dev.modFn_arbs (d : Dev) (n : Nat) (f : Function → Function) : (d.modFn n f).arbs = d.arbs := rfl
@[simp] theorem Dev.modFn_meshThresh (d : Dev) (n : Nat) (f : Function → Function) : (d.modFn n f).meshThresh = d.meshThresh := rfl
@[simp] theorem Dev.modFn_meshStarve (d : Dev) (n : Nat) (f : Function → Function) : (d.modFn n f).meshStarve = d.meshStarve := rfl
@[simp] theorem Dev.modFn_meshTurns (d : Dev) (n : Nat) (f : Function → Function) : (d.modFn n f).meshTurns = d.meshTurns := rfl
@[simp] theorem Dev.modFn_hubs (d : Dev) (n : Nat) (f : Function → Function) : (d.modFn n f).hubs = d.hubs := rfl
@[simp] theorem Dev.modFn_regions (d : Dev) (n : Nat) (f : Function → Function) : (d.modFn n f).regions = d.regions := rfl
@[simp] theorem Dev.modFn_counters (d : Dev) (n : Nat) (f : Function → Function) : (d.modFn n f).counters = d.counters := rfl
@[simp] theorem Dev.modFn_nodes (d : Dev) (n : Nat) (f : Function → Function) : (d.modFn n f).nodes = d.nodes := rfl
@[simp] theorem Dev.modFn_keys (d : Dev) (n : Nat) (f : Function → Function) : (d.modFn n f).keys = d.keys := rfl
@[simp] theorem Dev.modFn_badLines (d : Dev) (n : Nat) (f : Function → Function) : (d.modFn n f).badLines = d.badLines := rfl
@[simp] theorem Dev.modFn_scales (d : Dev) (n : Nat) (f : Function → Function) : (d.modFn n f).scales = d.scales := rfl
@[simp] theorem Dev.modFn_groups (d : Dev) (n : Nat) (f : Function → Function) : (d.modFn n f).groups = d.groups := rfl
@[simp] theorem Dev.modFn_mem (d : Dev) (n : Nat) (f : Function → Function) : (d.modFn n f).mem = d.mem := rfl
@[simp] theorem Dev.modFn_plans (d : Dev) (n : Nat) (f : Function → Function) : (d.modFn n f).plans = d.plans := rfl
@[simp] theorem Dev.modFn_loads (d : Dev) (n : Nat) (f : Function → Function) : (d.modFn n f).loads = d.loads := rfl
@[simp] theorem Dev.modFn_spareCores (d : Dev) (n : Nat) (f : Function → Function) : (d.modFn n f).spareCores = d.spareCores := rfl
@[simp] theorem Dev.modFn_coresDown (d : Dev) (n : Nat) (f : Function → Function) : (d.modFn n f).coresDown = d.coresDown := rfl
@[simp] theorem Dev.modFn_runCmds (d : Dev) (n : Nat) (f : Function → Function) : (d.modFn n f).runCmds = d.runCmds := rfl
@[simp] theorem Dev.modFn_runs (d : Dev) (n : Nat) (f : Function → Function) : (d.modFn n f).runs = d.runs := rfl
@[simp] theorem Dev.modFn_nextRun (d : Dev) (n : Nat) (f : Function → Function) : (d.modFn n f).nextRun = d.nextRun := rfl
@[simp] theorem Dev.modFn_extents (d : Dev) (n : Nat) (f : Function → Function) : (d.modFn n f).extents = d.extents := rfl
@[simp] theorem Dev.modFn_flash (d : Dev) (n : Nat) (f : Function → Function) : (d.modFn n f).flash = d.flash := rfl
@[simp] theorem Dev.modFn_fabric (d : Dev) (n : Nat) (f : Function → Function) : (d.modFn n f).fabric = d.fabric := rfl
@[simp] theorem Dev.modFn_dike (d : Dev) (n : Nat) (f : Function → Function) : (d.modFn n f).dike = d.dike := rfl
@[simp] theorem Dev.modFn_havens (d : Dev) (n : Nat) (f : Function → Function) : (d.modFn n f).havens = d.havens := rfl
@[simp] theorem Dev.modFn_jobs (d : Dev) (n : Nat) (f : Function → Function) : (d.modFn n f).jobs = d.jobs := rfl
@[simp] theorem Dev.modFn_trust (d : Dev) (n : Nat) (f : Function → Function) : (d.modFn n f).trust = d.trust := rfl
@[simp] theorem Dev.modFn_life (d : Dev) (n : Nat) (f : Function → Function) : (d.modFn n f).life = d.life := rfl
@[simp] theorem Dev.modFn_power (d : Dev) (n : Nat) (f : Function → Function) : (d.modFn n f).power = d.power := rfl
@[simp] theorem Dev.modFn_errors (d : Dev) (n : Nat) (f : Function → Function) : (d.modFn n f).errors = d.errors := rfl
@[simp] theorem Dev.modFn_mgmt (d : Dev) (n : Nat) (f : Function → Function) : (d.modFn n f).mgmt = d.mgmt := rfl
@[simp] theorem Dev.modFn_held (d : Dev) (n : Nat) (f : Function → Function) : (d.modFn n f).held = d.held := rfl
@[simp] theorem Dev.modFn_drains (d : Dev) (n : Nat) (f : Function → Function) : (d.modFn n f).drains = d.drains := rfl
@[simp] theorem Dev.modFn_lost (d : Dev) (n : Nat) (f : Function → Function) : (d.modFn n f).lost = d.lost := rfl
@[simp] theorem Dev.modFn_stageQueue (d : Dev) (n : Nat) (f : Function → Function) : (d.modFn n f).stageQueue = d.stageQueue := rfl
@[simp] theorem Dev.modFn_out (d : Dev) (n : Nat) (f : Function → Function) : (d.modFn n f).out = d.out := rfl

/-! #### modQueue -/

@[simp] theorem Dev.modQueue_sys (d : Dev) (n : Nat) (f : Queue → Queue) : (d.modQueue n f).sys = d.sys := rfl
@[simp] theorem Dev.modQueue_fns (d : Dev) (n : Nat) (f : Queue → Queue) : (d.modQueue n f).fns = d.fns := rfl
@[simp] theorem Dev.modQueue_ctxs (d : Dev) (n : Nat) (f : Queue → Queue) : (d.modQueue n f).ctxs = d.ctxs := rfl
@[simp] theorem Dev.modQueue_maps (d : Dev) (n : Nat) (f : Queue → Queue) : (d.modQueue n f).maps = d.maps := rfl
@[simp] theorem Dev.modQueue_fences (d : Dev) (n : Nat) (f : Queue → Queue) : (d.modQueue n f).fences = d.fences := rfl
@[simp] theorem Dev.modQueue_tide (d : Dev) (n : Nat) (f : Queue → Queue) : (d.modQueue n f).tide = d.tide := rfl
@[simp] theorem Dev.modQueue_tiles (d : Dev) (n : Nat) (f : Queue → Queue) : (d.modQueue n f).tiles = d.tiles := rfl
@[simp] theorem Dev.modQueue_seams (d : Dev) (n : Nat) (f : Queue → Queue) : (d.modQueue n f).seams = d.seams := rfl
@[simp] theorem Dev.modQueue_arbs (d : Dev) (n : Nat) (f : Queue → Queue) : (d.modQueue n f).arbs = d.arbs := rfl
@[simp] theorem Dev.modQueue_meshThresh (d : Dev) (n : Nat) (f : Queue → Queue) : (d.modQueue n f).meshThresh = d.meshThresh := rfl
@[simp] theorem Dev.modQueue_meshStarve (d : Dev) (n : Nat) (f : Queue → Queue) : (d.modQueue n f).meshStarve = d.meshStarve := rfl
@[simp] theorem Dev.modQueue_meshTurns (d : Dev) (n : Nat) (f : Queue → Queue) : (d.modQueue n f).meshTurns = d.meshTurns := rfl
@[simp] theorem Dev.modQueue_hubs (d : Dev) (n : Nat) (f : Queue → Queue) : (d.modQueue n f).hubs = d.hubs := rfl
@[simp] theorem Dev.modQueue_regions (d : Dev) (n : Nat) (f : Queue → Queue) : (d.modQueue n f).regions = d.regions := rfl
@[simp] theorem Dev.modQueue_counters (d : Dev) (n : Nat) (f : Queue → Queue) : (d.modQueue n f).counters = d.counters := rfl
@[simp] theorem Dev.modQueue_nodes (d : Dev) (n : Nat) (f : Queue → Queue) : (d.modQueue n f).nodes = d.nodes := rfl
@[simp] theorem Dev.modQueue_keys (d : Dev) (n : Nat) (f : Queue → Queue) : (d.modQueue n f).keys = d.keys := rfl
@[simp] theorem Dev.modQueue_badLines (d : Dev) (n : Nat) (f : Queue → Queue) : (d.modQueue n f).badLines = d.badLines := rfl
@[simp] theorem Dev.modQueue_scales (d : Dev) (n : Nat) (f : Queue → Queue) : (d.modQueue n f).scales = d.scales := rfl
@[simp] theorem Dev.modQueue_groups (d : Dev) (n : Nat) (f : Queue → Queue) : (d.modQueue n f).groups = d.groups := rfl
@[simp] theorem Dev.modQueue_mem (d : Dev) (n : Nat) (f : Queue → Queue) : (d.modQueue n f).mem = d.mem := rfl
@[simp] theorem Dev.modQueue_plans (d : Dev) (n : Nat) (f : Queue → Queue) : (d.modQueue n f).plans = d.plans := rfl
@[simp] theorem Dev.modQueue_loads (d : Dev) (n : Nat) (f : Queue → Queue) : (d.modQueue n f).loads = d.loads := rfl
@[simp] theorem Dev.modQueue_spareCores (d : Dev) (n : Nat) (f : Queue → Queue) : (d.modQueue n f).spareCores = d.spareCores := rfl
@[simp] theorem Dev.modQueue_coresDown (d : Dev) (n : Nat) (f : Queue → Queue) : (d.modQueue n f).coresDown = d.coresDown := rfl
@[simp] theorem Dev.modQueue_runCmds (d : Dev) (n : Nat) (f : Queue → Queue) : (d.modQueue n f).runCmds = d.runCmds := rfl
@[simp] theorem Dev.modQueue_runs (d : Dev) (n : Nat) (f : Queue → Queue) : (d.modQueue n f).runs = d.runs := rfl
@[simp] theorem Dev.modQueue_nextRun (d : Dev) (n : Nat) (f : Queue → Queue) : (d.modQueue n f).nextRun = d.nextRun := rfl
@[simp] theorem Dev.modQueue_extents (d : Dev) (n : Nat) (f : Queue → Queue) : (d.modQueue n f).extents = d.extents := rfl
@[simp] theorem Dev.modQueue_flash (d : Dev) (n : Nat) (f : Queue → Queue) : (d.modQueue n f).flash = d.flash := rfl
@[simp] theorem Dev.modQueue_fabric (d : Dev) (n : Nat) (f : Queue → Queue) : (d.modQueue n f).fabric = d.fabric := rfl
@[simp] theorem Dev.modQueue_dike (d : Dev) (n : Nat) (f : Queue → Queue) : (d.modQueue n f).dike = d.dike := rfl
@[simp] theorem Dev.modQueue_havens (d : Dev) (n : Nat) (f : Queue → Queue) : (d.modQueue n f).havens = d.havens := rfl
@[simp] theorem Dev.modQueue_jobs (d : Dev) (n : Nat) (f : Queue → Queue) : (d.modQueue n f).jobs = d.jobs := rfl
@[simp] theorem Dev.modQueue_trust (d : Dev) (n : Nat) (f : Queue → Queue) : (d.modQueue n f).trust = d.trust := rfl
@[simp] theorem Dev.modQueue_life (d : Dev) (n : Nat) (f : Queue → Queue) : (d.modQueue n f).life = d.life := rfl
@[simp] theorem Dev.modQueue_power (d : Dev) (n : Nat) (f : Queue → Queue) : (d.modQueue n f).power = d.power := rfl
@[simp] theorem Dev.modQueue_errors (d : Dev) (n : Nat) (f : Queue → Queue) : (d.modQueue n f).errors = d.errors := rfl
@[simp] theorem Dev.modQueue_mgmt (d : Dev) (n : Nat) (f : Queue → Queue) : (d.modQueue n f).mgmt = d.mgmt := rfl
@[simp] theorem Dev.modQueue_held (d : Dev) (n : Nat) (f : Queue → Queue) : (d.modQueue n f).held = d.held := rfl
@[simp] theorem Dev.modQueue_drains (d : Dev) (n : Nat) (f : Queue → Queue) : (d.modQueue n f).drains = d.drains := rfl
@[simp] theorem Dev.modQueue_lost (d : Dev) (n : Nat) (f : Queue → Queue) : (d.modQueue n f).lost = d.lost := rfl
@[simp] theorem Dev.modQueue_stageQueue (d : Dev) (n : Nat) (f : Queue → Queue) : (d.modQueue n f).stageQueue = d.stageQueue := rfl
@[simp] theorem Dev.modQueue_out (d : Dev) (n : Nat) (f : Queue → Queue) : (d.modQueue n f).out = d.out := rfl

/-! #### modCtx -/

@[simp] theorem Dev.modCtx_sys (d : Dev) (n : Nat) (f : Context → Context) : (d.modCtx n f).sys = d.sys := rfl
@[simp] theorem Dev.modCtx_fns (d : Dev) (n : Nat) (f : Context → Context) : (d.modCtx n f).fns = d.fns := rfl
@[simp] theorem Dev.modCtx_queues (d : Dev) (n : Nat) (f : Context → Context) : (d.modCtx n f).queues = d.queues := rfl
@[simp] theorem Dev.modCtx_maps (d : Dev) (n : Nat) (f : Context → Context) : (d.modCtx n f).maps = d.maps := rfl
@[simp] theorem Dev.modCtx_fences (d : Dev) (n : Nat) (f : Context → Context) : (d.modCtx n f).fences = d.fences := rfl
@[simp] theorem Dev.modCtx_tide (d : Dev) (n : Nat) (f : Context → Context) : (d.modCtx n f).tide = d.tide := rfl
@[simp] theorem Dev.modCtx_tiles (d : Dev) (n : Nat) (f : Context → Context) : (d.modCtx n f).tiles = d.tiles := rfl
@[simp] theorem Dev.modCtx_seams (d : Dev) (n : Nat) (f : Context → Context) : (d.modCtx n f).seams = d.seams := rfl
@[simp] theorem Dev.modCtx_arbs (d : Dev) (n : Nat) (f : Context → Context) : (d.modCtx n f).arbs = d.arbs := rfl
@[simp] theorem Dev.modCtx_meshThresh (d : Dev) (n : Nat) (f : Context → Context) : (d.modCtx n f).meshThresh = d.meshThresh := rfl
@[simp] theorem Dev.modCtx_meshStarve (d : Dev) (n : Nat) (f : Context → Context) : (d.modCtx n f).meshStarve = d.meshStarve := rfl
@[simp] theorem Dev.modCtx_meshTurns (d : Dev) (n : Nat) (f : Context → Context) : (d.modCtx n f).meshTurns = d.meshTurns := rfl
@[simp] theorem Dev.modCtx_hubs (d : Dev) (n : Nat) (f : Context → Context) : (d.modCtx n f).hubs = d.hubs := rfl
@[simp] theorem Dev.modCtx_regions (d : Dev) (n : Nat) (f : Context → Context) : (d.modCtx n f).regions = d.regions := rfl
@[simp] theorem Dev.modCtx_counters (d : Dev) (n : Nat) (f : Context → Context) : (d.modCtx n f).counters = d.counters := rfl
@[simp] theorem Dev.modCtx_nodes (d : Dev) (n : Nat) (f : Context → Context) : (d.modCtx n f).nodes = d.nodes := rfl
@[simp] theorem Dev.modCtx_keys (d : Dev) (n : Nat) (f : Context → Context) : (d.modCtx n f).keys = d.keys := rfl
@[simp] theorem Dev.modCtx_badLines (d : Dev) (n : Nat) (f : Context → Context) : (d.modCtx n f).badLines = d.badLines := rfl
@[simp] theorem Dev.modCtx_scales (d : Dev) (n : Nat) (f : Context → Context) : (d.modCtx n f).scales = d.scales := rfl
@[simp] theorem Dev.modCtx_groups (d : Dev) (n : Nat) (f : Context → Context) : (d.modCtx n f).groups = d.groups := rfl
@[simp] theorem Dev.modCtx_mem (d : Dev) (n : Nat) (f : Context → Context) : (d.modCtx n f).mem = d.mem := rfl
@[simp] theorem Dev.modCtx_plans (d : Dev) (n : Nat) (f : Context → Context) : (d.modCtx n f).plans = d.plans := rfl
@[simp] theorem Dev.modCtx_loads (d : Dev) (n : Nat) (f : Context → Context) : (d.modCtx n f).loads = d.loads := rfl
@[simp] theorem Dev.modCtx_spareCores (d : Dev) (n : Nat) (f : Context → Context) : (d.modCtx n f).spareCores = d.spareCores := rfl
@[simp] theorem Dev.modCtx_coresDown (d : Dev) (n : Nat) (f : Context → Context) : (d.modCtx n f).coresDown = d.coresDown := rfl
@[simp] theorem Dev.modCtx_runCmds (d : Dev) (n : Nat) (f : Context → Context) : (d.modCtx n f).runCmds = d.runCmds := rfl
@[simp] theorem Dev.modCtx_runs (d : Dev) (n : Nat) (f : Context → Context) : (d.modCtx n f).runs = d.runs := rfl
@[simp] theorem Dev.modCtx_nextRun (d : Dev) (n : Nat) (f : Context → Context) : (d.modCtx n f).nextRun = d.nextRun := rfl
@[simp] theorem Dev.modCtx_extents (d : Dev) (n : Nat) (f : Context → Context) : (d.modCtx n f).extents = d.extents := rfl
@[simp] theorem Dev.modCtx_flash (d : Dev) (n : Nat) (f : Context → Context) : (d.modCtx n f).flash = d.flash := rfl
@[simp] theorem Dev.modCtx_fabric (d : Dev) (n : Nat) (f : Context → Context) : (d.modCtx n f).fabric = d.fabric := rfl
@[simp] theorem Dev.modCtx_dike (d : Dev) (n : Nat) (f : Context → Context) : (d.modCtx n f).dike = d.dike := rfl
@[simp] theorem Dev.modCtx_havens (d : Dev) (n : Nat) (f : Context → Context) : (d.modCtx n f).havens = d.havens := rfl
@[simp] theorem Dev.modCtx_jobs (d : Dev) (n : Nat) (f : Context → Context) : (d.modCtx n f).jobs = d.jobs := rfl
@[simp] theorem Dev.modCtx_trust (d : Dev) (n : Nat) (f : Context → Context) : (d.modCtx n f).trust = d.trust := rfl
@[simp] theorem Dev.modCtx_life (d : Dev) (n : Nat) (f : Context → Context) : (d.modCtx n f).life = d.life := rfl
@[simp] theorem Dev.modCtx_power (d : Dev) (n : Nat) (f : Context → Context) : (d.modCtx n f).power = d.power := rfl
@[simp] theorem Dev.modCtx_errors (d : Dev) (n : Nat) (f : Context → Context) : (d.modCtx n f).errors = d.errors := rfl
@[simp] theorem Dev.modCtx_mgmt (d : Dev) (n : Nat) (f : Context → Context) : (d.modCtx n f).mgmt = d.mgmt := rfl
@[simp] theorem Dev.modCtx_held (d : Dev) (n : Nat) (f : Context → Context) : (d.modCtx n f).held = d.held := rfl
@[simp] theorem Dev.modCtx_drains (d : Dev) (n : Nat) (f : Context → Context) : (d.modCtx n f).drains = d.drains := rfl
@[simp] theorem Dev.modCtx_lost (d : Dev) (n : Nat) (f : Context → Context) : (d.modCtx n f).lost = d.lost := rfl
@[simp] theorem Dev.modCtx_stageQueue (d : Dev) (n : Nat) (f : Context → Context) : (d.modCtx n f).stageQueue = d.stageQueue := rfl
@[simp] theorem Dev.modCtx_out (d : Dev) (n : Nat) (f : Context → Context) : (d.modCtx n f).out = d.out := rfl

/-! #### modMap -/

@[simp] theorem Dev.modMap_sys (d : Dev) (n : Nat) (f : MapEntry → MapEntry) : (d.modMap n f).sys = d.sys := rfl
@[simp] theorem Dev.modMap_fns (d : Dev) (n : Nat) (f : MapEntry → MapEntry) : (d.modMap n f).fns = d.fns := rfl
@[simp] theorem Dev.modMap_queues (d : Dev) (n : Nat) (f : MapEntry → MapEntry) : (d.modMap n f).queues = d.queues := rfl
@[simp] theorem Dev.modMap_ctxs (d : Dev) (n : Nat) (f : MapEntry → MapEntry) : (d.modMap n f).ctxs = d.ctxs := rfl
@[simp] theorem Dev.modMap_fences (d : Dev) (n : Nat) (f : MapEntry → MapEntry) : (d.modMap n f).fences = d.fences := rfl
@[simp] theorem Dev.modMap_tide (d : Dev) (n : Nat) (f : MapEntry → MapEntry) : (d.modMap n f).tide = d.tide := rfl
@[simp] theorem Dev.modMap_tiles (d : Dev) (n : Nat) (f : MapEntry → MapEntry) : (d.modMap n f).tiles = d.tiles := rfl
@[simp] theorem Dev.modMap_seams (d : Dev) (n : Nat) (f : MapEntry → MapEntry) : (d.modMap n f).seams = d.seams := rfl
@[simp] theorem Dev.modMap_arbs (d : Dev) (n : Nat) (f : MapEntry → MapEntry) : (d.modMap n f).arbs = d.arbs := rfl
@[simp] theorem Dev.modMap_meshThresh (d : Dev) (n : Nat) (f : MapEntry → MapEntry) : (d.modMap n f).meshThresh = d.meshThresh := rfl
@[simp] theorem Dev.modMap_meshStarve (d : Dev) (n : Nat) (f : MapEntry → MapEntry) : (d.modMap n f).meshStarve = d.meshStarve := rfl
@[simp] theorem Dev.modMap_meshTurns (d : Dev) (n : Nat) (f : MapEntry → MapEntry) : (d.modMap n f).meshTurns = d.meshTurns := rfl
@[simp] theorem Dev.modMap_hubs (d : Dev) (n : Nat) (f : MapEntry → MapEntry) : (d.modMap n f).hubs = d.hubs := rfl
@[simp] theorem Dev.modMap_regions (d : Dev) (n : Nat) (f : MapEntry → MapEntry) : (d.modMap n f).regions = d.regions := rfl
@[simp] theorem Dev.modMap_counters (d : Dev) (n : Nat) (f : MapEntry → MapEntry) : (d.modMap n f).counters = d.counters := rfl
@[simp] theorem Dev.modMap_nodes (d : Dev) (n : Nat) (f : MapEntry → MapEntry) : (d.modMap n f).nodes = d.nodes := rfl
@[simp] theorem Dev.modMap_keys (d : Dev) (n : Nat) (f : MapEntry → MapEntry) : (d.modMap n f).keys = d.keys := rfl
@[simp] theorem Dev.modMap_badLines (d : Dev) (n : Nat) (f : MapEntry → MapEntry) : (d.modMap n f).badLines = d.badLines := rfl
@[simp] theorem Dev.modMap_scales (d : Dev) (n : Nat) (f : MapEntry → MapEntry) : (d.modMap n f).scales = d.scales := rfl
@[simp] theorem Dev.modMap_groups (d : Dev) (n : Nat) (f : MapEntry → MapEntry) : (d.modMap n f).groups = d.groups := rfl
@[simp] theorem Dev.modMap_mem (d : Dev) (n : Nat) (f : MapEntry → MapEntry) : (d.modMap n f).mem = d.mem := rfl
@[simp] theorem Dev.modMap_plans (d : Dev) (n : Nat) (f : MapEntry → MapEntry) : (d.modMap n f).plans = d.plans := rfl
@[simp] theorem Dev.modMap_loads (d : Dev) (n : Nat) (f : MapEntry → MapEntry) : (d.modMap n f).loads = d.loads := rfl
@[simp] theorem Dev.modMap_spareCores (d : Dev) (n : Nat) (f : MapEntry → MapEntry) : (d.modMap n f).spareCores = d.spareCores := rfl
@[simp] theorem Dev.modMap_coresDown (d : Dev) (n : Nat) (f : MapEntry → MapEntry) : (d.modMap n f).coresDown = d.coresDown := rfl
@[simp] theorem Dev.modMap_runCmds (d : Dev) (n : Nat) (f : MapEntry → MapEntry) : (d.modMap n f).runCmds = d.runCmds := rfl
@[simp] theorem Dev.modMap_runs (d : Dev) (n : Nat) (f : MapEntry → MapEntry) : (d.modMap n f).runs = d.runs := rfl
@[simp] theorem Dev.modMap_nextRun (d : Dev) (n : Nat) (f : MapEntry → MapEntry) : (d.modMap n f).nextRun = d.nextRun := rfl
@[simp] theorem Dev.modMap_extents (d : Dev) (n : Nat) (f : MapEntry → MapEntry) : (d.modMap n f).extents = d.extents := rfl
@[simp] theorem Dev.modMap_flash (d : Dev) (n : Nat) (f : MapEntry → MapEntry) : (d.modMap n f).flash = d.flash := rfl
@[simp] theorem Dev.modMap_fabric (d : Dev) (n : Nat) (f : MapEntry → MapEntry) : (d.modMap n f).fabric = d.fabric := rfl
@[simp] theorem Dev.modMap_dike (d : Dev) (n : Nat) (f : MapEntry → MapEntry) : (d.modMap n f).dike = d.dike := rfl
@[simp] theorem Dev.modMap_havens (d : Dev) (n : Nat) (f : MapEntry → MapEntry) : (d.modMap n f).havens = d.havens := rfl
@[simp] theorem Dev.modMap_jobs (d : Dev) (n : Nat) (f : MapEntry → MapEntry) : (d.modMap n f).jobs = d.jobs := rfl
@[simp] theorem Dev.modMap_trust (d : Dev) (n : Nat) (f : MapEntry → MapEntry) : (d.modMap n f).trust = d.trust := rfl
@[simp] theorem Dev.modMap_life (d : Dev) (n : Nat) (f : MapEntry → MapEntry) : (d.modMap n f).life = d.life := rfl
@[simp] theorem Dev.modMap_power (d : Dev) (n : Nat) (f : MapEntry → MapEntry) : (d.modMap n f).power = d.power := rfl
@[simp] theorem Dev.modMap_errors (d : Dev) (n : Nat) (f : MapEntry → MapEntry) : (d.modMap n f).errors = d.errors := rfl
@[simp] theorem Dev.modMap_mgmt (d : Dev) (n : Nat) (f : MapEntry → MapEntry) : (d.modMap n f).mgmt = d.mgmt := rfl
@[simp] theorem Dev.modMap_held (d : Dev) (n : Nat) (f : MapEntry → MapEntry) : (d.modMap n f).held = d.held := rfl
@[simp] theorem Dev.modMap_drains (d : Dev) (n : Nat) (f : MapEntry → MapEntry) : (d.modMap n f).drains = d.drains := rfl
@[simp] theorem Dev.modMap_lost (d : Dev) (n : Nat) (f : MapEntry → MapEntry) : (d.modMap n f).lost = d.lost := rfl
@[simp] theorem Dev.modMap_stageQueue (d : Dev) (n : Nat) (f : MapEntry → MapEntry) : (d.modMap n f).stageQueue = d.stageQueue := rfl
@[simp] theorem Dev.modMap_out (d : Dev) (n : Nat) (f : MapEntry → MapEntry) : (d.modMap n f).out = d.out := rfl

/-! #### modFence -/

@[simp] theorem Dev.modFence_sys (d : Dev) (n : Nat) (f : Fence → Fence) : (d.modFence n f).sys = d.sys := rfl
@[simp] theorem Dev.modFence_fns (d : Dev) (n : Nat) (f : Fence → Fence) : (d.modFence n f).fns = d.fns := rfl
@[simp] theorem Dev.modFence_queues (d : Dev) (n : Nat) (f : Fence → Fence) : (d.modFence n f).queues = d.queues := rfl
@[simp] theorem Dev.modFence_ctxs (d : Dev) (n : Nat) (f : Fence → Fence) : (d.modFence n f).ctxs = d.ctxs := rfl
@[simp] theorem Dev.modFence_maps (d : Dev) (n : Nat) (f : Fence → Fence) : (d.modFence n f).maps = d.maps := rfl
@[simp] theorem Dev.modFence_tide (d : Dev) (n : Nat) (f : Fence → Fence) : (d.modFence n f).tide = d.tide := rfl
@[simp] theorem Dev.modFence_tiles (d : Dev) (n : Nat) (f : Fence → Fence) : (d.modFence n f).tiles = d.tiles := rfl
@[simp] theorem Dev.modFence_seams (d : Dev) (n : Nat) (f : Fence → Fence) : (d.modFence n f).seams = d.seams := rfl
@[simp] theorem Dev.modFence_arbs (d : Dev) (n : Nat) (f : Fence → Fence) : (d.modFence n f).arbs = d.arbs := rfl
@[simp] theorem Dev.modFence_meshThresh (d : Dev) (n : Nat) (f : Fence → Fence) : (d.modFence n f).meshThresh = d.meshThresh := rfl
@[simp] theorem Dev.modFence_meshStarve (d : Dev) (n : Nat) (f : Fence → Fence) : (d.modFence n f).meshStarve = d.meshStarve := rfl
@[simp] theorem Dev.modFence_meshTurns (d : Dev) (n : Nat) (f : Fence → Fence) : (d.modFence n f).meshTurns = d.meshTurns := rfl
@[simp] theorem Dev.modFence_hubs (d : Dev) (n : Nat) (f : Fence → Fence) : (d.modFence n f).hubs = d.hubs := rfl
@[simp] theorem Dev.modFence_regions (d : Dev) (n : Nat) (f : Fence → Fence) : (d.modFence n f).regions = d.regions := rfl
@[simp] theorem Dev.modFence_counters (d : Dev) (n : Nat) (f : Fence → Fence) : (d.modFence n f).counters = d.counters := rfl
@[simp] theorem Dev.modFence_nodes (d : Dev) (n : Nat) (f : Fence → Fence) : (d.modFence n f).nodes = d.nodes := rfl
@[simp] theorem Dev.modFence_keys (d : Dev) (n : Nat) (f : Fence → Fence) : (d.modFence n f).keys = d.keys := rfl
@[simp] theorem Dev.modFence_badLines (d : Dev) (n : Nat) (f : Fence → Fence) : (d.modFence n f).badLines = d.badLines := rfl
@[simp] theorem Dev.modFence_scales (d : Dev) (n : Nat) (f : Fence → Fence) : (d.modFence n f).scales = d.scales := rfl
@[simp] theorem Dev.modFence_groups (d : Dev) (n : Nat) (f : Fence → Fence) : (d.modFence n f).groups = d.groups := rfl
@[simp] theorem Dev.modFence_mem (d : Dev) (n : Nat) (f : Fence → Fence) : (d.modFence n f).mem = d.mem := rfl
@[simp] theorem Dev.modFence_plans (d : Dev) (n : Nat) (f : Fence → Fence) : (d.modFence n f).plans = d.plans := rfl
@[simp] theorem Dev.modFence_loads (d : Dev) (n : Nat) (f : Fence → Fence) : (d.modFence n f).loads = d.loads := rfl
@[simp] theorem Dev.modFence_spareCores (d : Dev) (n : Nat) (f : Fence → Fence) : (d.modFence n f).spareCores = d.spareCores := rfl
@[simp] theorem Dev.modFence_coresDown (d : Dev) (n : Nat) (f : Fence → Fence) : (d.modFence n f).coresDown = d.coresDown := rfl
@[simp] theorem Dev.modFence_runCmds (d : Dev) (n : Nat) (f : Fence → Fence) : (d.modFence n f).runCmds = d.runCmds := rfl
@[simp] theorem Dev.modFence_runs (d : Dev) (n : Nat) (f : Fence → Fence) : (d.modFence n f).runs = d.runs := rfl
@[simp] theorem Dev.modFence_nextRun (d : Dev) (n : Nat) (f : Fence → Fence) : (d.modFence n f).nextRun = d.nextRun := rfl
@[simp] theorem Dev.modFence_extents (d : Dev) (n : Nat) (f : Fence → Fence) : (d.modFence n f).extents = d.extents := rfl
@[simp] theorem Dev.modFence_flash (d : Dev) (n : Nat) (f : Fence → Fence) : (d.modFence n f).flash = d.flash := rfl
@[simp] theorem Dev.modFence_fabric (d : Dev) (n : Nat) (f : Fence → Fence) : (d.modFence n f).fabric = d.fabric := rfl
@[simp] theorem Dev.modFence_dike (d : Dev) (n : Nat) (f : Fence → Fence) : (d.modFence n f).dike = d.dike := rfl
@[simp] theorem Dev.modFence_havens (d : Dev) (n : Nat) (f : Fence → Fence) : (d.modFence n f).havens = d.havens := rfl
@[simp] theorem Dev.modFence_jobs (d : Dev) (n : Nat) (f : Fence → Fence) : (d.modFence n f).jobs = d.jobs := rfl
@[simp] theorem Dev.modFence_trust (d : Dev) (n : Nat) (f : Fence → Fence) : (d.modFence n f).trust = d.trust := rfl
@[simp] theorem Dev.modFence_life (d : Dev) (n : Nat) (f : Fence → Fence) : (d.modFence n f).life = d.life := rfl
@[simp] theorem Dev.modFence_power (d : Dev) (n : Nat) (f : Fence → Fence) : (d.modFence n f).power = d.power := rfl
@[simp] theorem Dev.modFence_errors (d : Dev) (n : Nat) (f : Fence → Fence) : (d.modFence n f).errors = d.errors := rfl
@[simp] theorem Dev.modFence_mgmt (d : Dev) (n : Nat) (f : Fence → Fence) : (d.modFence n f).mgmt = d.mgmt := rfl
@[simp] theorem Dev.modFence_held (d : Dev) (n : Nat) (f : Fence → Fence) : (d.modFence n f).held = d.held := rfl
@[simp] theorem Dev.modFence_drains (d : Dev) (n : Nat) (f : Fence → Fence) : (d.modFence n f).drains = d.drains := rfl
@[simp] theorem Dev.modFence_lost (d : Dev) (n : Nat) (f : Fence → Fence) : (d.modFence n f).lost = d.lost := rfl
@[simp] theorem Dev.modFence_stageQueue (d : Dev) (n : Nat) (f : Fence → Fence) : (d.modFence n f).stageQueue = d.stageQueue := rfl
@[simp] theorem Dev.modFence_out (d : Dev) (n : Nat) (f : Fence → Fence) : (d.modFence n f).out = d.out := rfl

/-! #### modTile -/

@[simp] theorem Dev.modTile_sys (d : Dev) (n : Nat) (f : Tile → Tile) : (d.modTile n f).sys = d.sys := rfl
@[simp] theorem Dev.modTile_fns (d : Dev) (n : Nat) (f : Tile → Tile) : (d.modTile n f).fns = d.fns := rfl
@[simp] theorem Dev.modTile_queues (d : Dev) (n : Nat) (f : Tile → Tile) : (d.modTile n f).queues = d.queues := rfl
@[simp] theorem Dev.modTile_ctxs (d : Dev) (n : Nat) (f : Tile → Tile) : (d.modTile n f).ctxs = d.ctxs := rfl
@[simp] theorem Dev.modTile_maps (d : Dev) (n : Nat) (f : Tile → Tile) : (d.modTile n f).maps = d.maps := rfl
@[simp] theorem Dev.modTile_fences (d : Dev) (n : Nat) (f : Tile → Tile) : (d.modTile n f).fences = d.fences := rfl
@[simp] theorem Dev.modTile_tide (d : Dev) (n : Nat) (f : Tile → Tile) : (d.modTile n f).tide = d.tide := rfl
@[simp] theorem Dev.modTile_seams (d : Dev) (n : Nat) (f : Tile → Tile) : (d.modTile n f).seams = d.seams := rfl
@[simp] theorem Dev.modTile_arbs (d : Dev) (n : Nat) (f : Tile → Tile) : (d.modTile n f).arbs = d.arbs := rfl
@[simp] theorem Dev.modTile_meshThresh (d : Dev) (n : Nat) (f : Tile → Tile) : (d.modTile n f).meshThresh = d.meshThresh := rfl
@[simp] theorem Dev.modTile_meshStarve (d : Dev) (n : Nat) (f : Tile → Tile) : (d.modTile n f).meshStarve = d.meshStarve := rfl
@[simp] theorem Dev.modTile_meshTurns (d : Dev) (n : Nat) (f : Tile → Tile) : (d.modTile n f).meshTurns = d.meshTurns := rfl
@[simp] theorem Dev.modTile_hubs (d : Dev) (n : Nat) (f : Tile → Tile) : (d.modTile n f).hubs = d.hubs := rfl
@[simp] theorem Dev.modTile_regions (d : Dev) (n : Nat) (f : Tile → Tile) : (d.modTile n f).regions = d.regions := rfl
@[simp] theorem Dev.modTile_counters (d : Dev) (n : Nat) (f : Tile → Tile) : (d.modTile n f).counters = d.counters := rfl
@[simp] theorem Dev.modTile_nodes (d : Dev) (n : Nat) (f : Tile → Tile) : (d.modTile n f).nodes = d.nodes := rfl
@[simp] theorem Dev.modTile_keys (d : Dev) (n : Nat) (f : Tile → Tile) : (d.modTile n f).keys = d.keys := rfl
@[simp] theorem Dev.modTile_badLines (d : Dev) (n : Nat) (f : Tile → Tile) : (d.modTile n f).badLines = d.badLines := rfl
@[simp] theorem Dev.modTile_scales (d : Dev) (n : Nat) (f : Tile → Tile) : (d.modTile n f).scales = d.scales := rfl
@[simp] theorem Dev.modTile_groups (d : Dev) (n : Nat) (f : Tile → Tile) : (d.modTile n f).groups = d.groups := rfl
@[simp] theorem Dev.modTile_mem (d : Dev) (n : Nat) (f : Tile → Tile) : (d.modTile n f).mem = d.mem := rfl
@[simp] theorem Dev.modTile_plans (d : Dev) (n : Nat) (f : Tile → Tile) : (d.modTile n f).plans = d.plans := rfl
@[simp] theorem Dev.modTile_loads (d : Dev) (n : Nat) (f : Tile → Tile) : (d.modTile n f).loads = d.loads := rfl
@[simp] theorem Dev.modTile_spareCores (d : Dev) (n : Nat) (f : Tile → Tile) : (d.modTile n f).spareCores = d.spareCores := rfl
@[simp] theorem Dev.modTile_coresDown (d : Dev) (n : Nat) (f : Tile → Tile) : (d.modTile n f).coresDown = d.coresDown := rfl
@[simp] theorem Dev.modTile_runCmds (d : Dev) (n : Nat) (f : Tile → Tile) : (d.modTile n f).runCmds = d.runCmds := rfl
@[simp] theorem Dev.modTile_runs (d : Dev) (n : Nat) (f : Tile → Tile) : (d.modTile n f).runs = d.runs := rfl
@[simp] theorem Dev.modTile_nextRun (d : Dev) (n : Nat) (f : Tile → Tile) : (d.modTile n f).nextRun = d.nextRun := rfl
@[simp] theorem Dev.modTile_extents (d : Dev) (n : Nat) (f : Tile → Tile) : (d.modTile n f).extents = d.extents := rfl
@[simp] theorem Dev.modTile_flash (d : Dev) (n : Nat) (f : Tile → Tile) : (d.modTile n f).flash = d.flash := rfl
@[simp] theorem Dev.modTile_fabric (d : Dev) (n : Nat) (f : Tile → Tile) : (d.modTile n f).fabric = d.fabric := rfl
@[simp] theorem Dev.modTile_dike (d : Dev) (n : Nat) (f : Tile → Tile) : (d.modTile n f).dike = d.dike := rfl
@[simp] theorem Dev.modTile_havens (d : Dev) (n : Nat) (f : Tile → Tile) : (d.modTile n f).havens = d.havens := rfl
@[simp] theorem Dev.modTile_jobs (d : Dev) (n : Nat) (f : Tile → Tile) : (d.modTile n f).jobs = d.jobs := rfl
@[simp] theorem Dev.modTile_trust (d : Dev) (n : Nat) (f : Tile → Tile) : (d.modTile n f).trust = d.trust := rfl
@[simp] theorem Dev.modTile_life (d : Dev) (n : Nat) (f : Tile → Tile) : (d.modTile n f).life = d.life := rfl
@[simp] theorem Dev.modTile_power (d : Dev) (n : Nat) (f : Tile → Tile) : (d.modTile n f).power = d.power := rfl
@[simp] theorem Dev.modTile_errors (d : Dev) (n : Nat) (f : Tile → Tile) : (d.modTile n f).errors = d.errors := rfl
@[simp] theorem Dev.modTile_mgmt (d : Dev) (n : Nat) (f : Tile → Tile) : (d.modTile n f).mgmt = d.mgmt := rfl
@[simp] theorem Dev.modTile_held (d : Dev) (n : Nat) (f : Tile → Tile) : (d.modTile n f).held = d.held := rfl
@[simp] theorem Dev.modTile_drains (d : Dev) (n : Nat) (f : Tile → Tile) : (d.modTile n f).drains = d.drains := rfl
@[simp] theorem Dev.modTile_lost (d : Dev) (n : Nat) (f : Tile → Tile) : (d.modTile n f).lost = d.lost := rfl
@[simp] theorem Dev.modTile_stageQueue (d : Dev) (n : Nat) (f : Tile → Tile) : (d.modTile n f).stageQueue = d.stageQueue := rfl
@[simp] theorem Dev.modTile_out (d : Dev) (n : Nat) (f : Tile → Tile) : (d.modTile n f).out = d.out := rfl

/-! #### modSeam -/

@[simp] theorem Dev.modSeam_sys (d : Dev) (n : Nat) (f : Seam → Seam) : (d.modSeam n f).sys = d.sys := rfl
@[simp] theorem Dev.modSeam_fns (d : Dev) (n : Nat) (f : Seam → Seam) : (d.modSeam n f).fns = d.fns := rfl
@[simp] theorem Dev.modSeam_queues (d : Dev) (n : Nat) (f : Seam → Seam) : (d.modSeam n f).queues = d.queues := rfl
@[simp] theorem Dev.modSeam_ctxs (d : Dev) (n : Nat) (f : Seam → Seam) : (d.modSeam n f).ctxs = d.ctxs := rfl
@[simp] theorem Dev.modSeam_maps (d : Dev) (n : Nat) (f : Seam → Seam) : (d.modSeam n f).maps = d.maps := rfl
@[simp] theorem Dev.modSeam_fences (d : Dev) (n : Nat) (f : Seam → Seam) : (d.modSeam n f).fences = d.fences := rfl
@[simp] theorem Dev.modSeam_tide (d : Dev) (n : Nat) (f : Seam → Seam) : (d.modSeam n f).tide = d.tide := rfl
@[simp] theorem Dev.modSeam_tiles (d : Dev) (n : Nat) (f : Seam → Seam) : (d.modSeam n f).tiles = d.tiles := rfl
@[simp] theorem Dev.modSeam_arbs (d : Dev) (n : Nat) (f : Seam → Seam) : (d.modSeam n f).arbs = d.arbs := rfl
@[simp] theorem Dev.modSeam_meshThresh (d : Dev) (n : Nat) (f : Seam → Seam) : (d.modSeam n f).meshThresh = d.meshThresh := rfl
@[simp] theorem Dev.modSeam_meshStarve (d : Dev) (n : Nat) (f : Seam → Seam) : (d.modSeam n f).meshStarve = d.meshStarve := rfl
@[simp] theorem Dev.modSeam_meshTurns (d : Dev) (n : Nat) (f : Seam → Seam) : (d.modSeam n f).meshTurns = d.meshTurns := rfl
@[simp] theorem Dev.modSeam_hubs (d : Dev) (n : Nat) (f : Seam → Seam) : (d.modSeam n f).hubs = d.hubs := rfl
@[simp] theorem Dev.modSeam_regions (d : Dev) (n : Nat) (f : Seam → Seam) : (d.modSeam n f).regions = d.regions := rfl
@[simp] theorem Dev.modSeam_counters (d : Dev) (n : Nat) (f : Seam → Seam) : (d.modSeam n f).counters = d.counters := rfl
@[simp] theorem Dev.modSeam_nodes (d : Dev) (n : Nat) (f : Seam → Seam) : (d.modSeam n f).nodes = d.nodes := rfl
@[simp] theorem Dev.modSeam_keys (d : Dev) (n : Nat) (f : Seam → Seam) : (d.modSeam n f).keys = d.keys := rfl
@[simp] theorem Dev.modSeam_badLines (d : Dev) (n : Nat) (f : Seam → Seam) : (d.modSeam n f).badLines = d.badLines := rfl
@[simp] theorem Dev.modSeam_scales (d : Dev) (n : Nat) (f : Seam → Seam) : (d.modSeam n f).scales = d.scales := rfl
@[simp] theorem Dev.modSeam_groups (d : Dev) (n : Nat) (f : Seam → Seam) : (d.modSeam n f).groups = d.groups := rfl
@[simp] theorem Dev.modSeam_mem (d : Dev) (n : Nat) (f : Seam → Seam) : (d.modSeam n f).mem = d.mem := rfl
@[simp] theorem Dev.modSeam_plans (d : Dev) (n : Nat) (f : Seam → Seam) : (d.modSeam n f).plans = d.plans := rfl
@[simp] theorem Dev.modSeam_loads (d : Dev) (n : Nat) (f : Seam → Seam) : (d.modSeam n f).loads = d.loads := rfl
@[simp] theorem Dev.modSeam_spareCores (d : Dev) (n : Nat) (f : Seam → Seam) : (d.modSeam n f).spareCores = d.spareCores := rfl
@[simp] theorem Dev.modSeam_coresDown (d : Dev) (n : Nat) (f : Seam → Seam) : (d.modSeam n f).coresDown = d.coresDown := rfl
@[simp] theorem Dev.modSeam_runCmds (d : Dev) (n : Nat) (f : Seam → Seam) : (d.modSeam n f).runCmds = d.runCmds := rfl
@[simp] theorem Dev.modSeam_runs (d : Dev) (n : Nat) (f : Seam → Seam) : (d.modSeam n f).runs = d.runs := rfl
@[simp] theorem Dev.modSeam_nextRun (d : Dev) (n : Nat) (f : Seam → Seam) : (d.modSeam n f).nextRun = d.nextRun := rfl
@[simp] theorem Dev.modSeam_extents (d : Dev) (n : Nat) (f : Seam → Seam) : (d.modSeam n f).extents = d.extents := rfl
@[simp] theorem Dev.modSeam_flash (d : Dev) (n : Nat) (f : Seam → Seam) : (d.modSeam n f).flash = d.flash := rfl
@[simp] theorem Dev.modSeam_fabric (d : Dev) (n : Nat) (f : Seam → Seam) : (d.modSeam n f).fabric = d.fabric := rfl
@[simp] theorem Dev.modSeam_dike (d : Dev) (n : Nat) (f : Seam → Seam) : (d.modSeam n f).dike = d.dike := rfl
@[simp] theorem Dev.modSeam_havens (d : Dev) (n : Nat) (f : Seam → Seam) : (d.modSeam n f).havens = d.havens := rfl
@[simp] theorem Dev.modSeam_jobs (d : Dev) (n : Nat) (f : Seam → Seam) : (d.modSeam n f).jobs = d.jobs := rfl
@[simp] theorem Dev.modSeam_trust (d : Dev) (n : Nat) (f : Seam → Seam) : (d.modSeam n f).trust = d.trust := rfl
@[simp] theorem Dev.modSeam_life (d : Dev) (n : Nat) (f : Seam → Seam) : (d.modSeam n f).life = d.life := rfl
@[simp] theorem Dev.modSeam_power (d : Dev) (n : Nat) (f : Seam → Seam) : (d.modSeam n f).power = d.power := rfl
@[simp] theorem Dev.modSeam_errors (d : Dev) (n : Nat) (f : Seam → Seam) : (d.modSeam n f).errors = d.errors := rfl
@[simp] theorem Dev.modSeam_mgmt (d : Dev) (n : Nat) (f : Seam → Seam) : (d.modSeam n f).mgmt = d.mgmt := rfl
@[simp] theorem Dev.modSeam_held (d : Dev) (n : Nat) (f : Seam → Seam) : (d.modSeam n f).held = d.held := rfl
@[simp] theorem Dev.modSeam_drains (d : Dev) (n : Nat) (f : Seam → Seam) : (d.modSeam n f).drains = d.drains := rfl
@[simp] theorem Dev.modSeam_lost (d : Dev) (n : Nat) (f : Seam → Seam) : (d.modSeam n f).lost = d.lost := rfl
@[simp] theorem Dev.modSeam_stageQueue (d : Dev) (n : Nat) (f : Seam → Seam) : (d.modSeam n f).stageQueue = d.stageQueue := rfl
@[simp] theorem Dev.modSeam_out (d : Dev) (n : Nat) (f : Seam → Seam) : (d.modSeam n f).out = d.out := rfl

/-! #### modArb -/

@[simp] theorem Dev.modArb_sys (d : Dev) (n : Nat) (f : Arbiter → Arbiter) : (d.modArb n f).sys = d.sys := rfl
@[simp] theorem Dev.modArb_fns (d : Dev) (n : Nat) (f : Arbiter → Arbiter) : (d.modArb n f).fns = d.fns := rfl
@[simp] theorem Dev.modArb_queues (d : Dev) (n : Nat) (f : Arbiter → Arbiter) : (d.modArb n f).queues = d.queues := rfl
@[simp] theorem Dev.modArb_ctxs (d : Dev) (n : Nat) (f : Arbiter → Arbiter) : (d.modArb n f).ctxs = d.ctxs := rfl
@[simp] theorem Dev.modArb_maps (d : Dev) (n : Nat) (f : Arbiter → Arbiter) : (d.modArb n f).maps = d.maps := rfl
@[simp] theorem Dev.modArb_fences (d : Dev) (n : Nat) (f : Arbiter → Arbiter) : (d.modArb n f).fences = d.fences := rfl
@[simp] theorem Dev.modArb_tide (d : Dev) (n : Nat) (f : Arbiter → Arbiter) : (d.modArb n f).tide = d.tide := rfl
@[simp] theorem Dev.modArb_tiles (d : Dev) (n : Nat) (f : Arbiter → Arbiter) : (d.modArb n f).tiles = d.tiles := rfl
@[simp] theorem Dev.modArb_seams (d : Dev) (n : Nat) (f : Arbiter → Arbiter) : (d.modArb n f).seams = d.seams := rfl
@[simp] theorem Dev.modArb_meshThresh (d : Dev) (n : Nat) (f : Arbiter → Arbiter) : (d.modArb n f).meshThresh = d.meshThresh := rfl
@[simp] theorem Dev.modArb_meshStarve (d : Dev) (n : Nat) (f : Arbiter → Arbiter) : (d.modArb n f).meshStarve = d.meshStarve := rfl
@[simp] theorem Dev.modArb_meshTurns (d : Dev) (n : Nat) (f : Arbiter → Arbiter) : (d.modArb n f).meshTurns = d.meshTurns := rfl
@[simp] theorem Dev.modArb_hubs (d : Dev) (n : Nat) (f : Arbiter → Arbiter) : (d.modArb n f).hubs = d.hubs := rfl
@[simp] theorem Dev.modArb_regions (d : Dev) (n : Nat) (f : Arbiter → Arbiter) : (d.modArb n f).regions = d.regions := rfl
@[simp] theorem Dev.modArb_counters (d : Dev) (n : Nat) (f : Arbiter → Arbiter) : (d.modArb n f).counters = d.counters := rfl
@[simp] theorem Dev.modArb_nodes (d : Dev) (n : Nat) (f : Arbiter → Arbiter) : (d.modArb n f).nodes = d.nodes := rfl
@[simp] theorem Dev.modArb_keys (d : Dev) (n : Nat) (f : Arbiter → Arbiter) : (d.modArb n f).keys = d.keys := rfl
@[simp] theorem Dev.modArb_badLines (d : Dev) (n : Nat) (f : Arbiter → Arbiter) : (d.modArb n f).badLines = d.badLines := rfl
@[simp] theorem Dev.modArb_scales (d : Dev) (n : Nat) (f : Arbiter → Arbiter) : (d.modArb n f).scales = d.scales := rfl
@[simp] theorem Dev.modArb_groups (d : Dev) (n : Nat) (f : Arbiter → Arbiter) : (d.modArb n f).groups = d.groups := rfl
@[simp] theorem Dev.modArb_mem (d : Dev) (n : Nat) (f : Arbiter → Arbiter) : (d.modArb n f).mem = d.mem := rfl
@[simp] theorem Dev.modArb_plans (d : Dev) (n : Nat) (f : Arbiter → Arbiter) : (d.modArb n f).plans = d.plans := rfl
@[simp] theorem Dev.modArb_loads (d : Dev) (n : Nat) (f : Arbiter → Arbiter) : (d.modArb n f).loads = d.loads := rfl
@[simp] theorem Dev.modArb_spareCores (d : Dev) (n : Nat) (f : Arbiter → Arbiter) : (d.modArb n f).spareCores = d.spareCores := rfl
@[simp] theorem Dev.modArb_coresDown (d : Dev) (n : Nat) (f : Arbiter → Arbiter) : (d.modArb n f).coresDown = d.coresDown := rfl
@[simp] theorem Dev.modArb_runCmds (d : Dev) (n : Nat) (f : Arbiter → Arbiter) : (d.modArb n f).runCmds = d.runCmds := rfl
@[simp] theorem Dev.modArb_runs (d : Dev) (n : Nat) (f : Arbiter → Arbiter) : (d.modArb n f).runs = d.runs := rfl
@[simp] theorem Dev.modArb_nextRun (d : Dev) (n : Nat) (f : Arbiter → Arbiter) : (d.modArb n f).nextRun = d.nextRun := rfl
@[simp] theorem Dev.modArb_extents (d : Dev) (n : Nat) (f : Arbiter → Arbiter) : (d.modArb n f).extents = d.extents := rfl
@[simp] theorem Dev.modArb_flash (d : Dev) (n : Nat) (f : Arbiter → Arbiter) : (d.modArb n f).flash = d.flash := rfl
@[simp] theorem Dev.modArb_fabric (d : Dev) (n : Nat) (f : Arbiter → Arbiter) : (d.modArb n f).fabric = d.fabric := rfl
@[simp] theorem Dev.modArb_dike (d : Dev) (n : Nat) (f : Arbiter → Arbiter) : (d.modArb n f).dike = d.dike := rfl
@[simp] theorem Dev.modArb_havens (d : Dev) (n : Nat) (f : Arbiter → Arbiter) : (d.modArb n f).havens = d.havens := rfl
@[simp] theorem Dev.modArb_jobs (d : Dev) (n : Nat) (f : Arbiter → Arbiter) : (d.modArb n f).jobs = d.jobs := rfl
@[simp] theorem Dev.modArb_trust (d : Dev) (n : Nat) (f : Arbiter → Arbiter) : (d.modArb n f).trust = d.trust := rfl
@[simp] theorem Dev.modArb_life (d : Dev) (n : Nat) (f : Arbiter → Arbiter) : (d.modArb n f).life = d.life := rfl
@[simp] theorem Dev.modArb_power (d : Dev) (n : Nat) (f : Arbiter → Arbiter) : (d.modArb n f).power = d.power := rfl
@[simp] theorem Dev.modArb_errors (d : Dev) (n : Nat) (f : Arbiter → Arbiter) : (d.modArb n f).errors = d.errors := rfl
@[simp] theorem Dev.modArb_mgmt (d : Dev) (n : Nat) (f : Arbiter → Arbiter) : (d.modArb n f).mgmt = d.mgmt := rfl
@[simp] theorem Dev.modArb_held (d : Dev) (n : Nat) (f : Arbiter → Arbiter) : (d.modArb n f).held = d.held := rfl
@[simp] theorem Dev.modArb_drains (d : Dev) (n : Nat) (f : Arbiter → Arbiter) : (d.modArb n f).drains = d.drains := rfl
@[simp] theorem Dev.modArb_lost (d : Dev) (n : Nat) (f : Arbiter → Arbiter) : (d.modArb n f).lost = d.lost := rfl
@[simp] theorem Dev.modArb_stageQueue (d : Dev) (n : Nat) (f : Arbiter → Arbiter) : (d.modArb n f).stageQueue = d.stageQueue := rfl
@[simp] theorem Dev.modArb_out (d : Dev) (n : Nat) (f : Arbiter → Arbiter) : (d.modArb n f).out = d.out := rfl

/-! #### modHub -/

@[simp] theorem Dev.modHub_sys (d : Dev) (n : Nat) (f : Hub → Hub) : (d.modHub n f).sys = d.sys := rfl
@[simp] theorem Dev.modHub_fns (d : Dev) (n : Nat) (f : Hub → Hub) : (d.modHub n f).fns = d.fns := rfl
@[simp] theorem Dev.modHub_queues (d : Dev) (n : Nat) (f : Hub → Hub) : (d.modHub n f).queues = d.queues := rfl
@[simp] theorem Dev.modHub_ctxs (d : Dev) (n : Nat) (f : Hub → Hub) : (d.modHub n f).ctxs = d.ctxs := rfl
@[simp] theorem Dev.modHub_maps (d : Dev) (n : Nat) (f : Hub → Hub) : (d.modHub n f).maps = d.maps := rfl
@[simp] theorem Dev.modHub_fences (d : Dev) (n : Nat) (f : Hub → Hub) : (d.modHub n f).fences = d.fences := rfl
@[simp] theorem Dev.modHub_tide (d : Dev) (n : Nat) (f : Hub → Hub) : (d.modHub n f).tide = d.tide := rfl
@[simp] theorem Dev.modHub_tiles (d : Dev) (n : Nat) (f : Hub → Hub) : (d.modHub n f).tiles = d.tiles := rfl
@[simp] theorem Dev.modHub_seams (d : Dev) (n : Nat) (f : Hub → Hub) : (d.modHub n f).seams = d.seams := rfl
@[simp] theorem Dev.modHub_arbs (d : Dev) (n : Nat) (f : Hub → Hub) : (d.modHub n f).arbs = d.arbs := rfl
@[simp] theorem Dev.modHub_meshThresh (d : Dev) (n : Nat) (f : Hub → Hub) : (d.modHub n f).meshThresh = d.meshThresh := rfl
@[simp] theorem Dev.modHub_meshStarve (d : Dev) (n : Nat) (f : Hub → Hub) : (d.modHub n f).meshStarve = d.meshStarve := rfl
@[simp] theorem Dev.modHub_meshTurns (d : Dev) (n : Nat) (f : Hub → Hub) : (d.modHub n f).meshTurns = d.meshTurns := rfl
@[simp] theorem Dev.modHub_regions (d : Dev) (n : Nat) (f : Hub → Hub) : (d.modHub n f).regions = d.regions := rfl
@[simp] theorem Dev.modHub_counters (d : Dev) (n : Nat) (f : Hub → Hub) : (d.modHub n f).counters = d.counters := rfl
@[simp] theorem Dev.modHub_nodes (d : Dev) (n : Nat) (f : Hub → Hub) : (d.modHub n f).nodes = d.nodes := rfl
@[simp] theorem Dev.modHub_keys (d : Dev) (n : Nat) (f : Hub → Hub) : (d.modHub n f).keys = d.keys := rfl
@[simp] theorem Dev.modHub_badLines (d : Dev) (n : Nat) (f : Hub → Hub) : (d.modHub n f).badLines = d.badLines := rfl
@[simp] theorem Dev.modHub_scales (d : Dev) (n : Nat) (f : Hub → Hub) : (d.modHub n f).scales = d.scales := rfl
@[simp] theorem Dev.modHub_groups (d : Dev) (n : Nat) (f : Hub → Hub) : (d.modHub n f).groups = d.groups := rfl
@[simp] theorem Dev.modHub_mem (d : Dev) (n : Nat) (f : Hub → Hub) : (d.modHub n f).mem = d.mem := rfl
@[simp] theorem Dev.modHub_plans (d : Dev) (n : Nat) (f : Hub → Hub) : (d.modHub n f).plans = d.plans := rfl
@[simp] theorem Dev.modHub_loads (d : Dev) (n : Nat) (f : Hub → Hub) : (d.modHub n f).loads = d.loads := rfl
@[simp] theorem Dev.modHub_spareCores (d : Dev) (n : Nat) (f : Hub → Hub) : (d.modHub n f).spareCores = d.spareCores := rfl
@[simp] theorem Dev.modHub_coresDown (d : Dev) (n : Nat) (f : Hub → Hub) : (d.modHub n f).coresDown = d.coresDown := rfl
@[simp] theorem Dev.modHub_runCmds (d : Dev) (n : Nat) (f : Hub → Hub) : (d.modHub n f).runCmds = d.runCmds := rfl
@[simp] theorem Dev.modHub_runs (d : Dev) (n : Nat) (f : Hub → Hub) : (d.modHub n f).runs = d.runs := rfl
@[simp] theorem Dev.modHub_nextRun (d : Dev) (n : Nat) (f : Hub → Hub) : (d.modHub n f).nextRun = d.nextRun := rfl
@[simp] theorem Dev.modHub_extents (d : Dev) (n : Nat) (f : Hub → Hub) : (d.modHub n f).extents = d.extents := rfl
@[simp] theorem Dev.modHub_flash (d : Dev) (n : Nat) (f : Hub → Hub) : (d.modHub n f).flash = d.flash := rfl
@[simp] theorem Dev.modHub_fabric (d : Dev) (n : Nat) (f : Hub → Hub) : (d.modHub n f).fabric = d.fabric := rfl
@[simp] theorem Dev.modHub_dike (d : Dev) (n : Nat) (f : Hub → Hub) : (d.modHub n f).dike = d.dike := rfl
@[simp] theorem Dev.modHub_havens (d : Dev) (n : Nat) (f : Hub → Hub) : (d.modHub n f).havens = d.havens := rfl
@[simp] theorem Dev.modHub_jobs (d : Dev) (n : Nat) (f : Hub → Hub) : (d.modHub n f).jobs = d.jobs := rfl
@[simp] theorem Dev.modHub_trust (d : Dev) (n : Nat) (f : Hub → Hub) : (d.modHub n f).trust = d.trust := rfl
@[simp] theorem Dev.modHub_life (d : Dev) (n : Nat) (f : Hub → Hub) : (d.modHub n f).life = d.life := rfl
@[simp] theorem Dev.modHub_power (d : Dev) (n : Nat) (f : Hub → Hub) : (d.modHub n f).power = d.power := rfl
@[simp] theorem Dev.modHub_errors (d : Dev) (n : Nat) (f : Hub → Hub) : (d.modHub n f).errors = d.errors := rfl
@[simp] theorem Dev.modHub_mgmt (d : Dev) (n : Nat) (f : Hub → Hub) : (d.modHub n f).mgmt = d.mgmt := rfl
@[simp] theorem Dev.modHub_held (d : Dev) (n : Nat) (f : Hub → Hub) : (d.modHub n f).held = d.held := rfl
@[simp] theorem Dev.modHub_drains (d : Dev) (n : Nat) (f : Hub → Hub) : (d.modHub n f).drains = d.drains := rfl
@[simp] theorem Dev.modHub_lost (d : Dev) (n : Nat) (f : Hub → Hub) : (d.modHub n f).lost = d.lost := rfl
@[simp] theorem Dev.modHub_stageQueue (d : Dev) (n : Nat) (f : Hub → Hub) : (d.modHub n f).stageQueue = d.stageQueue := rfl
@[simp] theorem Dev.modHub_out (d : Dev) (n : Nat) (f : Hub → Hub) : (d.modHub n f).out = d.out := rfl

/-! #### modRegion -/

@[simp] theorem Dev.modRegion_sys (d : Dev) (n : Nat) (f : MemRegion → MemRegion) : (d.modRegion n f).sys = d.sys := rfl
@[simp] theorem Dev.modRegion_fns (d : Dev) (n : Nat) (f : MemRegion → MemRegion) : (d.modRegion n f).fns = d.fns := rfl
@[simp] theorem Dev.modRegion_queues (d : Dev) (n : Nat) (f : MemRegion → MemRegion) : (d.modRegion n f).queues = d.queues := rfl
@[simp] theorem Dev.modRegion_ctxs (d : Dev) (n : Nat) (f : MemRegion → MemRegion) : (d.modRegion n f).ctxs = d.ctxs := rfl
@[simp] theorem Dev.modRegion_maps (d : Dev) (n : Nat) (f : MemRegion → MemRegion) : (d.modRegion n f).maps = d.maps := rfl
@[simp] theorem Dev.modRegion_fences (d : Dev) (n : Nat) (f : MemRegion → MemRegion) : (d.modRegion n f).fences = d.fences := rfl
@[simp] theorem Dev.modRegion_tide (d : Dev) (n : Nat) (f : MemRegion → MemRegion) : (d.modRegion n f).tide = d.tide := rfl
@[simp] theorem Dev.modRegion_tiles (d : Dev) (n : Nat) (f : MemRegion → MemRegion) : (d.modRegion n f).tiles = d.tiles := rfl
@[simp] theorem Dev.modRegion_seams (d : Dev) (n : Nat) (f : MemRegion → MemRegion) : (d.modRegion n f).seams = d.seams := rfl
@[simp] theorem Dev.modRegion_arbs (d : Dev) (n : Nat) (f : MemRegion → MemRegion) : (d.modRegion n f).arbs = d.arbs := rfl
@[simp] theorem Dev.modRegion_meshThresh (d : Dev) (n : Nat) (f : MemRegion → MemRegion) : (d.modRegion n f).meshThresh = d.meshThresh := rfl
@[simp] theorem Dev.modRegion_meshStarve (d : Dev) (n : Nat) (f : MemRegion → MemRegion) : (d.modRegion n f).meshStarve = d.meshStarve := rfl
@[simp] theorem Dev.modRegion_meshTurns (d : Dev) (n : Nat) (f : MemRegion → MemRegion) : (d.modRegion n f).meshTurns = d.meshTurns := rfl
@[simp] theorem Dev.modRegion_hubs (d : Dev) (n : Nat) (f : MemRegion → MemRegion) : (d.modRegion n f).hubs = d.hubs := rfl
@[simp] theorem Dev.modRegion_counters (d : Dev) (n : Nat) (f : MemRegion → MemRegion) : (d.modRegion n f).counters = d.counters := rfl
@[simp] theorem Dev.modRegion_nodes (d : Dev) (n : Nat) (f : MemRegion → MemRegion) : (d.modRegion n f).nodes = d.nodes := rfl
@[simp] theorem Dev.modRegion_keys (d : Dev) (n : Nat) (f : MemRegion → MemRegion) : (d.modRegion n f).keys = d.keys := rfl
@[simp] theorem Dev.modRegion_badLines (d : Dev) (n : Nat) (f : MemRegion → MemRegion) : (d.modRegion n f).badLines = d.badLines := rfl
@[simp] theorem Dev.modRegion_scales (d : Dev) (n : Nat) (f : MemRegion → MemRegion) : (d.modRegion n f).scales = d.scales := rfl
@[simp] theorem Dev.modRegion_groups (d : Dev) (n : Nat) (f : MemRegion → MemRegion) : (d.modRegion n f).groups = d.groups := rfl
@[simp] theorem Dev.modRegion_mem (d : Dev) (n : Nat) (f : MemRegion → MemRegion) : (d.modRegion n f).mem = d.mem := rfl
@[simp] theorem Dev.modRegion_plans (d : Dev) (n : Nat) (f : MemRegion → MemRegion) : (d.modRegion n f).plans = d.plans := rfl
@[simp] theorem Dev.modRegion_loads (d : Dev) (n : Nat) (f : MemRegion → MemRegion) : (d.modRegion n f).loads = d.loads := rfl
@[simp] theorem Dev.modRegion_spareCores (d : Dev) (n : Nat) (f : MemRegion → MemRegion) : (d.modRegion n f).spareCores = d.spareCores := rfl
@[simp] theorem Dev.modRegion_coresDown (d : Dev) (n : Nat) (f : MemRegion → MemRegion) : (d.modRegion n f).coresDown = d.coresDown := rfl
@[simp] theorem Dev.modRegion_runCmds (d : Dev) (n : Nat) (f : MemRegion → MemRegion) : (d.modRegion n f).runCmds = d.runCmds := rfl
@[simp] theorem Dev.modRegion_runs (d : Dev) (n : Nat) (f : MemRegion → MemRegion) : (d.modRegion n f).runs = d.runs := rfl
@[simp] theorem Dev.modRegion_nextRun (d : Dev) (n : Nat) (f : MemRegion → MemRegion) : (d.modRegion n f).nextRun = d.nextRun := rfl
@[simp] theorem Dev.modRegion_extents (d : Dev) (n : Nat) (f : MemRegion → MemRegion) : (d.modRegion n f).extents = d.extents := rfl
@[simp] theorem Dev.modRegion_flash (d : Dev) (n : Nat) (f : MemRegion → MemRegion) : (d.modRegion n f).flash = d.flash := rfl
@[simp] theorem Dev.modRegion_fabric (d : Dev) (n : Nat) (f : MemRegion → MemRegion) : (d.modRegion n f).fabric = d.fabric := rfl
@[simp] theorem Dev.modRegion_dike (d : Dev) (n : Nat) (f : MemRegion → MemRegion) : (d.modRegion n f).dike = d.dike := rfl
@[simp] theorem Dev.modRegion_havens (d : Dev) (n : Nat) (f : MemRegion → MemRegion) : (d.modRegion n f).havens = d.havens := rfl
@[simp] theorem Dev.modRegion_jobs (d : Dev) (n : Nat) (f : MemRegion → MemRegion) : (d.modRegion n f).jobs = d.jobs := rfl
@[simp] theorem Dev.modRegion_trust (d : Dev) (n : Nat) (f : MemRegion → MemRegion) : (d.modRegion n f).trust = d.trust := rfl
@[simp] theorem Dev.modRegion_life (d : Dev) (n : Nat) (f : MemRegion → MemRegion) : (d.modRegion n f).life = d.life := rfl
@[simp] theorem Dev.modRegion_power (d : Dev) (n : Nat) (f : MemRegion → MemRegion) : (d.modRegion n f).power = d.power := rfl
@[simp] theorem Dev.modRegion_errors (d : Dev) (n : Nat) (f : MemRegion → MemRegion) : (d.modRegion n f).errors = d.errors := rfl
@[simp] theorem Dev.modRegion_mgmt (d : Dev) (n : Nat) (f : MemRegion → MemRegion) : (d.modRegion n f).mgmt = d.mgmt := rfl
@[simp] theorem Dev.modRegion_held (d : Dev) (n : Nat) (f : MemRegion → MemRegion) : (d.modRegion n f).held = d.held := rfl
@[simp] theorem Dev.modRegion_drains (d : Dev) (n : Nat) (f : MemRegion → MemRegion) : (d.modRegion n f).drains = d.drains := rfl
@[simp] theorem Dev.modRegion_lost (d : Dev) (n : Nat) (f : MemRegion → MemRegion) : (d.modRegion n f).lost = d.lost := rfl
@[simp] theorem Dev.modRegion_stageQueue (d : Dev) (n : Nat) (f : MemRegion → MemRegion) : (d.modRegion n f).stageQueue = d.stageQueue := rfl
@[simp] theorem Dev.modRegion_out (d : Dev) (n : Nat) (f : MemRegion → MemRegion) : (d.modRegion n f).out = d.out := rfl

/-! #### modCounter -/

@[simp] theorem Dev.modCounter_sys (d : Dev) (n : Nat) (f : CounterBlock → CounterBlock) : (d.modCounter n f).sys = d.sys := rfl
@[simp] theorem Dev.modCounter_fns (d : Dev) (n : Nat) (f : CounterBlock → CounterBlock) : (d.modCounter n f).fns = d.fns := rfl
@[simp] theorem Dev.modCounter_queues (d : Dev) (n : Nat) (f : CounterBlock → CounterBlock) : (d.modCounter n f).queues = d.queues := rfl
@[simp] theorem Dev.modCounter_ctxs (d : Dev) (n : Nat) (f : CounterBlock → CounterBlock) : (d.modCounter n f).ctxs = d.ctxs := rfl
@[simp] theorem Dev.modCounter_maps (d : Dev) (n : Nat) (f : CounterBlock → CounterBlock) : (d.modCounter n f).maps = d.maps := rfl
@[simp] theorem Dev.modCounter_fences (d : Dev) (n : Nat) (f : CounterBlock → CounterBlock) : (d.modCounter n f).fences = d.fences := rfl
@[simp] theorem Dev.modCounter_tide (d : Dev) (n : Nat) (f : CounterBlock → CounterBlock) : (d.modCounter n f).tide = d.tide := rfl
@[simp] theorem Dev.modCounter_tiles (d : Dev) (n : Nat) (f : CounterBlock → CounterBlock) : (d.modCounter n f).tiles = d.tiles := rfl
@[simp] theorem Dev.modCounter_seams (d : Dev) (n : Nat) (f : CounterBlock → CounterBlock) : (d.modCounter n f).seams = d.seams := rfl
@[simp] theorem Dev.modCounter_arbs (d : Dev) (n : Nat) (f : CounterBlock → CounterBlock) : (d.modCounter n f).arbs = d.arbs := rfl
@[simp] theorem Dev.modCounter_meshThresh (d : Dev) (n : Nat) (f : CounterBlock → CounterBlock) : (d.modCounter n f).meshThresh = d.meshThresh := rfl
@[simp] theorem Dev.modCounter_meshStarve (d : Dev) (n : Nat) (f : CounterBlock → CounterBlock) : (d.modCounter n f).meshStarve = d.meshStarve := rfl
@[simp] theorem Dev.modCounter_meshTurns (d : Dev) (n : Nat) (f : CounterBlock → CounterBlock) : (d.modCounter n f).meshTurns = d.meshTurns := rfl
@[simp] theorem Dev.modCounter_hubs (d : Dev) (n : Nat) (f : CounterBlock → CounterBlock) : (d.modCounter n f).hubs = d.hubs := rfl
@[simp] theorem Dev.modCounter_regions (d : Dev) (n : Nat) (f : CounterBlock → CounterBlock) : (d.modCounter n f).regions = d.regions := rfl
@[simp] theorem Dev.modCounter_nodes (d : Dev) (n : Nat) (f : CounterBlock → CounterBlock) : (d.modCounter n f).nodes = d.nodes := rfl
@[simp] theorem Dev.modCounter_keys (d : Dev) (n : Nat) (f : CounterBlock → CounterBlock) : (d.modCounter n f).keys = d.keys := rfl
@[simp] theorem Dev.modCounter_badLines (d : Dev) (n : Nat) (f : CounterBlock → CounterBlock) : (d.modCounter n f).badLines = d.badLines := rfl
@[simp] theorem Dev.modCounter_scales (d : Dev) (n : Nat) (f : CounterBlock → CounterBlock) : (d.modCounter n f).scales = d.scales := rfl
@[simp] theorem Dev.modCounter_groups (d : Dev) (n : Nat) (f : CounterBlock → CounterBlock) : (d.modCounter n f).groups = d.groups := rfl
@[simp] theorem Dev.modCounter_mem (d : Dev) (n : Nat) (f : CounterBlock → CounterBlock) : (d.modCounter n f).mem = d.mem := rfl
@[simp] theorem Dev.modCounter_plans (d : Dev) (n : Nat) (f : CounterBlock → CounterBlock) : (d.modCounter n f).plans = d.plans := rfl
@[simp] theorem Dev.modCounter_loads (d : Dev) (n : Nat) (f : CounterBlock → CounterBlock) : (d.modCounter n f).loads = d.loads := rfl
@[simp] theorem Dev.modCounter_spareCores (d : Dev) (n : Nat) (f : CounterBlock → CounterBlock) : (d.modCounter n f).spareCores = d.spareCores := rfl
@[simp] theorem Dev.modCounter_coresDown (d : Dev) (n : Nat) (f : CounterBlock → CounterBlock) : (d.modCounter n f).coresDown = d.coresDown := rfl
@[simp] theorem Dev.modCounter_runCmds (d : Dev) (n : Nat) (f : CounterBlock → CounterBlock) : (d.modCounter n f).runCmds = d.runCmds := rfl
@[simp] theorem Dev.modCounter_runs (d : Dev) (n : Nat) (f : CounterBlock → CounterBlock) : (d.modCounter n f).runs = d.runs := rfl
@[simp] theorem Dev.modCounter_nextRun (d : Dev) (n : Nat) (f : CounterBlock → CounterBlock) : (d.modCounter n f).nextRun = d.nextRun := rfl
@[simp] theorem Dev.modCounter_extents (d : Dev) (n : Nat) (f : CounterBlock → CounterBlock) : (d.modCounter n f).extents = d.extents := rfl
@[simp] theorem Dev.modCounter_flash (d : Dev) (n : Nat) (f : CounterBlock → CounterBlock) : (d.modCounter n f).flash = d.flash := rfl
@[simp] theorem Dev.modCounter_fabric (d : Dev) (n : Nat) (f : CounterBlock → CounterBlock) : (d.modCounter n f).fabric = d.fabric := rfl
@[simp] theorem Dev.modCounter_dike (d : Dev) (n : Nat) (f : CounterBlock → CounterBlock) : (d.modCounter n f).dike = d.dike := rfl
@[simp] theorem Dev.modCounter_havens (d : Dev) (n : Nat) (f : CounterBlock → CounterBlock) : (d.modCounter n f).havens = d.havens := rfl
@[simp] theorem Dev.modCounter_jobs (d : Dev) (n : Nat) (f : CounterBlock → CounterBlock) : (d.modCounter n f).jobs = d.jobs := rfl
@[simp] theorem Dev.modCounter_trust (d : Dev) (n : Nat) (f : CounterBlock → CounterBlock) : (d.modCounter n f).trust = d.trust := rfl
@[simp] theorem Dev.modCounter_life (d : Dev) (n : Nat) (f : CounterBlock → CounterBlock) : (d.modCounter n f).life = d.life := rfl
@[simp] theorem Dev.modCounter_power (d : Dev) (n : Nat) (f : CounterBlock → CounterBlock) : (d.modCounter n f).power = d.power := rfl
@[simp] theorem Dev.modCounter_errors (d : Dev) (n : Nat) (f : CounterBlock → CounterBlock) : (d.modCounter n f).errors = d.errors := rfl
@[simp] theorem Dev.modCounter_mgmt (d : Dev) (n : Nat) (f : CounterBlock → CounterBlock) : (d.modCounter n f).mgmt = d.mgmt := rfl
@[simp] theorem Dev.modCounter_held (d : Dev) (n : Nat) (f : CounterBlock → CounterBlock) : (d.modCounter n f).held = d.held := rfl
@[simp] theorem Dev.modCounter_drains (d : Dev) (n : Nat) (f : CounterBlock → CounterBlock) : (d.modCounter n f).drains = d.drains := rfl
@[simp] theorem Dev.modCounter_lost (d : Dev) (n : Nat) (f : CounterBlock → CounterBlock) : (d.modCounter n f).lost = d.lost := rfl
@[simp] theorem Dev.modCounter_stageQueue (d : Dev) (n : Nat) (f : CounterBlock → CounterBlock) : (d.modCounter n f).stageQueue = d.stageQueue := rfl
@[simp] theorem Dev.modCounter_out (d : Dev) (n : Nat) (f : CounterBlock → CounterBlock) : (d.modCounter n f).out = d.out := rfl

/-! #### modNode -/

@[simp] theorem Dev.modNode_sys (d : Dev) (n : Nat) (f : CounterBlock → CounterBlock) : (d.modNode n f).sys = d.sys := rfl
@[simp] theorem Dev.modNode_fns (d : Dev) (n : Nat) (f : CounterBlock → CounterBlock) : (d.modNode n f).fns = d.fns := rfl
@[simp] theorem Dev.modNode_queues (d : Dev) (n : Nat) (f : CounterBlock → CounterBlock) : (d.modNode n f).queues = d.queues := rfl
@[simp] theorem Dev.modNode_ctxs (d : Dev) (n : Nat) (f : CounterBlock → CounterBlock) : (d.modNode n f).ctxs = d.ctxs := rfl
@[simp] theorem Dev.modNode_maps (d : Dev) (n : Nat) (f : CounterBlock → CounterBlock) : (d.modNode n f).maps = d.maps := rfl
@[simp] theorem Dev.modNode_fences (d : Dev) (n : Nat) (f : CounterBlock → CounterBlock) : (d.modNode n f).fences = d.fences := rfl
@[simp] theorem Dev.modNode_tide (d : Dev) (n : Nat) (f : CounterBlock → CounterBlock) : (d.modNode n f).tide = d.tide := rfl
@[simp] theorem Dev.modNode_tiles (d : Dev) (n : Nat) (f : CounterBlock → CounterBlock) : (d.modNode n f).tiles = d.tiles := rfl
@[simp] theorem Dev.modNode_seams (d : Dev) (n : Nat) (f : CounterBlock → CounterBlock) : (d.modNode n f).seams = d.seams := rfl
@[simp] theorem Dev.modNode_arbs (d : Dev) (n : Nat) (f : CounterBlock → CounterBlock) : (d.modNode n f).arbs = d.arbs := rfl
@[simp] theorem Dev.modNode_meshThresh (d : Dev) (n : Nat) (f : CounterBlock → CounterBlock) : (d.modNode n f).meshThresh = d.meshThresh := rfl
@[simp] theorem Dev.modNode_meshStarve (d : Dev) (n : Nat) (f : CounterBlock → CounterBlock) : (d.modNode n f).meshStarve = d.meshStarve := rfl
@[simp] theorem Dev.modNode_meshTurns (d : Dev) (n : Nat) (f : CounterBlock → CounterBlock) : (d.modNode n f).meshTurns = d.meshTurns := rfl
@[simp] theorem Dev.modNode_hubs (d : Dev) (n : Nat) (f : CounterBlock → CounterBlock) : (d.modNode n f).hubs = d.hubs := rfl
@[simp] theorem Dev.modNode_regions (d : Dev) (n : Nat) (f : CounterBlock → CounterBlock) : (d.modNode n f).regions = d.regions := rfl
@[simp] theorem Dev.modNode_counters (d : Dev) (n : Nat) (f : CounterBlock → CounterBlock) : (d.modNode n f).counters = d.counters := rfl
@[simp] theorem Dev.modNode_keys (d : Dev) (n : Nat) (f : CounterBlock → CounterBlock) : (d.modNode n f).keys = d.keys := rfl
@[simp] theorem Dev.modNode_badLines (d : Dev) (n : Nat) (f : CounterBlock → CounterBlock) : (d.modNode n f).badLines = d.badLines := rfl
@[simp] theorem Dev.modNode_scales (d : Dev) (n : Nat) (f : CounterBlock → CounterBlock) : (d.modNode n f).scales = d.scales := rfl
@[simp] theorem Dev.modNode_groups (d : Dev) (n : Nat) (f : CounterBlock → CounterBlock) : (d.modNode n f).groups = d.groups := rfl
@[simp] theorem Dev.modNode_mem (d : Dev) (n : Nat) (f : CounterBlock → CounterBlock) : (d.modNode n f).mem = d.mem := rfl
@[simp] theorem Dev.modNode_plans (d : Dev) (n : Nat) (f : CounterBlock → CounterBlock) : (d.modNode n f).plans = d.plans := rfl
@[simp] theorem Dev.modNode_loads (d : Dev) (n : Nat) (f : CounterBlock → CounterBlock) : (d.modNode n f).loads = d.loads := rfl
@[simp] theorem Dev.modNode_spareCores (d : Dev) (n : Nat) (f : CounterBlock → CounterBlock) : (d.modNode n f).spareCores = d.spareCores := rfl
@[simp] theorem Dev.modNode_coresDown (d : Dev) (n : Nat) (f : CounterBlock → CounterBlock) : (d.modNode n f).coresDown = d.coresDown := rfl
@[simp] theorem Dev.modNode_runCmds (d : Dev) (n : Nat) (f : CounterBlock → CounterBlock) : (d.modNode n f).runCmds = d.runCmds := rfl
@[simp] theorem Dev.modNode_runs (d : Dev) (n : Nat) (f : CounterBlock → CounterBlock) : (d.modNode n f).runs = d.runs := rfl
@[simp] theorem Dev.modNode_nextRun (d : Dev) (n : Nat) (f : CounterBlock → CounterBlock) : (d.modNode n f).nextRun = d.nextRun := rfl
@[simp] theorem Dev.modNode_extents (d : Dev) (n : Nat) (f : CounterBlock → CounterBlock) : (d.modNode n f).extents = d.extents := rfl
@[simp] theorem Dev.modNode_flash (d : Dev) (n : Nat) (f : CounterBlock → CounterBlock) : (d.modNode n f).flash = d.flash := rfl
@[simp] theorem Dev.modNode_fabric (d : Dev) (n : Nat) (f : CounterBlock → CounterBlock) : (d.modNode n f).fabric = d.fabric := rfl
@[simp] theorem Dev.modNode_dike (d : Dev) (n : Nat) (f : CounterBlock → CounterBlock) : (d.modNode n f).dike = d.dike := rfl
@[simp] theorem Dev.modNode_havens (d : Dev) (n : Nat) (f : CounterBlock → CounterBlock) : (d.modNode n f).havens = d.havens := rfl
@[simp] theorem Dev.modNode_jobs (d : Dev) (n : Nat) (f : CounterBlock → CounterBlock) : (d.modNode n f).jobs = d.jobs := rfl
@[simp] theorem Dev.modNode_trust (d : Dev) (n : Nat) (f : CounterBlock → CounterBlock) : (d.modNode n f).trust = d.trust := rfl
@[simp] theorem Dev.modNode_life (d : Dev) (n : Nat) (f : CounterBlock → CounterBlock) : (d.modNode n f).life = d.life := rfl
@[simp] theorem Dev.modNode_power (d : Dev) (n : Nat) (f : CounterBlock → CounterBlock) : (d.modNode n f).power = d.power := rfl
@[simp] theorem Dev.modNode_errors (d : Dev) (n : Nat) (f : CounterBlock → CounterBlock) : (d.modNode n f).errors = d.errors := rfl
@[simp] theorem Dev.modNode_mgmt (d : Dev) (n : Nat) (f : CounterBlock → CounterBlock) : (d.modNode n f).mgmt = d.mgmt := rfl
@[simp] theorem Dev.modNode_held (d : Dev) (n : Nat) (f : CounterBlock → CounterBlock) : (d.modNode n f).held = d.held := rfl
@[simp] theorem Dev.modNode_drains (d : Dev) (n : Nat) (f : CounterBlock → CounterBlock) : (d.modNode n f).drains = d.drains := rfl
@[simp] theorem Dev.modNode_lost (d : Dev) (n : Nat) (f : CounterBlock → CounterBlock) : (d.modNode n f).lost = d.lost := rfl
@[simp] theorem Dev.modNode_stageQueue (d : Dev) (n : Nat) (f : CounterBlock → CounterBlock) : (d.modNode n f).stageQueue = d.stageQueue := rfl
@[simp] theorem Dev.modNode_out (d : Dev) (n : Nat) (f : CounterBlock → CounterBlock) : (d.modNode n f).out = d.out := rfl

/-! #### modKey -/

@[simp] theorem Dev.modKey_sys (d : Dev) (n : Nat) (f : KeyId → KeyId) : (d.modKey n f).sys = d.sys := rfl
@[simp] theorem Dev.modKey_fns (d : Dev) (n : Nat) (f : KeyId → KeyId) : (d.modKey n f).fns = d.fns := rfl
@[simp] theorem Dev.modKey_queues (d : Dev) (n : Nat) (f : KeyId → KeyId) : (d.modKey n f).queues = d.queues := rfl
@[simp] theorem Dev.modKey_ctxs (d : Dev) (n : Nat) (f : KeyId → KeyId) : (d.modKey n f).ctxs = d.ctxs := rfl
@[simp] theorem Dev.modKey_maps (d : Dev) (n : Nat) (f : KeyId → KeyId) : (d.modKey n f).maps = d.maps := rfl
@[simp] theorem Dev.modKey_fences (d : Dev) (n : Nat) (f : KeyId → KeyId) : (d.modKey n f).fences = d.fences := rfl
@[simp] theorem Dev.modKey_tide (d : Dev) (n : Nat) (f : KeyId → KeyId) : (d.modKey n f).tide = d.tide := rfl
@[simp] theorem Dev.modKey_tiles (d : Dev) (n : Nat) (f : KeyId → KeyId) : (d.modKey n f).tiles = d.tiles := rfl
@[simp] theorem Dev.modKey_seams (d : Dev) (n : Nat) (f : KeyId → KeyId) : (d.modKey n f).seams = d.seams := rfl
@[simp] theorem Dev.modKey_arbs (d : Dev) (n : Nat) (f : KeyId → KeyId) : (d.modKey n f).arbs = d.arbs := rfl
@[simp] theorem Dev.modKey_meshThresh (d : Dev) (n : Nat) (f : KeyId → KeyId) : (d.modKey n f).meshThresh = d.meshThresh := rfl
@[simp] theorem Dev.modKey_meshStarve (d : Dev) (n : Nat) (f : KeyId → KeyId) : (d.modKey n f).meshStarve = d.meshStarve := rfl
@[simp] theorem Dev.modKey_meshTurns (d : Dev) (n : Nat) (f : KeyId → KeyId) : (d.modKey n f).meshTurns = d.meshTurns := rfl
@[simp] theorem Dev.modKey_hubs (d : Dev) (n : Nat) (f : KeyId → KeyId) : (d.modKey n f).hubs = d.hubs := rfl
@[simp] theorem Dev.modKey_regions (d : Dev) (n : Nat) (f : KeyId → KeyId) : (d.modKey n f).regions = d.regions := rfl
@[simp] theorem Dev.modKey_counters (d : Dev) (n : Nat) (f : KeyId → KeyId) : (d.modKey n f).counters = d.counters := rfl
@[simp] theorem Dev.modKey_nodes (d : Dev) (n : Nat) (f : KeyId → KeyId) : (d.modKey n f).nodes = d.nodes := rfl
@[simp] theorem Dev.modKey_badLines (d : Dev) (n : Nat) (f : KeyId → KeyId) : (d.modKey n f).badLines = d.badLines := rfl
@[simp] theorem Dev.modKey_scales (d : Dev) (n : Nat) (f : KeyId → KeyId) : (d.modKey n f).scales = d.scales := rfl
@[simp] theorem Dev.modKey_groups (d : Dev) (n : Nat) (f : KeyId → KeyId) : (d.modKey n f).groups = d.groups := rfl
@[simp] theorem Dev.modKey_mem (d : Dev) (n : Nat) (f : KeyId → KeyId) : (d.modKey n f).mem = d.mem := rfl
@[simp] theorem Dev.modKey_plans (d : Dev) (n : Nat) (f : KeyId → KeyId) : (d.modKey n f).plans = d.plans := rfl
@[simp] theorem Dev.modKey_loads (d : Dev) (n : Nat) (f : KeyId → KeyId) : (d.modKey n f).loads = d.loads := rfl
@[simp] theorem Dev.modKey_spareCores (d : Dev) (n : Nat) (f : KeyId → KeyId) : (d.modKey n f).spareCores = d.spareCores := rfl
@[simp] theorem Dev.modKey_coresDown (d : Dev) (n : Nat) (f : KeyId → KeyId) : (d.modKey n f).coresDown = d.coresDown := rfl
@[simp] theorem Dev.modKey_runCmds (d : Dev) (n : Nat) (f : KeyId → KeyId) : (d.modKey n f).runCmds = d.runCmds := rfl
@[simp] theorem Dev.modKey_runs (d : Dev) (n : Nat) (f : KeyId → KeyId) : (d.modKey n f).runs = d.runs := rfl
@[simp] theorem Dev.modKey_nextRun (d : Dev) (n : Nat) (f : KeyId → KeyId) : (d.modKey n f).nextRun = d.nextRun := rfl
@[simp] theorem Dev.modKey_extents (d : Dev) (n : Nat) (f : KeyId → KeyId) : (d.modKey n f).extents = d.extents := rfl
@[simp] theorem Dev.modKey_flash (d : Dev) (n : Nat) (f : KeyId → KeyId) : (d.modKey n f).flash = d.flash := rfl
@[simp] theorem Dev.modKey_fabric (d : Dev) (n : Nat) (f : KeyId → KeyId) : (d.modKey n f).fabric = d.fabric := rfl
@[simp] theorem Dev.modKey_dike (d : Dev) (n : Nat) (f : KeyId → KeyId) : (d.modKey n f).dike = d.dike := rfl
@[simp] theorem Dev.modKey_havens (d : Dev) (n : Nat) (f : KeyId → KeyId) : (d.modKey n f).havens = d.havens := rfl
@[simp] theorem Dev.modKey_jobs (d : Dev) (n : Nat) (f : KeyId → KeyId) : (d.modKey n f).jobs = d.jobs := rfl
@[simp] theorem Dev.modKey_trust (d : Dev) (n : Nat) (f : KeyId → KeyId) : (d.modKey n f).trust = d.trust := rfl
@[simp] theorem Dev.modKey_life (d : Dev) (n : Nat) (f : KeyId → KeyId) : (d.modKey n f).life = d.life := rfl
@[simp] theorem Dev.modKey_power (d : Dev) (n : Nat) (f : KeyId → KeyId) : (d.modKey n f).power = d.power := rfl
@[simp] theorem Dev.modKey_errors (d : Dev) (n : Nat) (f : KeyId → KeyId) : (d.modKey n f).errors = d.errors := rfl
@[simp] theorem Dev.modKey_mgmt (d : Dev) (n : Nat) (f : KeyId → KeyId) : (d.modKey n f).mgmt = d.mgmt := rfl
@[simp] theorem Dev.modKey_held (d : Dev) (n : Nat) (f : KeyId → KeyId) : (d.modKey n f).held = d.held := rfl
@[simp] theorem Dev.modKey_drains (d : Dev) (n : Nat) (f : KeyId → KeyId) : (d.modKey n f).drains = d.drains := rfl
@[simp] theorem Dev.modKey_lost (d : Dev) (n : Nat) (f : KeyId → KeyId) : (d.modKey n f).lost = d.lost := rfl
@[simp] theorem Dev.modKey_stageQueue (d : Dev) (n : Nat) (f : KeyId → KeyId) : (d.modKey n f).stageQueue = d.stageQueue := rfl
@[simp] theorem Dev.modKey_out (d : Dev) (n : Nat) (f : KeyId → KeyId) : (d.modKey n f).out = d.out := rfl

/-! #### modBadLine -/

@[simp] theorem Dev.modBadLine_sys (d : Dev) (n : Nat) (f : BadLine → BadLine) : (d.modBadLine n f).sys = d.sys := rfl
@[simp] theorem Dev.modBadLine_fns (d : Dev) (n : Nat) (f : BadLine → BadLine) : (d.modBadLine n f).fns = d.fns := rfl
@[simp] theorem Dev.modBadLine_queues (d : Dev) (n : Nat) (f : BadLine → BadLine) : (d.modBadLine n f).queues = d.queues := rfl
@[simp] theorem Dev.modBadLine_ctxs (d : Dev) (n : Nat) (f : BadLine → BadLine) : (d.modBadLine n f).ctxs = d.ctxs := rfl
@[simp] theorem Dev.modBadLine_maps (d : Dev) (n : Nat) (f : BadLine → BadLine) : (d.modBadLine n f).maps = d.maps := rfl
@[simp] theorem Dev.modBadLine_fences (d : Dev) (n : Nat) (f : BadLine → BadLine) : (d.modBadLine n f).fences = d.fences := rfl
@[simp] theorem Dev.modBadLine_tide (d : Dev) (n : Nat) (f : BadLine → BadLine) : (d.modBadLine n f).tide = d.tide := rfl
@[simp] theorem Dev.modBadLine_tiles (d : Dev) (n : Nat) (f : BadLine → BadLine) : (d.modBadLine n f).tiles = d.tiles := rfl
@[simp] theorem Dev.modBadLine_seams (d : Dev) (n : Nat) (f : BadLine → BadLine) : (d.modBadLine n f).seams = d.seams := rfl
@[simp] theorem Dev.modBadLine_arbs (d : Dev) (n : Nat) (f : BadLine → BadLine) : (d.modBadLine n f).arbs = d.arbs := rfl
@[simp] theorem Dev.modBadLine_meshThresh (d : Dev) (n : Nat) (f : BadLine → BadLine) : (d.modBadLine n f).meshThresh = d.meshThresh := rfl
@[simp] theorem Dev.modBadLine_meshStarve (d : Dev) (n : Nat) (f : BadLine → BadLine) : (d.modBadLine n f).meshStarve = d.meshStarve := rfl
@[simp] theorem Dev.modBadLine_meshTurns (d : Dev) (n : Nat) (f : BadLine → BadLine) : (d.modBadLine n f).meshTurns = d.meshTurns := rfl
@[simp] theorem Dev.modBadLine_hubs (d : Dev) (n : Nat) (f : BadLine → BadLine) : (d.modBadLine n f).hubs = d.hubs := rfl
@[simp] theorem Dev.modBadLine_regions (d : Dev) (n : Nat) (f : BadLine → BadLine) : (d.modBadLine n f).regions = d.regions := rfl
@[simp] theorem Dev.modBadLine_counters (d : Dev) (n : Nat) (f : BadLine → BadLine) : (d.modBadLine n f).counters = d.counters := rfl
@[simp] theorem Dev.modBadLine_nodes (d : Dev) (n : Nat) (f : BadLine → BadLine) : (d.modBadLine n f).nodes = d.nodes := rfl
@[simp] theorem Dev.modBadLine_keys (d : Dev) (n : Nat) (f : BadLine → BadLine) : (d.modBadLine n f).keys = d.keys := rfl
@[simp] theorem Dev.modBadLine_scales (d : Dev) (n : Nat) (f : BadLine → BadLine) : (d.modBadLine n f).scales = d.scales := rfl
@[simp] theorem Dev.modBadLine_groups (d : Dev) (n : Nat) (f : BadLine → BadLine) : (d.modBadLine n f).groups = d.groups := rfl
@[simp] theorem Dev.modBadLine_mem (d : Dev) (n : Nat) (f : BadLine → BadLine) : (d.modBadLine n f).mem = d.mem := rfl
@[simp] theorem Dev.modBadLine_plans (d : Dev) (n : Nat) (f : BadLine → BadLine) : (d.modBadLine n f).plans = d.plans := rfl
@[simp] theorem Dev.modBadLine_loads (d : Dev) (n : Nat) (f : BadLine → BadLine) : (d.modBadLine n f).loads = d.loads := rfl
@[simp] theorem Dev.modBadLine_spareCores (d : Dev) (n : Nat) (f : BadLine → BadLine) : (d.modBadLine n f).spareCores = d.spareCores := rfl
@[simp] theorem Dev.modBadLine_coresDown (d : Dev) (n : Nat) (f : BadLine → BadLine) : (d.modBadLine n f).coresDown = d.coresDown := rfl
@[simp] theorem Dev.modBadLine_runCmds (d : Dev) (n : Nat) (f : BadLine → BadLine) : (d.modBadLine n f).runCmds = d.runCmds := rfl
@[simp] theorem Dev.modBadLine_runs (d : Dev) (n : Nat) (f : BadLine → BadLine) : (d.modBadLine n f).runs = d.runs := rfl
@[simp] theorem Dev.modBadLine_nextRun (d : Dev) (n : Nat) (f : BadLine → BadLine) : (d.modBadLine n f).nextRun = d.nextRun := rfl
@[simp] theorem Dev.modBadLine_extents (d : Dev) (n : Nat) (f : BadLine → BadLine) : (d.modBadLine n f).extents = d.extents := rfl
@[simp] theorem Dev.modBadLine_flash (d : Dev) (n : Nat) (f : BadLine → BadLine) : (d.modBadLine n f).flash = d.flash := rfl
@[simp] theorem Dev.modBadLine_fabric (d : Dev) (n : Nat) (f : BadLine → BadLine) : (d.modBadLine n f).fabric = d.fabric := rfl
@[simp] theorem Dev.modBadLine_dike (d : Dev) (n : Nat) (f : BadLine → BadLine) : (d.modBadLine n f).dike = d.dike := rfl
@[simp] theorem Dev.modBadLine_havens (d : Dev) (n : Nat) (f : BadLine → BadLine) : (d.modBadLine n f).havens = d.havens := rfl
@[simp] theorem Dev.modBadLine_jobs (d : Dev) (n : Nat) (f : BadLine → BadLine) : (d.modBadLine n f).jobs = d.jobs := rfl
@[simp] theorem Dev.modBadLine_trust (d : Dev) (n : Nat) (f : BadLine → BadLine) : (d.modBadLine n f).trust = d.trust := rfl
@[simp] theorem Dev.modBadLine_life (d : Dev) (n : Nat) (f : BadLine → BadLine) : (d.modBadLine n f).life = d.life := rfl
@[simp] theorem Dev.modBadLine_power (d : Dev) (n : Nat) (f : BadLine → BadLine) : (d.modBadLine n f).power = d.power := rfl
@[simp] theorem Dev.modBadLine_errors (d : Dev) (n : Nat) (f : BadLine → BadLine) : (d.modBadLine n f).errors = d.errors := rfl
@[simp] theorem Dev.modBadLine_mgmt (d : Dev) (n : Nat) (f : BadLine → BadLine) : (d.modBadLine n f).mgmt = d.mgmt := rfl
@[simp] theorem Dev.modBadLine_held (d : Dev) (n : Nat) (f : BadLine → BadLine) : (d.modBadLine n f).held = d.held := rfl
@[simp] theorem Dev.modBadLine_drains (d : Dev) (n : Nat) (f : BadLine → BadLine) : (d.modBadLine n f).drains = d.drains := rfl
@[simp] theorem Dev.modBadLine_lost (d : Dev) (n : Nat) (f : BadLine → BadLine) : (d.modBadLine n f).lost = d.lost := rfl
@[simp] theorem Dev.modBadLine_stageQueue (d : Dev) (n : Nat) (f : BadLine → BadLine) : (d.modBadLine n f).stageQueue = d.stageQueue := rfl
@[simp] theorem Dev.modBadLine_out (d : Dev) (n : Nat) (f : BadLine → BadLine) : (d.modBadLine n f).out = d.out := rfl

/-! #### modScale -/

@[simp] theorem Dev.modScale_sys (d : Dev) (n : Nat) (f : ScaleEntry → ScaleEntry) : (d.modScale n f).sys = d.sys := rfl
@[simp] theorem Dev.modScale_fns (d : Dev) (n : Nat) (f : ScaleEntry → ScaleEntry) : (d.modScale n f).fns = d.fns := rfl
@[simp] theorem Dev.modScale_queues (d : Dev) (n : Nat) (f : ScaleEntry → ScaleEntry) : (d.modScale n f).queues = d.queues := rfl
@[simp] theorem Dev.modScale_ctxs (d : Dev) (n : Nat) (f : ScaleEntry → ScaleEntry) : (d.modScale n f).ctxs = d.ctxs := rfl
@[simp] theorem Dev.modScale_maps (d : Dev) (n : Nat) (f : ScaleEntry → ScaleEntry) : (d.modScale n f).maps = d.maps := rfl
@[simp] theorem Dev.modScale_fences (d : Dev) (n : Nat) (f : ScaleEntry → ScaleEntry) : (d.modScale n f).fences = d.fences := rfl
@[simp] theorem Dev.modScale_tide (d : Dev) (n : Nat) (f : ScaleEntry → ScaleEntry) : (d.modScale n f).tide = d.tide := rfl
@[simp] theorem Dev.modScale_tiles (d : Dev) (n : Nat) (f : ScaleEntry → ScaleEntry) : (d.modScale n f).tiles = d.tiles := rfl
@[simp] theorem Dev.modScale_seams (d : Dev) (n : Nat) (f : ScaleEntry → ScaleEntry) : (d.modScale n f).seams = d.seams := rfl
@[simp] theorem Dev.modScale_arbs (d : Dev) (n : Nat) (f : ScaleEntry → ScaleEntry) : (d.modScale n f).arbs = d.arbs := rfl
@[simp] theorem Dev.modScale_meshThresh (d : Dev) (n : Nat) (f : ScaleEntry → ScaleEntry) : (d.modScale n f).meshThresh = d.meshThresh := rfl
@[simp] theorem Dev.modScale_meshStarve (d : Dev) (n : Nat) (f : ScaleEntry → ScaleEntry) : (d.modScale n f).meshStarve = d.meshStarve := rfl
@[simp] theorem Dev.modScale_meshTurns (d : Dev) (n : Nat) (f : ScaleEntry → ScaleEntry) : (d.modScale n f).meshTurns = d.meshTurns := rfl
@[simp] theorem Dev.modScale_hubs (d : Dev) (n : Nat) (f : ScaleEntry → ScaleEntry) : (d.modScale n f).hubs = d.hubs := rfl
@[simp] theorem Dev.modScale_regions (d : Dev) (n : Nat) (f : ScaleEntry → ScaleEntry) : (d.modScale n f).regions = d.regions := rfl
@[simp] theorem Dev.modScale_counters (d : Dev) (n : Nat) (f : ScaleEntry → ScaleEntry) : (d.modScale n f).counters = d.counters := rfl
@[simp] theorem Dev.modScale_nodes (d : Dev) (n : Nat) (f : ScaleEntry → ScaleEntry) : (d.modScale n f).nodes = d.nodes := rfl
@[simp] theorem Dev.modScale_keys (d : Dev) (n : Nat) (f : ScaleEntry → ScaleEntry) : (d.modScale n f).keys = d.keys := rfl
@[simp] theorem Dev.modScale_badLines (d : Dev) (n : Nat) (f : ScaleEntry → ScaleEntry) : (d.modScale n f).badLines = d.badLines := rfl
@[simp] theorem Dev.modScale_groups (d : Dev) (n : Nat) (f : ScaleEntry → ScaleEntry) : (d.modScale n f).groups = d.groups := rfl
@[simp] theorem Dev.modScale_mem (d : Dev) (n : Nat) (f : ScaleEntry → ScaleEntry) : (d.modScale n f).mem = d.mem := rfl
@[simp] theorem Dev.modScale_plans (d : Dev) (n : Nat) (f : ScaleEntry → ScaleEntry) : (d.modScale n f).plans = d.plans := rfl
@[simp] theorem Dev.modScale_loads (d : Dev) (n : Nat) (f : ScaleEntry → ScaleEntry) : (d.modScale n f).loads = d.loads := rfl
@[simp] theorem Dev.modScale_spareCores (d : Dev) (n : Nat) (f : ScaleEntry → ScaleEntry) : (d.modScale n f).spareCores = d.spareCores := rfl
@[simp] theorem Dev.modScale_coresDown (d : Dev) (n : Nat) (f : ScaleEntry → ScaleEntry) : (d.modScale n f).coresDown = d.coresDown := rfl
@[simp] theorem Dev.modScale_runCmds (d : Dev) (n : Nat) (f : ScaleEntry → ScaleEntry) : (d.modScale n f).runCmds = d.runCmds := rfl
@[simp] theorem Dev.modScale_runs (d : Dev) (n : Nat) (f : ScaleEntry → ScaleEntry) : (d.modScale n f).runs = d.runs := rfl
@[simp] theorem Dev.modScale_nextRun (d : Dev) (n : Nat) (f : ScaleEntry → ScaleEntry) : (d.modScale n f).nextRun = d.nextRun := rfl
@[simp] theorem Dev.modScale_extents (d : Dev) (n : Nat) (f : ScaleEntry → ScaleEntry) : (d.modScale n f).extents = d.extents := rfl
@[simp] theorem Dev.modScale_flash (d : Dev) (n : Nat) (f : ScaleEntry → ScaleEntry) : (d.modScale n f).flash = d.flash := rfl
@[simp] theorem Dev.modScale_fabric (d : Dev) (n : Nat) (f : ScaleEntry → ScaleEntry) : (d.modScale n f).fabric = d.fabric := rfl
@[simp] theorem Dev.modScale_dike (d : Dev) (n : Nat) (f : ScaleEntry → ScaleEntry) : (d.modScale n f).dike = d.dike := rfl
@[simp] theorem Dev.modScale_havens (d : Dev) (n : Nat) (f : ScaleEntry → ScaleEntry) : (d.modScale n f).havens = d.havens := rfl
@[simp] theorem Dev.modScale_jobs (d : Dev) (n : Nat) (f : ScaleEntry → ScaleEntry) : (d.modScale n f).jobs = d.jobs := rfl
@[simp] theorem Dev.modScale_trust (d : Dev) (n : Nat) (f : ScaleEntry → ScaleEntry) : (d.modScale n f).trust = d.trust := rfl
@[simp] theorem Dev.modScale_life (d : Dev) (n : Nat) (f : ScaleEntry → ScaleEntry) : (d.modScale n f).life = d.life := rfl
@[simp] theorem Dev.modScale_power (d : Dev) (n : Nat) (f : ScaleEntry → ScaleEntry) : (d.modScale n f).power = d.power := rfl
@[simp] theorem Dev.modScale_errors (d : Dev) (n : Nat) (f : ScaleEntry → ScaleEntry) : (d.modScale n f).errors = d.errors := rfl
@[simp] theorem Dev.modScale_mgmt (d : Dev) (n : Nat) (f : ScaleEntry → ScaleEntry) : (d.modScale n f).mgmt = d.mgmt := rfl
@[simp] theorem Dev.modScale_held (d : Dev) (n : Nat) (f : ScaleEntry → ScaleEntry) : (d.modScale n f).held = d.held := rfl
@[simp] theorem Dev.modScale_drains (d : Dev) (n : Nat) (f : ScaleEntry → ScaleEntry) : (d.modScale n f).drains = d.drains := rfl
@[simp] theorem Dev.modScale_lost (d : Dev) (n : Nat) (f : ScaleEntry → ScaleEntry) : (d.modScale n f).lost = d.lost := rfl
@[simp] theorem Dev.modScale_stageQueue (d : Dev) (n : Nat) (f : ScaleEntry → ScaleEntry) : (d.modScale n f).stageQueue = d.stageQueue := rfl
@[simp] theorem Dev.modScale_out (d : Dev) (n : Nat) (f : ScaleEntry → ScaleEntry) : (d.modScale n f).out = d.out := rfl

/-! #### modPlan -/

@[simp] theorem Dev.modPlan_sys (d : Dev) (n : Nat) (f : Plan → Plan) : (d.modPlan n f).sys = d.sys := rfl
@[simp] theorem Dev.modPlan_fns (d : Dev) (n : Nat) (f : Plan → Plan) : (d.modPlan n f).fns = d.fns := rfl
@[simp] theorem Dev.modPlan_queues (d : Dev) (n : Nat) (f : Plan → Plan) : (d.modPlan n f).queues = d.queues := rfl
@[simp] theorem Dev.modPlan_ctxs (d : Dev) (n : Nat) (f : Plan → Plan) : (d.modPlan n f).ctxs = d.ctxs := rfl
@[simp] theorem Dev.modPlan_maps (d : Dev) (n : Nat) (f : Plan → Plan) : (d.modPlan n f).maps = d.maps := rfl
@[simp] theorem Dev.modPlan_fences (d : Dev) (n : Nat) (f : Plan → Plan) : (d.modPlan n f).fences = d.fences := rfl
@[simp] theorem Dev.modPlan_tide (d : Dev) (n : Nat) (f : Plan → Plan) : (d.modPlan n f).tide = d.tide := rfl
@[simp] theorem Dev.modPlan_tiles (d : Dev) (n : Nat) (f : Plan → Plan) : (d.modPlan n f).tiles = d.tiles := rfl
@[simp] theorem Dev.modPlan_seams (d : Dev) (n : Nat) (f : Plan → Plan) : (d.modPlan n f).seams = d.seams := rfl
@[simp] theorem Dev.modPlan_arbs (d : Dev) (n : Nat) (f : Plan → Plan) : (d.modPlan n f).arbs = d.arbs := rfl
@[simp] theorem Dev.modPlan_meshThresh (d : Dev) (n : Nat) (f : Plan → Plan) : (d.modPlan n f).meshThresh = d.meshThresh := rfl
@[simp] theorem Dev.modPlan_meshStarve (d : Dev) (n : Nat) (f : Plan → Plan) : (d.modPlan n f).meshStarve = d.meshStarve := rfl
@[simp] theorem Dev.modPlan_meshTurns (d : Dev) (n : Nat) (f : Plan → Plan) : (d.modPlan n f).meshTurns = d.meshTurns := rfl
@[simp] theorem Dev.modPlan_hubs (d : Dev) (n : Nat) (f : Plan → Plan) : (d.modPlan n f).hubs = d.hubs := rfl
@[simp] theorem Dev.modPlan_regions (d : Dev) (n : Nat) (f : Plan → Plan) : (d.modPlan n f).regions = d.regions := rfl
@[simp] theorem Dev.modPlan_counters (d : Dev) (n : Nat) (f : Plan → Plan) : (d.modPlan n f).counters = d.counters := rfl
@[simp] theorem Dev.modPlan_nodes (d : Dev) (n : Nat) (f : Plan → Plan) : (d.modPlan n f).nodes = d.nodes := rfl
@[simp] theorem Dev.modPlan_keys (d : Dev) (n : Nat) (f : Plan → Plan) : (d.modPlan n f).keys = d.keys := rfl
@[simp] theorem Dev.modPlan_badLines (d : Dev) (n : Nat) (f : Plan → Plan) : (d.modPlan n f).badLines = d.badLines := rfl
@[simp] theorem Dev.modPlan_scales (d : Dev) (n : Nat) (f : Plan → Plan) : (d.modPlan n f).scales = d.scales := rfl
@[simp] theorem Dev.modPlan_groups (d : Dev) (n : Nat) (f : Plan → Plan) : (d.modPlan n f).groups = d.groups := rfl
@[simp] theorem Dev.modPlan_mem (d : Dev) (n : Nat) (f : Plan → Plan) : (d.modPlan n f).mem = d.mem := rfl
@[simp] theorem Dev.modPlan_loads (d : Dev) (n : Nat) (f : Plan → Plan) : (d.modPlan n f).loads = d.loads := rfl
@[simp] theorem Dev.modPlan_spareCores (d : Dev) (n : Nat) (f : Plan → Plan) : (d.modPlan n f).spareCores = d.spareCores := rfl
@[simp] theorem Dev.modPlan_coresDown (d : Dev) (n : Nat) (f : Plan → Plan) : (d.modPlan n f).coresDown = d.coresDown := rfl
@[simp] theorem Dev.modPlan_runCmds (d : Dev) (n : Nat) (f : Plan → Plan) : (d.modPlan n f).runCmds = d.runCmds := rfl
@[simp] theorem Dev.modPlan_runs (d : Dev) (n : Nat) (f : Plan → Plan) : (d.modPlan n f).runs = d.runs := rfl
@[simp] theorem Dev.modPlan_nextRun (d : Dev) (n : Nat) (f : Plan → Plan) : (d.modPlan n f).nextRun = d.nextRun := rfl
@[simp] theorem Dev.modPlan_extents (d : Dev) (n : Nat) (f : Plan → Plan) : (d.modPlan n f).extents = d.extents := rfl
@[simp] theorem Dev.modPlan_flash (d : Dev) (n : Nat) (f : Plan → Plan) : (d.modPlan n f).flash = d.flash := rfl
@[simp] theorem Dev.modPlan_fabric (d : Dev) (n : Nat) (f : Plan → Plan) : (d.modPlan n f).fabric = d.fabric := rfl
@[simp] theorem Dev.modPlan_dike (d : Dev) (n : Nat) (f : Plan → Plan) : (d.modPlan n f).dike = d.dike := rfl
@[simp] theorem Dev.modPlan_havens (d : Dev) (n : Nat) (f : Plan → Plan) : (d.modPlan n f).havens = d.havens := rfl
@[simp] theorem Dev.modPlan_jobs (d : Dev) (n : Nat) (f : Plan → Plan) : (d.modPlan n f).jobs = d.jobs := rfl
@[simp] theorem Dev.modPlan_trust (d : Dev) (n : Nat) (f : Plan → Plan) : (d.modPlan n f).trust = d.trust := rfl
@[simp] theorem Dev.modPlan_life (d : Dev) (n : Nat) (f : Plan → Plan) : (d.modPlan n f).life = d.life := rfl
@[simp] theorem Dev.modPlan_power (d : Dev) (n : Nat) (f : Plan → Plan) : (d.modPlan n f).power = d.power := rfl
@[simp] theorem Dev.modPlan_errors (d : Dev) (n : Nat) (f : Plan → Plan) : (d.modPlan n f).errors = d.errors := rfl
@[simp] theorem Dev.modPlan_mgmt (d : Dev) (n : Nat) (f : Plan → Plan) : (d.modPlan n f).mgmt = d.mgmt := rfl
@[simp] theorem Dev.modPlan_held (d : Dev) (n : Nat) (f : Plan → Plan) : (d.modPlan n f).held = d.held := rfl
@[simp] theorem Dev.modPlan_drains (d : Dev) (n : Nat) (f : Plan → Plan) : (d.modPlan n f).drains = d.drains := rfl
@[simp] theorem Dev.modPlan_lost (d : Dev) (n : Nat) (f : Plan → Plan) : (d.modPlan n f).lost = d.lost := rfl
@[simp] theorem Dev.modPlan_stageQueue (d : Dev) (n : Nat) (f : Plan → Plan) : (d.modPlan n f).stageQueue = d.stageQueue := rfl
@[simp] theorem Dev.modPlan_out (d : Dev) (n : Nat) (f : Plan → Plan) : (d.modPlan n f).out = d.out := rfl

/-! #### setLoad -/

@[simp] theorem Dev.setLoad_sys (d : Dev) (n : Nat) (l : Option Load) : (d.setLoad n l).sys = d.sys := rfl
@[simp] theorem Dev.setLoad_fns (d : Dev) (n : Nat) (l : Option Load) : (d.setLoad n l).fns = d.fns := rfl
@[simp] theorem Dev.setLoad_queues (d : Dev) (n : Nat) (l : Option Load) : (d.setLoad n l).queues = d.queues := rfl
@[simp] theorem Dev.setLoad_ctxs (d : Dev) (n : Nat) (l : Option Load) : (d.setLoad n l).ctxs = d.ctxs := rfl
@[simp] theorem Dev.setLoad_maps (d : Dev) (n : Nat) (l : Option Load) : (d.setLoad n l).maps = d.maps := rfl
@[simp] theorem Dev.setLoad_fences (d : Dev) (n : Nat) (l : Option Load) : (d.setLoad n l).fences = d.fences := rfl
@[simp] theorem Dev.setLoad_tide (d : Dev) (n : Nat) (l : Option Load) : (d.setLoad n l).tide = d.tide := rfl
@[simp] theorem Dev.setLoad_tiles (d : Dev) (n : Nat) (l : Option Load) : (d.setLoad n l).tiles = d.tiles := rfl
@[simp] theorem Dev.setLoad_seams (d : Dev) (n : Nat) (l : Option Load) : (d.setLoad n l).seams = d.seams := rfl
@[simp] theorem Dev.setLoad_arbs (d : Dev) (n : Nat) (l : Option Load) : (d.setLoad n l).arbs = d.arbs := rfl
@[simp] theorem Dev.setLoad_meshThresh (d : Dev) (n : Nat) (l : Option Load) : (d.setLoad n l).meshThresh = d.meshThresh := rfl
@[simp] theorem Dev.setLoad_meshStarve (d : Dev) (n : Nat) (l : Option Load) : (d.setLoad n l).meshStarve = d.meshStarve := rfl
@[simp] theorem Dev.setLoad_meshTurns (d : Dev) (n : Nat) (l : Option Load) : (d.setLoad n l).meshTurns = d.meshTurns := rfl
@[simp] theorem Dev.setLoad_hubs (d : Dev) (n : Nat) (l : Option Load) : (d.setLoad n l).hubs = d.hubs := rfl
@[simp] theorem Dev.setLoad_regions (d : Dev) (n : Nat) (l : Option Load) : (d.setLoad n l).regions = d.regions := rfl
@[simp] theorem Dev.setLoad_counters (d : Dev) (n : Nat) (l : Option Load) : (d.setLoad n l).counters = d.counters := rfl
@[simp] theorem Dev.setLoad_nodes (d : Dev) (n : Nat) (l : Option Load) : (d.setLoad n l).nodes = d.nodes := rfl
@[simp] theorem Dev.setLoad_keys (d : Dev) (n : Nat) (l : Option Load) : (d.setLoad n l).keys = d.keys := rfl
@[simp] theorem Dev.setLoad_badLines (d : Dev) (n : Nat) (l : Option Load) : (d.setLoad n l).badLines = d.badLines := rfl
@[simp] theorem Dev.setLoad_scales (d : Dev) (n : Nat) (l : Option Load) : (d.setLoad n l).scales = d.scales := rfl
@[simp] theorem Dev.setLoad_groups (d : Dev) (n : Nat) (l : Option Load) : (d.setLoad n l).groups = d.groups := rfl
@[simp] theorem Dev.setLoad_mem (d : Dev) (n : Nat) (l : Option Load) : (d.setLoad n l).mem = d.mem := rfl
@[simp] theorem Dev.setLoad_plans (d : Dev) (n : Nat) (l : Option Load) : (d.setLoad n l).plans = d.plans := rfl
@[simp] theorem Dev.setLoad_spareCores (d : Dev) (n : Nat) (l : Option Load) : (d.setLoad n l).spareCores = d.spareCores := rfl
@[simp] theorem Dev.setLoad_coresDown (d : Dev) (n : Nat) (l : Option Load) : (d.setLoad n l).coresDown = d.coresDown := rfl
@[simp] theorem Dev.setLoad_runCmds (d : Dev) (n : Nat) (l : Option Load) : (d.setLoad n l).runCmds = d.runCmds := rfl
@[simp] theorem Dev.setLoad_runs (d : Dev) (n : Nat) (l : Option Load) : (d.setLoad n l).runs = d.runs := rfl
@[simp] theorem Dev.setLoad_nextRun (d : Dev) (n : Nat) (l : Option Load) : (d.setLoad n l).nextRun = d.nextRun := rfl
@[simp] theorem Dev.setLoad_extents (d : Dev) (n : Nat) (l : Option Load) : (d.setLoad n l).extents = d.extents := rfl
@[simp] theorem Dev.setLoad_flash (d : Dev) (n : Nat) (l : Option Load) : (d.setLoad n l).flash = d.flash := rfl
@[simp] theorem Dev.setLoad_fabric (d : Dev) (n : Nat) (l : Option Load) : (d.setLoad n l).fabric = d.fabric := rfl
@[simp] theorem Dev.setLoad_dike (d : Dev) (n : Nat) (l : Option Load) : (d.setLoad n l).dike = d.dike := rfl
@[simp] theorem Dev.setLoad_havens (d : Dev) (n : Nat) (l : Option Load) : (d.setLoad n l).havens = d.havens := rfl
@[simp] theorem Dev.setLoad_jobs (d : Dev) (n : Nat) (l : Option Load) : (d.setLoad n l).jobs = d.jobs := rfl
@[simp] theorem Dev.setLoad_trust (d : Dev) (n : Nat) (l : Option Load) : (d.setLoad n l).trust = d.trust := rfl
@[simp] theorem Dev.setLoad_life (d : Dev) (n : Nat) (l : Option Load) : (d.setLoad n l).life = d.life := rfl
@[simp] theorem Dev.setLoad_power (d : Dev) (n : Nat) (l : Option Load) : (d.setLoad n l).power = d.power := rfl
@[simp] theorem Dev.setLoad_errors (d : Dev) (n : Nat) (l : Option Load) : (d.setLoad n l).errors = d.errors := rfl
@[simp] theorem Dev.setLoad_mgmt (d : Dev) (n : Nat) (l : Option Load) : (d.setLoad n l).mgmt = d.mgmt := rfl
@[simp] theorem Dev.setLoad_held (d : Dev) (n : Nat) (l : Option Load) : (d.setLoad n l).held = d.held := rfl
@[simp] theorem Dev.setLoad_drains (d : Dev) (n : Nat) (l : Option Load) : (d.setLoad n l).drains = d.drains := rfl
@[simp] theorem Dev.setLoad_lost (d : Dev) (n : Nat) (l : Option Load) : (d.setLoad n l).lost = d.lost := rfl
@[simp] theorem Dev.setLoad_stageQueue (d : Dev) (n : Nat) (l : Option Load) : (d.setLoad n l).stageQueue = d.stageQueue := rfl
@[simp] theorem Dev.setLoad_out (d : Dev) (n : Nat) (l : Option Load) : (d.setLoad n l).out = d.out := rfl

/-! #### modRun -/

@[simp] theorem Dev.modRun_sys (d : Dev) (n : Nat) (f : Run → Run) : (d.modRun n f).sys = d.sys := rfl
@[simp] theorem Dev.modRun_fns (d : Dev) (n : Nat) (f : Run → Run) : (d.modRun n f).fns = d.fns := rfl
@[simp] theorem Dev.modRun_queues (d : Dev) (n : Nat) (f : Run → Run) : (d.modRun n f).queues = d.queues := rfl
@[simp] theorem Dev.modRun_ctxs (d : Dev) (n : Nat) (f : Run → Run) : (d.modRun n f).ctxs = d.ctxs := rfl
@[simp] theorem Dev.modRun_maps (d : Dev) (n : Nat) (f : Run → Run) : (d.modRun n f).maps = d.maps := rfl
@[simp] theorem Dev.modRun_fences (d : Dev) (n : Nat) (f : Run → Run) : (d.modRun n f).fences = d.fences := rfl
@[simp] theorem Dev.modRun_tide (d : Dev) (n : Nat) (f : Run → Run) : (d.modRun n f).tide = d.tide := rfl
@[simp] theorem Dev.modRun_tiles (d : Dev) (n : Nat) (f : Run → Run) : (d.modRun n f).tiles = d.tiles := rfl
@[simp] theorem Dev.modRun_seams (d : Dev) (n : Nat) (f : Run → Run) : (d.modRun n f).seams = d.seams := rfl
@[simp] theorem Dev.modRun_arbs (d : Dev) (n : Nat) (f : Run → Run) : (d.modRun n f).arbs = d.arbs := rfl
@[simp] theorem Dev.modRun_meshThresh (d : Dev) (n : Nat) (f : Run → Run) : (d.modRun n f).meshThresh = d.meshThresh := rfl
@[simp] theorem Dev.modRun_meshStarve (d : Dev) (n : Nat) (f : Run → Run) : (d.modRun n f).meshStarve = d.meshStarve := rfl
@[simp] theorem Dev.modRun_meshTurns (d : Dev) (n : Nat) (f : Run → Run) : (d.modRun n f).meshTurns = d.meshTurns := rfl
@[simp] theorem Dev.modRun_hubs (d : Dev) (n : Nat) (f : Run → Run) : (d.modRun n f).hubs = d.hubs := rfl
@[simp] theorem Dev.modRun_regions (d : Dev) (n : Nat) (f : Run → Run) : (d.modRun n f).regions = d.regions := rfl
@[simp] theorem Dev.modRun_counters (d : Dev) (n : Nat) (f : Run → Run) : (d.modRun n f).counters = d.counters := rfl
@[simp] theorem Dev.modRun_nodes (d : Dev) (n : Nat) (f : Run → Run) : (d.modRun n f).nodes = d.nodes := rfl
@[simp] theorem Dev.modRun_keys (d : Dev) (n : Nat) (f : Run → Run) : (d.modRun n f).keys = d.keys := rfl
@[simp] theorem Dev.modRun_badLines (d : Dev) (n : Nat) (f : Run → Run) : (d.modRun n f).badLines = d.badLines := rfl
@[simp] theorem Dev.modRun_scales (d : Dev) (n : Nat) (f : Run → Run) : (d.modRun n f).scales = d.scales := rfl
@[simp] theorem Dev.modRun_groups (d : Dev) (n : Nat) (f : Run → Run) : (d.modRun n f).groups = d.groups := rfl
@[simp] theorem Dev.modRun_mem (d : Dev) (n : Nat) (f : Run → Run) : (d.modRun n f).mem = d.mem := rfl
@[simp] theorem Dev.modRun_plans (d : Dev) (n : Nat) (f : Run → Run) : (d.modRun n f).plans = d.plans := rfl
@[simp] theorem Dev.modRun_loads (d : Dev) (n : Nat) (f : Run → Run) : (d.modRun n f).loads = d.loads := rfl
@[simp] theorem Dev.modRun_spareCores (d : Dev) (n : Nat) (f : Run → Run) : (d.modRun n f).spareCores = d.spareCores := rfl
@[simp] theorem Dev.modRun_coresDown (d : Dev) (n : Nat) (f : Run → Run) : (d.modRun n f).coresDown = d.coresDown := rfl
@[simp] theorem Dev.modRun_runCmds (d : Dev) (n : Nat) (f : Run → Run) : (d.modRun n f).runCmds = d.runCmds := rfl
@[simp] theorem Dev.modRun_nextRun (d : Dev) (n : Nat) (f : Run → Run) : (d.modRun n f).nextRun = d.nextRun := rfl
@[simp] theorem Dev.modRun_extents (d : Dev) (n : Nat) (f : Run → Run) : (d.modRun n f).extents = d.extents := rfl
@[simp] theorem Dev.modRun_flash (d : Dev) (n : Nat) (f : Run → Run) : (d.modRun n f).flash = d.flash := rfl
@[simp] theorem Dev.modRun_fabric (d : Dev) (n : Nat) (f : Run → Run) : (d.modRun n f).fabric = d.fabric := rfl
@[simp] theorem Dev.modRun_dike (d : Dev) (n : Nat) (f : Run → Run) : (d.modRun n f).dike = d.dike := rfl
@[simp] theorem Dev.modRun_havens (d : Dev) (n : Nat) (f : Run → Run) : (d.modRun n f).havens = d.havens := rfl
@[simp] theorem Dev.modRun_jobs (d : Dev) (n : Nat) (f : Run → Run) : (d.modRun n f).jobs = d.jobs := rfl
@[simp] theorem Dev.modRun_trust (d : Dev) (n : Nat) (f : Run → Run) : (d.modRun n f).trust = d.trust := rfl
@[simp] theorem Dev.modRun_life (d : Dev) (n : Nat) (f : Run → Run) : (d.modRun n f).life = d.life := rfl
@[simp] theorem Dev.modRun_power (d : Dev) (n : Nat) (f : Run → Run) : (d.modRun n f).power = d.power := rfl
@[simp] theorem Dev.modRun_errors (d : Dev) (n : Nat) (f : Run → Run) : (d.modRun n f).errors = d.errors := rfl
@[simp] theorem Dev.modRun_mgmt (d : Dev) (n : Nat) (f : Run → Run) : (d.modRun n f).mgmt = d.mgmt := rfl
@[simp] theorem Dev.modRun_held (d : Dev) (n : Nat) (f : Run → Run) : (d.modRun n f).held = d.held := rfl
@[simp] theorem Dev.modRun_drains (d : Dev) (n : Nat) (f : Run → Run) : (d.modRun n f).drains = d.drains := rfl
@[simp] theorem Dev.modRun_lost (d : Dev) (n : Nat) (f : Run → Run) : (d.modRun n f).lost = d.lost := rfl
@[simp] theorem Dev.modRun_stageQueue (d : Dev) (n : Nat) (f : Run → Run) : (d.modRun n f).stageQueue = d.stageQueue := rfl
@[simp] theorem Dev.modRun_out (d : Dev) (n : Nat) (f : Run → Run) : (d.modRun n f).out = d.out := rfl

/-! #### modExtent -/

@[simp] theorem Dev.modExtent_sys (d : Dev) (n : Nat) (f : Extent → Extent) : (d.modExtent n f).sys = d.sys := rfl
@[simp] theorem Dev.modExtent_fns (d : Dev) (n : Nat) (f : Extent → Extent) : (d.modExtent n f).fns = d.fns := rfl
@[simp] theorem Dev.modExtent_queues (d : Dev) (n : Nat) (f : Extent → Extent) : (d.modExtent n f).queues = d.queues := rfl
@[simp] theorem Dev.modExtent_ctxs (d : Dev) (n : Nat) (f : Extent → Extent) : (d.modExtent n f).ctxs = d.ctxs := rfl
@[simp] theorem Dev.modExtent_maps (d : Dev) (n : Nat) (f : Extent → Extent) : (d.modExtent n f).maps = d.maps := rfl
@[simp] theorem Dev.modExtent_fences (d : Dev) (n : Nat) (f : Extent → Extent) : (d.modExtent n f).fences = d.fences := rfl
@[simp] theorem Dev.modExtent_tide (d : Dev) (n : Nat) (f : Extent → Extent) : (d.modExtent n f).tide = d.tide := rfl
@[simp] theorem Dev.modExtent_tiles (d : Dev) (n : Nat) (f : Extent → Extent) : (d.modExtent n f).tiles = d.tiles := rfl
@[simp] theorem Dev.modExtent_seams (d : Dev) (n : Nat) (f : Extent → Extent) : (d.modExtent n f).seams = d.seams := rfl
@[simp] theorem Dev.modExtent_arbs (d : Dev) (n : Nat) (f : Extent → Extent) : (d.modExtent n f).arbs = d.arbs := rfl
@[simp] theorem Dev.modExtent_meshThresh (d : Dev) (n : Nat) (f : Extent → Extent) : (d.modExtent n f).meshThresh = d.meshThresh := rfl
@[simp] theorem Dev.modExtent_meshStarve (d : Dev) (n : Nat) (f : Extent → Extent) : (d.modExtent n f).meshStarve = d.meshStarve := rfl
@[simp] theorem Dev.modExtent_meshTurns (d : Dev) (n : Nat) (f : Extent → Extent) : (d.modExtent n f).meshTurns = d.meshTurns := rfl
@[simp] theorem Dev.modExtent_hubs (d : Dev) (n : Nat) (f : Extent → Extent) : (d.modExtent n f).hubs = d.hubs := rfl
@[simp] theorem Dev.modExtent_regions (d : Dev) (n : Nat) (f : Extent → Extent) : (d.modExtent n f).regions = d.regions := rfl
@[simp] theorem Dev.modExtent_counters (d : Dev) (n : Nat) (f : Extent → Extent) : (d.modExtent n f).counters = d.counters := rfl
@[simp] theorem Dev.modExtent_nodes (d : Dev) (n : Nat) (f : Extent → Extent) : (d.modExtent n f).nodes = d.nodes := rfl
@[simp] theorem Dev.modExtent_keys (d : Dev) (n : Nat) (f : Extent → Extent) : (d.modExtent n f).keys = d.keys := rfl
@[simp] theorem Dev.modExtent_badLines (d : Dev) (n : Nat) (f : Extent → Extent) : (d.modExtent n f).badLines = d.badLines := rfl
@[simp] theorem Dev.modExtent_scales (d : Dev) (n : Nat) (f : Extent → Extent) : (d.modExtent n f).scales = d.scales := rfl
@[simp] theorem Dev.modExtent_groups (d : Dev) (n : Nat) (f : Extent → Extent) : (d.modExtent n f).groups = d.groups := rfl
@[simp] theorem Dev.modExtent_mem (d : Dev) (n : Nat) (f : Extent → Extent) : (d.modExtent n f).mem = d.mem := rfl
@[simp] theorem Dev.modExtent_plans (d : Dev) (n : Nat) (f : Extent → Extent) : (d.modExtent n f).plans = d.plans := rfl
@[simp] theorem Dev.modExtent_loads (d : Dev) (n : Nat) (f : Extent → Extent) : (d.modExtent n f).loads = d.loads := rfl
@[simp] theorem Dev.modExtent_spareCores (d : Dev) (n : Nat) (f : Extent → Extent) : (d.modExtent n f).spareCores = d.spareCores := rfl
@[simp] theorem Dev.modExtent_coresDown (d : Dev) (n : Nat) (f : Extent → Extent) : (d.modExtent n f).coresDown = d.coresDown := rfl
@[simp] theorem Dev.modExtent_runCmds (d : Dev) (n : Nat) (f : Extent → Extent) : (d.modExtent n f).runCmds = d.runCmds := rfl
@[simp] theorem Dev.modExtent_runs (d : Dev) (n : Nat) (f : Extent → Extent) : (d.modExtent n f).runs = d.runs := rfl
@[simp] theorem Dev.modExtent_nextRun (d : Dev) (n : Nat) (f : Extent → Extent) : (d.modExtent n f).nextRun = d.nextRun := rfl
@[simp] theorem Dev.modExtent_flash (d : Dev) (n : Nat) (f : Extent → Extent) : (d.modExtent n f).flash = d.flash := rfl
@[simp] theorem Dev.modExtent_fabric (d : Dev) (n : Nat) (f : Extent → Extent) : (d.modExtent n f).fabric = d.fabric := rfl
@[simp] theorem Dev.modExtent_dike (d : Dev) (n : Nat) (f : Extent → Extent) : (d.modExtent n f).dike = d.dike := rfl
@[simp] theorem Dev.modExtent_havens (d : Dev) (n : Nat) (f : Extent → Extent) : (d.modExtent n f).havens = d.havens := rfl
@[simp] theorem Dev.modExtent_jobs (d : Dev) (n : Nat) (f : Extent → Extent) : (d.modExtent n f).jobs = d.jobs := rfl
@[simp] theorem Dev.modExtent_trust (d : Dev) (n : Nat) (f : Extent → Extent) : (d.modExtent n f).trust = d.trust := rfl
@[simp] theorem Dev.modExtent_life (d : Dev) (n : Nat) (f : Extent → Extent) : (d.modExtent n f).life = d.life := rfl
@[simp] theorem Dev.modExtent_power (d : Dev) (n : Nat) (f : Extent → Extent) : (d.modExtent n f).power = d.power := rfl
@[simp] theorem Dev.modExtent_errors (d : Dev) (n : Nat) (f : Extent → Extent) : (d.modExtent n f).errors = d.errors := rfl
@[simp] theorem Dev.modExtent_mgmt (d : Dev) (n : Nat) (f : Extent → Extent) : (d.modExtent n f).mgmt = d.mgmt := rfl
@[simp] theorem Dev.modExtent_held (d : Dev) (n : Nat) (f : Extent → Extent) : (d.modExtent n f).held = d.held := rfl
@[simp] theorem Dev.modExtent_drains (d : Dev) (n : Nat) (f : Extent → Extent) : (d.modExtent n f).drains = d.drains := rfl
@[simp] theorem Dev.modExtent_lost (d : Dev) (n : Nat) (f : Extent → Extent) : (d.modExtent n f).lost = d.lost := rfl
@[simp] theorem Dev.modExtent_stageQueue (d : Dev) (n : Nat) (f : Extent → Extent) : (d.modExtent n f).stageQueue = d.stageQueue := rfl
@[simp] theorem Dev.modExtent_out (d : Dev) (n : Nat) (f : Extent → Extent) : (d.modExtent n f).out = d.out := rfl

/-! #### modFlash -/

@[simp] theorem Dev.modFlash_sys (d : Dev) (n : Nat) (f : Flash → Flash) : (d.modFlash n f).sys = d.sys := rfl
@[simp] theorem Dev.modFlash_fns (d : Dev) (n : Nat) (f : Flash → Flash) : (d.modFlash n f).fns = d.fns := rfl
@[simp] theorem Dev.modFlash_queues (d : Dev) (n : Nat) (f : Flash → Flash) : (d.modFlash n f).queues = d.queues := rfl
@[simp] theorem Dev.modFlash_ctxs (d : Dev) (n : Nat) (f : Flash → Flash) : (d.modFlash n f).ctxs = d.ctxs := rfl
@[simp] theorem Dev.modFlash_maps (d : Dev) (n : Nat) (f : Flash → Flash) : (d.modFlash n f).maps = d.maps := rfl
@[simp] theorem Dev.modFlash_fences (d : Dev) (n : Nat) (f : Flash → Flash) : (d.modFlash n f).fences = d.fences := rfl
@[simp] theorem Dev.modFlash_tide (d : Dev) (n : Nat) (f : Flash → Flash) : (d.modFlash n f).tide = d.tide := rfl
@[simp] theorem Dev.modFlash_tiles (d : Dev) (n : Nat) (f : Flash → Flash) : (d.modFlash n f).tiles = d.tiles := rfl
@[simp] theorem Dev.modFlash_seams (d : Dev) (n : Nat) (f : Flash → Flash) : (d.modFlash n f).seams = d.seams := rfl
@[simp] theorem Dev.modFlash_arbs (d : Dev) (n : Nat) (f : Flash → Flash) : (d.modFlash n f).arbs = d.arbs := rfl
@[simp] theorem Dev.modFlash_meshThresh (d : Dev) (n : Nat) (f : Flash → Flash) : (d.modFlash n f).meshThresh = d.meshThresh := rfl
@[simp] theorem Dev.modFlash_meshStarve (d : Dev) (n : Nat) (f : Flash → Flash) : (d.modFlash n f).meshStarve = d.meshStarve := rfl
@[simp] theorem Dev.modFlash_meshTurns (d : Dev) (n : Nat) (f : Flash → Flash) : (d.modFlash n f).meshTurns = d.meshTurns := rfl
@[simp] theorem Dev.modFlash_hubs (d : Dev) (n : Nat) (f : Flash → Flash) : (d.modFlash n f).hubs = d.hubs := rfl
@[simp] theorem Dev.modFlash_regions (d : Dev) (n : Nat) (f : Flash → Flash) : (d.modFlash n f).regions = d.regions := rfl
@[simp] theorem Dev.modFlash_counters (d : Dev) (n : Nat) (f : Flash → Flash) : (d.modFlash n f).counters = d.counters := rfl
@[simp] theorem Dev.modFlash_nodes (d : Dev) (n : Nat) (f : Flash → Flash) : (d.modFlash n f).nodes = d.nodes := rfl
@[simp] theorem Dev.modFlash_keys (d : Dev) (n : Nat) (f : Flash → Flash) : (d.modFlash n f).keys = d.keys := rfl
@[simp] theorem Dev.modFlash_badLines (d : Dev) (n : Nat) (f : Flash → Flash) : (d.modFlash n f).badLines = d.badLines := rfl
@[simp] theorem Dev.modFlash_scales (d : Dev) (n : Nat) (f : Flash → Flash) : (d.modFlash n f).scales = d.scales := rfl
@[simp] theorem Dev.modFlash_groups (d : Dev) (n : Nat) (f : Flash → Flash) : (d.modFlash n f).groups = d.groups := rfl
@[simp] theorem Dev.modFlash_mem (d : Dev) (n : Nat) (f : Flash → Flash) : (d.modFlash n f).mem = d.mem := rfl
@[simp] theorem Dev.modFlash_plans (d : Dev) (n : Nat) (f : Flash → Flash) : (d.modFlash n f).plans = d.plans := rfl
@[simp] theorem Dev.modFlash_loads (d : Dev) (n : Nat) (f : Flash → Flash) : (d.modFlash n f).loads = d.loads := rfl
@[simp] theorem Dev.modFlash_spareCores (d : Dev) (n : Nat) (f : Flash → Flash) : (d.modFlash n f).spareCores = d.spareCores := rfl
@[simp] theorem Dev.modFlash_coresDown (d : Dev) (n : Nat) (f : Flash → Flash) : (d.modFlash n f).coresDown = d.coresDown := rfl
@[simp] theorem Dev.modFlash_runCmds (d : Dev) (n : Nat) (f : Flash → Flash) : (d.modFlash n f).runCmds = d.runCmds := rfl
@[simp] theorem Dev.modFlash_runs (d : Dev) (n : Nat) (f : Flash → Flash) : (d.modFlash n f).runs = d.runs := rfl
@[simp] theorem Dev.modFlash_nextRun (d : Dev) (n : Nat) (f : Flash → Flash) : (d.modFlash n f).nextRun = d.nextRun := rfl
@[simp] theorem Dev.modFlash_extents (d : Dev) (n : Nat) (f : Flash → Flash) : (d.modFlash n f).extents = d.extents := rfl
@[simp] theorem Dev.modFlash_fabric (d : Dev) (n : Nat) (f : Flash → Flash) : (d.modFlash n f).fabric = d.fabric := rfl
@[simp] theorem Dev.modFlash_dike (d : Dev) (n : Nat) (f : Flash → Flash) : (d.modFlash n f).dike = d.dike := rfl
@[simp] theorem Dev.modFlash_havens (d : Dev) (n : Nat) (f : Flash → Flash) : (d.modFlash n f).havens = d.havens := rfl
@[simp] theorem Dev.modFlash_jobs (d : Dev) (n : Nat) (f : Flash → Flash) : (d.modFlash n f).jobs = d.jobs := rfl
@[simp] theorem Dev.modFlash_trust (d : Dev) (n : Nat) (f : Flash → Flash) : (d.modFlash n f).trust = d.trust := rfl
@[simp] theorem Dev.modFlash_life (d : Dev) (n : Nat) (f : Flash → Flash) : (d.modFlash n f).life = d.life := rfl
@[simp] theorem Dev.modFlash_power (d : Dev) (n : Nat) (f : Flash → Flash) : (d.modFlash n f).power = d.power := rfl
@[simp] theorem Dev.modFlash_errors (d : Dev) (n : Nat) (f : Flash → Flash) : (d.modFlash n f).errors = d.errors := rfl
@[simp] theorem Dev.modFlash_mgmt (d : Dev) (n : Nat) (f : Flash → Flash) : (d.modFlash n f).mgmt = d.mgmt := rfl
@[simp] theorem Dev.modFlash_held (d : Dev) (n : Nat) (f : Flash → Flash) : (d.modFlash n f).held = d.held := rfl
@[simp] theorem Dev.modFlash_drains (d : Dev) (n : Nat) (f : Flash → Flash) : (d.modFlash n f).drains = d.drains := rfl
@[simp] theorem Dev.modFlash_lost (d : Dev) (n : Nat) (f : Flash → Flash) : (d.modFlash n f).lost = d.lost := rfl
@[simp] theorem Dev.modFlash_stageQueue (d : Dev) (n : Nat) (f : Flash → Flash) : (d.modFlash n f).stageQueue = d.stageQueue := rfl
@[simp] theorem Dev.modFlash_out (d : Dev) (n : Nat) (f : Flash → Flash) : (d.modFlash n f).out = d.out := rfl

/-! #### modFabric -/

@[simp] theorem Dev.modFabric_sys (d : Dev) (f : Fabric → Fabric) : (d.modFabric f).sys = d.sys := rfl
@[simp] theorem Dev.modFabric_fns (d : Dev) (f : Fabric → Fabric) : (d.modFabric f).fns = d.fns := rfl
@[simp] theorem Dev.modFabric_queues (d : Dev) (f : Fabric → Fabric) : (d.modFabric f).queues = d.queues := rfl
@[simp] theorem Dev.modFabric_ctxs (d : Dev) (f : Fabric → Fabric) : (d.modFabric f).ctxs = d.ctxs := rfl
@[simp] theorem Dev.modFabric_maps (d : Dev) (f : Fabric → Fabric) : (d.modFabric f).maps = d.maps := rfl
@[simp] theorem Dev.modFabric_fences (d : Dev) (f : Fabric → Fabric) : (d.modFabric f).fences = d.fences := rfl
@[simp] theorem Dev.modFabric_tide (d : Dev) (f : Fabric → Fabric) : (d.modFabric f).tide = d.tide := rfl
@[simp] theorem Dev.modFabric_tiles (d : Dev) (f : Fabric → Fabric) : (d.modFabric f).tiles = d.tiles := rfl
@[simp] theorem Dev.modFabric_seams (d : Dev) (f : Fabric → Fabric) : (d.modFabric f).seams = d.seams := rfl
@[simp] theorem Dev.modFabric_arbs (d : Dev) (f : Fabric → Fabric) : (d.modFabric f).arbs = d.arbs := rfl
@[simp] theorem Dev.modFabric_meshThresh (d : Dev) (f : Fabric → Fabric) : (d.modFabric f).meshThresh = d.meshThresh := rfl
@[simp] theorem Dev.modFabric_meshStarve (d : Dev) (f : Fabric → Fabric) : (d.modFabric f).meshStarve = d.meshStarve := rfl
@[simp] theorem Dev.modFabric_meshTurns (d : Dev) (f : Fabric → Fabric) : (d.modFabric f).meshTurns = d.meshTurns := rfl
@[simp] theorem Dev.modFabric_hubs (d : Dev) (f : Fabric → Fabric) : (d.modFabric f).hubs = d.hubs := rfl
@[simp] theorem Dev.modFabric_regions (d : Dev) (f : Fabric → Fabric) : (d.modFabric f).regions = d.regions := rfl
@[simp] theorem Dev.modFabric_counters (d : Dev) (f : Fabric → Fabric) : (d.modFabric f).counters = d.counters := rfl
@[simp] theorem Dev.modFabric_nodes (d : Dev) (f : Fabric → Fabric) : (d.modFabric f).nodes = d.nodes := rfl
@[simp] theorem Dev.modFabric_keys (d : Dev) (f : Fabric → Fabric) : (d.modFabric f).keys = d.keys := rfl
@[simp] theorem Dev.modFabric_badLines (d : Dev) (f : Fabric → Fabric) : (d.modFabric f).badLines = d.badLines := rfl
@[simp] theorem Dev.modFabric_scales (d : Dev) (f : Fabric → Fabric) : (d.modFabric f).scales = d.scales := rfl
@[simp] theorem Dev.modFabric_groups (d : Dev) (f : Fabric → Fabric) : (d.modFabric f).groups = d.groups := rfl
@[simp] theorem Dev.modFabric_mem (d : Dev) (f : Fabric → Fabric) : (d.modFabric f).mem = d.mem := rfl
@[simp] theorem Dev.modFabric_plans (d : Dev) (f : Fabric → Fabric) : (d.modFabric f).plans = d.plans := rfl
@[simp] theorem Dev.modFabric_loads (d : Dev) (f : Fabric → Fabric) : (d.modFabric f).loads = d.loads := rfl
@[simp] theorem Dev.modFabric_spareCores (d : Dev) (f : Fabric → Fabric) : (d.modFabric f).spareCores = d.spareCores := rfl
@[simp] theorem Dev.modFabric_coresDown (d : Dev) (f : Fabric → Fabric) : (d.modFabric f).coresDown = d.coresDown := rfl
@[simp] theorem Dev.modFabric_runCmds (d : Dev) (f : Fabric → Fabric) : (d.modFabric f).runCmds = d.runCmds := rfl
@[simp] theorem Dev.modFabric_runs (d : Dev) (f : Fabric → Fabric) : (d.modFabric f).runs = d.runs := rfl
@[simp] theorem Dev.modFabric_nextRun (d : Dev) (f : Fabric → Fabric) : (d.modFabric f).nextRun = d.nextRun := rfl
@[simp] theorem Dev.modFabric_extents (d : Dev) (f : Fabric → Fabric) : (d.modFabric f).extents = d.extents := rfl
@[simp] theorem Dev.modFabric_flash (d : Dev) (f : Fabric → Fabric) : (d.modFabric f).flash = d.flash := rfl
@[simp] theorem Dev.modFabric_dike (d : Dev) (f : Fabric → Fabric) : (d.modFabric f).dike = d.dike := rfl
@[simp] theorem Dev.modFabric_havens (d : Dev) (f : Fabric → Fabric) : (d.modFabric f).havens = d.havens := rfl
@[simp] theorem Dev.modFabric_jobs (d : Dev) (f : Fabric → Fabric) : (d.modFabric f).jobs = d.jobs := rfl
@[simp] theorem Dev.modFabric_trust (d : Dev) (f : Fabric → Fabric) : (d.modFabric f).trust = d.trust := rfl
@[simp] theorem Dev.modFabric_life (d : Dev) (f : Fabric → Fabric) : (d.modFabric f).life = d.life := rfl
@[simp] theorem Dev.modFabric_power (d : Dev) (f : Fabric → Fabric) : (d.modFabric f).power = d.power := rfl
@[simp] theorem Dev.modFabric_errors (d : Dev) (f : Fabric → Fabric) : (d.modFabric f).errors = d.errors := rfl
@[simp] theorem Dev.modFabric_mgmt (d : Dev) (f : Fabric → Fabric) : (d.modFabric f).mgmt = d.mgmt := rfl
@[simp] theorem Dev.modFabric_held (d : Dev) (f : Fabric → Fabric) : (d.modFabric f).held = d.held := rfl
@[simp] theorem Dev.modFabric_drains (d : Dev) (f : Fabric → Fabric) : (d.modFabric f).drains = d.drains := rfl
@[simp] theorem Dev.modFabric_lost (d : Dev) (f : Fabric → Fabric) : (d.modFabric f).lost = d.lost := rfl
@[simp] theorem Dev.modFabric_stageQueue (d : Dev) (f : Fabric → Fabric) : (d.modFabric f).stageQueue = d.stageQueue := rfl
@[simp] theorem Dev.modFabric_out (d : Dev) (f : Fabric → Fabric) : (d.modFabric f).out = d.out := rfl

/-! #### modPort -/

@[simp] theorem Dev.modPort_sys (d : Dev) (n : Nat) (f : Port → Port) : (d.modPort n f).sys = d.sys := rfl
@[simp] theorem Dev.modPort_fns (d : Dev) (n : Nat) (f : Port → Port) : (d.modPort n f).fns = d.fns := rfl
@[simp] theorem Dev.modPort_queues (d : Dev) (n : Nat) (f : Port → Port) : (d.modPort n f).queues = d.queues := rfl
@[simp] theorem Dev.modPort_ctxs (d : Dev) (n : Nat) (f : Port → Port) : (d.modPort n f).ctxs = d.ctxs := rfl
@[simp] theorem Dev.modPort_maps (d : Dev) (n : Nat) (f : Port → Port) : (d.modPort n f).maps = d.maps := rfl
@[simp] theorem Dev.modPort_fences (d : Dev) (n : Nat) (f : Port → Port) : (d.modPort n f).fences = d.fences := rfl
@[simp] theorem Dev.modPort_tide (d : Dev) (n : Nat) (f : Port → Port) : (d.modPort n f).tide = d.tide := rfl
@[simp] theorem Dev.modPort_tiles (d : Dev) (n : Nat) (f : Port → Port) : (d.modPort n f).tiles = d.tiles := rfl
@[simp] theorem Dev.modPort_seams (d : Dev) (n : Nat) (f : Port → Port) : (d.modPort n f).seams = d.seams := rfl
@[simp] theorem Dev.modPort_arbs (d : Dev) (n : Nat) (f : Port → Port) : (d.modPort n f).arbs = d.arbs := rfl
@[simp] theorem Dev.modPort_meshThresh (d : Dev) (n : Nat) (f : Port → Port) : (d.modPort n f).meshThresh = d.meshThresh := rfl
@[simp] theorem Dev.modPort_meshStarve (d : Dev) (n : Nat) (f : Port → Port) : (d.modPort n f).meshStarve = d.meshStarve := rfl
@[simp] theorem Dev.modPort_meshTurns (d : Dev) (n : Nat) (f : Port → Port) : (d.modPort n f).meshTurns = d.meshTurns := rfl
@[simp] theorem Dev.modPort_hubs (d : Dev) (n : Nat) (f : Port → Port) : (d.modPort n f).hubs = d.hubs := rfl
@[simp] theorem Dev.modPort_regions (d : Dev) (n : Nat) (f : Port → Port) : (d.modPort n f).regions = d.regions := rfl
@[simp] theorem Dev.modPort_counters (d : Dev) (n : Nat) (f : Port → Port) : (d.modPort n f).counters = d.counters := rfl
@[simp] theorem Dev.modPort_nodes (d : Dev) (n : Nat) (f : Port → Port) : (d.modPort n f).nodes = d.nodes := rfl
@[simp] theorem Dev.modPort_keys (d : Dev) (n : Nat) (f : Port → Port) : (d.modPort n f).keys = d.keys := rfl
@[simp] theorem Dev.modPort_badLines (d : Dev) (n : Nat) (f : Port → Port) : (d.modPort n f).badLines = d.badLines := rfl
@[simp] theorem Dev.modPort_scales (d : Dev) (n : Nat) (f : Port → Port) : (d.modPort n f).scales = d.scales := rfl
@[simp] theorem Dev.modPort_groups (d : Dev) (n : Nat) (f : Port → Port) : (d.modPort n f).groups = d.groups := rfl
@[simp] theorem Dev.modPort_mem (d : Dev) (n : Nat) (f : Port → Port) : (d.modPort n f).mem = d.mem := rfl
@[simp] theorem Dev.modPort_plans (d : Dev) (n : Nat) (f : Port → Port) : (d.modPort n f).plans = d.plans := rfl
@[simp] theorem Dev.modPort_loads (d : Dev) (n : Nat) (f : Port → Port) : (d.modPort n f).loads = d.loads := rfl
@[simp] theorem Dev.modPort_spareCores (d : Dev) (n : Nat) (f : Port → Port) : (d.modPort n f).spareCores = d.spareCores := rfl
@[simp] theorem Dev.modPort_coresDown (d : Dev) (n : Nat) (f : Port → Port) : (d.modPort n f).coresDown = d.coresDown := rfl
@[simp] theorem Dev.modPort_runCmds (d : Dev) (n : Nat) (f : Port → Port) : (d.modPort n f).runCmds = d.runCmds := rfl
@[simp] theorem Dev.modPort_runs (d : Dev) (n : Nat) (f : Port → Port) : (d.modPort n f).runs = d.runs := rfl
@[simp] theorem Dev.modPort_nextRun (d : Dev) (n : Nat) (f : Port → Port) : (d.modPort n f).nextRun = d.nextRun := rfl
@[simp] theorem Dev.modPort_extents (d : Dev) (n : Nat) (f : Port → Port) : (d.modPort n f).extents = d.extents := rfl
@[simp] theorem Dev.modPort_flash (d : Dev) (n : Nat) (f : Port → Port) : (d.modPort n f).flash = d.flash := rfl
@[simp] theorem Dev.modPort_dike (d : Dev) (n : Nat) (f : Port → Port) : (d.modPort n f).dike = d.dike := rfl
@[simp] theorem Dev.modPort_havens (d : Dev) (n : Nat) (f : Port → Port) : (d.modPort n f).havens = d.havens := rfl
@[simp] theorem Dev.modPort_jobs (d : Dev) (n : Nat) (f : Port → Port) : (d.modPort n f).jobs = d.jobs := rfl
@[simp] theorem Dev.modPort_trust (d : Dev) (n : Nat) (f : Port → Port) : (d.modPort n f).trust = d.trust := rfl
@[simp] theorem Dev.modPort_life (d : Dev) (n : Nat) (f : Port → Port) : (d.modPort n f).life = d.life := rfl
@[simp] theorem Dev.modPort_power (d : Dev) (n : Nat) (f : Port → Port) : (d.modPort n f).power = d.power := rfl
@[simp] theorem Dev.modPort_errors (d : Dev) (n : Nat) (f : Port → Port) : (d.modPort n f).errors = d.errors := rfl
@[simp] theorem Dev.modPort_mgmt (d : Dev) (n : Nat) (f : Port → Port) : (d.modPort n f).mgmt = d.mgmt := rfl
@[simp] theorem Dev.modPort_held (d : Dev) (n : Nat) (f : Port → Port) : (d.modPort n f).held = d.held := rfl
@[simp] theorem Dev.modPort_drains (d : Dev) (n : Nat) (f : Port → Port) : (d.modPort n f).drains = d.drains := rfl
@[simp] theorem Dev.modPort_lost (d : Dev) (n : Nat) (f : Port → Port) : (d.modPort n f).lost = d.lost := rfl
@[simp] theorem Dev.modPort_stageQueue (d : Dev) (n : Nat) (f : Port → Port) : (d.modPort n f).stageQueue = d.stageQueue := rfl
@[simp] theorem Dev.modPort_out (d : Dev) (n : Nat) (f : Port → Port) : (d.modPort n f).out = d.out := rfl

/-! #### modGroup -/

@[simp] theorem Dev.modGroup_sys (d : Dev) (n : Nat) (f : Group → Group) : (d.modGroup n f).sys = d.sys := rfl
@[simp] theorem Dev.modGroup_fns (d : Dev) (n : Nat) (f : Group → Group) : (d.modGroup n f).fns = d.fns := rfl
@[simp] theorem Dev.modGroup_queues (d : Dev) (n : Nat) (f : Group → Group) : (d.modGroup n f).queues = d.queues := rfl
@[simp] theorem Dev.modGroup_ctxs (d : Dev) (n : Nat) (f : Group → Group) : (d.modGroup n f).ctxs = d.ctxs := rfl
@[simp] theorem Dev.modGroup_maps (d : Dev) (n : Nat) (f : Group → Group) : (d.modGroup n f).maps = d.maps := rfl
@[simp] theorem Dev.modGroup_fences (d : Dev) (n : Nat) (f : Group → Group) : (d.modGroup n f).fences = d.fences := rfl
@[simp] theorem Dev.modGroup_tide (d : Dev) (n : Nat) (f : Group → Group) : (d.modGroup n f).tide = d.tide := rfl
@[simp] theorem Dev.modGroup_tiles (d : Dev) (n : Nat) (f : Group → Group) : (d.modGroup n f).tiles = d.tiles := rfl
@[simp] theorem Dev.modGroup_seams (d : Dev) (n : Nat) (f : Group → Group) : (d.modGroup n f).seams = d.seams := rfl
@[simp] theorem Dev.modGroup_arbs (d : Dev) (n : Nat) (f : Group → Group) : (d.modGroup n f).arbs = d.arbs := rfl
@[simp] theorem Dev.modGroup_meshThresh (d : Dev) (n : Nat) (f : Group → Group) : (d.modGroup n f).meshThresh = d.meshThresh := rfl
@[simp] theorem Dev.modGroup_meshStarve (d : Dev) (n : Nat) (f : Group → Group) : (d.modGroup n f).meshStarve = d.meshStarve := rfl
@[simp] theorem Dev.modGroup_meshTurns (d : Dev) (n : Nat) (f : Group → Group) : (d.modGroup n f).meshTurns = d.meshTurns := rfl
@[simp] theorem Dev.modGroup_hubs (d : Dev) (n : Nat) (f : Group → Group) : (d.modGroup n f).hubs = d.hubs := rfl
@[simp] theorem Dev.modGroup_regions (d : Dev) (n : Nat) (f : Group → Group) : (d.modGroup n f).regions = d.regions := rfl
@[simp] theorem Dev.modGroup_counters (d : Dev) (n : Nat) (f : Group → Group) : (d.modGroup n f).counters = d.counters := rfl
@[simp] theorem Dev.modGroup_nodes (d : Dev) (n : Nat) (f : Group → Group) : (d.modGroup n f).nodes = d.nodes := rfl
@[simp] theorem Dev.modGroup_keys (d : Dev) (n : Nat) (f : Group → Group) : (d.modGroup n f).keys = d.keys := rfl
@[simp] theorem Dev.modGroup_badLines (d : Dev) (n : Nat) (f : Group → Group) : (d.modGroup n f).badLines = d.badLines := rfl
@[simp] theorem Dev.modGroup_scales (d : Dev) (n : Nat) (f : Group → Group) : (d.modGroup n f).scales = d.scales := rfl
@[simp] theorem Dev.modGroup_groups (d : Dev) (n : Nat) (f : Group → Group) : (d.modGroup n f).groups = d.groups := rfl
@[simp] theorem Dev.modGroup_mem (d : Dev) (n : Nat) (f : Group → Group) : (d.modGroup n f).mem = d.mem := rfl
@[simp] theorem Dev.modGroup_plans (d : Dev) (n : Nat) (f : Group → Group) : (d.modGroup n f).plans = d.plans := rfl
@[simp] theorem Dev.modGroup_loads (d : Dev) (n : Nat) (f : Group → Group) : (d.modGroup n f).loads = d.loads := rfl
@[simp] theorem Dev.modGroup_spareCores (d : Dev) (n : Nat) (f : Group → Group) : (d.modGroup n f).spareCores = d.spareCores := rfl
@[simp] theorem Dev.modGroup_coresDown (d : Dev) (n : Nat) (f : Group → Group) : (d.modGroup n f).coresDown = d.coresDown := rfl
@[simp] theorem Dev.modGroup_runCmds (d : Dev) (n : Nat) (f : Group → Group) : (d.modGroup n f).runCmds = d.runCmds := rfl
@[simp] theorem Dev.modGroup_runs (d : Dev) (n : Nat) (f : Group → Group) : (d.modGroup n f).runs = d.runs := rfl
@[simp] theorem Dev.modGroup_nextRun (d : Dev) (n : Nat) (f : Group → Group) : (d.modGroup n f).nextRun = d.nextRun := rfl
@[simp] theorem Dev.modGroup_extents (d : Dev) (n : Nat) (f : Group → Group) : (d.modGroup n f).extents = d.extents := rfl
@[simp] theorem Dev.modGroup_flash (d : Dev) (n : Nat) (f : Group → Group) : (d.modGroup n f).flash = d.flash := rfl
@[simp] theorem Dev.modGroup_dike (d : Dev) (n : Nat) (f : Group → Group) : (d.modGroup n f).dike = d.dike := rfl
@[simp] theorem Dev.modGroup_havens (d : Dev) (n : Nat) (f : Group → Group) : (d.modGroup n f).havens = d.havens := rfl
@[simp] theorem Dev.modGroup_jobs (d : Dev) (n : Nat) (f : Group → Group) : (d.modGroup n f).jobs = d.jobs := rfl
@[simp] theorem Dev.modGroup_trust (d : Dev) (n : Nat) (f : Group → Group) : (d.modGroup n f).trust = d.trust := rfl
@[simp] theorem Dev.modGroup_life (d : Dev) (n : Nat) (f : Group → Group) : (d.modGroup n f).life = d.life := rfl
@[simp] theorem Dev.modGroup_power (d : Dev) (n : Nat) (f : Group → Group) : (d.modGroup n f).power = d.power := rfl
@[simp] theorem Dev.modGroup_errors (d : Dev) (n : Nat) (f : Group → Group) : (d.modGroup n f).errors = d.errors := rfl
@[simp] theorem Dev.modGroup_mgmt (d : Dev) (n : Nat) (f : Group → Group) : (d.modGroup n f).mgmt = d.mgmt := rfl
@[simp] theorem Dev.modGroup_held (d : Dev) (n : Nat) (f : Group → Group) : (d.modGroup n f).held = d.held := rfl
@[simp] theorem Dev.modGroup_drains (d : Dev) (n : Nat) (f : Group → Group) : (d.modGroup n f).drains = d.drains := rfl
@[simp] theorem Dev.modGroup_lost (d : Dev) (n : Nat) (f : Group → Group) : (d.modGroup n f).lost = d.lost := rfl
@[simp] theorem Dev.modGroup_stageQueue (d : Dev) (n : Nat) (f : Group → Group) : (d.modGroup n f).stageQueue = d.stageQueue := rfl
@[simp] theorem Dev.modGroup_out (d : Dev) (n : Nat) (f : Group → Group) : (d.modGroup n f).out = d.out := rfl

/-! #### modHaven -/

@[simp] theorem Dev.modHaven_sys (d : Dev) (n : Nat) (f : Haven → Haven) : (d.modHaven n f).sys = d.sys := rfl
@[simp] theorem Dev.modHaven_fns (d : Dev) (n : Nat) (f : Haven → Haven) : (d.modHaven n f).fns = d.fns := rfl
@[simp] theorem Dev.modHaven_queues (d : Dev) (n : Nat) (f : Haven → Haven) : (d.modHaven n f).queues = d.queues := rfl
@[simp] theorem Dev.modHaven_ctxs (d : Dev) (n : Nat) (f : Haven → Haven) : (d.modHaven n f).ctxs = d.ctxs := rfl
@[simp] theorem Dev.modHaven_maps (d : Dev) (n : Nat) (f : Haven → Haven) : (d.modHaven n f).maps = d.maps := rfl
@[simp] theorem Dev.modHaven_fences (d : Dev) (n : Nat) (f : Haven → Haven) : (d.modHaven n f).fences = d.fences := rfl
@[simp] theorem Dev.modHaven_tide (d : Dev) (n : Nat) (f : Haven → Haven) : (d.modHaven n f).tide = d.tide := rfl
@[simp] theorem Dev.modHaven_tiles (d : Dev) (n : Nat) (f : Haven → Haven) : (d.modHaven n f).tiles = d.tiles := rfl
@[simp] theorem Dev.modHaven_seams (d : Dev) (n : Nat) (f : Haven → Haven) : (d.modHaven n f).seams = d.seams := rfl
@[simp] theorem Dev.modHaven_arbs (d : Dev) (n : Nat) (f : Haven → Haven) : (d.modHaven n f).arbs = d.arbs := rfl
@[simp] theorem Dev.modHaven_meshThresh (d : Dev) (n : Nat) (f : Haven → Haven) : (d.modHaven n f).meshThresh = d.meshThresh := rfl
@[simp] theorem Dev.modHaven_meshStarve (d : Dev) (n : Nat) (f : Haven → Haven) : (d.modHaven n f).meshStarve = d.meshStarve := rfl
@[simp] theorem Dev.modHaven_meshTurns (d : Dev) (n : Nat) (f : Haven → Haven) : (d.modHaven n f).meshTurns = d.meshTurns := rfl
@[simp] theorem Dev.modHaven_hubs (d : Dev) (n : Nat) (f : Haven → Haven) : (d.modHaven n f).hubs = d.hubs := rfl
@[simp] theorem Dev.modHaven_regions (d : Dev) (n : Nat) (f : Haven → Haven) : (d.modHaven n f).regions = d.regions := rfl
@[simp] theorem Dev.modHaven_counters (d : Dev) (n : Nat) (f : Haven → Haven) : (d.modHaven n f).counters = d.counters := rfl
@[simp] theorem Dev.modHaven_nodes (d : Dev) (n : Nat) (f : Haven → Haven) : (d.modHaven n f).nodes = d.nodes := rfl
@[simp] theorem Dev.modHaven_keys (d : Dev) (n : Nat) (f : Haven → Haven) : (d.modHaven n f).keys = d.keys := rfl
@[simp] theorem Dev.modHaven_badLines (d : Dev) (n : Nat) (f : Haven → Haven) : (d.modHaven n f).badLines = d.badLines := rfl
@[simp] theorem Dev.modHaven_scales (d : Dev) (n : Nat) (f : Haven → Haven) : (d.modHaven n f).scales = d.scales := rfl
@[simp] theorem Dev.modHaven_groups (d : Dev) (n : Nat) (f : Haven → Haven) : (d.modHaven n f).groups = d.groups := rfl
@[simp] theorem Dev.modHaven_mem (d : Dev) (n : Nat) (f : Haven → Haven) : (d.modHaven n f).mem = d.mem := rfl
@[simp] theorem Dev.modHaven_plans (d : Dev) (n : Nat) (f : Haven → Haven) : (d.modHaven n f).plans = d.plans := rfl
@[simp] theorem Dev.modHaven_loads (d : Dev) (n : Nat) (f : Haven → Haven) : (d.modHaven n f).loads = d.loads := rfl
@[simp] theorem Dev.modHaven_spareCores (d : Dev) (n : Nat) (f : Haven → Haven) : (d.modHaven n f).spareCores = d.spareCores := rfl
@[simp] theorem Dev.modHaven_coresDown (d : Dev) (n : Nat) (f : Haven → Haven) : (d.modHaven n f).coresDown = d.coresDown := rfl
@[simp] theorem Dev.modHaven_runCmds (d : Dev) (n : Nat) (f : Haven → Haven) : (d.modHaven n f).runCmds = d.runCmds := rfl
@[simp] theorem Dev.modHaven_runs (d : Dev) (n : Nat) (f : Haven → Haven) : (d.modHaven n f).runs = d.runs := rfl
@[simp] theorem Dev.modHaven_nextRun (d : Dev) (n : Nat) (f : Haven → Haven) : (d.modHaven n f).nextRun = d.nextRun := rfl
@[simp] theorem Dev.modHaven_extents (d : Dev) (n : Nat) (f : Haven → Haven) : (d.modHaven n f).extents = d.extents := rfl
@[simp] theorem Dev.modHaven_flash (d : Dev) (n : Nat) (f : Haven → Haven) : (d.modHaven n f).flash = d.flash := rfl
@[simp] theorem Dev.modHaven_fabric (d : Dev) (n : Nat) (f : Haven → Haven) : (d.modHaven n f).fabric = d.fabric := rfl
@[simp] theorem Dev.modHaven_dike (d : Dev) (n : Nat) (f : Haven → Haven) : (d.modHaven n f).dike = d.dike := rfl
@[simp] theorem Dev.modHaven_jobs (d : Dev) (n : Nat) (f : Haven → Haven) : (d.modHaven n f).jobs = d.jobs := rfl
@[simp] theorem Dev.modHaven_trust (d : Dev) (n : Nat) (f : Haven → Haven) : (d.modHaven n f).trust = d.trust := rfl
@[simp] theorem Dev.modHaven_life (d : Dev) (n : Nat) (f : Haven → Haven) : (d.modHaven n f).life = d.life := rfl
@[simp] theorem Dev.modHaven_power (d : Dev) (n : Nat) (f : Haven → Haven) : (d.modHaven n f).power = d.power := rfl
@[simp] theorem Dev.modHaven_errors (d : Dev) (n : Nat) (f : Haven → Haven) : (d.modHaven n f).errors = d.errors := rfl
@[simp] theorem Dev.modHaven_mgmt (d : Dev) (n : Nat) (f : Haven → Haven) : (d.modHaven n f).mgmt = d.mgmt := rfl
@[simp] theorem Dev.modHaven_held (d : Dev) (n : Nat) (f : Haven → Haven) : (d.modHaven n f).held = d.held := rfl
@[simp] theorem Dev.modHaven_drains (d : Dev) (n : Nat) (f : Haven → Haven) : (d.modHaven n f).drains = d.drains := rfl
@[simp] theorem Dev.modHaven_lost (d : Dev) (n : Nat) (f : Haven → Haven) : (d.modHaven n f).lost = d.lost := rfl
@[simp] theorem Dev.modHaven_stageQueue (d : Dev) (n : Nat) (f : Haven → Haven) : (d.modHaven n f).stageQueue = d.stageQueue := rfl
@[simp] theorem Dev.modHaven_out (d : Dev) (n : Nat) (f : Haven → Haven) : (d.modHaven n f).out = d.out := rfl

/-! #### modJob -/

@[simp] theorem Dev.modJob_sys (d : Dev) (n : Nat) (f : Job → Job) : (d.modJob n f).sys = d.sys := rfl
@[simp] theorem Dev.modJob_fns (d : Dev) (n : Nat) (f : Job → Job) : (d.modJob n f).fns = d.fns := rfl
@[simp] theorem Dev.modJob_queues (d : Dev) (n : Nat) (f : Job → Job) : (d.modJob n f).queues = d.queues := rfl
@[simp] theorem Dev.modJob_ctxs (d : Dev) (n : Nat) (f : Job → Job) : (d.modJob n f).ctxs = d.ctxs := rfl
@[simp] theorem Dev.modJob_maps (d : Dev) (n : Nat) (f : Job → Job) : (d.modJob n f).maps = d.maps := rfl
@[simp] theorem Dev.modJob_fences (d : Dev) (n : Nat) (f : Job → Job) : (d.modJob n f).fences = d.fences := rfl
@[simp] theorem Dev.modJob_tide (d : Dev) (n : Nat) (f : Job → Job) : (d.modJob n f).tide = d.tide := rfl
@[simp] theorem Dev.modJob_tiles (d : Dev) (n : Nat) (f : Job → Job) : (d.modJob n f).tiles = d.tiles := rfl
@[simp] theorem Dev.modJob_seams (d : Dev) (n : Nat) (f : Job → Job) : (d.modJob n f).seams = d.seams := rfl
@[simp] theorem Dev.modJob_arbs (d : Dev) (n : Nat) (f : Job → Job) : (d.modJob n f).arbs = d.arbs := rfl
@[simp] theorem Dev.modJob_meshThresh (d : Dev) (n : Nat) (f : Job → Job) : (d.modJob n f).meshThresh = d.meshThresh := rfl
@[simp] theorem Dev.modJob_meshStarve (d : Dev) (n : Nat) (f : Job → Job) : (d.modJob n f).meshStarve = d.meshStarve := rfl
@[simp] theorem Dev.modJob_meshTurns (d : Dev) (n : Nat) (f : Job → Job) : (d.modJob n f).meshTurns = d.meshTurns := rfl
@[simp] theorem Dev.modJob_hubs (d : Dev) (n : Nat) (f : Job → Job) : (d.modJob n f).hubs = d.hubs := rfl
@[simp] theorem Dev.modJob_regions (d : Dev) (n : Nat) (f : Job → Job) : (d.modJob n f).regions = d.regions := rfl
@[simp] theorem Dev.modJob_counters (d : Dev) (n : Nat) (f : Job → Job) : (d.modJob n f).counters = d.counters := rfl
@[simp] theorem Dev.modJob_nodes (d : Dev) (n : Nat) (f : Job → Job) : (d.modJob n f).nodes = d.nodes := rfl
@[simp] theorem Dev.modJob_keys (d : Dev) (n : Nat) (f : Job → Job) : (d.modJob n f).keys = d.keys := rfl
@[simp] theorem Dev.modJob_badLines (d : Dev) (n : Nat) (f : Job → Job) : (d.modJob n f).badLines = d.badLines := rfl
@[simp] theorem Dev.modJob_scales (d : Dev) (n : Nat) (f : Job → Job) : (d.modJob n f).scales = d.scales := rfl
@[simp] theorem Dev.modJob_groups (d : Dev) (n : Nat) (f : Job → Job) : (d.modJob n f).groups = d.groups := rfl
@[simp] theorem Dev.modJob_mem (d : Dev) (n : Nat) (f : Job → Job) : (d.modJob n f).mem = d.mem := rfl
@[simp] theorem Dev.modJob_plans (d : Dev) (n : Nat) (f : Job → Job) : (d.modJob n f).plans = d.plans := rfl
@[simp] theorem Dev.modJob_loads (d : Dev) (n : Nat) (f : Job → Job) : (d.modJob n f).loads = d.loads := rfl
@[simp] theorem Dev.modJob_spareCores (d : Dev) (n : Nat) (f : Job → Job) : (d.modJob n f).spareCores = d.spareCores := rfl
@[simp] theorem Dev.modJob_coresDown (d : Dev) (n : Nat) (f : Job → Job) : (d.modJob n f).coresDown = d.coresDown := rfl
@[simp] theorem Dev.modJob_runCmds (d : Dev) (n : Nat) (f : Job → Job) : (d.modJob n f).runCmds = d.runCmds := rfl
@[simp] theorem Dev.modJob_runs (d : Dev) (n : Nat) (f : Job → Job) : (d.modJob n f).runs = d.runs := rfl
@[simp] theorem Dev.modJob_nextRun (d : Dev) (n : Nat) (f : Job → Job) : (d.modJob n f).nextRun = d.nextRun := rfl
@[simp] theorem Dev.modJob_extents (d : Dev) (n : Nat) (f : Job → Job) : (d.modJob n f).extents = d.extents := rfl
@[simp] theorem Dev.modJob_flash (d : Dev) (n : Nat) (f : Job → Job) : (d.modJob n f).flash = d.flash := rfl
@[simp] theorem Dev.modJob_fabric (d : Dev) (n : Nat) (f : Job → Job) : (d.modJob n f).fabric = d.fabric := rfl
@[simp] theorem Dev.modJob_dike (d : Dev) (n : Nat) (f : Job → Job) : (d.modJob n f).dike = d.dike := rfl
@[simp] theorem Dev.modJob_havens (d : Dev) (n : Nat) (f : Job → Job) : (d.modJob n f).havens = d.havens := rfl
@[simp] theorem Dev.modJob_trust (d : Dev) (n : Nat) (f : Job → Job) : (d.modJob n f).trust = d.trust := rfl
@[simp] theorem Dev.modJob_life (d : Dev) (n : Nat) (f : Job → Job) : (d.modJob n f).life = d.life := rfl
@[simp] theorem Dev.modJob_power (d : Dev) (n : Nat) (f : Job → Job) : (d.modJob n f).power = d.power := rfl
@[simp] theorem Dev.modJob_errors (d : Dev) (n : Nat) (f : Job → Job) : (d.modJob n f).errors = d.errors := rfl
@[simp] theorem Dev.modJob_mgmt (d : Dev) (n : Nat) (f : Job → Job) : (d.modJob n f).mgmt = d.mgmt := rfl
@[simp] theorem Dev.modJob_held (d : Dev) (n : Nat) (f : Job → Job) : (d.modJob n f).held = d.held := rfl
@[simp] theorem Dev.modJob_drains (d : Dev) (n : Nat) (f : Job → Job) : (d.modJob n f).drains = d.drains := rfl
@[simp] theorem Dev.modJob_lost (d : Dev) (n : Nat) (f : Job → Job) : (d.modJob n f).lost = d.lost := rfl
@[simp] theorem Dev.modJob_stageQueue (d : Dev) (n : Nat) (f : Job → Job) : (d.modJob n f).stageQueue = d.stageQueue := rfl
@[simp] theorem Dev.modJob_out (d : Dev) (n : Nat) (f : Job → Job) : (d.modJob n f).out = d.out := rfl

/-! #### modTrust -/

@[simp] theorem Dev.modTrust_sys (d : Dev) (f : Trust → Trust) : (d.modTrust f).sys = d.sys := rfl
@[simp] theorem Dev.modTrust_fns (d : Dev) (f : Trust → Trust) : (d.modTrust f).fns = d.fns := rfl
@[simp] theorem Dev.modTrust_queues (d : Dev) (f : Trust → Trust) : (d.modTrust f).queues = d.queues := rfl
@[simp] theorem Dev.modTrust_ctxs (d : Dev) (f : Trust → Trust) : (d.modTrust f).ctxs = d.ctxs := rfl
@[simp] theorem Dev.modTrust_maps (d : Dev) (f : Trust → Trust) : (d.modTrust f).maps = d.maps := rfl
@[simp] theorem Dev.modTrust_fences (d : Dev) (f : Trust → Trust) : (d.modTrust f).fences = d.fences := rfl
@[simp] theorem Dev.modTrust_tide (d : Dev) (f : Trust → Trust) : (d.modTrust f).tide = d.tide := rfl
@[simp] theorem Dev.modTrust_tiles (d : Dev) (f : Trust → Trust) : (d.modTrust f).tiles = d.tiles := rfl
@[simp] theorem Dev.modTrust_seams (d : Dev) (f : Trust → Trust) : (d.modTrust f).seams = d.seams := rfl
@[simp] theorem Dev.modTrust_arbs (d : Dev) (f : Trust → Trust) : (d.modTrust f).arbs = d.arbs := rfl
@[simp] theorem Dev.modTrust_meshThresh (d : Dev) (f : Trust → Trust) : (d.modTrust f).meshThresh = d.meshThresh := rfl
@[simp] theorem Dev.modTrust_meshStarve (d : Dev) (f : Trust → Trust) : (d.modTrust f).meshStarve = d.meshStarve := rfl
@[simp] theorem Dev.modTrust_meshTurns (d : Dev) (f : Trust → Trust) : (d.modTrust f).meshTurns = d.meshTurns := rfl
@[simp] theorem Dev.modTrust_hubs (d : Dev) (f : Trust → Trust) : (d.modTrust f).hubs = d.hubs := rfl
@[simp] theorem Dev.modTrust_regions (d : Dev) (f : Trust → Trust) : (d.modTrust f).regions = d.regions := rfl
@[simp] theorem Dev.modTrust_counters (d : Dev) (f : Trust → Trust) : (d.modTrust f).counters = d.counters := rfl
@[simp] theorem Dev.modTrust_nodes (d : Dev) (f : Trust → Trust) : (d.modTrust f).nodes = d.nodes := rfl
@[simp] theorem Dev.modTrust_keys (d : Dev) (f : Trust → Trust) : (d.modTrust f).keys = d.keys := rfl
@[simp] theorem Dev.modTrust_badLines (d : Dev) (f : Trust → Trust) : (d.modTrust f).badLines = d.badLines := rfl
@[simp] theorem Dev.modTrust_scales (d : Dev) (f : Trust → Trust) : (d.modTrust f).scales = d.scales := rfl
@[simp] theorem Dev.modTrust_groups (d : Dev) (f : Trust → Trust) : (d.modTrust f).groups = d.groups := rfl
@[simp] theorem Dev.modTrust_mem (d : Dev) (f : Trust → Trust) : (d.modTrust f).mem = d.mem := rfl
@[simp] theorem Dev.modTrust_plans (d : Dev) (f : Trust → Trust) : (d.modTrust f).plans = d.plans := rfl
@[simp] theorem Dev.modTrust_loads (d : Dev) (f : Trust → Trust) : (d.modTrust f).loads = d.loads := rfl
@[simp] theorem Dev.modTrust_spareCores (d : Dev) (f : Trust → Trust) : (d.modTrust f).spareCores = d.spareCores := rfl
@[simp] theorem Dev.modTrust_coresDown (d : Dev) (f : Trust → Trust) : (d.modTrust f).coresDown = d.coresDown := rfl
@[simp] theorem Dev.modTrust_runCmds (d : Dev) (f : Trust → Trust) : (d.modTrust f).runCmds = d.runCmds := rfl
@[simp] theorem Dev.modTrust_runs (d : Dev) (f : Trust → Trust) : (d.modTrust f).runs = d.runs := rfl
@[simp] theorem Dev.modTrust_nextRun (d : Dev) (f : Trust → Trust) : (d.modTrust f).nextRun = d.nextRun := rfl
@[simp] theorem Dev.modTrust_extents (d : Dev) (f : Trust → Trust) : (d.modTrust f).extents = d.extents := rfl
@[simp] theorem Dev.modTrust_flash (d : Dev) (f : Trust → Trust) : (d.modTrust f).flash = d.flash := rfl
@[simp] theorem Dev.modTrust_fabric (d : Dev) (f : Trust → Trust) : (d.modTrust f).fabric = d.fabric := rfl
@[simp] theorem Dev.modTrust_dike (d : Dev) (f : Trust → Trust) : (d.modTrust f).dike = d.dike := rfl
@[simp] theorem Dev.modTrust_havens (d : Dev) (f : Trust → Trust) : (d.modTrust f).havens = d.havens := rfl
@[simp] theorem Dev.modTrust_jobs (d : Dev) (f : Trust → Trust) : (d.modTrust f).jobs = d.jobs := rfl
@[simp] theorem Dev.modTrust_life (d : Dev) (f : Trust → Trust) : (d.modTrust f).life = d.life := rfl
@[simp] theorem Dev.modTrust_power (d : Dev) (f : Trust → Trust) : (d.modTrust f).power = d.power := rfl
@[simp] theorem Dev.modTrust_errors (d : Dev) (f : Trust → Trust) : (d.modTrust f).errors = d.errors := rfl
@[simp] theorem Dev.modTrust_mgmt (d : Dev) (f : Trust → Trust) : (d.modTrust f).mgmt = d.mgmt := rfl
@[simp] theorem Dev.modTrust_held (d : Dev) (f : Trust → Trust) : (d.modTrust f).held = d.held := rfl
@[simp] theorem Dev.modTrust_drains (d : Dev) (f : Trust → Trust) : (d.modTrust f).drains = d.drains := rfl
@[simp] theorem Dev.modTrust_lost (d : Dev) (f : Trust → Trust) : (d.modTrust f).lost = d.lost := rfl
@[simp] theorem Dev.modTrust_stageQueue (d : Dev) (f : Trust → Trust) : (d.modTrust f).stageQueue = d.stageQueue := rfl
@[simp] theorem Dev.modTrust_out (d : Dev) (f : Trust → Trust) : (d.modTrust f).out = d.out := rfl

/-! #### modCharter -/

@[simp] theorem Dev.modCharter_sys (d : Dev) (n : Nat) (f : Charter → Charter) : (d.modCharter n f).sys = d.sys := rfl
@[simp] theorem Dev.modCharter_fns (d : Dev) (n : Nat) (f : Charter → Charter) : (d.modCharter n f).fns = d.fns := rfl
@[simp] theorem Dev.modCharter_queues (d : Dev) (n : Nat) (f : Charter → Charter) : (d.modCharter n f).queues = d.queues := rfl
@[simp] theorem Dev.modCharter_ctxs (d : Dev) (n : Nat) (f : Charter → Charter) : (d.modCharter n f).ctxs = d.ctxs := rfl
@[simp] theorem Dev.modCharter_maps (d : Dev) (n : Nat) (f : Charter → Charter) : (d.modCharter n f).maps = d.maps := rfl
@[simp] theorem Dev.modCharter_fences (d : Dev) (n : Nat) (f : Charter → Charter) : (d.modCharter n f).fences = d.fences := rfl
@[simp] theorem Dev.modCharter_tide (d : Dev) (n : Nat) (f : Charter → Charter) : (d.modCharter n f).tide = d.tide := rfl
@[simp] theorem Dev.modCharter_tiles (d : Dev) (n : Nat) (f : Charter → Charter) : (d.modCharter n f).tiles = d.tiles := rfl
@[simp] theorem Dev.modCharter_seams (d : Dev) (n : Nat) (f : Charter → Charter) : (d.modCharter n f).seams = d.seams := rfl
@[simp] theorem Dev.modCharter_arbs (d : Dev) (n : Nat) (f : Charter → Charter) : (d.modCharter n f).arbs = d.arbs := rfl
@[simp] theorem Dev.modCharter_meshThresh (d : Dev) (n : Nat) (f : Charter → Charter) : (d.modCharter n f).meshThresh = d.meshThresh := rfl
@[simp] theorem Dev.modCharter_meshStarve (d : Dev) (n : Nat) (f : Charter → Charter) : (d.modCharter n f).meshStarve = d.meshStarve := rfl
@[simp] theorem Dev.modCharter_meshTurns (d : Dev) (n : Nat) (f : Charter → Charter) : (d.modCharter n f).meshTurns = d.meshTurns := rfl
@[simp] theorem Dev.modCharter_hubs (d : Dev) (n : Nat) (f : Charter → Charter) : (d.modCharter n f).hubs = d.hubs := rfl
@[simp] theorem Dev.modCharter_regions (d : Dev) (n : Nat) (f : Charter → Charter) : (d.modCharter n f).regions = d.regions := rfl
@[simp] theorem Dev.modCharter_counters (d : Dev) (n : Nat) (f : Charter → Charter) : (d.modCharter n f).counters = d.counters := rfl
@[simp] theorem Dev.modCharter_nodes (d : Dev) (n : Nat) (f : Charter → Charter) : (d.modCharter n f).nodes = d.nodes := rfl
@[simp] theorem Dev.modCharter_keys (d : Dev) (n : Nat) (f : Charter → Charter) : (d.modCharter n f).keys = d.keys := rfl
@[simp] theorem Dev.modCharter_badLines (d : Dev) (n : Nat) (f : Charter → Charter) : (d.modCharter n f).badLines = d.badLines := rfl
@[simp] theorem Dev.modCharter_scales (d : Dev) (n : Nat) (f : Charter → Charter) : (d.modCharter n f).scales = d.scales := rfl
@[simp] theorem Dev.modCharter_groups (d : Dev) (n : Nat) (f : Charter → Charter) : (d.modCharter n f).groups = d.groups := rfl
@[simp] theorem Dev.modCharter_mem (d : Dev) (n : Nat) (f : Charter → Charter) : (d.modCharter n f).mem = d.mem := rfl
@[simp] theorem Dev.modCharter_plans (d : Dev) (n : Nat) (f : Charter → Charter) : (d.modCharter n f).plans = d.plans := rfl
@[simp] theorem Dev.modCharter_loads (d : Dev) (n : Nat) (f : Charter → Charter) : (d.modCharter n f).loads = d.loads := rfl
@[simp] theorem Dev.modCharter_spareCores (d : Dev) (n : Nat) (f : Charter → Charter) : (d.modCharter n f).spareCores = d.spareCores := rfl
@[simp] theorem Dev.modCharter_coresDown (d : Dev) (n : Nat) (f : Charter → Charter) : (d.modCharter n f).coresDown = d.coresDown := rfl
@[simp] theorem Dev.modCharter_runCmds (d : Dev) (n : Nat) (f : Charter → Charter) : (d.modCharter n f).runCmds = d.runCmds := rfl
@[simp] theorem Dev.modCharter_runs (d : Dev) (n : Nat) (f : Charter → Charter) : (d.modCharter n f).runs = d.runs := rfl
@[simp] theorem Dev.modCharter_nextRun (d : Dev) (n : Nat) (f : Charter → Charter) : (d.modCharter n f).nextRun = d.nextRun := rfl
@[simp] theorem Dev.modCharter_extents (d : Dev) (n : Nat) (f : Charter → Charter) : (d.modCharter n f).extents = d.extents := rfl
@[simp] theorem Dev.modCharter_flash (d : Dev) (n : Nat) (f : Charter → Charter) : (d.modCharter n f).flash = d.flash := rfl
@[simp] theorem Dev.modCharter_fabric (d : Dev) (n : Nat) (f : Charter → Charter) : (d.modCharter n f).fabric = d.fabric := rfl
@[simp] theorem Dev.modCharter_dike (d : Dev) (n : Nat) (f : Charter → Charter) : (d.modCharter n f).dike = d.dike := rfl
@[simp] theorem Dev.modCharter_havens (d : Dev) (n : Nat) (f : Charter → Charter) : (d.modCharter n f).havens = d.havens := rfl
@[simp] theorem Dev.modCharter_jobs (d : Dev) (n : Nat) (f : Charter → Charter) : (d.modCharter n f).jobs = d.jobs := rfl
@[simp] theorem Dev.modCharter_life (d : Dev) (n : Nat) (f : Charter → Charter) : (d.modCharter n f).life = d.life := rfl
@[simp] theorem Dev.modCharter_power (d : Dev) (n : Nat) (f : Charter → Charter) : (d.modCharter n f).power = d.power := rfl
@[simp] theorem Dev.modCharter_errors (d : Dev) (n : Nat) (f : Charter → Charter) : (d.modCharter n f).errors = d.errors := rfl
@[simp] theorem Dev.modCharter_mgmt (d : Dev) (n : Nat) (f : Charter → Charter) : (d.modCharter n f).mgmt = d.mgmt := rfl
@[simp] theorem Dev.modCharter_held (d : Dev) (n : Nat) (f : Charter → Charter) : (d.modCharter n f).held = d.held := rfl
@[simp] theorem Dev.modCharter_drains (d : Dev) (n : Nat) (f : Charter → Charter) : (d.modCharter n f).drains = d.drains := rfl
@[simp] theorem Dev.modCharter_lost (d : Dev) (n : Nat) (f : Charter → Charter) : (d.modCharter n f).lost = d.lost := rfl
@[simp] theorem Dev.modCharter_stageQueue (d : Dev) (n : Nat) (f : Charter → Charter) : (d.modCharter n f).stageQueue = d.stageQueue := rfl
@[simp] theorem Dev.modCharter_out (d : Dev) (n : Nat) (f : Charter → Charter) : (d.modCharter n f).out = d.out := rfl

/-! #### modSys -/

@[simp] theorem Dev.modSys_fns (d : Dev) (f : Sys → Sys) : (d.modSys f).fns = d.fns := rfl
@[simp] theorem Dev.modSys_queues (d : Dev) (f : Sys → Sys) : (d.modSys f).queues = d.queues := rfl
@[simp] theorem Dev.modSys_ctxs (d : Dev) (f : Sys → Sys) : (d.modSys f).ctxs = d.ctxs := rfl
@[simp] theorem Dev.modSys_maps (d : Dev) (f : Sys → Sys) : (d.modSys f).maps = d.maps := rfl
@[simp] theorem Dev.modSys_fences (d : Dev) (f : Sys → Sys) : (d.modSys f).fences = d.fences := rfl
@[simp] theorem Dev.modSys_tide (d : Dev) (f : Sys → Sys) : (d.modSys f).tide = d.tide := rfl
@[simp] theorem Dev.modSys_tiles (d : Dev) (f : Sys → Sys) : (d.modSys f).tiles = d.tiles := rfl
@[simp] theorem Dev.modSys_seams (d : Dev) (f : Sys → Sys) : (d.modSys f).seams = d.seams := rfl
@[simp] theorem Dev.modSys_arbs (d : Dev) (f : Sys → Sys) : (d.modSys f).arbs = d.arbs := rfl
@[simp] theorem Dev.modSys_meshThresh (d : Dev) (f : Sys → Sys) : (d.modSys f).meshThresh = d.meshThresh := rfl
@[simp] theorem Dev.modSys_meshStarve (d : Dev) (f : Sys → Sys) : (d.modSys f).meshStarve = d.meshStarve := rfl
@[simp] theorem Dev.modSys_meshTurns (d : Dev) (f : Sys → Sys) : (d.modSys f).meshTurns = d.meshTurns := rfl
@[simp] theorem Dev.modSys_hubs (d : Dev) (f : Sys → Sys) : (d.modSys f).hubs = d.hubs := rfl
@[simp] theorem Dev.modSys_regions (d : Dev) (f : Sys → Sys) : (d.modSys f).regions = d.regions := rfl
@[simp] theorem Dev.modSys_counters (d : Dev) (f : Sys → Sys) : (d.modSys f).counters = d.counters := rfl
@[simp] theorem Dev.modSys_nodes (d : Dev) (f : Sys → Sys) : (d.modSys f).nodes = d.nodes := rfl
@[simp] theorem Dev.modSys_keys (d : Dev) (f : Sys → Sys) : (d.modSys f).keys = d.keys := rfl
@[simp] theorem Dev.modSys_badLines (d : Dev) (f : Sys → Sys) : (d.modSys f).badLines = d.badLines := rfl
@[simp] theorem Dev.modSys_scales (d : Dev) (f : Sys → Sys) : (d.modSys f).scales = d.scales := rfl
@[simp] theorem Dev.modSys_groups (d : Dev) (f : Sys → Sys) : (d.modSys f).groups = d.groups := rfl
@[simp] theorem Dev.modSys_mem (d : Dev) (f : Sys → Sys) : (d.modSys f).mem = d.mem := rfl
@[simp] theorem Dev.modSys_plans (d : Dev) (f : Sys → Sys) : (d.modSys f).plans = d.plans := rfl
@[simp] theorem Dev.modSys_loads (d : Dev) (f : Sys → Sys) : (d.modSys f).loads = d.loads := rfl
@[simp] theorem Dev.modSys_spareCores (d : Dev) (f : Sys → Sys) : (d.modSys f).spareCores = d.spareCores := rfl
@[simp] theorem Dev.modSys_coresDown (d : Dev) (f : Sys → Sys) : (d.modSys f).coresDown = d.coresDown := rfl
@[simp] theorem Dev.modSys_runCmds (d : Dev) (f : Sys → Sys) : (d.modSys f).runCmds = d.runCmds := rfl
@[simp] theorem Dev.modSys_runs (d : Dev) (f : Sys → Sys) : (d.modSys f).runs = d.runs := rfl
@[simp] theorem Dev.modSys_nextRun (d : Dev) (f : Sys → Sys) : (d.modSys f).nextRun = d.nextRun := rfl
@[simp] theorem Dev.modSys_extents (d : Dev) (f : Sys → Sys) : (d.modSys f).extents = d.extents := rfl
@[simp] theorem Dev.modSys_flash (d : Dev) (f : Sys → Sys) : (d.modSys f).flash = d.flash := rfl
@[simp] theorem Dev.modSys_fabric (d : Dev) (f : Sys → Sys) : (d.modSys f).fabric = d.fabric := rfl
@[simp] theorem Dev.modSys_dike (d : Dev) (f : Sys → Sys) : (d.modSys f).dike = d.dike := rfl
@[simp] theorem Dev.modSys_havens (d : Dev) (f : Sys → Sys) : (d.modSys f).havens = d.havens := rfl
@[simp] theorem Dev.modSys_jobs (d : Dev) (f : Sys → Sys) : (d.modSys f).jobs = d.jobs := rfl
@[simp] theorem Dev.modSys_trust (d : Dev) (f : Sys → Sys) : (d.modSys f).trust = d.trust := rfl
@[simp] theorem Dev.modSys_life (d : Dev) (f : Sys → Sys) : (d.modSys f).life = d.life := rfl
@[simp] theorem Dev.modSys_power (d : Dev) (f : Sys → Sys) : (d.modSys f).power = d.power := rfl
@[simp] theorem Dev.modSys_errors (d : Dev) (f : Sys → Sys) : (d.modSys f).errors = d.errors := rfl
@[simp] theorem Dev.modSys_mgmt (d : Dev) (f : Sys → Sys) : (d.modSys f).mgmt = d.mgmt := rfl
@[simp] theorem Dev.modSys_held (d : Dev) (f : Sys → Sys) : (d.modSys f).held = d.held := rfl
@[simp] theorem Dev.modSys_drains (d : Dev) (f : Sys → Sys) : (d.modSys f).drains = d.drains := rfl
@[simp] theorem Dev.modSys_lost (d : Dev) (f : Sys → Sys) : (d.modSys f).lost = d.lost := rfl
@[simp] theorem Dev.modSys_stageQueue (d : Dev) (f : Sys → Sys) : (d.modSys f).stageQueue = d.stageQueue := rfl
@[simp] theorem Dev.modSys_out (d : Dev) (f : Sys → Sys) : (d.modSys f).out = d.out := rfl

/-! #### modTide -/

@[simp] theorem Dev.modTide_sys (d : Dev) (f : Tide → Tide) : (d.modTide f).sys = d.sys := rfl
@[simp] theorem Dev.modTide_fns (d : Dev) (f : Tide → Tide) : (d.modTide f).fns = d.fns := rfl
@[simp] theorem Dev.modTide_queues (d : Dev) (f : Tide → Tide) : (d.modTide f).queues = d.queues := rfl
@[simp] theorem Dev.modTide_ctxs (d : Dev) (f : Tide → Tide) : (d.modTide f).ctxs = d.ctxs := rfl
@[simp] theorem Dev.modTide_maps (d : Dev) (f : Tide → Tide) : (d.modTide f).maps = d.maps := rfl
@[simp] theorem Dev.modTide_fences (d : Dev) (f : Tide → Tide) : (d.modTide f).fences = d.fences := rfl
@[simp] theorem Dev.modTide_tiles (d : Dev) (f : Tide → Tide) : (d.modTide f).tiles = d.tiles := rfl
@[simp] theorem Dev.modTide_seams (d : Dev) (f : Tide → Tide) : (d.modTide f).seams = d.seams := rfl
@[simp] theorem Dev.modTide_arbs (d : Dev) (f : Tide → Tide) : (d.modTide f).arbs = d.arbs := rfl
@[simp] theorem Dev.modTide_meshThresh (d : Dev) (f : Tide → Tide) : (d.modTide f).meshThresh = d.meshThresh := rfl
@[simp] theorem Dev.modTide_meshStarve (d : Dev) (f : Tide → Tide) : (d.modTide f).meshStarve = d.meshStarve := rfl
@[simp] theorem Dev.modTide_meshTurns (d : Dev) (f : Tide → Tide) : (d.modTide f).meshTurns = d.meshTurns := rfl
@[simp] theorem Dev.modTide_hubs (d : Dev) (f : Tide → Tide) : (d.modTide f).hubs = d.hubs := rfl
@[simp] theorem Dev.modTide_regions (d : Dev) (f : Tide → Tide) : (d.modTide f).regions = d.regions := rfl
@[simp] theorem Dev.modTide_counters (d : Dev) (f : Tide → Tide) : (d.modTide f).counters = d.counters := rfl
@[simp] theorem Dev.modTide_nodes (d : Dev) (f : Tide → Tide) : (d.modTide f).nodes = d.nodes := rfl
@[simp] theorem Dev.modTide_keys (d : Dev) (f : Tide → Tide) : (d.modTide f).keys = d.keys := rfl
@[simp] theorem Dev.modTide_badLines (d : Dev) (f : Tide → Tide) : (d.modTide f).badLines = d.badLines := rfl
@[simp] theorem Dev.modTide_scales (d : Dev) (f : Tide → Tide) : (d.modTide f).scales = d.scales := rfl
@[simp] theorem Dev.modTide_groups (d : Dev) (f : Tide → Tide) : (d.modTide f).groups = d.groups := rfl
@[simp] theorem Dev.modTide_mem (d : Dev) (f : Tide → Tide) : (d.modTide f).mem = d.mem := rfl
@[simp] theorem Dev.modTide_plans (d : Dev) (f : Tide → Tide) : (d.modTide f).plans = d.plans := rfl
@[simp] theorem Dev.modTide_loads (d : Dev) (f : Tide → Tide) : (d.modTide f).loads = d.loads := rfl
@[simp] theorem Dev.modTide_spareCores (d : Dev) (f : Tide → Tide) : (d.modTide f).spareCores = d.spareCores := rfl
@[simp] theorem Dev.modTide_coresDown (d : Dev) (f : Tide → Tide) : (d.modTide f).coresDown = d.coresDown := rfl
@[simp] theorem Dev.modTide_runCmds (d : Dev) (f : Tide → Tide) : (d.modTide f).runCmds = d.runCmds := rfl
@[simp] theorem Dev.modTide_runs (d : Dev) (f : Tide → Tide) : (d.modTide f).runs = d.runs := rfl
@[simp] theorem Dev.modTide_nextRun (d : Dev) (f : Tide → Tide) : (d.modTide f).nextRun = d.nextRun := rfl
@[simp] theorem Dev.modTide_extents (d : Dev) (f : Tide → Tide) : (d.modTide f).extents = d.extents := rfl
@[simp] theorem Dev.modTide_flash (d : Dev) (f : Tide → Tide) : (d.modTide f).flash = d.flash := rfl
@[simp] theorem Dev.modTide_fabric (d : Dev) (f : Tide → Tide) : (d.modTide f).fabric = d.fabric := rfl
@[simp] theorem Dev.modTide_dike (d : Dev) (f : Tide → Tide) : (d.modTide f).dike = d.dike := rfl
@[simp] theorem Dev.modTide_havens (d : Dev) (f : Tide → Tide) : (d.modTide f).havens = d.havens := rfl
@[simp] theorem Dev.modTide_jobs (d : Dev) (f : Tide → Tide) : (d.modTide f).jobs = d.jobs := rfl
@[simp] theorem Dev.modTide_trust (d : Dev) (f : Tide → Tide) : (d.modTide f).trust = d.trust := rfl
@[simp] theorem Dev.modTide_life (d : Dev) (f : Tide → Tide) : (d.modTide f).life = d.life := rfl
@[simp] theorem Dev.modTide_power (d : Dev) (f : Tide → Tide) : (d.modTide f).power = d.power := rfl
@[simp] theorem Dev.modTide_errors (d : Dev) (f : Tide → Tide) : (d.modTide f).errors = d.errors := rfl
@[simp] theorem Dev.modTide_mgmt (d : Dev) (f : Tide → Tide) : (d.modTide f).mgmt = d.mgmt := rfl
@[simp] theorem Dev.modTide_held (d : Dev) (f : Tide → Tide) : (d.modTide f).held = d.held := rfl
@[simp] theorem Dev.modTide_drains (d : Dev) (f : Tide → Tide) : (d.modTide f).drains = d.drains := rfl
@[simp] theorem Dev.modTide_lost (d : Dev) (f : Tide → Tide) : (d.modTide f).lost = d.lost := rfl
@[simp] theorem Dev.modTide_stageQueue (d : Dev) (f : Tide → Tide) : (d.modTide f).stageQueue = d.stageQueue := rfl
@[simp] theorem Dev.modTide_out (d : Dev) (f : Tide → Tide) : (d.modTide f).out = d.out := rfl

/-! #### modDike -/

@[simp] theorem Dev.modDike_sys (d : Dev) (f : Dikewatch → Dikewatch) : (d.modDike f).sys = d.sys := rfl
@[simp] theorem Dev.modDike_fns (d : Dev) (f : Dikewatch → Dikewatch) : (d.modDike f).fns = d.fns := rfl
@[simp] theorem Dev.modDike_queues (d : Dev) (f : Dikewatch → Dikewatch) : (d.modDike f).queues = d.queues := rfl
@[simp] theorem Dev.modDike_ctxs (d : Dev) (f : Dikewatch → Dikewatch) : (d.modDike f).ctxs = d.ctxs := rfl
@[simp] theorem Dev.modDike_maps (d : Dev) (f : Dikewatch → Dikewatch) : (d.modDike f).maps = d.maps := rfl
@[simp] theorem Dev.modDike_fences (d : Dev) (f : Dikewatch → Dikewatch) : (d.modDike f).fences = d.fences := rfl
@[simp] theorem Dev.modDike_tide (d : Dev) (f : Dikewatch → Dikewatch) : (d.modDike f).tide = d.tide := rfl
@[simp] theorem Dev.modDike_tiles (d : Dev) (f : Dikewatch → Dikewatch) : (d.modDike f).tiles = d.tiles := rfl
@[simp] theorem Dev.modDike_seams (d : Dev) (f : Dikewatch → Dikewatch) : (d.modDike f).seams = d.seams := rfl
@[simp] theorem Dev.modDike_arbs (d : Dev) (f : Dikewatch → Dikewatch) : (d.modDike f).arbs = d.arbs := rfl
@[simp] theorem Dev.modDike_meshThresh (d : Dev) (f : Dikewatch → Dikewatch) : (d.modDike f).meshThresh = d.meshThresh := rfl
@[simp] theorem Dev.modDike_meshStarve (d : Dev) (f : Dikewatch → Dikewatch) : (d.modDike f).meshStarve = d.meshStarve := rfl
@[simp] theorem Dev.modDike_meshTurns (d : Dev) (f : Dikewatch → Dikewatch) : (d.modDike f).meshTurns = d.meshTurns := rfl
@[simp] theorem Dev.modDike_hubs (d : Dev) (f : Dikewatch → Dikewatch) : (d.modDike f).hubs = d.hubs := rfl
@[simp] theorem Dev.modDike_regions (d : Dev) (f : Dikewatch → Dikewatch) : (d.modDike f).regions = d.regions := rfl
@[simp] theorem Dev.modDike_counters (d : Dev) (f : Dikewatch → Dikewatch) : (d.modDike f).counters = d.counters := rfl
@[simp] theorem Dev.modDike_nodes (d : Dev) (f : Dikewatch → Dikewatch) : (d.modDike f).nodes = d.nodes := rfl
@[simp] theorem Dev.modDike_keys (d : Dev) (f : Dikewatch → Dikewatch) : (d.modDike f).keys = d.keys := rfl
@[simp] theorem Dev.modDike_badLines (d : Dev) (f : Dikewatch → Dikewatch) : (d.modDike f).badLines = d.badLines := rfl
@[simp] theorem Dev.modDike_scales (d : Dev) (f : Dikewatch → Dikewatch) : (d.modDike f).scales = d.scales := rfl
@[simp] theorem Dev.modDike_groups (d : Dev) (f : Dikewatch → Dikewatch) : (d.modDike f).groups = d.groups := rfl
@[simp] theorem Dev.modDike_mem (d : Dev) (f : Dikewatch → Dikewatch) : (d.modDike f).mem = d.mem := rfl
@[simp] theorem Dev.modDike_plans (d : Dev) (f : Dikewatch → Dikewatch) : (d.modDike f).plans = d.plans := rfl
@[simp] theorem Dev.modDike_loads (d : Dev) (f : Dikewatch → Dikewatch) : (d.modDike f).loads = d.loads := rfl
@[simp] theorem Dev.modDike_spareCores (d : Dev) (f : Dikewatch → Dikewatch) : (d.modDike f).spareCores = d.spareCores := rfl
@[simp] theorem Dev.modDike_coresDown (d : Dev) (f : Dikewatch → Dikewatch) : (d.modDike f).coresDown = d.coresDown := rfl
@[simp] theorem Dev.modDike_runCmds (d : Dev) (f : Dikewatch → Dikewatch) : (d.modDike f).runCmds = d.runCmds := rfl
@[simp] theorem Dev.modDike_runs (d : Dev) (f : Dikewatch → Dikewatch) : (d.modDike f).runs = d.runs := rfl
@[simp] theorem Dev.modDike_nextRun (d : Dev) (f : Dikewatch → Dikewatch) : (d.modDike f).nextRun = d.nextRun := rfl
@[simp] theorem Dev.modDike_extents (d : Dev) (f : Dikewatch → Dikewatch) : (d.modDike f).extents = d.extents := rfl
@[simp] theorem Dev.modDike_flash (d : Dev) (f : Dikewatch → Dikewatch) : (d.modDike f).flash = d.flash := rfl
@[simp] theorem Dev.modDike_fabric (d : Dev) (f : Dikewatch → Dikewatch) : (d.modDike f).fabric = d.fabric := rfl
@[simp] theorem Dev.modDike_havens (d : Dev) (f : Dikewatch → Dikewatch) : (d.modDike f).havens = d.havens := rfl
@[simp] theorem Dev.modDike_jobs (d : Dev) (f : Dikewatch → Dikewatch) : (d.modDike f).jobs = d.jobs := rfl
@[simp] theorem Dev.modDike_trust (d : Dev) (f : Dikewatch → Dikewatch) : (d.modDike f).trust = d.trust := rfl
@[simp] theorem Dev.modDike_life (d : Dev) (f : Dikewatch → Dikewatch) : (d.modDike f).life = d.life := rfl
@[simp] theorem Dev.modDike_power (d : Dev) (f : Dikewatch → Dikewatch) : (d.modDike f).power = d.power := rfl
@[simp] theorem Dev.modDike_errors (d : Dev) (f : Dikewatch → Dikewatch) : (d.modDike f).errors = d.errors := rfl
@[simp] theorem Dev.modDike_mgmt (d : Dev) (f : Dikewatch → Dikewatch) : (d.modDike f).mgmt = d.mgmt := rfl
@[simp] theorem Dev.modDike_held (d : Dev) (f : Dikewatch → Dikewatch) : (d.modDike f).held = d.held := rfl
@[simp] theorem Dev.modDike_drains (d : Dev) (f : Dikewatch → Dikewatch) : (d.modDike f).drains = d.drains := rfl
@[simp] theorem Dev.modDike_lost (d : Dev) (f : Dikewatch → Dikewatch) : (d.modDike f).lost = d.lost := rfl
@[simp] theorem Dev.modDike_stageQueue (d : Dev) (f : Dikewatch → Dikewatch) : (d.modDike f).stageQueue = d.stageQueue := rfl
@[simp] theorem Dev.modDike_out (d : Dev) (f : Dikewatch → Dikewatch) : (d.modDike f).out = d.out := rfl

/-! #### modLife -/

@[simp] theorem Dev.modLife_sys (d : Dev) (f : LifeCycle → LifeCycle) : (d.modLife f).sys = d.sys := rfl
@[simp] theorem Dev.modLife_fns (d : Dev) (f : LifeCycle → LifeCycle) : (d.modLife f).fns = d.fns := rfl
@[simp] theorem Dev.modLife_queues (d : Dev) (f : LifeCycle → LifeCycle) : (d.modLife f).queues = d.queues := rfl
@[simp] theorem Dev.modLife_ctxs (d : Dev) (f : LifeCycle → LifeCycle) : (d.modLife f).ctxs = d.ctxs := rfl
@[simp] theorem Dev.modLife_maps (d : Dev) (f : LifeCycle → LifeCycle) : (d.modLife f).maps = d.maps := rfl
@[simp] theorem Dev.modLife_fences (d : Dev) (f : LifeCycle → LifeCycle) : (d.modLife f).fences = d.fences := rfl
@[simp] theorem Dev.modLife_tide (d : Dev) (f : LifeCycle → LifeCycle) : (d.modLife f).tide = d.tide := rfl
@[simp] theorem Dev.modLife_tiles (d : Dev) (f : LifeCycle → LifeCycle) : (d.modLife f).tiles = d.tiles := rfl
@[simp] theorem Dev.modLife_seams (d : Dev) (f : LifeCycle → LifeCycle) : (d.modLife f).seams = d.seams := rfl
@[simp] theorem Dev.modLife_arbs (d : Dev) (f : LifeCycle → LifeCycle) : (d.modLife f).arbs = d.arbs := rfl
@[simp] theorem Dev.modLife_meshThresh (d : Dev) (f : LifeCycle → LifeCycle) : (d.modLife f).meshThresh = d.meshThresh := rfl
@[simp] theorem Dev.modLife_meshStarve (d : Dev) (f : LifeCycle → LifeCycle) : (d.modLife f).meshStarve = d.meshStarve := rfl
@[simp] theorem Dev.modLife_meshTurns (d : Dev) (f : LifeCycle → LifeCycle) : (d.modLife f).meshTurns = d.meshTurns := rfl
@[simp] theorem Dev.modLife_hubs (d : Dev) (f : LifeCycle → LifeCycle) : (d.modLife f).hubs = d.hubs := rfl
@[simp] theorem Dev.modLife_regions (d : Dev) (f : LifeCycle → LifeCycle) : (d.modLife f).regions = d.regions := rfl
@[simp] theorem Dev.modLife_counters (d : Dev) (f : LifeCycle → LifeCycle) : (d.modLife f).counters = d.counters := rfl
@[simp] theorem Dev.modLife_nodes (d : Dev) (f : LifeCycle → LifeCycle) : (d.modLife f).nodes = d.nodes := rfl
@[simp] theorem Dev.modLife_keys (d : Dev) (f : LifeCycle → LifeCycle) : (d.modLife f).keys = d.keys := rfl
@[simp] theorem Dev.modLife_badLines (d : Dev) (f : LifeCycle → LifeCycle) : (d.modLife f).badLines = d.badLines := rfl
@[simp] theorem Dev.modLife_scales (d : Dev) (f : LifeCycle → LifeCycle) : (d.modLife f).scales = d.scales := rfl
@[simp] theorem Dev.modLife_groups (d : Dev) (f : LifeCycle → LifeCycle) : (d.modLife f).groups = d.groups := rfl
@[simp] theorem Dev.modLife_mem (d : Dev) (f : LifeCycle → LifeCycle) : (d.modLife f).mem = d.mem := rfl
@[simp] theorem Dev.modLife_plans (d : Dev) (f : LifeCycle → LifeCycle) : (d.modLife f).plans = d.plans := rfl
@[simp] theorem Dev.modLife_loads (d : Dev) (f : LifeCycle → LifeCycle) : (d.modLife f).loads = d.loads := rfl
@[simp] theorem Dev.modLife_spareCores (d : Dev) (f : LifeCycle → LifeCycle) : (d.modLife f).spareCores = d.spareCores := rfl
@[simp] theorem Dev.modLife_coresDown (d : Dev) (f : LifeCycle → LifeCycle) : (d.modLife f).coresDown = d.coresDown := rfl
@[simp] theorem Dev.modLife_runCmds (d : Dev) (f : LifeCycle → LifeCycle) : (d.modLife f).runCmds = d.runCmds := rfl
@[simp] theorem Dev.modLife_runs (d : Dev) (f : LifeCycle → LifeCycle) : (d.modLife f).runs = d.runs := rfl
@[simp] theorem Dev.modLife_nextRun (d : Dev) (f : LifeCycle → LifeCycle) : (d.modLife f).nextRun = d.nextRun := rfl
@[simp] theorem Dev.modLife_extents (d : Dev) (f : LifeCycle → LifeCycle) : (d.modLife f).extents = d.extents := rfl
@[simp] theorem Dev.modLife_flash (d : Dev) (f : LifeCycle → LifeCycle) : (d.modLife f).flash = d.flash := rfl
@[simp] theorem Dev.modLife_fabric (d : Dev) (f : LifeCycle → LifeCycle) : (d.modLife f).fabric = d.fabric := rfl
@[simp] theorem Dev.modLife_dike (d : Dev) (f : LifeCycle → LifeCycle) : (d.modLife f).dike = d.dike := rfl
@[simp] theorem Dev.modLife_havens (d : Dev) (f : LifeCycle → LifeCycle) : (d.modLife f).havens = d.havens := rfl
@[simp] theorem Dev.modLife_jobs (d : Dev) (f : LifeCycle → LifeCycle) : (d.modLife f).jobs = d.jobs := rfl
@[simp] theorem Dev.modLife_trust (d : Dev) (f : LifeCycle → LifeCycle) : (d.modLife f).trust = d.trust := rfl
@[simp] theorem Dev.modLife_power (d : Dev) (f : LifeCycle → LifeCycle) : (d.modLife f).power = d.power := rfl
@[simp] theorem Dev.modLife_errors (d : Dev) (f : LifeCycle → LifeCycle) : (d.modLife f).errors = d.errors := rfl
@[simp] theorem Dev.modLife_mgmt (d : Dev) (f : LifeCycle → LifeCycle) : (d.modLife f).mgmt = d.mgmt := rfl
@[simp] theorem Dev.modLife_held (d : Dev) (f : LifeCycle → LifeCycle) : (d.modLife f).held = d.held := rfl
@[simp] theorem Dev.modLife_drains (d : Dev) (f : LifeCycle → LifeCycle) : (d.modLife f).drains = d.drains := rfl
@[simp] theorem Dev.modLife_lost (d : Dev) (f : LifeCycle → LifeCycle) : (d.modLife f).lost = d.lost := rfl
@[simp] theorem Dev.modLife_stageQueue (d : Dev) (f : LifeCycle → LifeCycle) : (d.modLife f).stageQueue = d.stageQueue := rfl
@[simp] theorem Dev.modLife_out (d : Dev) (f : LifeCycle → LifeCycle) : (d.modLife f).out = d.out := rfl

/-! #### modPower -/

@[simp] theorem Dev.modPower_sys (d : Dev) (f : Power → Power) : (d.modPower f).sys = d.sys := rfl
@[simp] theorem Dev.modPower_fns (d : Dev) (f : Power → Power) : (d.modPower f).fns = d.fns := rfl
@[simp] theorem Dev.modPower_queues (d : Dev) (f : Power → Power) : (d.modPower f).queues = d.queues := rfl
@[simp] theorem Dev.modPower_ctxs (d : Dev) (f : Power → Power) : (d.modPower f).ctxs = d.ctxs := rfl
@[simp] theorem Dev.modPower_maps (d : Dev) (f : Power → Power) : (d.modPower f).maps = d.maps := rfl
@[simp] theorem Dev.modPower_fences (d : Dev) (f : Power → Power) : (d.modPower f).fences = d.fences := rfl
@[simp] theorem Dev.modPower_tide (d : Dev) (f : Power → Power) : (d.modPower f).tide = d.tide := rfl
@[simp] theorem Dev.modPower_tiles (d : Dev) (f : Power → Power) : (d.modPower f).tiles = d.tiles := rfl
@[simp] theorem Dev.modPower_seams (d : Dev) (f : Power → Power) : (d.modPower f).seams = d.seams := rfl
@[simp] theorem Dev.modPower_arbs (d : Dev) (f : Power → Power) : (d.modPower f).arbs = d.arbs := rfl
@[simp] theorem Dev.modPower_meshThresh (d : Dev) (f : Power → Power) : (d.modPower f).meshThresh = d.meshThresh := rfl
@[simp] theorem Dev.modPower_meshStarve (d : Dev) (f : Power → Power) : (d.modPower f).meshStarve = d.meshStarve := rfl
@[simp] theorem Dev.modPower_meshTurns (d : Dev) (f : Power → Power) : (d.modPower f).meshTurns = d.meshTurns := rfl
@[simp] theorem Dev.modPower_hubs (d : Dev) (f : Power → Power) : (d.modPower f).hubs = d.hubs := rfl
@[simp] theorem Dev.modPower_regions (d : Dev) (f : Power → Power) : (d.modPower f).regions = d.regions := rfl
@[simp] theorem Dev.modPower_counters (d : Dev) (f : Power → Power) : (d.modPower f).counters = d.counters := rfl
@[simp] theorem Dev.modPower_nodes (d : Dev) (f : Power → Power) : (d.modPower f).nodes = d.nodes := rfl
@[simp] theorem Dev.modPower_keys (d : Dev) (f : Power → Power) : (d.modPower f).keys = d.keys := rfl
@[simp] theorem Dev.modPower_badLines (d : Dev) (f : Power → Power) : (d.modPower f).badLines = d.badLines := rfl
@[simp] theorem Dev.modPower_scales (d : Dev) (f : Power → Power) : (d.modPower f).scales = d.scales := rfl
@[simp] theorem Dev.modPower_groups (d : Dev) (f : Power → Power) : (d.modPower f).groups = d.groups := rfl
@[simp] theorem Dev.modPower_mem (d : Dev) (f : Power → Power) : (d.modPower f).mem = d.mem := rfl
@[simp] theorem Dev.modPower_plans (d : Dev) (f : Power → Power) : (d.modPower f).plans = d.plans := rfl
@[simp] theorem Dev.modPower_loads (d : Dev) (f : Power → Power) : (d.modPower f).loads = d.loads := rfl
@[simp] theorem Dev.modPower_spareCores (d : Dev) (f : Power → Power) : (d.modPower f).spareCores = d.spareCores := rfl
@[simp] theorem Dev.modPower_coresDown (d : Dev) (f : Power → Power) : (d.modPower f).coresDown = d.coresDown := rfl
@[simp] theorem Dev.modPower_runCmds (d : Dev) (f : Power → Power) : (d.modPower f).runCmds = d.runCmds := rfl
@[simp] theorem Dev.modPower_runs (d : Dev) (f : Power → Power) : (d.modPower f).runs = d.runs := rfl
@[simp] theorem Dev.modPower_nextRun (d : Dev) (f : Power → Power) : (d.modPower f).nextRun = d.nextRun := rfl
@[simp] theorem Dev.modPower_extents (d : Dev) (f : Power → Power) : (d.modPower f).extents = d.extents := rfl
@[simp] theorem Dev.modPower_flash (d : Dev) (f : Power → Power) : (d.modPower f).flash = d.flash := rfl
@[simp] theorem Dev.modPower_fabric (d : Dev) (f : Power → Power) : (d.modPower f).fabric = d.fabric := rfl
@[simp] theorem Dev.modPower_dike (d : Dev) (f : Power → Power) : (d.modPower f).dike = d.dike := rfl
@[simp] theorem Dev.modPower_havens (d : Dev) (f : Power → Power) : (d.modPower f).havens = d.havens := rfl
@[simp] theorem Dev.modPower_jobs (d : Dev) (f : Power → Power) : (d.modPower f).jobs = d.jobs := rfl
@[simp] theorem Dev.modPower_trust (d : Dev) (f : Power → Power) : (d.modPower f).trust = d.trust := rfl
@[simp] theorem Dev.modPower_life (d : Dev) (f : Power → Power) : (d.modPower f).life = d.life := rfl
@[simp] theorem Dev.modPower_errors (d : Dev) (f : Power → Power) : (d.modPower f).errors = d.errors := rfl
@[simp] theorem Dev.modPower_mgmt (d : Dev) (f : Power → Power) : (d.modPower f).mgmt = d.mgmt := rfl
@[simp] theorem Dev.modPower_held (d : Dev) (f : Power → Power) : (d.modPower f).held = d.held := rfl
@[simp] theorem Dev.modPower_drains (d : Dev) (f : Power → Power) : (d.modPower f).drains = d.drains := rfl
@[simp] theorem Dev.modPower_lost (d : Dev) (f : Power → Power) : (d.modPower f).lost = d.lost := rfl
@[simp] theorem Dev.modPower_stageQueue (d : Dev) (f : Power → Power) : (d.modPower f).stageQueue = d.stageQueue := rfl
@[simp] theorem Dev.modPower_out (d : Dev) (f : Power → Power) : (d.modPower f).out = d.out := rfl

/-! #### modErrors -/

@[simp] theorem Dev.modErrors_sys (d : Dev) (f : Errors → Errors) : (d.modErrors f).sys = d.sys := rfl
@[simp] theorem Dev.modErrors_fns (d : Dev) (f : Errors → Errors) : (d.modErrors f).fns = d.fns := rfl
@[simp] theorem Dev.modErrors_queues (d : Dev) (f : Errors → Errors) : (d.modErrors f).queues = d.queues := rfl
@[simp] theorem Dev.modErrors_ctxs (d : Dev) (f : Errors → Errors) : (d.modErrors f).ctxs = d.ctxs := rfl
@[simp] theorem Dev.modErrors_maps (d : Dev) (f : Errors → Errors) : (d.modErrors f).maps = d.maps := rfl
@[simp] theorem Dev.modErrors_fences (d : Dev) (f : Errors → Errors) : (d.modErrors f).fences = d.fences := rfl
@[simp] theorem Dev.modErrors_tide (d : Dev) (f : Errors → Errors) : (d.modErrors f).tide = d.tide := rfl
@[simp] theorem Dev.modErrors_tiles (d : Dev) (f : Errors → Errors) : (d.modErrors f).tiles = d.tiles := rfl
@[simp] theorem Dev.modErrors_seams (d : Dev) (f : Errors → Errors) : (d.modErrors f).seams = d.seams := rfl
@[simp] theorem Dev.modErrors_arbs (d : Dev) (f : Errors → Errors) : (d.modErrors f).arbs = d.arbs := rfl
@[simp] theorem Dev.modErrors_meshThresh (d : Dev) (f : Errors → Errors) : (d.modErrors f).meshThresh = d.meshThresh := rfl
@[simp] theorem Dev.modErrors_meshStarve (d : Dev) (f : Errors → Errors) : (d.modErrors f).meshStarve = d.meshStarve := rfl
@[simp] theorem Dev.modErrors_meshTurns (d : Dev) (f : Errors → Errors) : (d.modErrors f).meshTurns = d.meshTurns := rfl
@[simp] theorem Dev.modErrors_hubs (d : Dev) (f : Errors → Errors) : (d.modErrors f).hubs = d.hubs := rfl
@[simp] theorem Dev.modErrors_regions (d : Dev) (f : Errors → Errors) : (d.modErrors f).regions = d.regions := rfl
@[simp] theorem Dev.modErrors_counters (d : Dev) (f : Errors → Errors) : (d.modErrors f).counters = d.counters := rfl
@[simp] theorem Dev.modErrors_nodes (d : Dev) (f : Errors → Errors) : (d.modErrors f).nodes = d.nodes := rfl
@[simp] theorem Dev.modErrors_keys (d : Dev) (f : Errors → Errors) : (d.modErrors f).keys = d.keys := rfl
@[simp] theorem Dev.modErrors_badLines (d : Dev) (f : Errors → Errors) : (d.modErrors f).badLines = d.badLines := rfl
@[simp] theorem Dev.modErrors_scales (d : Dev) (f : Errors → Errors) : (d.modErrors f).scales = d.scales := rfl
@[simp] theorem Dev.modErrors_groups (d : Dev) (f : Errors → Errors) : (d.modErrors f).groups = d.groups := rfl
@[simp] theorem Dev.modErrors_mem (d : Dev) (f : Errors → Errors) : (d.modErrors f).mem = d.mem := rfl
@[simp] theorem Dev.modErrors_plans (d : Dev) (f : Errors → Errors) : (d.modErrors f).plans = d.plans := rfl
@[simp] theorem Dev.modErrors_loads (d : Dev) (f : Errors → Errors) : (d.modErrors f).loads = d.loads := rfl
@[simp] theorem Dev.modErrors_spareCores (d : Dev) (f : Errors → Errors) : (d.modErrors f).spareCores = d.spareCores := rfl
@[simp] theorem Dev.modErrors_coresDown (d : Dev) (f : Errors → Errors) : (d.modErrors f).coresDown = d.coresDown := rfl
@[simp] theorem Dev.modErrors_runCmds (d : Dev) (f : Errors → Errors) : (d.modErrors f).runCmds = d.runCmds := rfl
@[simp] theorem Dev.modErrors_runs (d : Dev) (f : Errors → Errors) : (d.modErrors f).runs = d.runs := rfl
@[simp] theorem Dev.modErrors_nextRun (d : Dev) (f : Errors → Errors) : (d.modErrors f).nextRun = d.nextRun := rfl
@[simp] theorem Dev.modErrors_extents (d : Dev) (f : Errors → Errors) : (d.modErrors f).extents = d.extents := rfl
@[simp] theorem Dev.modErrors_flash (d : Dev) (f : Errors → Errors) : (d.modErrors f).flash = d.flash := rfl
@[simp] theorem Dev.modErrors_fabric (d : Dev) (f : Errors → Errors) : (d.modErrors f).fabric = d.fabric := rfl
@[simp] theorem Dev.modErrors_dike (d : Dev) (f : Errors → Errors) : (d.modErrors f).dike = d.dike := rfl
@[simp] theorem Dev.modErrors_havens (d : Dev) (f : Errors → Errors) : (d.modErrors f).havens = d.havens := rfl
@[simp] theorem Dev.modErrors_jobs (d : Dev) (f : Errors → Errors) : (d.modErrors f).jobs = d.jobs := rfl
@[simp] theorem Dev.modErrors_trust (d : Dev) (f : Errors → Errors) : (d.modErrors f).trust = d.trust := rfl
@[simp] theorem Dev.modErrors_life (d : Dev) (f : Errors → Errors) : (d.modErrors f).life = d.life := rfl
@[simp] theorem Dev.modErrors_power (d : Dev) (f : Errors → Errors) : (d.modErrors f).power = d.power := rfl
@[simp] theorem Dev.modErrors_mgmt (d : Dev) (f : Errors → Errors) : (d.modErrors f).mgmt = d.mgmt := rfl
@[simp] theorem Dev.modErrors_held (d : Dev) (f : Errors → Errors) : (d.modErrors f).held = d.held := rfl
@[simp] theorem Dev.modErrors_drains (d : Dev) (f : Errors → Errors) : (d.modErrors f).drains = d.drains := rfl
@[simp] theorem Dev.modErrors_lost (d : Dev) (f : Errors → Errors) : (d.modErrors f).lost = d.lost := rfl
@[simp] theorem Dev.modErrors_stageQueue (d : Dev) (f : Errors → Errors) : (d.modErrors f).stageQueue = d.stageQueue := rfl
@[simp] theorem Dev.modErrors_out (d : Dev) (f : Errors → Errors) : (d.modErrors f).out = d.out := rfl

/-! #### modMgmt -/

@[simp] theorem Dev.modMgmt_sys (d : Dev) (f : Mgmt → Mgmt) : (d.modMgmt f).sys = d.sys := rfl
@[simp] theorem Dev.modMgmt_fns (d : Dev) (f : Mgmt → Mgmt) : (d.modMgmt f).fns = d.fns := rfl
@[simp] theorem Dev.modMgmt_queues (d : Dev) (f : Mgmt → Mgmt) : (d.modMgmt f).queues = d.queues := rfl
@[simp] theorem Dev.modMgmt_ctxs (d : Dev) (f : Mgmt → Mgmt) : (d.modMgmt f).ctxs = d.ctxs := rfl
@[simp] theorem Dev.modMgmt_maps (d : Dev) (f : Mgmt → Mgmt) : (d.modMgmt f).maps = d.maps := rfl
@[simp] theorem Dev.modMgmt_fences (d : Dev) (f : Mgmt → Mgmt) : (d.modMgmt f).fences = d.fences := rfl
@[simp] theorem Dev.modMgmt_tide (d : Dev) (f : Mgmt → Mgmt) : (d.modMgmt f).tide = d.tide := rfl
@[simp] theorem Dev.modMgmt_tiles (d : Dev) (f : Mgmt → Mgmt) : (d.modMgmt f).tiles = d.tiles := rfl
@[simp] theorem Dev.modMgmt_seams (d : Dev) (f : Mgmt → Mgmt) : (d.modMgmt f).seams = d.seams := rfl
@[simp] theorem Dev.modMgmt_arbs (d : Dev) (f : Mgmt → Mgmt) : (d.modMgmt f).arbs = d.arbs := rfl
@[simp] theorem Dev.modMgmt_meshThresh (d : Dev) (f : Mgmt → Mgmt) : (d.modMgmt f).meshThresh = d.meshThresh := rfl
@[simp] theorem Dev.modMgmt_meshStarve (d : Dev) (f : Mgmt → Mgmt) : (d.modMgmt f).meshStarve = d.meshStarve := rfl
@[simp] theorem Dev.modMgmt_meshTurns (d : Dev) (f : Mgmt → Mgmt) : (d.modMgmt f).meshTurns = d.meshTurns := rfl
@[simp] theorem Dev.modMgmt_hubs (d : Dev) (f : Mgmt → Mgmt) : (d.modMgmt f).hubs = d.hubs := rfl
@[simp] theorem Dev.modMgmt_regions (d : Dev) (f : Mgmt → Mgmt) : (d.modMgmt f).regions = d.regions := rfl
@[simp] theorem Dev.modMgmt_counters (d : Dev) (f : Mgmt → Mgmt) : (d.modMgmt f).counters = d.counters := rfl
@[simp] theorem Dev.modMgmt_nodes (d : Dev) (f : Mgmt → Mgmt) : (d.modMgmt f).nodes = d.nodes := rfl
@[simp] theorem Dev.modMgmt_keys (d : Dev) (f : Mgmt → Mgmt) : (d.modMgmt f).keys = d.keys := rfl
@[simp] theorem Dev.modMgmt_badLines (d : Dev) (f : Mgmt → Mgmt) : (d.modMgmt f).badLines = d.badLines := rfl
@[simp] theorem Dev.modMgmt_scales (d : Dev) (f : Mgmt → Mgmt) : (d.modMgmt f).scales = d.scales := rfl
@[simp] theorem Dev.modMgmt_groups (d : Dev) (f : Mgmt → Mgmt) : (d.modMgmt f).groups = d.groups := rfl
@[simp] theorem Dev.modMgmt_mem (d : Dev) (f : Mgmt → Mgmt) : (d.modMgmt f).mem = d.mem := rfl
@[simp] theorem Dev.modMgmt_plans (d : Dev) (f : Mgmt → Mgmt) : (d.modMgmt f).plans = d.plans := rfl
@[simp] theorem Dev.modMgmt_loads (d : Dev) (f : Mgmt → Mgmt) : (d.modMgmt f).loads = d.loads := rfl
@[simp] theorem Dev.modMgmt_spareCores (d : Dev) (f : Mgmt → Mgmt) : (d.modMgmt f).spareCores = d.spareCores := rfl
@[simp] theorem Dev.modMgmt_coresDown (d : Dev) (f : Mgmt → Mgmt) : (d.modMgmt f).coresDown = d.coresDown := rfl
@[simp] theorem Dev.modMgmt_runCmds (d : Dev) (f : Mgmt → Mgmt) : (d.modMgmt f).runCmds = d.runCmds := rfl
@[simp] theorem Dev.modMgmt_runs (d : Dev) (f : Mgmt → Mgmt) : (d.modMgmt f).runs = d.runs := rfl
@[simp] theorem Dev.modMgmt_nextRun (d : Dev) (f : Mgmt → Mgmt) : (d.modMgmt f).nextRun = d.nextRun := rfl
@[simp] theorem Dev.modMgmt_extents (d : Dev) (f : Mgmt → Mgmt) : (d.modMgmt f).extents = d.extents := rfl
@[simp] theorem Dev.modMgmt_flash (d : Dev) (f : Mgmt → Mgmt) : (d.modMgmt f).flash = d.flash := rfl
@[simp] theorem Dev.modMgmt_fabric (d : Dev) (f : Mgmt → Mgmt) : (d.modMgmt f).fabric = d.fabric := rfl
@[simp] theorem Dev.modMgmt_dike (d : Dev) (f : Mgmt → Mgmt) : (d.modMgmt f).dike = d.dike := rfl
@[simp] theorem Dev.modMgmt_havens (d : Dev) (f : Mgmt → Mgmt) : (d.modMgmt f).havens = d.havens := rfl
@[simp] theorem Dev.modMgmt_jobs (d : Dev) (f : Mgmt → Mgmt) : (d.modMgmt f).jobs = d.jobs := rfl
@[simp] theorem Dev.modMgmt_trust (d : Dev) (f : Mgmt → Mgmt) : (d.modMgmt f).trust = d.trust := rfl
@[simp] theorem Dev.modMgmt_life (d : Dev) (f : Mgmt → Mgmt) : (d.modMgmt f).life = d.life := rfl
@[simp] theorem Dev.modMgmt_power (d : Dev) (f : Mgmt → Mgmt) : (d.modMgmt f).power = d.power := rfl
@[simp] theorem Dev.modMgmt_errors (d : Dev) (f : Mgmt → Mgmt) : (d.modMgmt f).errors = d.errors := rfl
@[simp] theorem Dev.modMgmt_held (d : Dev) (f : Mgmt → Mgmt) : (d.modMgmt f).held = d.held := rfl
@[simp] theorem Dev.modMgmt_drains (d : Dev) (f : Mgmt → Mgmt) : (d.modMgmt f).drains = d.drains := rfl
@[simp] theorem Dev.modMgmt_lost (d : Dev) (f : Mgmt → Mgmt) : (d.modMgmt f).lost = d.lost := rfl
@[simp] theorem Dev.modMgmt_stageQueue (d : Dev) (f : Mgmt → Mgmt) : (d.modMgmt f).stageQueue = d.stageQueue := rfl
@[simp] theorem Dev.modMgmt_out (d : Dev) (f : Mgmt → Mgmt) : (d.modMgmt f).out = d.out := rfl

/-! #### modRunCmds -/

@[simp] theorem Dev.modRunCmds_sys (d : Dev) (f : List RunCmd → List RunCmd) : (d.modRunCmds f).sys = d.sys := rfl
@[simp] theorem Dev.modRunCmds_fns (d : Dev) (f : List RunCmd → List RunCmd) : (d.modRunCmds f).fns = d.fns := rfl
@[simp] theorem Dev.modRunCmds_queues (d : Dev) (f : List RunCmd → List RunCmd) : (d.modRunCmds f).queues = d.queues := rfl
@[simp] theorem Dev.modRunCmds_ctxs (d : Dev) (f : List RunCmd → List RunCmd) : (d.modRunCmds f).ctxs = d.ctxs := rfl
@[simp] theorem Dev.modRunCmds_maps (d : Dev) (f : List RunCmd → List RunCmd) : (d.modRunCmds f).maps = d.maps := rfl
@[simp] theorem Dev.modRunCmds_fences (d : Dev) (f : List RunCmd → List RunCmd) : (d.modRunCmds f).fences = d.fences := rfl
@[simp] theorem Dev.modRunCmds_tide (d : Dev) (f : List RunCmd → List RunCmd) : (d.modRunCmds f).tide = d.tide := rfl
@[simp] theorem Dev.modRunCmds_tiles (d : Dev) (f : List RunCmd → List RunCmd) : (d.modRunCmds f).tiles = d.tiles := rfl
@[simp] theorem Dev.modRunCmds_seams (d : Dev) (f : List RunCmd → List RunCmd) : (d.modRunCmds f).seams = d.seams := rfl
@[simp] theorem Dev.modRunCmds_arbs (d : Dev) (f : List RunCmd → List RunCmd) : (d.modRunCmds f).arbs = d.arbs := rfl
@[simp] theorem Dev.modRunCmds_meshThresh (d : Dev) (f : List RunCmd → List RunCmd) : (d.modRunCmds f).meshThresh = d.meshThresh := rfl
@[simp] theorem Dev.modRunCmds_meshStarve (d : Dev) (f : List RunCmd → List RunCmd) : (d.modRunCmds f).meshStarve = d.meshStarve := rfl
@[simp] theorem Dev.modRunCmds_meshTurns (d : Dev) (f : List RunCmd → List RunCmd) : (d.modRunCmds f).meshTurns = d.meshTurns := rfl
@[simp] theorem Dev.modRunCmds_hubs (d : Dev) (f : List RunCmd → List RunCmd) : (d.modRunCmds f).hubs = d.hubs := rfl
@[simp] theorem Dev.modRunCmds_regions (d : Dev) (f : List RunCmd → List RunCmd) : (d.modRunCmds f).regions = d.regions := rfl
@[simp] theorem Dev.modRunCmds_counters (d : Dev) (f : List RunCmd → List RunCmd) : (d.modRunCmds f).counters = d.counters := rfl
@[simp] theorem Dev.modRunCmds_nodes (d : Dev) (f : List RunCmd → List RunCmd) : (d.modRunCmds f).nodes = d.nodes := rfl
@[simp] theorem Dev.modRunCmds_keys (d : Dev) (f : List RunCmd → List RunCmd) : (d.modRunCmds f).keys = d.keys := rfl
@[simp] theorem Dev.modRunCmds_badLines (d : Dev) (f : List RunCmd → List RunCmd) : (d.modRunCmds f).badLines = d.badLines := rfl
@[simp] theorem Dev.modRunCmds_scales (d : Dev) (f : List RunCmd → List RunCmd) : (d.modRunCmds f).scales = d.scales := rfl
@[simp] theorem Dev.modRunCmds_groups (d : Dev) (f : List RunCmd → List RunCmd) : (d.modRunCmds f).groups = d.groups := rfl
@[simp] theorem Dev.modRunCmds_mem (d : Dev) (f : List RunCmd → List RunCmd) : (d.modRunCmds f).mem = d.mem := rfl
@[simp] theorem Dev.modRunCmds_plans (d : Dev) (f : List RunCmd → List RunCmd) : (d.modRunCmds f).plans = d.plans := rfl
@[simp] theorem Dev.modRunCmds_loads (d : Dev) (f : List RunCmd → List RunCmd) : (d.modRunCmds f).loads = d.loads := rfl
@[simp] theorem Dev.modRunCmds_spareCores (d : Dev) (f : List RunCmd → List RunCmd) : (d.modRunCmds f).spareCores = d.spareCores := rfl
@[simp] theorem Dev.modRunCmds_coresDown (d : Dev) (f : List RunCmd → List RunCmd) : (d.modRunCmds f).coresDown = d.coresDown := rfl
@[simp] theorem Dev.modRunCmds_runs (d : Dev) (f : List RunCmd → List RunCmd) : (d.modRunCmds f).runs = d.runs := rfl
@[simp] theorem Dev.modRunCmds_nextRun (d : Dev) (f : List RunCmd → List RunCmd) : (d.modRunCmds f).nextRun = d.nextRun := rfl
@[simp] theorem Dev.modRunCmds_extents (d : Dev) (f : List RunCmd → List RunCmd) : (d.modRunCmds f).extents = d.extents := rfl
@[simp] theorem Dev.modRunCmds_flash (d : Dev) (f : List RunCmd → List RunCmd) : (d.modRunCmds f).flash = d.flash := rfl
@[simp] theorem Dev.modRunCmds_fabric (d : Dev) (f : List RunCmd → List RunCmd) : (d.modRunCmds f).fabric = d.fabric := rfl
@[simp] theorem Dev.modRunCmds_dike (d : Dev) (f : List RunCmd → List RunCmd) : (d.modRunCmds f).dike = d.dike := rfl
@[simp] theorem Dev.modRunCmds_havens (d : Dev) (f : List RunCmd → List RunCmd) : (d.modRunCmds f).havens = d.havens := rfl
@[simp] theorem Dev.modRunCmds_jobs (d : Dev) (f : List RunCmd → List RunCmd) : (d.modRunCmds f).jobs = d.jobs := rfl
@[simp] theorem Dev.modRunCmds_trust (d : Dev) (f : List RunCmd → List RunCmd) : (d.modRunCmds f).trust = d.trust := rfl
@[simp] theorem Dev.modRunCmds_life (d : Dev) (f : List RunCmd → List RunCmd) : (d.modRunCmds f).life = d.life := rfl
@[simp] theorem Dev.modRunCmds_power (d : Dev) (f : List RunCmd → List RunCmd) : (d.modRunCmds f).power = d.power := rfl
@[simp] theorem Dev.modRunCmds_errors (d : Dev) (f : List RunCmd → List RunCmd) : (d.modRunCmds f).errors = d.errors := rfl
@[simp] theorem Dev.modRunCmds_mgmt (d : Dev) (f : List RunCmd → List RunCmd) : (d.modRunCmds f).mgmt = d.mgmt := rfl
@[simp] theorem Dev.modRunCmds_held (d : Dev) (f : List RunCmd → List RunCmd) : (d.modRunCmds f).held = d.held := rfl
@[simp] theorem Dev.modRunCmds_drains (d : Dev) (f : List RunCmd → List RunCmd) : (d.modRunCmds f).drains = d.drains := rfl
@[simp] theorem Dev.modRunCmds_lost (d : Dev) (f : List RunCmd → List RunCmd) : (d.modRunCmds f).lost = d.lost := rfl
@[simp] theorem Dev.modRunCmds_stageQueue (d : Dev) (f : List RunCmd → List RunCmd) : (d.modRunCmds f).stageQueue = d.stageQueue := rfl
@[simp] theorem Dev.modRunCmds_out (d : Dev) (f : List RunCmd → List RunCmd) : (d.modRunCmds f).out = d.out := rfl

/-! #### emit -/

@[simp] theorem Dev.emit_sys (d : Dev) (o : Out) : (d.emit o).sys = d.sys := rfl
@[simp] theorem Dev.emit_fns (d : Dev) (o : Out) : (d.emit o).fns = d.fns := rfl
@[simp] theorem Dev.emit_queues (d : Dev) (o : Out) : (d.emit o).queues = d.queues := rfl
@[simp] theorem Dev.emit_ctxs (d : Dev) (o : Out) : (d.emit o).ctxs = d.ctxs := rfl
@[simp] theorem Dev.emit_maps (d : Dev) (o : Out) : (d.emit o).maps = d.maps := rfl
@[simp] theorem Dev.emit_fences (d : Dev) (o : Out) : (d.emit o).fences = d.fences := rfl
@[simp] theorem Dev.emit_tide (d : Dev) (o : Out) : (d.emit o).tide = d.tide := rfl
@[simp] theorem Dev.emit_tiles (d : Dev) (o : Out) : (d.emit o).tiles = d.tiles := rfl
@[simp] theorem Dev.emit_seams (d : Dev) (o : Out) : (d.emit o).seams = d.seams := rfl
@[simp] theorem Dev.emit_arbs (d : Dev) (o : Out) : (d.emit o).arbs = d.arbs := rfl
@[simp] theorem Dev.emit_meshThresh (d : Dev) (o : Out) : (d.emit o).meshThresh = d.meshThresh := rfl
@[simp] theorem Dev.emit_meshStarve (d : Dev) (o : Out) : (d.emit o).meshStarve = d.meshStarve := rfl
@[simp] theorem Dev.emit_meshTurns (d : Dev) (o : Out) : (d.emit o).meshTurns = d.meshTurns := rfl
@[simp] theorem Dev.emit_hubs (d : Dev) (o : Out) : (d.emit o).hubs = d.hubs := rfl
@[simp] theorem Dev.emit_regions (d : Dev) (o : Out) : (d.emit o).regions = d.regions := rfl
@[simp] theorem Dev.emit_counters (d : Dev) (o : Out) : (d.emit o).counters = d.counters := rfl
@[simp] theorem Dev.emit_nodes (d : Dev) (o : Out) : (d.emit o).nodes = d.nodes := rfl
@[simp] theorem Dev.emit_keys (d : Dev) (o : Out) : (d.emit o).keys = d.keys := rfl
@[simp] theorem Dev.emit_badLines (d : Dev) (o : Out) : (d.emit o).badLines = d.badLines := rfl
@[simp] theorem Dev.emit_scales (d : Dev) (o : Out) : (d.emit o).scales = d.scales := rfl
@[simp] theorem Dev.emit_groups (d : Dev) (o : Out) : (d.emit o).groups = d.groups := rfl
@[simp] theorem Dev.emit_mem (d : Dev) (o : Out) : (d.emit o).mem = d.mem := rfl
@[simp] theorem Dev.emit_plans (d : Dev) (o : Out) : (d.emit o).plans = d.plans := rfl
@[simp] theorem Dev.emit_loads (d : Dev) (o : Out) : (d.emit o).loads = d.loads := rfl
@[simp] theorem Dev.emit_spareCores (d : Dev) (o : Out) : (d.emit o).spareCores = d.spareCores := rfl
@[simp] theorem Dev.emit_coresDown (d : Dev) (o : Out) : (d.emit o).coresDown = d.coresDown := rfl
@[simp] theorem Dev.emit_runCmds (d : Dev) (o : Out) : (d.emit o).runCmds = d.runCmds := rfl
@[simp] theorem Dev.emit_runs (d : Dev) (o : Out) : (d.emit o).runs = d.runs := rfl
@[simp] theorem Dev.emit_nextRun (d : Dev) (o : Out) : (d.emit o).nextRun = d.nextRun := rfl
@[simp] theorem Dev.emit_extents (d : Dev) (o : Out) : (d.emit o).extents = d.extents := rfl
@[simp] theorem Dev.emit_flash (d : Dev) (o : Out) : (d.emit o).flash = d.flash := rfl
@[simp] theorem Dev.emit_fabric (d : Dev) (o : Out) : (d.emit o).fabric = d.fabric := rfl
@[simp] theorem Dev.emit_dike (d : Dev) (o : Out) : (d.emit o).dike = d.dike := rfl
@[simp] theorem Dev.emit_havens (d : Dev) (o : Out) : (d.emit o).havens = d.havens := rfl
@[simp] theorem Dev.emit_jobs (d : Dev) (o : Out) : (d.emit o).jobs = d.jobs := rfl
@[simp] theorem Dev.emit_trust (d : Dev) (o : Out) : (d.emit o).trust = d.trust := rfl
@[simp] theorem Dev.emit_life (d : Dev) (o : Out) : (d.emit o).life = d.life := rfl
@[simp] theorem Dev.emit_power (d : Dev) (o : Out) : (d.emit o).power = d.power := rfl
@[simp] theorem Dev.emit_errors (d : Dev) (o : Out) : (d.emit o).errors = d.errors := rfl
@[simp] theorem Dev.emit_mgmt (d : Dev) (o : Out) : (d.emit o).mgmt = d.mgmt := rfl
@[simp] theorem Dev.emit_held (d : Dev) (o : Out) : (d.emit o).held = d.held := rfl
@[simp] theorem Dev.emit_drains (d : Dev) (o : Out) : (d.emit o).drains = d.drains := rfl
@[simp] theorem Dev.emit_lost (d : Dev) (o : Out) : (d.emit o).lost = d.lost := rfl
@[simp] theorem Dev.emit_stageQueue (d : Dev) (o : Out) : (d.emit o).stageQueue = d.stageQueue := rfl

/-! #### What an updated entry reads -/

theorem Dev.fn_modFn (d : Dev) (n m : Nat) (f : Function → Function) :
    (d.modFn n f).fn m = if m = n then f (d.fn n) else d.fn m := Tab.get_upd ..
@[simp] theorem Dev.fn_modFn_self (d : Dev) (n : Nat) (f : Function → Function) : (d.modFn n f).fn n = f (d.fn n) :=
  Tab.get_upd_self ..
theorem Dev.queue_modQueue (d : Dev) (n m : Nat) (f : Queue → Queue) :
    (d.modQueue n f).queue m = if m = n then f (d.queue n) else d.queue m := Tab.get_upd ..
@[simp] theorem Dev.queue_modQueue_self (d : Dev) (n : Nat) (f : Queue → Queue) : (d.modQueue n f).queue n = f (d.queue n) :=
  Tab.get_upd_self ..
theorem Dev.ctx_modCtx (d : Dev) (n m : Nat) (f : Context → Context) :
    (d.modCtx n f).ctx m = if m = n then f (d.ctx n) else d.ctx m := Tab.get_upd ..
@[simp] theorem Dev.ctx_modCtx_self (d : Dev) (n : Nat) (f : Context → Context) : (d.modCtx n f).ctx n = f (d.ctx n) :=
  Tab.get_upd_self ..
theorem Dev.mapEntry_modMap (d : Dev) (n m : Nat) (f : MapEntry → MapEntry) :
    (d.modMap n f).mapEntry m = if m = n then f (d.mapEntry n) else d.mapEntry m := Tab.get_upd ..
@[simp] theorem Dev.mapEntry_modMap_self (d : Dev) (n : Nat) (f : MapEntry → MapEntry) : (d.modMap n f).mapEntry n = f (d.mapEntry n) :=
  Tab.get_upd_self ..
theorem Dev.fence_modFence (d : Dev) (n m : Nat) (f : Fence → Fence) :
    (d.modFence n f).fence m = if m = n then f (d.fence n) else d.fence m := Tab.get_upd ..
@[simp] theorem Dev.fence_modFence_self (d : Dev) (n : Nat) (f : Fence → Fence) : (d.modFence n f).fence n = f (d.fence n) :=
  Tab.get_upd_self ..
theorem Dev.tile_modTile (d : Dev) (n m : Nat) (f : Tile → Tile) :
    (d.modTile n f).tile m = if m = n then f (d.tile n) else d.tile m := Tab.get_upd ..
@[simp] theorem Dev.tile_modTile_self (d : Dev) (n : Nat) (f : Tile → Tile) : (d.modTile n f).tile n = f (d.tile n) :=
  Tab.get_upd_self ..
theorem Dev.seam_modSeam (d : Dev) (n m : Nat) (f : Seam → Seam) :
    (d.modSeam n f).seam m = if m = n then f (d.seam n) else d.seam m := Tab.get_upd ..
@[simp] theorem Dev.seam_modSeam_self (d : Dev) (n : Nat) (f : Seam → Seam) : (d.modSeam n f).seam n = f (d.seam n) :=
  Tab.get_upd_self ..
theorem Dev.arb_modArb (d : Dev) (n m : Nat) (f : Arbiter → Arbiter) :
    (d.modArb n f).arb m = if m = n then f (d.arb n) else d.arb m := Tab.get_upd ..
@[simp] theorem Dev.arb_modArb_self (d : Dev) (n : Nat) (f : Arbiter → Arbiter) : (d.modArb n f).arb n = f (d.arb n) :=
  Tab.get_upd_self ..
theorem Dev.hub_modHub (d : Dev) (n m : Nat) (f : Hub → Hub) :
    (d.modHub n f).hub m = if m = n then f (d.hub n) else d.hub m := Tab.get_upd ..
@[simp] theorem Dev.hub_modHub_self (d : Dev) (n : Nat) (f : Hub → Hub) : (d.modHub n f).hub n = f (d.hub n) :=
  Tab.get_upd_self ..
theorem Dev.region_modRegion (d : Dev) (n m : Nat) (f : MemRegion → MemRegion) :
    (d.modRegion n f).region m = if m = n then f (d.region n) else d.region m := Tab.get_upd ..
@[simp] theorem Dev.region_modRegion_self (d : Dev) (n : Nat) (f : MemRegion → MemRegion) : (d.modRegion n f).region n = f (d.region n) :=
  Tab.get_upd_self ..
theorem Dev.counterBlock_modCounter (d : Dev) (n m : Nat) (f : CounterBlock → CounterBlock) :
    (d.modCounter n f).counterBlock m = if m = n then f (d.counterBlock n) else d.counterBlock m := Tab.get_upd ..
@[simp] theorem Dev.counterBlock_modCounter_self (d : Dev) (n : Nat) (f : CounterBlock → CounterBlock) : (d.modCounter n f).counterBlock n = f (d.counterBlock n) :=
  Tab.get_upd_self ..
theorem Dev.keyId_modKey (d : Dev) (n m : Nat) (f : KeyId → KeyId) :
    (d.modKey n f).keyId m = if m = n then f (d.keyId n) else d.keyId m := Tab.get_upd ..
@[simp] theorem Dev.keyId_modKey_self (d : Dev) (n : Nat) (f : KeyId → KeyId) : (d.modKey n f).keyId n = f (d.keyId n) :=
  Tab.get_upd_self ..
theorem Dev.badLine_modBadLine (d : Dev) (n m : Nat) (f : BadLine → BadLine) :
    (d.modBadLine n f).badLine m = if m = n then f (d.badLine n) else d.badLine m := Tab.get_upd ..
@[simp] theorem Dev.badLine_modBadLine_self (d : Dev) (n : Nat) (f : BadLine → BadLine) : (d.modBadLine n f).badLine n = f (d.badLine n) :=
  Tab.get_upd_self ..
theorem Dev.scaleEntry_modScale (d : Dev) (n m : Nat) (f : ScaleEntry → ScaleEntry) :
    (d.modScale n f).scaleEntry m = if m = n then f (d.scaleEntry n) else d.scaleEntry m := Tab.get_upd ..
@[simp] theorem Dev.scaleEntry_modScale_self (d : Dev) (n : Nat) (f : ScaleEntry → ScaleEntry) : (d.modScale n f).scaleEntry n = f (d.scaleEntry n) :=
  Tab.get_upd_self ..
theorem Dev.plan_modPlan (d : Dev) (n m : Nat) (f : Plan → Plan) :
    (d.modPlan n f).plan m = if m = n then f (d.plan n) else d.plan m := Tab.get_upd ..
@[simp] theorem Dev.plan_modPlan_self (d : Dev) (n : Nat) (f : Plan → Plan) : (d.modPlan n f).plan n = f (d.plan n) :=
  Tab.get_upd_self ..
theorem Dev.runOf_modRun (d : Dev) (n m : Nat) (f : Run → Run) :
    (d.modRun n f).runOf m = if m = n then f (d.runOf n) else d.runOf m := Tab.get_upd ..
@[simp] theorem Dev.runOf_modRun_self (d : Dev) (n : Nat) (f : Run → Run) : (d.modRun n f).runOf n = f (d.runOf n) :=
  Tab.get_upd_self ..
theorem Dev.extent_modExtent (d : Dev) (n m : Nat) (f : Extent → Extent) :
    (d.modExtent n f).extent m = if m = n then f (d.extent n) else d.extent m := Tab.get_upd ..
@[simp] theorem Dev.extent_modExtent_self (d : Dev) (n : Nat) (f : Extent → Extent) : (d.modExtent n f).extent n = f (d.extent n) :=
  Tab.get_upd_self ..
theorem Dev.flashOf_modFlash (d : Dev) (n m : Nat) (f : Flash → Flash) :
    (d.modFlash n f).flashOf m = if m = n then f (d.flashOf n) else d.flashOf m := Tab.get_upd ..
@[simp] theorem Dev.flashOf_modFlash_self (d : Dev) (n : Nat) (f : Flash → Flash) : (d.modFlash n f).flashOf n = f (d.flashOf n) :=
  Tab.get_upd_self ..
theorem Dev.haven_modHaven (d : Dev) (n m : Nat) (f : Haven → Haven) :
    (d.modHaven n f).haven m = if m = n then f (d.haven n) else d.haven m := Tab.get_upd ..
@[simp] theorem Dev.haven_modHaven_self (d : Dev) (n : Nat) (f : Haven → Haven) : (d.modHaven n f).haven n = f (d.haven n) :=
  Tab.get_upd_self ..
theorem Dev.job_modJob (d : Dev) (n m : Nat) (f : Job → Job) :
    (d.modJob n f).job m = if m = n then f (d.job n) else d.job m := Tab.get_upd ..
@[simp] theorem Dev.job_modJob_self (d : Dev) (n : Nat) (f : Job → Job) : (d.modJob n f).job n = f (d.job n) :=
  Tab.get_upd_self ..
theorem Dev.port_modPort (d : Dev) (n m : Nat) (f : Port → Port) :
    (d.modPort n f).port m = if m = n then f (d.port n) else d.port m := Tab.get_upd ..
@[simp] theorem Dev.port_modPort_self (d : Dev) (n : Nat) (f : Port → Port) : (d.modPort n f).port n = f (d.port n) :=
  Tab.get_upd_self ..
theorem Dev.group_modGroup (d : Dev) (n m : Nat) (f : Group → Group) :
    (d.modGroup n f).group m = if m = n then f (d.group n) else d.group m := Tab.get_upd ..
@[simp] theorem Dev.group_modGroup_self (d : Dev) (n : Nat) (f : Group → Group) : (d.modGroup n f).group n = f (d.group n) :=
  Tab.get_upd_self ..
theorem Dev.charter_modCharter (d : Dev) (n m : Nat) (f : Charter → Charter) :
    (d.modCharter n f).charter m = if m = n then f (d.charter n) else d.charter m := Tab.get_upd ..
@[simp] theorem Dev.charter_modCharter_self (d : Dev) (n : Nat) (f : Charter → Charter) : (d.modCharter n f).charter n = f (d.charter n) :=
  Tab.get_upd_self ..

/-! #### Entries of other tables -/

@[simp] theorem Dev.queue_modFn (d : Dev) (n : Nat) (f : Function → Function) (m : Nat) : (d.modFn n f).queue m = d.queue m := rfl
@[simp] theorem Dev.ctx_modFn (d : Dev) (n : Nat) (f : Function → Function) (m : Nat) : (d.modFn n f).ctx m = d.ctx m := rfl
@[simp] theorem Dev.mapEntry_modFn (d : Dev) (n : Nat) (f : Function → Function) (m : Nat) : (d.modFn n f).mapEntry m = d.mapEntry m := rfl
@[simp] theorem Dev.fence_modFn (d : Dev) (n : Nat) (f : Function → Function) (m : Nat) : (d.modFn n f).fence m = d.fence m := rfl
@[simp] theorem Dev.tile_modFn (d : Dev) (n : Nat) (f : Function → Function) (m : Nat) : (d.modFn n f).tile m = d.tile m := rfl
@[simp] theorem Dev.seam_modFn (d : Dev) (n : Nat) (f : Function → Function) (m : Nat) : (d.modFn n f).seam m = d.seam m := rfl
@[simp] theorem Dev.arb_modFn (d : Dev) (n : Nat) (f : Function → Function) (m : Nat) : (d.modFn n f).arb m = d.arb m := rfl
@[simp] theorem Dev.hub_modFn (d : Dev) (n : Nat) (f : Function → Function) (m : Nat) : (d.modFn n f).hub m = d.hub m := rfl
@[simp] theorem Dev.region_modFn (d : Dev) (n : Nat) (f : Function → Function) (m : Nat) : (d.modFn n f).region m = d.region m := rfl
@[simp] theorem Dev.counterBlock_modFn (d : Dev) (n : Nat) (f : Function → Function) (m : Nat) : (d.modFn n f).counterBlock m = d.counterBlock m := rfl
@[simp] theorem Dev.keyId_modFn (d : Dev) (n : Nat) (f : Function → Function) (m : Nat) : (d.modFn n f).keyId m = d.keyId m := rfl
@[simp] theorem Dev.badLine_modFn (d : Dev) (n : Nat) (f : Function → Function) (m : Nat) : (d.modFn n f).badLine m = d.badLine m := rfl
@[simp] theorem Dev.scaleEntry_modFn (d : Dev) (n : Nat) (f : Function → Function) (m : Nat) : (d.modFn n f).scaleEntry m = d.scaleEntry m := rfl
@[simp] theorem Dev.plan_modFn (d : Dev) (n : Nat) (f : Function → Function) (m : Nat) : (d.modFn n f).plan m = d.plan m := rfl
@[simp] theorem Dev.runOf_modFn (d : Dev) (n : Nat) (f : Function → Function) (m : Nat) : (d.modFn n f).runOf m = d.runOf m := rfl
@[simp] theorem Dev.extent_modFn (d : Dev) (n : Nat) (f : Function → Function) (m : Nat) : (d.modFn n f).extent m = d.extent m := rfl
@[simp] theorem Dev.flashOf_modFn (d : Dev) (n : Nat) (f : Function → Function) (m : Nat) : (d.modFn n f).flashOf m = d.flashOf m := rfl
@[simp] theorem Dev.haven_modFn (d : Dev) (n : Nat) (f : Function → Function) (m : Nat) : (d.modFn n f).haven m = d.haven m := rfl
@[simp] theorem Dev.job_modFn (d : Dev) (n : Nat) (f : Function → Function) (m : Nat) : (d.modFn n f).job m = d.job m := rfl
@[simp] theorem Dev.port_modFn (d : Dev) (n : Nat) (f : Function → Function) (m : Nat) : (d.modFn n f).port m = d.port m := rfl
@[simp] theorem Dev.group_modFn (d : Dev) (n : Nat) (f : Function → Function) (m : Nat) : (d.modFn n f).group m = d.group m := rfl
@[simp] theorem Dev.charter_modFn (d : Dev) (n : Nat) (f : Function → Function) (m : Nat) : (d.modFn n f).charter m = d.charter m := rfl
@[simp] theorem Dev.fn_modQueue (d : Dev) (n : Nat) (f : Queue → Queue) (m : Nat) : (d.modQueue n f).fn m = d.fn m := rfl
@[simp] theorem Dev.ctx_modQueue (d : Dev) (n : Nat) (f : Queue → Queue) (m : Nat) : (d.modQueue n f).ctx m = d.ctx m := rfl
@[simp] theorem Dev.mapEntry_modQueue (d : Dev) (n : Nat) (f : Queue → Queue) (m : Nat) : (d.modQueue n f).mapEntry m = d.mapEntry m := rfl
@[simp] theorem Dev.fence_modQueue (d : Dev) (n : Nat) (f : Queue → Queue) (m : Nat) : (d.modQueue n f).fence m = d.fence m := rfl
@[simp] theorem Dev.tile_modQueue (d : Dev) (n : Nat) (f : Queue → Queue) (m : Nat) : (d.modQueue n f).tile m = d.tile m := rfl
@[simp] theorem Dev.seam_modQueue (d : Dev) (n : Nat) (f : Queue → Queue) (m : Nat) : (d.modQueue n f).seam m = d.seam m := rfl
@[simp] theorem Dev.arb_modQueue (d : Dev) (n : Nat) (f : Queue → Queue) (m : Nat) : (d.modQueue n f).arb m = d.arb m := rfl
@[simp] theorem Dev.hub_modQueue (d : Dev) (n : Nat) (f : Queue → Queue) (m : Nat) : (d.modQueue n f).hub m = d.hub m := rfl
@[simp] theorem Dev.region_modQueue (d : Dev) (n : Nat) (f : Queue → Queue) (m : Nat) : (d.modQueue n f).region m = d.region m := rfl
@[simp] theorem Dev.counterBlock_modQueue (d : Dev) (n : Nat) (f : Queue → Queue) (m : Nat) : (d.modQueue n f).counterBlock m = d.counterBlock m := rfl
@[simp] theorem Dev.keyId_modQueue (d : Dev) (n : Nat) (f : Queue → Queue) (m : Nat) : (d.modQueue n f).keyId m = d.keyId m := rfl
@[simp] theorem Dev.badLine_modQueue (d : Dev) (n : Nat) (f : Queue → Queue) (m : Nat) : (d.modQueue n f).badLine m = d.badLine m := rfl
@[simp] theorem Dev.scaleEntry_modQueue (d : Dev) (n : Nat) (f : Queue → Queue) (m : Nat) : (d.modQueue n f).scaleEntry m = d.scaleEntry m := rfl
@[simp] theorem Dev.plan_modQueue (d : Dev) (n : Nat) (f : Queue → Queue) (m : Nat) : (d.modQueue n f).plan m = d.plan m := rfl
@[simp] theorem Dev.runOf_modQueue (d : Dev) (n : Nat) (f : Queue → Queue) (m : Nat) : (d.modQueue n f).runOf m = d.runOf m := rfl
@[simp] theorem Dev.extent_modQueue (d : Dev) (n : Nat) (f : Queue → Queue) (m : Nat) : (d.modQueue n f).extent m = d.extent m := rfl
@[simp] theorem Dev.flashOf_modQueue (d : Dev) (n : Nat) (f : Queue → Queue) (m : Nat) : (d.modQueue n f).flashOf m = d.flashOf m := rfl
@[simp] theorem Dev.haven_modQueue (d : Dev) (n : Nat) (f : Queue → Queue) (m : Nat) : (d.modQueue n f).haven m = d.haven m := rfl
@[simp] theorem Dev.job_modQueue (d : Dev) (n : Nat) (f : Queue → Queue) (m : Nat) : (d.modQueue n f).job m = d.job m := rfl
@[simp] theorem Dev.port_modQueue (d : Dev) (n : Nat) (f : Queue → Queue) (m : Nat) : (d.modQueue n f).port m = d.port m := rfl
@[simp] theorem Dev.group_modQueue (d : Dev) (n : Nat) (f : Queue → Queue) (m : Nat) : (d.modQueue n f).group m = d.group m := rfl
@[simp] theorem Dev.charter_modQueue (d : Dev) (n : Nat) (f : Queue → Queue) (m : Nat) : (d.modQueue n f).charter m = d.charter m := rfl
@[simp] theorem Dev.fn_modCtx (d : Dev) (n : Nat) (f : Context → Context) (m : Nat) : (d.modCtx n f).fn m = d.fn m := rfl
@[simp] theorem Dev.queue_modCtx (d : Dev) (n : Nat) (f : Context → Context) (m : Nat) : (d.modCtx n f).queue m = d.queue m := rfl
@[simp] theorem Dev.mapEntry_modCtx (d : Dev) (n : Nat) (f : Context → Context) (m : Nat) : (d.modCtx n f).mapEntry m = d.mapEntry m := rfl
@[simp] theorem Dev.fence_modCtx (d : Dev) (n : Nat) (f : Context → Context) (m : Nat) : (d.modCtx n f).fence m = d.fence m := rfl
@[simp] theorem Dev.tile_modCtx (d : Dev) (n : Nat) (f : Context → Context) (m : Nat) : (d.modCtx n f).tile m = d.tile m := rfl
@[simp] theorem Dev.seam_modCtx (d : Dev) (n : Nat) (f : Context → Context) (m : Nat) : (d.modCtx n f).seam m = d.seam m := rfl
@[simp] theorem Dev.arb_modCtx (d : Dev) (n : Nat) (f : Context → Context) (m : Nat) : (d.modCtx n f).arb m = d.arb m := rfl
@[simp] theorem Dev.hub_modCtx (d : Dev) (n : Nat) (f : Context → Context) (m : Nat) : (d.modCtx n f).hub m = d.hub m := rfl
@[simp] theorem Dev.region_modCtx (d : Dev) (n : Nat) (f : Context → Context) (m : Nat) : (d.modCtx n f).region m = d.region m := rfl
@[simp] theorem Dev.counterBlock_modCtx (d : Dev) (n : Nat) (f : Context → Context) (m : Nat) : (d.modCtx n f).counterBlock m = d.counterBlock m := rfl
@[simp] theorem Dev.keyId_modCtx (d : Dev) (n : Nat) (f : Context → Context) (m : Nat) : (d.modCtx n f).keyId m = d.keyId m := rfl
@[simp] theorem Dev.badLine_modCtx (d : Dev) (n : Nat) (f : Context → Context) (m : Nat) : (d.modCtx n f).badLine m = d.badLine m := rfl
@[simp] theorem Dev.scaleEntry_modCtx (d : Dev) (n : Nat) (f : Context → Context) (m : Nat) : (d.modCtx n f).scaleEntry m = d.scaleEntry m := rfl
@[simp] theorem Dev.plan_modCtx (d : Dev) (n : Nat) (f : Context → Context) (m : Nat) : (d.modCtx n f).plan m = d.plan m := rfl
@[simp] theorem Dev.runOf_modCtx (d : Dev) (n : Nat) (f : Context → Context) (m : Nat) : (d.modCtx n f).runOf m = d.runOf m := rfl
@[simp] theorem Dev.extent_modCtx (d : Dev) (n : Nat) (f : Context → Context) (m : Nat) : (d.modCtx n f).extent m = d.extent m := rfl
@[simp] theorem Dev.flashOf_modCtx (d : Dev) (n : Nat) (f : Context → Context) (m : Nat) : (d.modCtx n f).flashOf m = d.flashOf m := rfl
@[simp] theorem Dev.haven_modCtx (d : Dev) (n : Nat) (f : Context → Context) (m : Nat) : (d.modCtx n f).haven m = d.haven m := rfl
@[simp] theorem Dev.job_modCtx (d : Dev) (n : Nat) (f : Context → Context) (m : Nat) : (d.modCtx n f).job m = d.job m := rfl
@[simp] theorem Dev.port_modCtx (d : Dev) (n : Nat) (f : Context → Context) (m : Nat) : (d.modCtx n f).port m = d.port m := rfl
@[simp] theorem Dev.group_modCtx (d : Dev) (n : Nat) (f : Context → Context) (m : Nat) : (d.modCtx n f).group m = d.group m := rfl
@[simp] theorem Dev.charter_modCtx (d : Dev) (n : Nat) (f : Context → Context) (m : Nat) : (d.modCtx n f).charter m = d.charter m := rfl
@[simp] theorem Dev.fn_modMap (d : Dev) (n : Nat) (f : MapEntry → MapEntry) (m : Nat) : (d.modMap n f).fn m = d.fn m := rfl
@[simp] theorem Dev.queue_modMap (d : Dev) (n : Nat) (f : MapEntry → MapEntry) (m : Nat) : (d.modMap n f).queue m = d.queue m := rfl
@[simp] theorem Dev.ctx_modMap (d : Dev) (n : Nat) (f : MapEntry → MapEntry) (m : Nat) : (d.modMap n f).ctx m = d.ctx m := rfl
@[simp] theorem Dev.fence_modMap (d : Dev) (n : Nat) (f : MapEntry → MapEntry) (m : Nat) : (d.modMap n f).fence m = d.fence m := rfl
@[simp] theorem Dev.tile_modMap (d : Dev) (n : Nat) (f : MapEntry → MapEntry) (m : Nat) : (d.modMap n f).tile m = d.tile m := rfl
@[simp] theorem Dev.seam_modMap (d : Dev) (n : Nat) (f : MapEntry → MapEntry) (m : Nat) : (d.modMap n f).seam m = d.seam m := rfl
@[simp] theorem Dev.arb_modMap (d : Dev) (n : Nat) (f : MapEntry → MapEntry) (m : Nat) : (d.modMap n f).arb m = d.arb m := rfl
@[simp] theorem Dev.hub_modMap (d : Dev) (n : Nat) (f : MapEntry → MapEntry) (m : Nat) : (d.modMap n f).hub m = d.hub m := rfl
@[simp] theorem Dev.region_modMap (d : Dev) (n : Nat) (f : MapEntry → MapEntry) (m : Nat) : (d.modMap n f).region m = d.region m := rfl
@[simp] theorem Dev.counterBlock_modMap (d : Dev) (n : Nat) (f : MapEntry → MapEntry) (m : Nat) : (d.modMap n f).counterBlock m = d.counterBlock m := rfl
@[simp] theorem Dev.keyId_modMap (d : Dev) (n : Nat) (f : MapEntry → MapEntry) (m : Nat) : (d.modMap n f).keyId m = d.keyId m := rfl
@[simp] theorem Dev.badLine_modMap (d : Dev) (n : Nat) (f : MapEntry → MapEntry) (m : Nat) : (d.modMap n f).badLine m = d.badLine m := rfl
@[simp] theorem Dev.scaleEntry_modMap (d : Dev) (n : Nat) (f : MapEntry → MapEntry) (m : Nat) : (d.modMap n f).scaleEntry m = d.scaleEntry m := rfl
@[simp] theorem Dev.plan_modMap (d : Dev) (n : Nat) (f : MapEntry → MapEntry) (m : Nat) : (d.modMap n f).plan m = d.plan m := rfl
@[simp] theorem Dev.runOf_modMap (d : Dev) (n : Nat) (f : MapEntry → MapEntry) (m : Nat) : (d.modMap n f).runOf m = d.runOf m := rfl
@[simp] theorem Dev.extent_modMap (d : Dev) (n : Nat) (f : MapEntry → MapEntry) (m : Nat) : (d.modMap n f).extent m = d.extent m := rfl
@[simp] theorem Dev.flashOf_modMap (d : Dev) (n : Nat) (f : MapEntry → MapEntry) (m : Nat) : (d.modMap n f).flashOf m = d.flashOf m := rfl
@[simp] theorem Dev.haven_modMap (d : Dev) (n : Nat) (f : MapEntry → MapEntry) (m : Nat) : (d.modMap n f).haven m = d.haven m := rfl
@[simp] theorem Dev.job_modMap (d : Dev) (n : Nat) (f : MapEntry → MapEntry) (m : Nat) : (d.modMap n f).job m = d.job m := rfl
@[simp] theorem Dev.port_modMap (d : Dev) (n : Nat) (f : MapEntry → MapEntry) (m : Nat) : (d.modMap n f).port m = d.port m := rfl
@[simp] theorem Dev.group_modMap (d : Dev) (n : Nat) (f : MapEntry → MapEntry) (m : Nat) : (d.modMap n f).group m = d.group m := rfl
@[simp] theorem Dev.charter_modMap (d : Dev) (n : Nat) (f : MapEntry → MapEntry) (m : Nat) : (d.modMap n f).charter m = d.charter m := rfl
@[simp] theorem Dev.fn_modFence (d : Dev) (n : Nat) (f : Fence → Fence) (m : Nat) : (d.modFence n f).fn m = d.fn m := rfl
@[simp] theorem Dev.queue_modFence (d : Dev) (n : Nat) (f : Fence → Fence) (m : Nat) : (d.modFence n f).queue m = d.queue m := rfl
@[simp] theorem Dev.ctx_modFence (d : Dev) (n : Nat) (f : Fence → Fence) (m : Nat) : (d.modFence n f).ctx m = d.ctx m := rfl
@[simp] theorem Dev.mapEntry_modFence (d : Dev) (n : Nat) (f : Fence → Fence) (m : Nat) : (d.modFence n f).mapEntry m = d.mapEntry m := rfl
@[simp] theorem Dev.tile_modFence (d : Dev) (n : Nat) (f : Fence → Fence) (m : Nat) : (d.modFence n f).tile m = d.tile m := rfl
@[simp] theorem Dev.seam_modFence (d : Dev) (n : Nat) (f : Fence → Fence) (m : Nat) : (d.modFence n f).seam m = d.seam m := rfl
@[simp] theorem Dev.arb_modFence (d : Dev) (n : Nat) (f : Fence → Fence) (m : Nat) : (d.modFence n f).arb m = d.arb m := rfl
@[simp] theorem Dev.hub_modFence (d : Dev) (n : Nat) (f : Fence → Fence) (m : Nat) : (d.modFence n f).hub m = d.hub m := rfl
@[simp] theorem Dev.region_modFence (d : Dev) (n : Nat) (f : Fence → Fence) (m : Nat) : (d.modFence n f).region m = d.region m := rfl
@[simp] theorem Dev.counterBlock_modFence (d : Dev) (n : Nat) (f : Fence → Fence) (m : Nat) : (d.modFence n f).counterBlock m = d.counterBlock m := rfl
@[simp] theorem Dev.keyId_modFence (d : Dev) (n : Nat) (f : Fence → Fence) (m : Nat) : (d.modFence n f).keyId m = d.keyId m := rfl
@[simp] theorem Dev.badLine_modFence (d : Dev) (n : Nat) (f : Fence → Fence) (m : Nat) : (d.modFence n f).badLine m = d.badLine m := rfl
@[simp] theorem Dev.scaleEntry_modFence (d : Dev) (n : Nat) (f : Fence → Fence) (m : Nat) : (d.modFence n f).scaleEntry m = d.scaleEntry m := rfl
@[simp] theorem Dev.plan_modFence (d : Dev) (n : Nat) (f : Fence → Fence) (m : Nat) : (d.modFence n f).plan m = d.plan m := rfl
@[simp] theorem Dev.runOf_modFence (d : Dev) (n : Nat) (f : Fence → Fence) (m : Nat) : (d.modFence n f).runOf m = d.runOf m := rfl
@[simp] theorem Dev.extent_modFence (d : Dev) (n : Nat) (f : Fence → Fence) (m : Nat) : (d.modFence n f).extent m = d.extent m := rfl
@[simp] theorem Dev.flashOf_modFence (d : Dev) (n : Nat) (f : Fence → Fence) (m : Nat) : (d.modFence n f).flashOf m = d.flashOf m := rfl
@[simp] theorem Dev.haven_modFence (d : Dev) (n : Nat) (f : Fence → Fence) (m : Nat) : (d.modFence n f).haven m = d.haven m := rfl
@[simp] theorem Dev.job_modFence (d : Dev) (n : Nat) (f : Fence → Fence) (m : Nat) : (d.modFence n f).job m = d.job m := rfl
@[simp] theorem Dev.port_modFence (d : Dev) (n : Nat) (f : Fence → Fence) (m : Nat) : (d.modFence n f).port m = d.port m := rfl
@[simp] theorem Dev.group_modFence (d : Dev) (n : Nat) (f : Fence → Fence) (m : Nat) : (d.modFence n f).group m = d.group m := rfl
@[simp] theorem Dev.charter_modFence (d : Dev) (n : Nat) (f : Fence → Fence) (m : Nat) : (d.modFence n f).charter m = d.charter m := rfl
@[simp] theorem Dev.fn_modTile (d : Dev) (n : Nat) (f : Tile → Tile) (m : Nat) : (d.modTile n f).fn m = d.fn m := rfl
@[simp] theorem Dev.queue_modTile (d : Dev) (n : Nat) (f : Tile → Tile) (m : Nat) : (d.modTile n f).queue m = d.queue m := rfl
@[simp] theorem Dev.ctx_modTile (d : Dev) (n : Nat) (f : Tile → Tile) (m : Nat) : (d.modTile n f).ctx m = d.ctx m := rfl
@[simp] theorem Dev.mapEntry_modTile (d : Dev) (n : Nat) (f : Tile → Tile) (m : Nat) : (d.modTile n f).mapEntry m = d.mapEntry m := rfl
@[simp] theorem Dev.fence_modTile (d : Dev) (n : Nat) (f : Tile → Tile) (m : Nat) : (d.modTile n f).fence m = d.fence m := rfl
@[simp] theorem Dev.seam_modTile (d : Dev) (n : Nat) (f : Tile → Tile) (m : Nat) : (d.modTile n f).seam m = d.seam m := rfl
@[simp] theorem Dev.arb_modTile (d : Dev) (n : Nat) (f : Tile → Tile) (m : Nat) : (d.modTile n f).arb m = d.arb m := rfl
@[simp] theorem Dev.hub_modTile (d : Dev) (n : Nat) (f : Tile → Tile) (m : Nat) : (d.modTile n f).hub m = d.hub m := rfl
@[simp] theorem Dev.region_modTile (d : Dev) (n : Nat) (f : Tile → Tile) (m : Nat) : (d.modTile n f).region m = d.region m := rfl
@[simp] theorem Dev.counterBlock_modTile (d : Dev) (n : Nat) (f : Tile → Tile) (m : Nat) : (d.modTile n f).counterBlock m = d.counterBlock m := rfl
@[simp] theorem Dev.keyId_modTile (d : Dev) (n : Nat) (f : Tile → Tile) (m : Nat) : (d.modTile n f).keyId m = d.keyId m := rfl
@[simp] theorem Dev.badLine_modTile (d : Dev) (n : Nat) (f : Tile → Tile) (m : Nat) : (d.modTile n f).badLine m = d.badLine m := rfl
@[simp] theorem Dev.scaleEntry_modTile (d : Dev) (n : Nat) (f : Tile → Tile) (m : Nat) : (d.modTile n f).scaleEntry m = d.scaleEntry m := rfl
@[simp] theorem Dev.plan_modTile (d : Dev) (n : Nat) (f : Tile → Tile) (m : Nat) : (d.modTile n f).plan m = d.plan m := rfl
@[simp] theorem Dev.runOf_modTile (d : Dev) (n : Nat) (f : Tile → Tile) (m : Nat) : (d.modTile n f).runOf m = d.runOf m := rfl
@[simp] theorem Dev.extent_modTile (d : Dev) (n : Nat) (f : Tile → Tile) (m : Nat) : (d.modTile n f).extent m = d.extent m := rfl
@[simp] theorem Dev.flashOf_modTile (d : Dev) (n : Nat) (f : Tile → Tile) (m : Nat) : (d.modTile n f).flashOf m = d.flashOf m := rfl
@[simp] theorem Dev.haven_modTile (d : Dev) (n : Nat) (f : Tile → Tile) (m : Nat) : (d.modTile n f).haven m = d.haven m := rfl
@[simp] theorem Dev.job_modTile (d : Dev) (n : Nat) (f : Tile → Tile) (m : Nat) : (d.modTile n f).job m = d.job m := rfl
@[simp] theorem Dev.port_modTile (d : Dev) (n : Nat) (f : Tile → Tile) (m : Nat) : (d.modTile n f).port m = d.port m := rfl
@[simp] theorem Dev.group_modTile (d : Dev) (n : Nat) (f : Tile → Tile) (m : Nat) : (d.modTile n f).group m = d.group m := rfl
@[simp] theorem Dev.charter_modTile (d : Dev) (n : Nat) (f : Tile → Tile) (m : Nat) : (d.modTile n f).charter m = d.charter m := rfl
@[simp] theorem Dev.fn_modSeam (d : Dev) (n : Nat) (f : Seam → Seam) (m : Nat) : (d.modSeam n f).fn m = d.fn m := rfl
@[simp] theorem Dev.queue_modSeam (d : Dev) (n : Nat) (f : Seam → Seam) (m : Nat) : (d.modSeam n f).queue m = d.queue m := rfl
@[simp] theorem Dev.ctx_modSeam (d : Dev) (n : Nat) (f : Seam → Seam) (m : Nat) : (d.modSeam n f).ctx m = d.ctx m := rfl
@[simp] theorem Dev.mapEntry_modSeam (d : Dev) (n : Nat) (f : Seam → Seam) (m : Nat) : (d.modSeam n f).mapEntry m = d.mapEntry m := rfl
@[simp] theorem Dev.fence_modSeam (d : Dev) (n : Nat) (f : Seam → Seam) (m : Nat) : (d.modSeam n f).fence m = d.fence m := rfl
@[simp] theorem Dev.tile_modSeam (d : Dev) (n : Nat) (f : Seam → Seam) (m : Nat) : (d.modSeam n f).tile m = d.tile m := rfl
@[simp] theorem Dev.arb_modSeam (d : Dev) (n : Nat) (f : Seam → Seam) (m : Nat) : (d.modSeam n f).arb m = d.arb m := rfl
@[simp] theorem Dev.hub_modSeam (d : Dev) (n : Nat) (f : Seam → Seam) (m : Nat) : (d.modSeam n f).hub m = d.hub m := rfl
@[simp] theorem Dev.region_modSeam (d : Dev) (n : Nat) (f : Seam → Seam) (m : Nat) : (d.modSeam n f).region m = d.region m := rfl
@[simp] theorem Dev.counterBlock_modSeam (d : Dev) (n : Nat) (f : Seam → Seam) (m : Nat) : (d.modSeam n f).counterBlock m = d.counterBlock m := rfl
@[simp] theorem Dev.keyId_modSeam (d : Dev) (n : Nat) (f : Seam → Seam) (m : Nat) : (d.modSeam n f).keyId m = d.keyId m := rfl
@[simp] theorem Dev.badLine_modSeam (d : Dev) (n : Nat) (f : Seam → Seam) (m : Nat) : (d.modSeam n f).badLine m = d.badLine m := rfl
@[simp] theorem Dev.scaleEntry_modSeam (d : Dev) (n : Nat) (f : Seam → Seam) (m : Nat) : (d.modSeam n f).scaleEntry m = d.scaleEntry m := rfl
@[simp] theorem Dev.plan_modSeam (d : Dev) (n : Nat) (f : Seam → Seam) (m : Nat) : (d.modSeam n f).plan m = d.plan m := rfl
@[simp] theorem Dev.runOf_modSeam (d : Dev) (n : Nat) (f : Seam → Seam) (m : Nat) : (d.modSeam n f).runOf m = d.runOf m := rfl
@[simp] theorem Dev.extent_modSeam (d : Dev) (n : Nat) (f : Seam → Seam) (m : Nat) : (d.modSeam n f).extent m = d.extent m := rfl
@[simp] theorem Dev.flashOf_modSeam (d : Dev) (n : Nat) (f : Seam → Seam) (m : Nat) : (d.modSeam n f).flashOf m = d.flashOf m := rfl
@[simp] theorem Dev.haven_modSeam (d : Dev) (n : Nat) (f : Seam → Seam) (m : Nat) : (d.modSeam n f).haven m = d.haven m := rfl
@[simp] theorem Dev.job_modSeam (d : Dev) (n : Nat) (f : Seam → Seam) (m : Nat) : (d.modSeam n f).job m = d.job m := rfl
@[simp] theorem Dev.port_modSeam (d : Dev) (n : Nat) (f : Seam → Seam) (m : Nat) : (d.modSeam n f).port m = d.port m := rfl
@[simp] theorem Dev.group_modSeam (d : Dev) (n : Nat) (f : Seam → Seam) (m : Nat) : (d.modSeam n f).group m = d.group m := rfl
@[simp] theorem Dev.charter_modSeam (d : Dev) (n : Nat) (f : Seam → Seam) (m : Nat) : (d.modSeam n f).charter m = d.charter m := rfl
@[simp] theorem Dev.fn_modArb (d : Dev) (n : Nat) (f : Arbiter → Arbiter) (m : Nat) : (d.modArb n f).fn m = d.fn m := rfl
@[simp] theorem Dev.queue_modArb (d : Dev) (n : Nat) (f : Arbiter → Arbiter) (m : Nat) : (d.modArb n f).queue m = d.queue m := rfl
@[simp] theorem Dev.ctx_modArb (d : Dev) (n : Nat) (f : Arbiter → Arbiter) (m : Nat) : (d.modArb n f).ctx m = d.ctx m := rfl
@[simp] theorem Dev.mapEntry_modArb (d : Dev) (n : Nat) (f : Arbiter → Arbiter) (m : Nat) : (d.modArb n f).mapEntry m = d.mapEntry m := rfl
@[simp] theorem Dev.fence_modArb (d : Dev) (n : Nat) (f : Arbiter → Arbiter) (m : Nat) : (d.modArb n f).fence m = d.fence m := rfl
@[simp] theorem Dev.tile_modArb (d : Dev) (n : Nat) (f : Arbiter → Arbiter) (m : Nat) : (d.modArb n f).tile m = d.tile m := rfl
@[simp] theorem Dev.seam_modArb (d : Dev) (n : Nat) (f : Arbiter → Arbiter) (m : Nat) : (d.modArb n f).seam m = d.seam m := rfl
@[simp] theorem Dev.hub_modArb (d : Dev) (n : Nat) (f : Arbiter → Arbiter) (m : Nat) : (d.modArb n f).hub m = d.hub m := rfl
@[simp] theorem Dev.region_modArb (d : Dev) (n : Nat) (f : Arbiter → Arbiter) (m : Nat) : (d.modArb n f).region m = d.region m := rfl
@[simp] theorem Dev.counterBlock_modArb (d : Dev) (n : Nat) (f : Arbiter → Arbiter) (m : Nat) : (d.modArb n f).counterBlock m = d.counterBlock m := rfl
@[simp] theorem Dev.keyId_modArb (d : Dev) (n : Nat) (f : Arbiter → Arbiter) (m : Nat) : (d.modArb n f).keyId m = d.keyId m := rfl
@[simp] theorem Dev.badLine_modArb (d : Dev) (n : Nat) (f : Arbiter → Arbiter) (m : Nat) : (d.modArb n f).badLine m = d.badLine m := rfl
@[simp] theorem Dev.scaleEntry_modArb (d : Dev) (n : Nat) (f : Arbiter → Arbiter) (m : Nat) : (d.modArb n f).scaleEntry m = d.scaleEntry m := rfl
@[simp] theorem Dev.plan_modArb (d : Dev) (n : Nat) (f : Arbiter → Arbiter) (m : Nat) : (d.modArb n f).plan m = d.plan m := rfl
@[simp] theorem Dev.runOf_modArb (d : Dev) (n : Nat) (f : Arbiter → Arbiter) (m : Nat) : (d.modArb n f).runOf m = d.runOf m := rfl
@[simp] theorem Dev.extent_modArb (d : Dev) (n : Nat) (f : Arbiter → Arbiter) (m : Nat) : (d.modArb n f).extent m = d.extent m := rfl
@[simp] theorem Dev.flashOf_modArb (d : Dev) (n : Nat) (f : Arbiter → Arbiter) (m : Nat) : (d.modArb n f).flashOf m = d.flashOf m := rfl
@[simp] theorem Dev.haven_modArb (d : Dev) (n : Nat) (f : Arbiter → Arbiter) (m : Nat) : (d.modArb n f).haven m = d.haven m := rfl
@[simp] theorem Dev.job_modArb (d : Dev) (n : Nat) (f : Arbiter → Arbiter) (m : Nat) : (d.modArb n f).job m = d.job m := rfl
@[simp] theorem Dev.port_modArb (d : Dev) (n : Nat) (f : Arbiter → Arbiter) (m : Nat) : (d.modArb n f).port m = d.port m := rfl
@[simp] theorem Dev.group_modArb (d : Dev) (n : Nat) (f : Arbiter → Arbiter) (m : Nat) : (d.modArb n f).group m = d.group m := rfl
@[simp] theorem Dev.charter_modArb (d : Dev) (n : Nat) (f : Arbiter → Arbiter) (m : Nat) : (d.modArb n f).charter m = d.charter m := rfl
@[simp] theorem Dev.fn_modHub (d : Dev) (n : Nat) (f : Hub → Hub) (m : Nat) : (d.modHub n f).fn m = d.fn m := rfl
@[simp] theorem Dev.queue_modHub (d : Dev) (n : Nat) (f : Hub → Hub) (m : Nat) : (d.modHub n f).queue m = d.queue m := rfl
@[simp] theorem Dev.ctx_modHub (d : Dev) (n : Nat) (f : Hub → Hub) (m : Nat) : (d.modHub n f).ctx m = d.ctx m := rfl
@[simp] theorem Dev.mapEntry_modHub (d : Dev) (n : Nat) (f : Hub → Hub) (m : Nat) : (d.modHub n f).mapEntry m = d.mapEntry m := rfl
@[simp] theorem Dev.fence_modHub (d : Dev) (n : Nat) (f : Hub → Hub) (m : Nat) : (d.modHub n f).fence m = d.fence m := rfl
@[simp] theorem Dev.tile_modHub (d : Dev) (n : Nat) (f : Hub → Hub) (m : Nat) : (d.modHub n f).tile m = d.tile m := rfl
@[simp] theorem Dev.seam_modHub (d : Dev) (n : Nat) (f : Hub → Hub) (m : Nat) : (d.modHub n f).seam m = d.seam m := rfl
@[simp] theorem Dev.arb_modHub (d : Dev) (n : Nat) (f : Hub → Hub) (m : Nat) : (d.modHub n f).arb m = d.arb m := rfl
@[simp] theorem Dev.region_modHub (d : Dev) (n : Nat) (f : Hub → Hub) (m : Nat) : (d.modHub n f).region m = d.region m := rfl
@[simp] theorem Dev.counterBlock_modHub (d : Dev) (n : Nat) (f : Hub → Hub) (m : Nat) : (d.modHub n f).counterBlock m = d.counterBlock m := rfl
@[simp] theorem Dev.keyId_modHub (d : Dev) (n : Nat) (f : Hub → Hub) (m : Nat) : (d.modHub n f).keyId m = d.keyId m := rfl
@[simp] theorem Dev.badLine_modHub (d : Dev) (n : Nat) (f : Hub → Hub) (m : Nat) : (d.modHub n f).badLine m = d.badLine m := rfl
@[simp] theorem Dev.scaleEntry_modHub (d : Dev) (n : Nat) (f : Hub → Hub) (m : Nat) : (d.modHub n f).scaleEntry m = d.scaleEntry m := rfl
@[simp] theorem Dev.plan_modHub (d : Dev) (n : Nat) (f : Hub → Hub) (m : Nat) : (d.modHub n f).plan m = d.plan m := rfl
@[simp] theorem Dev.runOf_modHub (d : Dev) (n : Nat) (f : Hub → Hub) (m : Nat) : (d.modHub n f).runOf m = d.runOf m := rfl
@[simp] theorem Dev.extent_modHub (d : Dev) (n : Nat) (f : Hub → Hub) (m : Nat) : (d.modHub n f).extent m = d.extent m := rfl
@[simp] theorem Dev.flashOf_modHub (d : Dev) (n : Nat) (f : Hub → Hub) (m : Nat) : (d.modHub n f).flashOf m = d.flashOf m := rfl
@[simp] theorem Dev.haven_modHub (d : Dev) (n : Nat) (f : Hub → Hub) (m : Nat) : (d.modHub n f).haven m = d.haven m := rfl
@[simp] theorem Dev.job_modHub (d : Dev) (n : Nat) (f : Hub → Hub) (m : Nat) : (d.modHub n f).job m = d.job m := rfl
@[simp] theorem Dev.port_modHub (d : Dev) (n : Nat) (f : Hub → Hub) (m : Nat) : (d.modHub n f).port m = d.port m := rfl
@[simp] theorem Dev.group_modHub (d : Dev) (n : Nat) (f : Hub → Hub) (m : Nat) : (d.modHub n f).group m = d.group m := rfl
@[simp] theorem Dev.charter_modHub (d : Dev) (n : Nat) (f : Hub → Hub) (m : Nat) : (d.modHub n f).charter m = d.charter m := rfl
@[simp] theorem Dev.fn_modRegion (d : Dev) (n : Nat) (f : MemRegion → MemRegion) (m : Nat) : (d.modRegion n f).fn m = d.fn m := rfl
@[simp] theorem Dev.queue_modRegion (d : Dev) (n : Nat) (f : MemRegion → MemRegion) (m : Nat) : (d.modRegion n f).queue m = d.queue m := rfl
@[simp] theorem Dev.ctx_modRegion (d : Dev) (n : Nat) (f : MemRegion → MemRegion) (m : Nat) : (d.modRegion n f).ctx m = d.ctx m := rfl
@[simp] theorem Dev.mapEntry_modRegion (d : Dev) (n : Nat) (f : MemRegion → MemRegion) (m : Nat) : (d.modRegion n f).mapEntry m = d.mapEntry m := rfl
@[simp] theorem Dev.fence_modRegion (d : Dev) (n : Nat) (f : MemRegion → MemRegion) (m : Nat) : (d.modRegion n f).fence m = d.fence m := rfl
@[simp] theorem Dev.tile_modRegion (d : Dev) (n : Nat) (f : MemRegion → MemRegion) (m : Nat) : (d.modRegion n f).tile m = d.tile m := rfl
@[simp] theorem Dev.seam_modRegion (d : Dev) (n : Nat) (f : MemRegion → MemRegion) (m : Nat) : (d.modRegion n f).seam m = d.seam m := rfl
@[simp] theorem Dev.arb_modRegion (d : Dev) (n : Nat) (f : MemRegion → MemRegion) (m : Nat) : (d.modRegion n f).arb m = d.arb m := rfl
@[simp] theorem Dev.hub_modRegion (d : Dev) (n : Nat) (f : MemRegion → MemRegion) (m : Nat) : (d.modRegion n f).hub m = d.hub m := rfl
@[simp] theorem Dev.counterBlock_modRegion (d : Dev) (n : Nat) (f : MemRegion → MemRegion) (m : Nat) : (d.modRegion n f).counterBlock m = d.counterBlock m := rfl
@[simp] theorem Dev.keyId_modRegion (d : Dev) (n : Nat) (f : MemRegion → MemRegion) (m : Nat) : (d.modRegion n f).keyId m = d.keyId m := rfl
@[simp] theorem Dev.badLine_modRegion (d : Dev) (n : Nat) (f : MemRegion → MemRegion) (m : Nat) : (d.modRegion n f).badLine m = d.badLine m := rfl
@[simp] theorem Dev.scaleEntry_modRegion (d : Dev) (n : Nat) (f : MemRegion → MemRegion) (m : Nat) : (d.modRegion n f).scaleEntry m = d.scaleEntry m := rfl
@[simp] theorem Dev.plan_modRegion (d : Dev) (n : Nat) (f : MemRegion → MemRegion) (m : Nat) : (d.modRegion n f).plan m = d.plan m := rfl
@[simp] theorem Dev.runOf_modRegion (d : Dev) (n : Nat) (f : MemRegion → MemRegion) (m : Nat) : (d.modRegion n f).runOf m = d.runOf m := rfl
@[simp] theorem Dev.extent_modRegion (d : Dev) (n : Nat) (f : MemRegion → MemRegion) (m : Nat) : (d.modRegion n f).extent m = d.extent m := rfl
@[simp] theorem Dev.flashOf_modRegion (d : Dev) (n : Nat) (f : MemRegion → MemRegion) (m : Nat) : (d.modRegion n f).flashOf m = d.flashOf m := rfl
@[simp] theorem Dev.haven_modRegion (d : Dev) (n : Nat) (f : MemRegion → MemRegion) (m : Nat) : (d.modRegion n f).haven m = d.haven m := rfl
@[simp] theorem Dev.job_modRegion (d : Dev) (n : Nat) (f : MemRegion → MemRegion) (m : Nat) : (d.modRegion n f).job m = d.job m := rfl
@[simp] theorem Dev.port_modRegion (d : Dev) (n : Nat) (f : MemRegion → MemRegion) (m : Nat) : (d.modRegion n f).port m = d.port m := rfl
@[simp] theorem Dev.group_modRegion (d : Dev) (n : Nat) (f : MemRegion → MemRegion) (m : Nat) : (d.modRegion n f).group m = d.group m := rfl
@[simp] theorem Dev.charter_modRegion (d : Dev) (n : Nat) (f : MemRegion → MemRegion) (m : Nat) : (d.modRegion n f).charter m = d.charter m := rfl
@[simp] theorem Dev.fn_modCounter (d : Dev) (n : Nat) (f : CounterBlock → CounterBlock) (m : Nat) : (d.modCounter n f).fn m = d.fn m := rfl
@[simp] theorem Dev.queue_modCounter (d : Dev) (n : Nat) (f : CounterBlock → CounterBlock) (m : Nat) : (d.modCounter n f).queue m = d.queue m := rfl
@[simp] theorem Dev.ctx_modCounter (d : Dev) (n : Nat) (f : CounterBlock → CounterBlock) (m : Nat) : (d.modCounter n f).ctx m = d.ctx m := rfl
@[simp] theorem Dev.mapEntry_modCounter (d : Dev) (n : Nat) (f : CounterBlock → CounterBlock) (m : Nat) : (d.modCounter n f).mapEntry m = d.mapEntry m := rfl
@[simp] theorem Dev.fence_modCounter (d : Dev) (n : Nat) (f : CounterBlock → CounterBlock) (m : Nat) : (d.modCounter n f).fence m = d.fence m := rfl
@[simp] theorem Dev.tile_modCounter (d : Dev) (n : Nat) (f : CounterBlock → CounterBlock) (m : Nat) : (d.modCounter n f).tile m = d.tile m := rfl
@[simp] theorem Dev.seam_modCounter (d : Dev) (n : Nat) (f : CounterBlock → CounterBlock) (m : Nat) : (d.modCounter n f).seam m = d.seam m := rfl
@[simp] theorem Dev.arb_modCounter (d : Dev) (n : Nat) (f : CounterBlock → CounterBlock) (m : Nat) : (d.modCounter n f).arb m = d.arb m := rfl
@[simp] theorem Dev.hub_modCounter (d : Dev) (n : Nat) (f : CounterBlock → CounterBlock) (m : Nat) : (d.modCounter n f).hub m = d.hub m := rfl
@[simp] theorem Dev.region_modCounter (d : Dev) (n : Nat) (f : CounterBlock → CounterBlock) (m : Nat) : (d.modCounter n f).region m = d.region m := rfl
@[simp] theorem Dev.keyId_modCounter (d : Dev) (n : Nat) (f : CounterBlock → CounterBlock) (m : Nat) : (d.modCounter n f).keyId m = d.keyId m := rfl
@[simp] theorem Dev.badLine_modCounter (d : Dev) (n : Nat) (f : CounterBlock → CounterBlock) (m : Nat) : (d.modCounter n f).badLine m = d.badLine m := rfl
@[simp] theorem Dev.scaleEntry_modCounter (d : Dev) (n : Nat) (f : CounterBlock → CounterBlock) (m : Nat) : (d.modCounter n f).scaleEntry m = d.scaleEntry m := rfl
@[simp] theorem Dev.plan_modCounter (d : Dev) (n : Nat) (f : CounterBlock → CounterBlock) (m : Nat) : (d.modCounter n f).plan m = d.plan m := rfl
@[simp] theorem Dev.runOf_modCounter (d : Dev) (n : Nat) (f : CounterBlock → CounterBlock) (m : Nat) : (d.modCounter n f).runOf m = d.runOf m := rfl
@[simp] theorem Dev.extent_modCounter (d : Dev) (n : Nat) (f : CounterBlock → CounterBlock) (m : Nat) : (d.modCounter n f).extent m = d.extent m := rfl
@[simp] theorem Dev.flashOf_modCounter (d : Dev) (n : Nat) (f : CounterBlock → CounterBlock) (m : Nat) : (d.modCounter n f).flashOf m = d.flashOf m := rfl
@[simp] theorem Dev.haven_modCounter (d : Dev) (n : Nat) (f : CounterBlock → CounterBlock) (m : Nat) : (d.modCounter n f).haven m = d.haven m := rfl
@[simp] theorem Dev.job_modCounter (d : Dev) (n : Nat) (f : CounterBlock → CounterBlock) (m : Nat) : (d.modCounter n f).job m = d.job m := rfl
@[simp] theorem Dev.port_modCounter (d : Dev) (n : Nat) (f : CounterBlock → CounterBlock) (m : Nat) : (d.modCounter n f).port m = d.port m := rfl
@[simp] theorem Dev.group_modCounter (d : Dev) (n : Nat) (f : CounterBlock → CounterBlock) (m : Nat) : (d.modCounter n f).group m = d.group m := rfl
@[simp] theorem Dev.charter_modCounter (d : Dev) (n : Nat) (f : CounterBlock → CounterBlock) (m : Nat) : (d.modCounter n f).charter m = d.charter m := rfl
@[simp] theorem Dev.fn_modNode (d : Dev) (n : Nat) (f : CounterBlock → CounterBlock) (m : Nat) : (d.modNode n f).fn m = d.fn m := rfl
@[simp] theorem Dev.queue_modNode (d : Dev) (n : Nat) (f : CounterBlock → CounterBlock) (m : Nat) : (d.modNode n f).queue m = d.queue m := rfl
@[simp] theorem Dev.ctx_modNode (d : Dev) (n : Nat) (f : CounterBlock → CounterBlock) (m : Nat) : (d.modNode n f).ctx m = d.ctx m := rfl
@[simp] theorem Dev.mapEntry_modNode (d : Dev) (n : Nat) (f : CounterBlock → CounterBlock) (m : Nat) : (d.modNode n f).mapEntry m = d.mapEntry m := rfl
@[simp] theorem Dev.fence_modNode (d : Dev) (n : Nat) (f : CounterBlock → CounterBlock) (m : Nat) : (d.modNode n f).fence m = d.fence m := rfl
@[simp] theorem Dev.tile_modNode (d : Dev) (n : Nat) (f : CounterBlock → CounterBlock) (m : Nat) : (d.modNode n f).tile m = d.tile m := rfl
@[simp] theorem Dev.seam_modNode (d : Dev) (n : Nat) (f : CounterBlock → CounterBlock) (m : Nat) : (d.modNode n f).seam m = d.seam m := rfl
@[simp] theorem Dev.arb_modNode (d : Dev) (n : Nat) (f : CounterBlock → CounterBlock) (m : Nat) : (d.modNode n f).arb m = d.arb m := rfl
@[simp] theorem Dev.hub_modNode (d : Dev) (n : Nat) (f : CounterBlock → CounterBlock) (m : Nat) : (d.modNode n f).hub m = d.hub m := rfl
@[simp] theorem Dev.region_modNode (d : Dev) (n : Nat) (f : CounterBlock → CounterBlock) (m : Nat) : (d.modNode n f).region m = d.region m := rfl
@[simp] theorem Dev.counterBlock_modNode (d : Dev) (n : Nat) (f : CounterBlock → CounterBlock) (m : Nat) : (d.modNode n f).counterBlock m = d.counterBlock m := rfl
@[simp] theorem Dev.keyId_modNode (d : Dev) (n : Nat) (f : CounterBlock → CounterBlock) (m : Nat) : (d.modNode n f).keyId m = d.keyId m := rfl
@[simp] theorem Dev.badLine_modNode (d : Dev) (n : Nat) (f : CounterBlock → CounterBlock) (m : Nat) : (d.modNode n f).badLine m = d.badLine m := rfl
@[simp] theorem Dev.scaleEntry_modNode (d : Dev) (n : Nat) (f : CounterBlock → CounterBlock) (m : Nat) : (d.modNode n f).scaleEntry m = d.scaleEntry m := rfl
@[simp] theorem Dev.plan_modNode (d : Dev) (n : Nat) (f : CounterBlock → CounterBlock) (m : Nat) : (d.modNode n f).plan m = d.plan m := rfl
@[simp] theorem Dev.runOf_modNode (d : Dev) (n : Nat) (f : CounterBlock → CounterBlock) (m : Nat) : (d.modNode n f).runOf m = d.runOf m := rfl
@[simp] theorem Dev.extent_modNode (d : Dev) (n : Nat) (f : CounterBlock → CounterBlock) (m : Nat) : (d.modNode n f).extent m = d.extent m := rfl
@[simp] theorem Dev.flashOf_modNode (d : Dev) (n : Nat) (f : CounterBlock → CounterBlock) (m : Nat) : (d.modNode n f).flashOf m = d.flashOf m := rfl
@[simp] theorem Dev.haven_modNode (d : Dev) (n : Nat) (f : CounterBlock → CounterBlock) (m : Nat) : (d.modNode n f).haven m = d.haven m := rfl
@[simp] theorem Dev.job_modNode (d : Dev) (n : Nat) (f : CounterBlock → CounterBlock) (m : Nat) : (d.modNode n f).job m = d.job m := rfl
@[simp] theorem Dev.port_modNode (d : Dev) (n : Nat) (f : CounterBlock → CounterBlock) (m : Nat) : (d.modNode n f).port m = d.port m := rfl
@[simp] theorem Dev.group_modNode (d : Dev) (n : Nat) (f : CounterBlock → CounterBlock) (m : Nat) : (d.modNode n f).group m = d.group m := rfl
@[simp] theorem Dev.charter_modNode (d : Dev) (n : Nat) (f : CounterBlock → CounterBlock) (m : Nat) : (d.modNode n f).charter m = d.charter m := rfl
@[simp] theorem Dev.fn_modKey (d : Dev) (n : Nat) (f : KeyId → KeyId) (m : Nat) : (d.modKey n f).fn m = d.fn m := rfl
@[simp] theorem Dev.queue_modKey (d : Dev) (n : Nat) (f : KeyId → KeyId) (m : Nat) : (d.modKey n f).queue m = d.queue m := rfl
@[simp] theorem Dev.ctx_modKey (d : Dev) (n : Nat) (f : KeyId → KeyId) (m : Nat) : (d.modKey n f).ctx m = d.ctx m := rfl
@[simp] theorem Dev.mapEntry_modKey (d : Dev) (n : Nat) (f : KeyId → KeyId) (m : Nat) : (d.modKey n f).mapEntry m = d.mapEntry m := rfl
@[simp] theorem Dev.fence_modKey (d : Dev) (n : Nat) (f : KeyId → KeyId) (m : Nat) : (d.modKey n f).fence m = d.fence m := rfl
@[simp] theorem Dev.tile_modKey (d : Dev) (n : Nat) (f : KeyId → KeyId) (m : Nat) : (d.modKey n f).tile m = d.tile m := rfl
@[simp] theorem Dev.seam_modKey (d : Dev) (n : Nat) (f : KeyId → KeyId) (m : Nat) : (d.modKey n f).seam m = d.seam m := rfl
@[simp] theorem Dev.arb_modKey (d : Dev) (n : Nat) (f : KeyId → KeyId) (m : Nat) : (d.modKey n f).arb m = d.arb m := rfl
@[simp] theorem Dev.hub_modKey (d : Dev) (n : Nat) (f : KeyId → KeyId) (m : Nat) : (d.modKey n f).hub m = d.hub m := rfl
@[simp] theorem Dev.region_modKey (d : Dev) (n : Nat) (f : KeyId → KeyId) (m : Nat) : (d.modKey n f).region m = d.region m := rfl
@[simp] theorem Dev.counterBlock_modKey (d : Dev) (n : Nat) (f : KeyId → KeyId) (m : Nat) : (d.modKey n f).counterBlock m = d.counterBlock m := rfl
@[simp] theorem Dev.badLine_modKey (d : Dev) (n : Nat) (f : KeyId → KeyId) (m : Nat) : (d.modKey n f).badLine m = d.badLine m := rfl
@[simp] theorem Dev.scaleEntry_modKey (d : Dev) (n : Nat) (f : KeyId → KeyId) (m : Nat) : (d.modKey n f).scaleEntry m = d.scaleEntry m := rfl
@[simp] theorem Dev.plan_modKey (d : Dev) (n : Nat) (f : KeyId → KeyId) (m : Nat) : (d.modKey n f).plan m = d.plan m := rfl
@[simp] theorem Dev.runOf_modKey (d : Dev) (n : Nat) (f : KeyId → KeyId) (m : Nat) : (d.modKey n f).runOf m = d.runOf m := rfl
@[simp] theorem Dev.extent_modKey (d : Dev) (n : Nat) (f : KeyId → KeyId) (m : Nat) : (d.modKey n f).extent m = d.extent m := rfl
@[simp] theorem Dev.flashOf_modKey (d : Dev) (n : Nat) (f : KeyId → KeyId) (m : Nat) : (d.modKey n f).flashOf m = d.flashOf m := rfl
@[simp] theorem Dev.haven_modKey (d : Dev) (n : Nat) (f : KeyId → KeyId) (m : Nat) : (d.modKey n f).haven m = d.haven m := rfl
@[simp] theorem Dev.job_modKey (d : Dev) (n : Nat) (f : KeyId → KeyId) (m : Nat) : (d.modKey n f).job m = d.job m := rfl
@[simp] theorem Dev.port_modKey (d : Dev) (n : Nat) (f : KeyId → KeyId) (m : Nat) : (d.modKey n f).port m = d.port m := rfl
@[simp] theorem Dev.group_modKey (d : Dev) (n : Nat) (f : KeyId → KeyId) (m : Nat) : (d.modKey n f).group m = d.group m := rfl
@[simp] theorem Dev.charter_modKey (d : Dev) (n : Nat) (f : KeyId → KeyId) (m : Nat) : (d.modKey n f).charter m = d.charter m := rfl
@[simp] theorem Dev.fn_modBadLine (d : Dev) (n : Nat) (f : BadLine → BadLine) (m : Nat) : (d.modBadLine n f).fn m = d.fn m := rfl
@[simp] theorem Dev.queue_modBadLine (d : Dev) (n : Nat) (f : BadLine → BadLine) (m : Nat) : (d.modBadLine n f).queue m = d.queue m := rfl
@[simp] theorem Dev.ctx_modBadLine (d : Dev) (n : Nat) (f : BadLine → BadLine) (m : Nat) : (d.modBadLine n f).ctx m = d.ctx m := rfl
@[simp] theorem Dev.mapEntry_modBadLine (d : Dev) (n : Nat) (f : BadLine → BadLine) (m : Nat) : (d.modBadLine n f).mapEntry m = d.mapEntry m := rfl
@[simp] theorem Dev.fence_modBadLine (d : Dev) (n : Nat) (f : BadLine → BadLine) (m : Nat) : (d.modBadLine n f).fence m = d.fence m := rfl
@[simp] theorem Dev.tile_modBadLine (d : Dev) (n : Nat) (f : BadLine → BadLine) (m : Nat) : (d.modBadLine n f).tile m = d.tile m := rfl
@[simp] theorem Dev.seam_modBadLine (d : Dev) (n : Nat) (f : BadLine → BadLine) (m : Nat) : (d.modBadLine n f).seam m = d.seam m := rfl
@[simp] theorem Dev.arb_modBadLine (d : Dev) (n : Nat) (f : BadLine → BadLine) (m : Nat) : (d.modBadLine n f).arb m = d.arb m := rfl
@[simp] theorem Dev.hub_modBadLine (d : Dev) (n : Nat) (f : BadLine → BadLine) (m : Nat) : (d.modBadLine n f).hub m = d.hub m := rfl
@[simp] theorem Dev.region_modBadLine (d : Dev) (n : Nat) (f : BadLine → BadLine) (m : Nat) : (d.modBadLine n f).region m = d.region m := rfl
@[simp] theorem Dev.counterBlock_modBadLine (d : Dev) (n : Nat) (f : BadLine → BadLine) (m : Nat) : (d.modBadLine n f).counterBlock m = d.counterBlock m := rfl
@[simp] theorem Dev.keyId_modBadLine (d : Dev) (n : Nat) (f : BadLine → BadLine) (m : Nat) : (d.modBadLine n f).keyId m = d.keyId m := rfl
@[simp] theorem Dev.scaleEntry_modBadLine (d : Dev) (n : Nat) (f : BadLine → BadLine) (m : Nat) : (d.modBadLine n f).scaleEntry m = d.scaleEntry m := rfl
@[simp] theorem Dev.plan_modBadLine (d : Dev) (n : Nat) (f : BadLine → BadLine) (m : Nat) : (d.modBadLine n f).plan m = d.plan m := rfl
@[simp] theorem Dev.runOf_modBadLine (d : Dev) (n : Nat) (f : BadLine → BadLine) (m : Nat) : (d.modBadLine n f).runOf m = d.runOf m := rfl
@[simp] theorem Dev.extent_modBadLine (d : Dev) (n : Nat) (f : BadLine → BadLine) (m : Nat) : (d.modBadLine n f).extent m = d.extent m := rfl
@[simp] theorem Dev.flashOf_modBadLine (d : Dev) (n : Nat) (f : BadLine → BadLine) (m : Nat) : (d.modBadLine n f).flashOf m = d.flashOf m := rfl
@[simp] theorem Dev.haven_modBadLine (d : Dev) (n : Nat) (f : BadLine → BadLine) (m : Nat) : (d.modBadLine n f).haven m = d.haven m := rfl
@[simp] theorem Dev.job_modBadLine (d : Dev) (n : Nat) (f : BadLine → BadLine) (m : Nat) : (d.modBadLine n f).job m = d.job m := rfl
@[simp] theorem Dev.port_modBadLine (d : Dev) (n : Nat) (f : BadLine → BadLine) (m : Nat) : (d.modBadLine n f).port m = d.port m := rfl
@[simp] theorem Dev.group_modBadLine (d : Dev) (n : Nat) (f : BadLine → BadLine) (m : Nat) : (d.modBadLine n f).group m = d.group m := rfl
@[simp] theorem Dev.charter_modBadLine (d : Dev) (n : Nat) (f : BadLine → BadLine) (m : Nat) : (d.modBadLine n f).charter m = d.charter m := rfl
@[simp] theorem Dev.fn_modScale (d : Dev) (n : Nat) (f : ScaleEntry → ScaleEntry) (m : Nat) : (d.modScale n f).fn m = d.fn m := rfl
@[simp] theorem Dev.queue_modScale (d : Dev) (n : Nat) (f : ScaleEntry → ScaleEntry) (m : Nat) : (d.modScale n f).queue m = d.queue m := rfl
@[simp] theorem Dev.ctx_modScale (d : Dev) (n : Nat) (f : ScaleEntry → ScaleEntry) (m : Nat) : (d.modScale n f).ctx m = d.ctx m := rfl
@[simp] theorem Dev.mapEntry_modScale (d : Dev) (n : Nat) (f : ScaleEntry → ScaleEntry) (m : Nat) : (d.modScale n f).mapEntry m = d.mapEntry m := rfl
@[simp] theorem Dev.fence_modScale (d : Dev) (n : Nat) (f : ScaleEntry → ScaleEntry) (m : Nat) : (d.modScale n f).fence m = d.fence m := rfl
@[simp] theorem Dev.tile_modScale (d : Dev) (n : Nat) (f : ScaleEntry → ScaleEntry) (m : Nat) : (d.modScale n f).tile m = d.tile m := rfl
@[simp] theorem Dev.seam_modScale (d : Dev) (n : Nat) (f : ScaleEntry → ScaleEntry) (m : Nat) : (d.modScale n f).seam m = d.seam m := rfl
@[simp] theorem Dev.arb_modScale (d : Dev) (n : Nat) (f : ScaleEntry → ScaleEntry) (m : Nat) : (d.modScale n f).arb m = d.arb m := rfl
@[simp] theorem Dev.hub_modScale (d : Dev) (n : Nat) (f : ScaleEntry → ScaleEntry) (m : Nat) : (d.modScale n f).hub m = d.hub m := rfl
@[simp] theorem Dev.region_modScale (d : Dev) (n : Nat) (f : ScaleEntry → ScaleEntry) (m : Nat) : (d.modScale n f).region m = d.region m := rfl
@[simp] theorem Dev.counterBlock_modScale (d : Dev) (n : Nat) (f : ScaleEntry → ScaleEntry) (m : Nat) : (d.modScale n f).counterBlock m = d.counterBlock m := rfl
@[simp] theorem Dev.keyId_modScale (d : Dev) (n : Nat) (f : ScaleEntry → ScaleEntry) (m : Nat) : (d.modScale n f).keyId m = d.keyId m := rfl
@[simp] theorem Dev.badLine_modScale (d : Dev) (n : Nat) (f : ScaleEntry → ScaleEntry) (m : Nat) : (d.modScale n f).badLine m = d.badLine m := rfl
@[simp] theorem Dev.plan_modScale (d : Dev) (n : Nat) (f : ScaleEntry → ScaleEntry) (m : Nat) : (d.modScale n f).plan m = d.plan m := rfl
@[simp] theorem Dev.runOf_modScale (d : Dev) (n : Nat) (f : ScaleEntry → ScaleEntry) (m : Nat) : (d.modScale n f).runOf m = d.runOf m := rfl
@[simp] theorem Dev.extent_modScale (d : Dev) (n : Nat) (f : ScaleEntry → ScaleEntry) (m : Nat) : (d.modScale n f).extent m = d.extent m := rfl
@[simp] theorem Dev.flashOf_modScale (d : Dev) (n : Nat) (f : ScaleEntry → ScaleEntry) (m : Nat) : (d.modScale n f).flashOf m = d.flashOf m := rfl
@[simp] theorem Dev.haven_modScale (d : Dev) (n : Nat) (f : ScaleEntry → ScaleEntry) (m : Nat) : (d.modScale n f).haven m = d.haven m := rfl
@[simp] theorem Dev.job_modScale (d : Dev) (n : Nat) (f : ScaleEntry → ScaleEntry) (m : Nat) : (d.modScale n f).job m = d.job m := rfl
@[simp] theorem Dev.port_modScale (d : Dev) (n : Nat) (f : ScaleEntry → ScaleEntry) (m : Nat) : (d.modScale n f).port m = d.port m := rfl
@[simp] theorem Dev.group_modScale (d : Dev) (n : Nat) (f : ScaleEntry → ScaleEntry) (m : Nat) : (d.modScale n f).group m = d.group m := rfl
@[simp] theorem Dev.charter_modScale (d : Dev) (n : Nat) (f : ScaleEntry → ScaleEntry) (m : Nat) : (d.modScale n f).charter m = d.charter m := rfl
@[simp] theorem Dev.fn_modPlan (d : Dev) (n : Nat) (f : Plan → Plan) (m : Nat) : (d.modPlan n f).fn m = d.fn m := rfl
@[simp] theorem Dev.queue_modPlan (d : Dev) (n : Nat) (f : Plan → Plan) (m : Nat) : (d.modPlan n f).queue m = d.queue m := rfl
@[simp] theorem Dev.ctx_modPlan (d : Dev) (n : Nat) (f : Plan → Plan) (m : Nat) : (d.modPlan n f).ctx m = d.ctx m := rfl
@[simp] theorem Dev.mapEntry_modPlan (d : Dev) (n : Nat) (f : Plan → Plan) (m : Nat) : (d.modPlan n f).mapEntry m = d.mapEntry m := rfl
@[simp] theorem Dev.fence_modPlan (d : Dev) (n : Nat) (f : Plan → Plan) (m : Nat) : (d.modPlan n f).fence m = d.fence m := rfl
@[simp] theorem Dev.tile_modPlan (d : Dev) (n : Nat) (f : Plan → Plan) (m : Nat) : (d.modPlan n f).tile m = d.tile m := rfl
@[simp] theorem Dev.seam_modPlan (d : Dev) (n : Nat) (f : Plan → Plan) (m : Nat) : (d.modPlan n f).seam m = d.seam m := rfl
@[simp] theorem Dev.arb_modPlan (d : Dev) (n : Nat) (f : Plan → Plan) (m : Nat) : (d.modPlan n f).arb m = d.arb m := rfl
@[simp] theorem Dev.hub_modPlan (d : Dev) (n : Nat) (f : Plan → Plan) (m : Nat) : (d.modPlan n f).hub m = d.hub m := rfl
@[simp] theorem Dev.region_modPlan (d : Dev) (n : Nat) (f : Plan → Plan) (m : Nat) : (d.modPlan n f).region m = d.region m := rfl
@[simp] theorem Dev.counterBlock_modPlan (d : Dev) (n : Nat) (f : Plan → Plan) (m : Nat) : (d.modPlan n f).counterBlock m = d.counterBlock m := rfl
@[simp] theorem Dev.keyId_modPlan (d : Dev) (n : Nat) (f : Plan → Plan) (m : Nat) : (d.modPlan n f).keyId m = d.keyId m := rfl
@[simp] theorem Dev.badLine_modPlan (d : Dev) (n : Nat) (f : Plan → Plan) (m : Nat) : (d.modPlan n f).badLine m = d.badLine m := rfl
@[simp] theorem Dev.scaleEntry_modPlan (d : Dev) (n : Nat) (f : Plan → Plan) (m : Nat) : (d.modPlan n f).scaleEntry m = d.scaleEntry m := rfl
@[simp] theorem Dev.runOf_modPlan (d : Dev) (n : Nat) (f : Plan → Plan) (m : Nat) : (d.modPlan n f).runOf m = d.runOf m := rfl
@[simp] theorem Dev.extent_modPlan (d : Dev) (n : Nat) (f : Plan → Plan) (m : Nat) : (d.modPlan n f).extent m = d.extent m := rfl
@[simp] theorem Dev.flashOf_modPlan (d : Dev) (n : Nat) (f : Plan → Plan) (m : Nat) : (d.modPlan n f).flashOf m = d.flashOf m := rfl
@[simp] theorem Dev.haven_modPlan (d : Dev) (n : Nat) (f : Plan → Plan) (m : Nat) : (d.modPlan n f).haven m = d.haven m := rfl
@[simp] theorem Dev.job_modPlan (d : Dev) (n : Nat) (f : Plan → Plan) (m : Nat) : (d.modPlan n f).job m = d.job m := rfl
@[simp] theorem Dev.port_modPlan (d : Dev) (n : Nat) (f : Plan → Plan) (m : Nat) : (d.modPlan n f).port m = d.port m := rfl
@[simp] theorem Dev.group_modPlan (d : Dev) (n : Nat) (f : Plan → Plan) (m : Nat) : (d.modPlan n f).group m = d.group m := rfl
@[simp] theorem Dev.charter_modPlan (d : Dev) (n : Nat) (f : Plan → Plan) (m : Nat) : (d.modPlan n f).charter m = d.charter m := rfl
@[simp] theorem Dev.fn_setLoad (d : Dev) (n : Nat) (l : Option Load) (m : Nat) : (d.setLoad n l).fn m = d.fn m := rfl
@[simp] theorem Dev.queue_setLoad (d : Dev) (n : Nat) (l : Option Load) (m : Nat) : (d.setLoad n l).queue m = d.queue m := rfl
@[simp] theorem Dev.ctx_setLoad (d : Dev) (n : Nat) (l : Option Load) (m : Nat) : (d.setLoad n l).ctx m = d.ctx m := rfl
@[simp] theorem Dev.mapEntry_setLoad (d : Dev) (n : Nat) (l : Option Load) (m : Nat) : (d.setLoad n l).mapEntry m = d.mapEntry m := rfl
@[simp] theorem Dev.fence_setLoad (d : Dev) (n : Nat) (l : Option Load) (m : Nat) : (d.setLoad n l).fence m = d.fence m := rfl
@[simp] theorem Dev.tile_setLoad (d : Dev) (n : Nat) (l : Option Load) (m : Nat) : (d.setLoad n l).tile m = d.tile m := rfl
@[simp] theorem Dev.seam_setLoad (d : Dev) (n : Nat) (l : Option Load) (m : Nat) : (d.setLoad n l).seam m = d.seam m := rfl
@[simp] theorem Dev.arb_setLoad (d : Dev) (n : Nat) (l : Option Load) (m : Nat) : (d.setLoad n l).arb m = d.arb m := rfl
@[simp] theorem Dev.hub_setLoad (d : Dev) (n : Nat) (l : Option Load) (m : Nat) : (d.setLoad n l).hub m = d.hub m := rfl
@[simp] theorem Dev.region_setLoad (d : Dev) (n : Nat) (l : Option Load) (m : Nat) : (d.setLoad n l).region m = d.region m := rfl
@[simp] theorem Dev.counterBlock_setLoad (d : Dev) (n : Nat) (l : Option Load) (m : Nat) : (d.setLoad n l).counterBlock m = d.counterBlock m := rfl
@[simp] theorem Dev.keyId_setLoad (d : Dev) (n : Nat) (l : Option Load) (m : Nat) : (d.setLoad n l).keyId m = d.keyId m := rfl
@[simp] theorem Dev.badLine_setLoad (d : Dev) (n : Nat) (l : Option Load) (m : Nat) : (d.setLoad n l).badLine m = d.badLine m := rfl
@[simp] theorem Dev.scaleEntry_setLoad (d : Dev) (n : Nat) (l : Option Load) (m : Nat) : (d.setLoad n l).scaleEntry m = d.scaleEntry m := rfl
@[simp] theorem Dev.plan_setLoad (d : Dev) (n : Nat) (l : Option Load) (m : Nat) : (d.setLoad n l).plan m = d.plan m := rfl
@[simp] theorem Dev.runOf_setLoad (d : Dev) (n : Nat) (l : Option Load) (m : Nat) : (d.setLoad n l).runOf m = d.runOf m := rfl
@[simp] theorem Dev.extent_setLoad (d : Dev) (n : Nat) (l : Option Load) (m : Nat) : (d.setLoad n l).extent m = d.extent m := rfl
@[simp] theorem Dev.flashOf_setLoad (d : Dev) (n : Nat) (l : Option Load) (m : Nat) : (d.setLoad n l).flashOf m = d.flashOf m := rfl
@[simp] theorem Dev.haven_setLoad (d : Dev) (n : Nat) (l : Option Load) (m : Nat) : (d.setLoad n l).haven m = d.haven m := rfl
@[simp] theorem Dev.job_setLoad (d : Dev) (n : Nat) (l : Option Load) (m : Nat) : (d.setLoad n l).job m = d.job m := rfl
@[simp] theorem Dev.port_setLoad (d : Dev) (n : Nat) (l : Option Load) (m : Nat) : (d.setLoad n l).port m = d.port m := rfl
@[simp] theorem Dev.group_setLoad (d : Dev) (n : Nat) (l : Option Load) (m : Nat) : (d.setLoad n l).group m = d.group m := rfl
@[simp] theorem Dev.charter_setLoad (d : Dev) (n : Nat) (l : Option Load) (m : Nat) : (d.setLoad n l).charter m = d.charter m := rfl
@[simp] theorem Dev.fn_modRun (d : Dev) (n : Nat) (f : Run → Run) (m : Nat) : (d.modRun n f).fn m = d.fn m := rfl
@[simp] theorem Dev.queue_modRun (d : Dev) (n : Nat) (f : Run → Run) (m : Nat) : (d.modRun n f).queue m = d.queue m := rfl
@[simp] theorem Dev.ctx_modRun (d : Dev) (n : Nat) (f : Run → Run) (m : Nat) : (d.modRun n f).ctx m = d.ctx m := rfl
@[simp] theorem Dev.mapEntry_modRun (d : Dev) (n : Nat) (f : Run → Run) (m : Nat) : (d.modRun n f).mapEntry m = d.mapEntry m := rfl
@[simp] theorem Dev.fence_modRun (d : Dev) (n : Nat) (f : Run → Run) (m : Nat) : (d.modRun n f).fence m = d.fence m := rfl
@[simp] theorem Dev.tile_modRun (d : Dev) (n : Nat) (f : Run → Run) (m : Nat) : (d.modRun n f).tile m = d.tile m := rfl
@[simp] theorem Dev.seam_modRun (d : Dev) (n : Nat) (f : Run → Run) (m : Nat) : (d.modRun n f).seam m = d.seam m := rfl
@[simp] theorem Dev.arb_modRun (d : Dev) (n : Nat) (f : Run → Run) (m : Nat) : (d.modRun n f).arb m = d.arb m := rfl
@[simp] theorem Dev.hub_modRun (d : Dev) (n : Nat) (f : Run → Run) (m : Nat) : (d.modRun n f).hub m = d.hub m := rfl
@[simp] theorem Dev.region_modRun (d : Dev) (n : Nat) (f : Run → Run) (m : Nat) : (d.modRun n f).region m = d.region m := rfl
@[simp] theorem Dev.counterBlock_modRun (d : Dev) (n : Nat) (f : Run → Run) (m : Nat) : (d.modRun n f).counterBlock m = d.counterBlock m := rfl
@[simp] theorem Dev.keyId_modRun (d : Dev) (n : Nat) (f : Run → Run) (m : Nat) : (d.modRun n f).keyId m = d.keyId m := rfl
@[simp] theorem Dev.badLine_modRun (d : Dev) (n : Nat) (f : Run → Run) (m : Nat) : (d.modRun n f).badLine m = d.badLine m := rfl
@[simp] theorem Dev.scaleEntry_modRun (d : Dev) (n : Nat) (f : Run → Run) (m : Nat) : (d.modRun n f).scaleEntry m = d.scaleEntry m := rfl
@[simp] theorem Dev.plan_modRun (d : Dev) (n : Nat) (f : Run → Run) (m : Nat) : (d.modRun n f).plan m = d.plan m := rfl
@[simp] theorem Dev.extent_modRun (d : Dev) (n : Nat) (f : Run → Run) (m : Nat) : (d.modRun n f).extent m = d.extent m := rfl
@[simp] theorem Dev.flashOf_modRun (d : Dev) (n : Nat) (f : Run → Run) (m : Nat) : (d.modRun n f).flashOf m = d.flashOf m := rfl
@[simp] theorem Dev.haven_modRun (d : Dev) (n : Nat) (f : Run → Run) (m : Nat) : (d.modRun n f).haven m = d.haven m := rfl
@[simp] theorem Dev.job_modRun (d : Dev) (n : Nat) (f : Run → Run) (m : Nat) : (d.modRun n f).job m = d.job m := rfl
@[simp] theorem Dev.port_modRun (d : Dev) (n : Nat) (f : Run → Run) (m : Nat) : (d.modRun n f).port m = d.port m := rfl
@[simp] theorem Dev.group_modRun (d : Dev) (n : Nat) (f : Run → Run) (m : Nat) : (d.modRun n f).group m = d.group m := rfl
@[simp] theorem Dev.charter_modRun (d : Dev) (n : Nat) (f : Run → Run) (m : Nat) : (d.modRun n f).charter m = d.charter m := rfl
@[simp] theorem Dev.fn_modExtent (d : Dev) (n : Nat) (f : Extent → Extent) (m : Nat) : (d.modExtent n f).fn m = d.fn m := rfl
@[simp] theorem Dev.queue_modExtent (d : Dev) (n : Nat) (f : Extent → Extent) (m : Nat) : (d.modExtent n f).queue m = d.queue m := rfl
@[simp] theorem Dev.ctx_modExtent (d : Dev) (n : Nat) (f : Extent → Extent) (m : Nat) : (d.modExtent n f).ctx m = d.ctx m := rfl
@[simp] theorem Dev.mapEntry_modExtent (d : Dev) (n : Nat) (f : Extent → Extent) (m : Nat) : (d.modExtent n f).mapEntry m = d.mapEntry m := rfl
@[simp] theorem Dev.fence_modExtent (d : Dev) (n : Nat) (f : Extent → Extent) (m : Nat) : (d.modExtent n f).fence m = d.fence m := rfl
@[simp] theorem Dev.tile_modExtent (d : Dev) (n : Nat) (f : Extent → Extent) (m : Nat) : (d.modExtent n f).tile m = d.tile m := rfl
@[simp] theorem Dev.seam_modExtent (d : Dev) (n : Nat) (f : Extent → Extent) (m : Nat) : (d.modExtent n f).seam m = d.seam m := rfl
@[simp] theorem Dev.arb_modExtent (d : Dev) (n : Nat) (f : Extent → Extent) (m : Nat) : (d.modExtent n f).arb m = d.arb m := rfl
@[simp] theorem Dev.hub_modExtent (d : Dev) (n : Nat) (f : Extent → Extent) (m : Nat) : (d.modExtent n f).hub m = d.hub m := rfl
@[simp] theorem Dev.region_modExtent (d : Dev) (n : Nat) (f : Extent → Extent) (m : Nat) : (d.modExtent n f).region m = d.region m := rfl
@[simp] theorem Dev.counterBlock_modExtent (d : Dev) (n : Nat) (f : Extent → Extent) (m : Nat) : (d.modExtent n f).counterBlock m = d.counterBlock m := rfl
@[simp] theorem Dev.keyId_modExtent (d : Dev) (n : Nat) (f : Extent → Extent) (m : Nat) : (d.modExtent n f).keyId m = d.keyId m := rfl
@[simp] theorem Dev.badLine_modExtent (d : Dev) (n : Nat) (f : Extent → Extent) (m : Nat) : (d.modExtent n f).badLine m = d.badLine m := rfl
@[simp] theorem Dev.scaleEntry_modExtent (d : Dev) (n : Nat) (f : Extent → Extent) (m : Nat) : (d.modExtent n f).scaleEntry m = d.scaleEntry m := rfl
@[simp] theorem Dev.plan_modExtent (d : Dev) (n : Nat) (f : Extent → Extent) (m : Nat) : (d.modExtent n f).plan m = d.plan m := rfl
@[simp] theorem Dev.runOf_modExtent (d : Dev) (n : Nat) (f : Extent → Extent) (m : Nat) : (d.modExtent n f).runOf m = d.runOf m := rfl
@[simp] theorem Dev.flashOf_modExtent (d : Dev) (n : Nat) (f : Extent → Extent) (m : Nat) : (d.modExtent n f).flashOf m = d.flashOf m := rfl
@[simp] theorem Dev.haven_modExtent (d : Dev) (n : Nat) (f : Extent → Extent) (m : Nat) : (d.modExtent n f).haven m = d.haven m := rfl
@[simp] theorem Dev.job_modExtent (d : Dev) (n : Nat) (f : Extent → Extent) (m : Nat) : (d.modExtent n f).job m = d.job m := rfl
@[simp] theorem Dev.port_modExtent (d : Dev) (n : Nat) (f : Extent → Extent) (m : Nat) : (d.modExtent n f).port m = d.port m := rfl
@[simp] theorem Dev.group_modExtent (d : Dev) (n : Nat) (f : Extent → Extent) (m : Nat) : (d.modExtent n f).group m = d.group m := rfl
@[simp] theorem Dev.charter_modExtent (d : Dev) (n : Nat) (f : Extent → Extent) (m : Nat) : (d.modExtent n f).charter m = d.charter m := rfl
@[simp] theorem Dev.fn_modFlash (d : Dev) (n : Nat) (f : Flash → Flash) (m : Nat) : (d.modFlash n f).fn m = d.fn m := rfl
@[simp] theorem Dev.queue_modFlash (d : Dev) (n : Nat) (f : Flash → Flash) (m : Nat) : (d.modFlash n f).queue m = d.queue m := rfl
@[simp] theorem Dev.ctx_modFlash (d : Dev) (n : Nat) (f : Flash → Flash) (m : Nat) : (d.modFlash n f).ctx m = d.ctx m := rfl
@[simp] theorem Dev.mapEntry_modFlash (d : Dev) (n : Nat) (f : Flash → Flash) (m : Nat) : (d.modFlash n f).mapEntry m = d.mapEntry m := rfl
@[simp] theorem Dev.fence_modFlash (d : Dev) (n : Nat) (f : Flash → Flash) (m : Nat) : (d.modFlash n f).fence m = d.fence m := rfl
@[simp] theorem Dev.tile_modFlash (d : Dev) (n : Nat) (f : Flash → Flash) (m : Nat) : (d.modFlash n f).tile m = d.tile m := rfl
@[simp] theorem Dev.seam_modFlash (d : Dev) (n : Nat) (f : Flash → Flash) (m : Nat) : (d.modFlash n f).seam m = d.seam m := rfl
@[simp] theorem Dev.arb_modFlash (d : Dev) (n : Nat) (f : Flash → Flash) (m : Nat) : (d.modFlash n f).arb m = d.arb m := rfl
@[simp] theorem Dev.hub_modFlash (d : Dev) (n : Nat) (f : Flash → Flash) (m : Nat) : (d.modFlash n f).hub m = d.hub m := rfl
@[simp] theorem Dev.region_modFlash (d : Dev) (n : Nat) (f : Flash → Flash) (m : Nat) : (d.modFlash n f).region m = d.region m := rfl
@[simp] theorem Dev.counterBlock_modFlash (d : Dev) (n : Nat) (f : Flash → Flash) (m : Nat) : (d.modFlash n f).counterBlock m = d.counterBlock m := rfl
@[simp] theorem Dev.keyId_modFlash (d : Dev) (n : Nat) (f : Flash → Flash) (m : Nat) : (d.modFlash n f).keyId m = d.keyId m := rfl
@[simp] theorem Dev.badLine_modFlash (d : Dev) (n : Nat) (f : Flash → Flash) (m : Nat) : (d.modFlash n f).badLine m = d.badLine m := rfl
@[simp] theorem Dev.scaleEntry_modFlash (d : Dev) (n : Nat) (f : Flash → Flash) (m : Nat) : (d.modFlash n f).scaleEntry m = d.scaleEntry m := rfl
@[simp] theorem Dev.plan_modFlash (d : Dev) (n : Nat) (f : Flash → Flash) (m : Nat) : (d.modFlash n f).plan m = d.plan m := rfl
@[simp] theorem Dev.runOf_modFlash (d : Dev) (n : Nat) (f : Flash → Flash) (m : Nat) : (d.modFlash n f).runOf m = d.runOf m := rfl
@[simp] theorem Dev.extent_modFlash (d : Dev) (n : Nat) (f : Flash → Flash) (m : Nat) : (d.modFlash n f).extent m = d.extent m := rfl
@[simp] theorem Dev.haven_modFlash (d : Dev) (n : Nat) (f : Flash → Flash) (m : Nat) : (d.modFlash n f).haven m = d.haven m := rfl
@[simp] theorem Dev.job_modFlash (d : Dev) (n : Nat) (f : Flash → Flash) (m : Nat) : (d.modFlash n f).job m = d.job m := rfl
@[simp] theorem Dev.port_modFlash (d : Dev) (n : Nat) (f : Flash → Flash) (m : Nat) : (d.modFlash n f).port m = d.port m := rfl
@[simp] theorem Dev.group_modFlash (d : Dev) (n : Nat) (f : Flash → Flash) (m : Nat) : (d.modFlash n f).group m = d.group m := rfl
@[simp] theorem Dev.charter_modFlash (d : Dev) (n : Nat) (f : Flash → Flash) (m : Nat) : (d.modFlash n f).charter m = d.charter m := rfl
@[simp] theorem Dev.fn_modFabric (d : Dev) (f : Fabric → Fabric) (m : Nat) : (d.modFabric f).fn m = d.fn m := rfl
@[simp] theorem Dev.queue_modFabric (d : Dev) (f : Fabric → Fabric) (m : Nat) : (d.modFabric f).queue m = d.queue m := rfl
@[simp] theorem Dev.ctx_modFabric (d : Dev) (f : Fabric → Fabric) (m : Nat) : (d.modFabric f).ctx m = d.ctx m := rfl
@[simp] theorem Dev.mapEntry_modFabric (d : Dev) (f : Fabric → Fabric) (m : Nat) : (d.modFabric f).mapEntry m = d.mapEntry m := rfl
@[simp] theorem Dev.fence_modFabric (d : Dev) (f : Fabric → Fabric) (m : Nat) : (d.modFabric f).fence m = d.fence m := rfl
@[simp] theorem Dev.tile_modFabric (d : Dev) (f : Fabric → Fabric) (m : Nat) : (d.modFabric f).tile m = d.tile m := rfl
@[simp] theorem Dev.seam_modFabric (d : Dev) (f : Fabric → Fabric) (m : Nat) : (d.modFabric f).seam m = d.seam m := rfl
@[simp] theorem Dev.arb_modFabric (d : Dev) (f : Fabric → Fabric) (m : Nat) : (d.modFabric f).arb m = d.arb m := rfl
@[simp] theorem Dev.hub_modFabric (d : Dev) (f : Fabric → Fabric) (m : Nat) : (d.modFabric f).hub m = d.hub m := rfl
@[simp] theorem Dev.region_modFabric (d : Dev) (f : Fabric → Fabric) (m : Nat) : (d.modFabric f).region m = d.region m := rfl
@[simp] theorem Dev.counterBlock_modFabric (d : Dev) (f : Fabric → Fabric) (m : Nat) : (d.modFabric f).counterBlock m = d.counterBlock m := rfl
@[simp] theorem Dev.keyId_modFabric (d : Dev) (f : Fabric → Fabric) (m : Nat) : (d.modFabric f).keyId m = d.keyId m := rfl
@[simp] theorem Dev.badLine_modFabric (d : Dev) (f : Fabric → Fabric) (m : Nat) : (d.modFabric f).badLine m = d.badLine m := rfl
@[simp] theorem Dev.scaleEntry_modFabric (d : Dev) (f : Fabric → Fabric) (m : Nat) : (d.modFabric f).scaleEntry m = d.scaleEntry m := rfl
@[simp] theorem Dev.plan_modFabric (d : Dev) (f : Fabric → Fabric) (m : Nat) : (d.modFabric f).plan m = d.plan m := rfl
@[simp] theorem Dev.runOf_modFabric (d : Dev) (f : Fabric → Fabric) (m : Nat) : (d.modFabric f).runOf m = d.runOf m := rfl
@[simp] theorem Dev.extent_modFabric (d : Dev) (f : Fabric → Fabric) (m : Nat) : (d.modFabric f).extent m = d.extent m := rfl
@[simp] theorem Dev.flashOf_modFabric (d : Dev) (f : Fabric → Fabric) (m : Nat) : (d.modFabric f).flashOf m = d.flashOf m := rfl
@[simp] theorem Dev.haven_modFabric (d : Dev) (f : Fabric → Fabric) (m : Nat) : (d.modFabric f).haven m = d.haven m := rfl
@[simp] theorem Dev.job_modFabric (d : Dev) (f : Fabric → Fabric) (m : Nat) : (d.modFabric f).job m = d.job m := rfl
@[simp] theorem Dev.charter_modFabric (d : Dev) (f : Fabric → Fabric) (m : Nat) : (d.modFabric f).charter m = d.charter m := rfl
@[simp] theorem Dev.fn_modPort (d : Dev) (n : Nat) (f : Port → Port) (m : Nat) : (d.modPort n f).fn m = d.fn m := rfl
@[simp] theorem Dev.queue_modPort (d : Dev) (n : Nat) (f : Port → Port) (m : Nat) : (d.modPort n f).queue m = d.queue m := rfl
@[simp] theorem Dev.ctx_modPort (d : Dev) (n : Nat) (f : Port → Port) (m : Nat) : (d.modPort n f).ctx m = d.ctx m := rfl
@[simp] theorem Dev.mapEntry_modPort (d : Dev) (n : Nat) (f : Port → Port) (m : Nat) : (d.modPort n f).mapEntry m = d.mapEntry m := rfl
@[simp] theorem Dev.fence_modPort (d : Dev) (n : Nat) (f : Port → Port) (m : Nat) : (d.modPort n f).fence m = d.fence m := rfl
@[simp] theorem Dev.tile_modPort (d : Dev) (n : Nat) (f : Port → Port) (m : Nat) : (d.modPort n f).tile m = d.tile m := rfl
@[simp] theorem Dev.seam_modPort (d : Dev) (n : Nat) (f : Port → Port) (m : Nat) : (d.modPort n f).seam m = d.seam m := rfl
@[simp] theorem Dev.arb_modPort (d : Dev) (n : Nat) (f : Port → Port) (m : Nat) : (d.modPort n f).arb m = d.arb m := rfl
@[simp] theorem Dev.hub_modPort (d : Dev) (n : Nat) (f : Port → Port) (m : Nat) : (d.modPort n f).hub m = d.hub m := rfl
@[simp] theorem Dev.region_modPort (d : Dev) (n : Nat) (f : Port → Port) (m : Nat) : (d.modPort n f).region m = d.region m := rfl
@[simp] theorem Dev.counterBlock_modPort (d : Dev) (n : Nat) (f : Port → Port) (m : Nat) : (d.modPort n f).counterBlock m = d.counterBlock m := rfl
@[simp] theorem Dev.keyId_modPort (d : Dev) (n : Nat) (f : Port → Port) (m : Nat) : (d.modPort n f).keyId m = d.keyId m := rfl
@[simp] theorem Dev.badLine_modPort (d : Dev) (n : Nat) (f : Port → Port) (m : Nat) : (d.modPort n f).badLine m = d.badLine m := rfl
@[simp] theorem Dev.scaleEntry_modPort (d : Dev) (n : Nat) (f : Port → Port) (m : Nat) : (d.modPort n f).scaleEntry m = d.scaleEntry m := rfl
@[simp] theorem Dev.plan_modPort (d : Dev) (n : Nat) (f : Port → Port) (m : Nat) : (d.modPort n f).plan m = d.plan m := rfl
@[simp] theorem Dev.runOf_modPort (d : Dev) (n : Nat) (f : Port → Port) (m : Nat) : (d.modPort n f).runOf m = d.runOf m := rfl
@[simp] theorem Dev.extent_modPort (d : Dev) (n : Nat) (f : Port → Port) (m : Nat) : (d.modPort n f).extent m = d.extent m := rfl
@[simp] theorem Dev.flashOf_modPort (d : Dev) (n : Nat) (f : Port → Port) (m : Nat) : (d.modPort n f).flashOf m = d.flashOf m := rfl
@[simp] theorem Dev.haven_modPort (d : Dev) (n : Nat) (f : Port → Port) (m : Nat) : (d.modPort n f).haven m = d.haven m := rfl
@[simp] theorem Dev.job_modPort (d : Dev) (n : Nat) (f : Port → Port) (m : Nat) : (d.modPort n f).job m = d.job m := rfl
@[simp] theorem Dev.group_modPort (d : Dev) (n : Nat) (f : Port → Port) (m : Nat) : (d.modPort n f).group m = d.group m := rfl
@[simp] theorem Dev.charter_modPort (d : Dev) (n : Nat) (f : Port → Port) (m : Nat) : (d.modPort n f).charter m = d.charter m := rfl
@[simp] theorem Dev.fn_modGroup (d : Dev) (n : Nat) (f : Group → Group) (m : Nat) : (d.modGroup n f).fn m = d.fn m := rfl
@[simp] theorem Dev.queue_modGroup (d : Dev) (n : Nat) (f : Group → Group) (m : Nat) : (d.modGroup n f).queue m = d.queue m := rfl
@[simp] theorem Dev.ctx_modGroup (d : Dev) (n : Nat) (f : Group → Group) (m : Nat) : (d.modGroup n f).ctx m = d.ctx m := rfl
@[simp] theorem Dev.mapEntry_modGroup (d : Dev) (n : Nat) (f : Group → Group) (m : Nat) : (d.modGroup n f).mapEntry m = d.mapEntry m := rfl
@[simp] theorem Dev.fence_modGroup (d : Dev) (n : Nat) (f : Group → Group) (m : Nat) : (d.modGroup n f).fence m = d.fence m := rfl
@[simp] theorem Dev.tile_modGroup (d : Dev) (n : Nat) (f : Group → Group) (m : Nat) : (d.modGroup n f).tile m = d.tile m := rfl
@[simp] theorem Dev.seam_modGroup (d : Dev) (n : Nat) (f : Group → Group) (m : Nat) : (d.modGroup n f).seam m = d.seam m := rfl
@[simp] theorem Dev.arb_modGroup (d : Dev) (n : Nat) (f : Group → Group) (m : Nat) : (d.modGroup n f).arb m = d.arb m := rfl
@[simp] theorem Dev.hub_modGroup (d : Dev) (n : Nat) (f : Group → Group) (m : Nat) : (d.modGroup n f).hub m = d.hub m := rfl
@[simp] theorem Dev.region_modGroup (d : Dev) (n : Nat) (f : Group → Group) (m : Nat) : (d.modGroup n f).region m = d.region m := rfl
@[simp] theorem Dev.counterBlock_modGroup (d : Dev) (n : Nat) (f : Group → Group) (m : Nat) : (d.modGroup n f).counterBlock m = d.counterBlock m := rfl
@[simp] theorem Dev.keyId_modGroup (d : Dev) (n : Nat) (f : Group → Group) (m : Nat) : (d.modGroup n f).keyId m = d.keyId m := rfl
@[simp] theorem Dev.badLine_modGroup (d : Dev) (n : Nat) (f : Group → Group) (m : Nat) : (d.modGroup n f).badLine m = d.badLine m := rfl
@[simp] theorem Dev.scaleEntry_modGroup (d : Dev) (n : Nat) (f : Group → Group) (m : Nat) : (d.modGroup n f).scaleEntry m = d.scaleEntry m := rfl
@[simp] theorem Dev.plan_modGroup (d : Dev) (n : Nat) (f : Group → Group) (m : Nat) : (d.modGroup n f).plan m = d.plan m := rfl
@[simp] theorem Dev.runOf_modGroup (d : Dev) (n : Nat) (f : Group → Group) (m : Nat) : (d.modGroup n f).runOf m = d.runOf m := rfl
@[simp] theorem Dev.extent_modGroup (d : Dev) (n : Nat) (f : Group → Group) (m : Nat) : (d.modGroup n f).extent m = d.extent m := rfl
@[simp] theorem Dev.flashOf_modGroup (d : Dev) (n : Nat) (f : Group → Group) (m : Nat) : (d.modGroup n f).flashOf m = d.flashOf m := rfl
@[simp] theorem Dev.haven_modGroup (d : Dev) (n : Nat) (f : Group → Group) (m : Nat) : (d.modGroup n f).haven m = d.haven m := rfl
@[simp] theorem Dev.job_modGroup (d : Dev) (n : Nat) (f : Group → Group) (m : Nat) : (d.modGroup n f).job m = d.job m := rfl
@[simp] theorem Dev.port_modGroup (d : Dev) (n : Nat) (f : Group → Group) (m : Nat) : (d.modGroup n f).port m = d.port m := rfl
@[simp] theorem Dev.charter_modGroup (d : Dev) (n : Nat) (f : Group → Group) (m : Nat) : (d.modGroup n f).charter m = d.charter m := rfl
@[simp] theorem Dev.fn_modHaven (d : Dev) (n : Nat) (f : Haven → Haven) (m : Nat) : (d.modHaven n f).fn m = d.fn m := rfl
@[simp] theorem Dev.queue_modHaven (d : Dev) (n : Nat) (f : Haven → Haven) (m : Nat) : (d.modHaven n f).queue m = d.queue m := rfl
@[simp] theorem Dev.ctx_modHaven (d : Dev) (n : Nat) (f : Haven → Haven) (m : Nat) : (d.modHaven n f).ctx m = d.ctx m := rfl
@[simp] theorem Dev.mapEntry_modHaven (d : Dev) (n : Nat) (f : Haven → Haven) (m : Nat) : (d.modHaven n f).mapEntry m = d.mapEntry m := rfl
@[simp] theorem Dev.fence_modHaven (d : Dev) (n : Nat) (f : Haven → Haven) (m : Nat) : (d.modHaven n f).fence m = d.fence m := rfl
@[simp] theorem Dev.tile_modHaven (d : Dev) (n : Nat) (f : Haven → Haven) (m : Nat) : (d.modHaven n f).tile m = d.tile m := rfl
@[simp] theorem Dev.seam_modHaven (d : Dev) (n : Nat) (f : Haven → Haven) (m : Nat) : (d.modHaven n f).seam m = d.seam m := rfl
@[simp] theorem Dev.arb_modHaven (d : Dev) (n : Nat) (f : Haven → Haven) (m : Nat) : (d.modHaven n f).arb m = d.arb m := rfl
@[simp] theorem Dev.hub_modHaven (d : Dev) (n : Nat) (f : Haven → Haven) (m : Nat) : (d.modHaven n f).hub m = d.hub m := rfl
@[simp] theorem Dev.region_modHaven (d : Dev) (n : Nat) (f : Haven → Haven) (m : Nat) : (d.modHaven n f).region m = d.region m := rfl
@[simp] theorem Dev.counterBlock_modHaven (d : Dev) (n : Nat) (f : Haven → Haven) (m : Nat) : (d.modHaven n f).counterBlock m = d.counterBlock m := rfl
@[simp] theorem Dev.keyId_modHaven (d : Dev) (n : Nat) (f : Haven → Haven) (m : Nat) : (d.modHaven n f).keyId m = d.keyId m := rfl
@[simp] theorem Dev.badLine_modHaven (d : Dev) (n : Nat) (f : Haven → Haven) (m : Nat) : (d.modHaven n f).badLine m = d.badLine m := rfl
@[simp] theorem Dev.scaleEntry_modHaven (d : Dev) (n : Nat) (f : Haven → Haven) (m : Nat) : (d.modHaven n f).scaleEntry m = d.scaleEntry m := rfl
@[simp] theorem Dev.plan_modHaven (d : Dev) (n : Nat) (f : Haven → Haven) (m : Nat) : (d.modHaven n f).plan m = d.plan m := rfl
@[simp] theorem Dev.runOf_modHaven (d : Dev) (n : Nat) (f : Haven → Haven) (m : Nat) : (d.modHaven n f).runOf m = d.runOf m := rfl
@[simp] theorem Dev.extent_modHaven (d : Dev) (n : Nat) (f : Haven → Haven) (m : Nat) : (d.modHaven n f).extent m = d.extent m := rfl
@[simp] theorem Dev.flashOf_modHaven (d : Dev) (n : Nat) (f : Haven → Haven) (m : Nat) : (d.modHaven n f).flashOf m = d.flashOf m := rfl
@[simp] theorem Dev.job_modHaven (d : Dev) (n : Nat) (f : Haven → Haven) (m : Nat) : (d.modHaven n f).job m = d.job m := rfl
@[simp] theorem Dev.port_modHaven (d : Dev) (n : Nat) (f : Haven → Haven) (m : Nat) : (d.modHaven n f).port m = d.port m := rfl
@[simp] theorem Dev.group_modHaven (d : Dev) (n : Nat) (f : Haven → Haven) (m : Nat) : (d.modHaven n f).group m = d.group m := rfl
@[simp] theorem Dev.charter_modHaven (d : Dev) (n : Nat) (f : Haven → Haven) (m : Nat) : (d.modHaven n f).charter m = d.charter m := rfl
@[simp] theorem Dev.fn_modJob (d : Dev) (n : Nat) (f : Job → Job) (m : Nat) : (d.modJob n f).fn m = d.fn m := rfl
@[simp] theorem Dev.queue_modJob (d : Dev) (n : Nat) (f : Job → Job) (m : Nat) : (d.modJob n f).queue m = d.queue m := rfl
@[simp] theorem Dev.ctx_modJob (d : Dev) (n : Nat) (f : Job → Job) (m : Nat) : (d.modJob n f).ctx m = d.ctx m := rfl
@[simp] theorem Dev.mapEntry_modJob (d : Dev) (n : Nat) (f : Job → Job) (m : Nat) : (d.modJob n f).mapEntry m = d.mapEntry m := rfl
@[simp] theorem Dev.fence_modJob (d : Dev) (n : Nat) (f : Job → Job) (m : Nat) : (d.modJob n f).fence m = d.fence m := rfl
@[simp] theorem Dev.tile_modJob (d : Dev) (n : Nat) (f : Job → Job) (m : Nat) : (d.modJob n f).tile m = d.tile m := rfl
@[simp] theorem Dev.seam_modJob (d : Dev) (n : Nat) (f : Job → Job) (m : Nat) : (d.modJob n f).seam m = d.seam m := rfl
@[simp] theorem Dev.arb_modJob (d : Dev) (n : Nat) (f : Job → Job) (m : Nat) : (d.modJob n f).arb m = d.arb m := rfl
@[simp] theorem Dev.hub_modJob (d : Dev) (n : Nat) (f : Job → Job) (m : Nat) : (d.modJob n f).hub m = d.hub m := rfl
@[simp] theorem Dev.region_modJob (d : Dev) (n : Nat) (f : Job → Job) (m : Nat) : (d.modJob n f).region m = d.region m := rfl
@[simp] theorem Dev.counterBlock_modJob (d : Dev) (n : Nat) (f : Job → Job) (m : Nat) : (d.modJob n f).counterBlock m = d.counterBlock m := rfl
@[simp] theorem Dev.keyId_modJob (d : Dev) (n : Nat) (f : Job → Job) (m : Nat) : (d.modJob n f).keyId m = d.keyId m := rfl
@[simp] theorem Dev.badLine_modJob (d : Dev) (n : Nat) (f : Job → Job) (m : Nat) : (d.modJob n f).badLine m = d.badLine m := rfl
@[simp] theorem Dev.scaleEntry_modJob (d : Dev) (n : Nat) (f : Job → Job) (m : Nat) : (d.modJob n f).scaleEntry m = d.scaleEntry m := rfl
@[simp] theorem Dev.plan_modJob (d : Dev) (n : Nat) (f : Job → Job) (m : Nat) : (d.modJob n f).plan m = d.plan m := rfl
@[simp] theorem Dev.runOf_modJob (d : Dev) (n : Nat) (f : Job → Job) (m : Nat) : (d.modJob n f).runOf m = d.runOf m := rfl
@[simp] theorem Dev.extent_modJob (d : Dev) (n : Nat) (f : Job → Job) (m : Nat) : (d.modJob n f).extent m = d.extent m := rfl
@[simp] theorem Dev.flashOf_modJob (d : Dev) (n : Nat) (f : Job → Job) (m : Nat) : (d.modJob n f).flashOf m = d.flashOf m := rfl
@[simp] theorem Dev.haven_modJob (d : Dev) (n : Nat) (f : Job → Job) (m : Nat) : (d.modJob n f).haven m = d.haven m := rfl
@[simp] theorem Dev.port_modJob (d : Dev) (n : Nat) (f : Job → Job) (m : Nat) : (d.modJob n f).port m = d.port m := rfl
@[simp] theorem Dev.group_modJob (d : Dev) (n : Nat) (f : Job → Job) (m : Nat) : (d.modJob n f).group m = d.group m := rfl
@[simp] theorem Dev.charter_modJob (d : Dev) (n : Nat) (f : Job → Job) (m : Nat) : (d.modJob n f).charter m = d.charter m := rfl
@[simp] theorem Dev.fn_modTrust (d : Dev) (f : Trust → Trust) (m : Nat) : (d.modTrust f).fn m = d.fn m := rfl
@[simp] theorem Dev.queue_modTrust (d : Dev) (f : Trust → Trust) (m : Nat) : (d.modTrust f).queue m = d.queue m := rfl
@[simp] theorem Dev.ctx_modTrust (d : Dev) (f : Trust → Trust) (m : Nat) : (d.modTrust f).ctx m = d.ctx m := rfl
@[simp] theorem Dev.mapEntry_modTrust (d : Dev) (f : Trust → Trust) (m : Nat) : (d.modTrust f).mapEntry m = d.mapEntry m := rfl
@[simp] theorem Dev.fence_modTrust (d : Dev) (f : Trust → Trust) (m : Nat) : (d.modTrust f).fence m = d.fence m := rfl
@[simp] theorem Dev.tile_modTrust (d : Dev) (f : Trust → Trust) (m : Nat) : (d.modTrust f).tile m = d.tile m := rfl
@[simp] theorem Dev.seam_modTrust (d : Dev) (f : Trust → Trust) (m : Nat) : (d.modTrust f).seam m = d.seam m := rfl
@[simp] theorem Dev.arb_modTrust (d : Dev) (f : Trust → Trust) (m : Nat) : (d.modTrust f).arb m = d.arb m := rfl
@[simp] theorem Dev.hub_modTrust (d : Dev) (f : Trust → Trust) (m : Nat) : (d.modTrust f).hub m = d.hub m := rfl
@[simp] theorem Dev.region_modTrust (d : Dev) (f : Trust → Trust) (m : Nat) : (d.modTrust f).region m = d.region m := rfl
@[simp] theorem Dev.counterBlock_modTrust (d : Dev) (f : Trust → Trust) (m : Nat) : (d.modTrust f).counterBlock m = d.counterBlock m := rfl
@[simp] theorem Dev.keyId_modTrust (d : Dev) (f : Trust → Trust) (m : Nat) : (d.modTrust f).keyId m = d.keyId m := rfl
@[simp] theorem Dev.badLine_modTrust (d : Dev) (f : Trust → Trust) (m : Nat) : (d.modTrust f).badLine m = d.badLine m := rfl
@[simp] theorem Dev.scaleEntry_modTrust (d : Dev) (f : Trust → Trust) (m : Nat) : (d.modTrust f).scaleEntry m = d.scaleEntry m := rfl
@[simp] theorem Dev.plan_modTrust (d : Dev) (f : Trust → Trust) (m : Nat) : (d.modTrust f).plan m = d.plan m := rfl
@[simp] theorem Dev.runOf_modTrust (d : Dev) (f : Trust → Trust) (m : Nat) : (d.modTrust f).runOf m = d.runOf m := rfl
@[simp] theorem Dev.extent_modTrust (d : Dev) (f : Trust → Trust) (m : Nat) : (d.modTrust f).extent m = d.extent m := rfl
@[simp] theorem Dev.flashOf_modTrust (d : Dev) (f : Trust → Trust) (m : Nat) : (d.modTrust f).flashOf m = d.flashOf m := rfl
@[simp] theorem Dev.haven_modTrust (d : Dev) (f : Trust → Trust) (m : Nat) : (d.modTrust f).haven m = d.haven m := rfl
@[simp] theorem Dev.job_modTrust (d : Dev) (f : Trust → Trust) (m : Nat) : (d.modTrust f).job m = d.job m := rfl
@[simp] theorem Dev.port_modTrust (d : Dev) (f : Trust → Trust) (m : Nat) : (d.modTrust f).port m = d.port m := rfl
@[simp] theorem Dev.group_modTrust (d : Dev) (f : Trust → Trust) (m : Nat) : (d.modTrust f).group m = d.group m := rfl
@[simp] theorem Dev.fn_modCharter (d : Dev) (n : Nat) (f : Charter → Charter) (m : Nat) : (d.modCharter n f).fn m = d.fn m := rfl
@[simp] theorem Dev.queue_modCharter (d : Dev) (n : Nat) (f : Charter → Charter) (m : Nat) : (d.modCharter n f).queue m = d.queue m := rfl
@[simp] theorem Dev.ctx_modCharter (d : Dev) (n : Nat) (f : Charter → Charter) (m : Nat) : (d.modCharter n f).ctx m = d.ctx m := rfl
@[simp] theorem Dev.mapEntry_modCharter (d : Dev) (n : Nat) (f : Charter → Charter) (m : Nat) : (d.modCharter n f).mapEntry m = d.mapEntry m := rfl
@[simp] theorem Dev.fence_modCharter (d : Dev) (n : Nat) (f : Charter → Charter) (m : Nat) : (d.modCharter n f).fence m = d.fence m := rfl
@[simp] theorem Dev.tile_modCharter (d : Dev) (n : Nat) (f : Charter → Charter) (m : Nat) : (d.modCharter n f).tile m = d.tile m := rfl
@[simp] theorem Dev.seam_modCharter (d : Dev) (n : Nat) (f : Charter → Charter) (m : Nat) : (d.modCharter n f).seam m = d.seam m := rfl
@[simp] theorem Dev.arb_modCharter (d : Dev) (n : Nat) (f : Charter → Charter) (m : Nat) : (d.modCharter n f).arb m = d.arb m := rfl
@[simp] theorem Dev.hub_modCharter (d : Dev) (n : Nat) (f : Charter → Charter) (m : Nat) : (d.modCharter n f).hub m = d.hub m := rfl
@[simp] theorem Dev.region_modCharter (d : Dev) (n : Nat) (f : Charter → Charter) (m : Nat) : (d.modCharter n f).region m = d.region m := rfl
@[simp] theorem Dev.counterBlock_modCharter (d : Dev) (n : Nat) (f : Charter → Charter) (m : Nat) : (d.modCharter n f).counterBlock m = d.counterBlock m := rfl
@[simp] theorem Dev.keyId_modCharter (d : Dev) (n : Nat) (f : Charter → Charter) (m : Nat) : (d.modCharter n f).keyId m = d.keyId m := rfl
@[simp] theorem Dev.badLine_modCharter (d : Dev) (n : Nat) (f : Charter → Charter) (m : Nat) : (d.modCharter n f).badLine m = d.badLine m := rfl
@[simp] theorem Dev.scaleEntry_modCharter (d : Dev) (n : Nat) (f : Charter → Charter) (m : Nat) : (d.modCharter n f).scaleEntry m = d.scaleEntry m := rfl
@[simp] theorem Dev.plan_modCharter (d : Dev) (n : Nat) (f : Charter → Charter) (m : Nat) : (d.modCharter n f).plan m = d.plan m := rfl
@[simp] theorem Dev.runOf_modCharter (d : Dev) (n : Nat) (f : Charter → Charter) (m : Nat) : (d.modCharter n f).runOf m = d.runOf m := rfl
@[simp] theorem Dev.extent_modCharter (d : Dev) (n : Nat) (f : Charter → Charter) (m : Nat) : (d.modCharter n f).extent m = d.extent m := rfl
@[simp] theorem Dev.flashOf_modCharter (d : Dev) (n : Nat) (f : Charter → Charter) (m : Nat) : (d.modCharter n f).flashOf m = d.flashOf m := rfl
@[simp] theorem Dev.haven_modCharter (d : Dev) (n : Nat) (f : Charter → Charter) (m : Nat) : (d.modCharter n f).haven m = d.haven m := rfl
@[simp] theorem Dev.job_modCharter (d : Dev) (n : Nat) (f : Charter → Charter) (m : Nat) : (d.modCharter n f).job m = d.job m := rfl
@[simp] theorem Dev.port_modCharter (d : Dev) (n : Nat) (f : Charter → Charter) (m : Nat) : (d.modCharter n f).port m = d.port m := rfl
@[simp] theorem Dev.group_modCharter (d : Dev) (n : Nat) (f : Charter → Charter) (m : Nat) : (d.modCharter n f).group m = d.group m := rfl
@[simp] theorem Dev.fn_modSys (d : Dev) (f : Sys → Sys) (m : Nat) : (d.modSys f).fn m = d.fn m := rfl
@[simp] theorem Dev.queue_modSys (d : Dev) (f : Sys → Sys) (m : Nat) : (d.modSys f).queue m = d.queue m := rfl
@[simp] theorem Dev.ctx_modSys (d : Dev) (f : Sys → Sys) (m : Nat) : (d.modSys f).ctx m = d.ctx m := rfl
@[simp] theorem Dev.mapEntry_modSys (d : Dev) (f : Sys → Sys) (m : Nat) : (d.modSys f).mapEntry m = d.mapEntry m := rfl
@[simp] theorem Dev.fence_modSys (d : Dev) (f : Sys → Sys) (m : Nat) : (d.modSys f).fence m = d.fence m := rfl
@[simp] theorem Dev.tile_modSys (d : Dev) (f : Sys → Sys) (m : Nat) : (d.modSys f).tile m = d.tile m := rfl
@[simp] theorem Dev.seam_modSys (d : Dev) (f : Sys → Sys) (m : Nat) : (d.modSys f).seam m = d.seam m := rfl
@[simp] theorem Dev.arb_modSys (d : Dev) (f : Sys → Sys) (m : Nat) : (d.modSys f).arb m = d.arb m := rfl
@[simp] theorem Dev.hub_modSys (d : Dev) (f : Sys → Sys) (m : Nat) : (d.modSys f).hub m = d.hub m := rfl
@[simp] theorem Dev.region_modSys (d : Dev) (f : Sys → Sys) (m : Nat) : (d.modSys f).region m = d.region m := rfl
@[simp] theorem Dev.counterBlock_modSys (d : Dev) (f : Sys → Sys) (m : Nat) : (d.modSys f).counterBlock m = d.counterBlock m := rfl
@[simp] theorem Dev.keyId_modSys (d : Dev) (f : Sys → Sys) (m : Nat) : (d.modSys f).keyId m = d.keyId m := rfl
@[simp] theorem Dev.badLine_modSys (d : Dev) (f : Sys → Sys) (m : Nat) : (d.modSys f).badLine m = d.badLine m := rfl
@[simp] theorem Dev.scaleEntry_modSys (d : Dev) (f : Sys → Sys) (m : Nat) : (d.modSys f).scaleEntry m = d.scaleEntry m := rfl
@[simp] theorem Dev.plan_modSys (d : Dev) (f : Sys → Sys) (m : Nat) : (d.modSys f).plan m = d.plan m := rfl
@[simp] theorem Dev.runOf_modSys (d : Dev) (f : Sys → Sys) (m : Nat) : (d.modSys f).runOf m = d.runOf m := rfl
@[simp] theorem Dev.extent_modSys (d : Dev) (f : Sys → Sys) (m : Nat) : (d.modSys f).extent m = d.extent m := rfl
@[simp] theorem Dev.flashOf_modSys (d : Dev) (f : Sys → Sys) (m : Nat) : (d.modSys f).flashOf m = d.flashOf m := rfl
@[simp] theorem Dev.haven_modSys (d : Dev) (f : Sys → Sys) (m : Nat) : (d.modSys f).haven m = d.haven m := rfl
@[simp] theorem Dev.job_modSys (d : Dev) (f : Sys → Sys) (m : Nat) : (d.modSys f).job m = d.job m := rfl
@[simp] theorem Dev.port_modSys (d : Dev) (f : Sys → Sys) (m : Nat) : (d.modSys f).port m = d.port m := rfl
@[simp] theorem Dev.group_modSys (d : Dev) (f : Sys → Sys) (m : Nat) : (d.modSys f).group m = d.group m := rfl
@[simp] theorem Dev.charter_modSys (d : Dev) (f : Sys → Sys) (m : Nat) : (d.modSys f).charter m = d.charter m := rfl
@[simp] theorem Dev.fn_modTide (d : Dev) (f : Tide → Tide) (m : Nat) : (d.modTide f).fn m = d.fn m := rfl
@[simp] theorem Dev.queue_modTide (d : Dev) (f : Tide → Tide) (m : Nat) : (d.modTide f).queue m = d.queue m := rfl
@[simp] theorem Dev.ctx_modTide (d : Dev) (f : Tide → Tide) (m : Nat) : (d.modTide f).ctx m = d.ctx m := rfl
@[simp] theorem Dev.mapEntry_modTide (d : Dev) (f : Tide → Tide) (m : Nat) : (d.modTide f).mapEntry m = d.mapEntry m := rfl
@[simp] theorem Dev.fence_modTide (d : Dev) (f : Tide → Tide) (m : Nat) : (d.modTide f).fence m = d.fence m := rfl
@[simp] theorem Dev.tile_modTide (d : Dev) (f : Tide → Tide) (m : Nat) : (d.modTide f).tile m = d.tile m := rfl
@[simp] theorem Dev.seam_modTide (d : Dev) (f : Tide → Tide) (m : Nat) : (d.modTide f).seam m = d.seam m := rfl
@[simp] theorem Dev.arb_modTide (d : Dev) (f : Tide → Tide) (m : Nat) : (d.modTide f).arb m = d.arb m := rfl
@[simp] theorem Dev.hub_modTide (d : Dev) (f : Tide → Tide) (m : Nat) : (d.modTide f).hub m = d.hub m := rfl
@[simp] theorem Dev.region_modTide (d : Dev) (f : Tide → Tide) (m : Nat) : (d.modTide f).region m = d.region m := rfl
@[simp] theorem Dev.counterBlock_modTide (d : Dev) (f : Tide → Tide) (m : Nat) : (d.modTide f).counterBlock m = d.counterBlock m := rfl
@[simp] theorem Dev.keyId_modTide (d : Dev) (f : Tide → Tide) (m : Nat) : (d.modTide f).keyId m = d.keyId m := rfl
@[simp] theorem Dev.badLine_modTide (d : Dev) (f : Tide → Tide) (m : Nat) : (d.modTide f).badLine m = d.badLine m := rfl
@[simp] theorem Dev.scaleEntry_modTide (d : Dev) (f : Tide → Tide) (m : Nat) : (d.modTide f).scaleEntry m = d.scaleEntry m := rfl
@[simp] theorem Dev.plan_modTide (d : Dev) (f : Tide → Tide) (m : Nat) : (d.modTide f).plan m = d.plan m := rfl
@[simp] theorem Dev.runOf_modTide (d : Dev) (f : Tide → Tide) (m : Nat) : (d.modTide f).runOf m = d.runOf m := rfl
@[simp] theorem Dev.extent_modTide (d : Dev) (f : Tide → Tide) (m : Nat) : (d.modTide f).extent m = d.extent m := rfl
@[simp] theorem Dev.flashOf_modTide (d : Dev) (f : Tide → Tide) (m : Nat) : (d.modTide f).flashOf m = d.flashOf m := rfl
@[simp] theorem Dev.haven_modTide (d : Dev) (f : Tide → Tide) (m : Nat) : (d.modTide f).haven m = d.haven m := rfl
@[simp] theorem Dev.job_modTide (d : Dev) (f : Tide → Tide) (m : Nat) : (d.modTide f).job m = d.job m := rfl
@[simp] theorem Dev.port_modTide (d : Dev) (f : Tide → Tide) (m : Nat) : (d.modTide f).port m = d.port m := rfl
@[simp] theorem Dev.group_modTide (d : Dev) (f : Tide → Tide) (m : Nat) : (d.modTide f).group m = d.group m := rfl
@[simp] theorem Dev.charter_modTide (d : Dev) (f : Tide → Tide) (m : Nat) : (d.modTide f).charter m = d.charter m := rfl
@[simp] theorem Dev.fn_modDike (d : Dev) (f : Dikewatch → Dikewatch) (m : Nat) : (d.modDike f).fn m = d.fn m := rfl
@[simp] theorem Dev.queue_modDike (d : Dev) (f : Dikewatch → Dikewatch) (m : Nat) : (d.modDike f).queue m = d.queue m := rfl
@[simp] theorem Dev.ctx_modDike (d : Dev) (f : Dikewatch → Dikewatch) (m : Nat) : (d.modDike f).ctx m = d.ctx m := rfl
@[simp] theorem Dev.mapEntry_modDike (d : Dev) (f : Dikewatch → Dikewatch) (m : Nat) : (d.modDike f).mapEntry m = d.mapEntry m := rfl
@[simp] theorem Dev.fence_modDike (d : Dev) (f : Dikewatch → Dikewatch) (m : Nat) : (d.modDike f).fence m = d.fence m := rfl
@[simp] theorem Dev.tile_modDike (d : Dev) (f : Dikewatch → Dikewatch) (m : Nat) : (d.modDike f).tile m = d.tile m := rfl
@[simp] theorem Dev.seam_modDike (d : Dev) (f : Dikewatch → Dikewatch) (m : Nat) : (d.modDike f).seam m = d.seam m := rfl
@[simp] theorem Dev.arb_modDike (d : Dev) (f : Dikewatch → Dikewatch) (m : Nat) : (d.modDike f).arb m = d.arb m := rfl
@[simp] theorem Dev.hub_modDike (d : Dev) (f : Dikewatch → Dikewatch) (m : Nat) : (d.modDike f).hub m = d.hub m := rfl
@[simp] theorem Dev.region_modDike (d : Dev) (f : Dikewatch → Dikewatch) (m : Nat) : (d.modDike f).region m = d.region m := rfl
@[simp] theorem Dev.counterBlock_modDike (d : Dev) (f : Dikewatch → Dikewatch) (m : Nat) : (d.modDike f).counterBlock m = d.counterBlock m := rfl
@[simp] theorem Dev.keyId_modDike (d : Dev) (f : Dikewatch → Dikewatch) (m : Nat) : (d.modDike f).keyId m = d.keyId m := rfl
@[simp] theorem Dev.badLine_modDike (d : Dev) (f : Dikewatch → Dikewatch) (m : Nat) : (d.modDike f).badLine m = d.badLine m := rfl
@[simp] theorem Dev.scaleEntry_modDike (d : Dev) (f : Dikewatch → Dikewatch) (m : Nat) : (d.modDike f).scaleEntry m = d.scaleEntry m := rfl
@[simp] theorem Dev.plan_modDike (d : Dev) (f : Dikewatch → Dikewatch) (m : Nat) : (d.modDike f).plan m = d.plan m := rfl
@[simp] theorem Dev.runOf_modDike (d : Dev) (f : Dikewatch → Dikewatch) (m : Nat) : (d.modDike f).runOf m = d.runOf m := rfl
@[simp] theorem Dev.extent_modDike (d : Dev) (f : Dikewatch → Dikewatch) (m : Nat) : (d.modDike f).extent m = d.extent m := rfl
@[simp] theorem Dev.flashOf_modDike (d : Dev) (f : Dikewatch → Dikewatch) (m : Nat) : (d.modDike f).flashOf m = d.flashOf m := rfl
@[simp] theorem Dev.haven_modDike (d : Dev) (f : Dikewatch → Dikewatch) (m : Nat) : (d.modDike f).haven m = d.haven m := rfl
@[simp] theorem Dev.job_modDike (d : Dev) (f : Dikewatch → Dikewatch) (m : Nat) : (d.modDike f).job m = d.job m := rfl
@[simp] theorem Dev.port_modDike (d : Dev) (f : Dikewatch → Dikewatch) (m : Nat) : (d.modDike f).port m = d.port m := rfl
@[simp] theorem Dev.group_modDike (d : Dev) (f : Dikewatch → Dikewatch) (m : Nat) : (d.modDike f).group m = d.group m := rfl
@[simp] theorem Dev.charter_modDike (d : Dev) (f : Dikewatch → Dikewatch) (m : Nat) : (d.modDike f).charter m = d.charter m := rfl
@[simp] theorem Dev.fn_modLife (d : Dev) (f : LifeCycle → LifeCycle) (m : Nat) : (d.modLife f).fn m = d.fn m := rfl
@[simp] theorem Dev.queue_modLife (d : Dev) (f : LifeCycle → LifeCycle) (m : Nat) : (d.modLife f).queue m = d.queue m := rfl
@[simp] theorem Dev.ctx_modLife (d : Dev) (f : LifeCycle → LifeCycle) (m : Nat) : (d.modLife f).ctx m = d.ctx m := rfl
@[simp] theorem Dev.mapEntry_modLife (d : Dev) (f : LifeCycle → LifeCycle) (m : Nat) : (d.modLife f).mapEntry m = d.mapEntry m := rfl
@[simp] theorem Dev.fence_modLife (d : Dev) (f : LifeCycle → LifeCycle) (m : Nat) : (d.modLife f).fence m = d.fence m := rfl
@[simp] theorem Dev.tile_modLife (d : Dev) (f : LifeCycle → LifeCycle) (m : Nat) : (d.modLife f).tile m = d.tile m := rfl
@[simp] theorem Dev.seam_modLife (d : Dev) (f : LifeCycle → LifeCycle) (m : Nat) : (d.modLife f).seam m = d.seam m := rfl
@[simp] theorem Dev.arb_modLife (d : Dev) (f : LifeCycle → LifeCycle) (m : Nat) : (d.modLife f).arb m = d.arb m := rfl
@[simp] theorem Dev.hub_modLife (d : Dev) (f : LifeCycle → LifeCycle) (m : Nat) : (d.modLife f).hub m = d.hub m := rfl
@[simp] theorem Dev.region_modLife (d : Dev) (f : LifeCycle → LifeCycle) (m : Nat) : (d.modLife f).region m = d.region m := rfl
@[simp] theorem Dev.counterBlock_modLife (d : Dev) (f : LifeCycle → LifeCycle) (m : Nat) : (d.modLife f).counterBlock m = d.counterBlock m := rfl
@[simp] theorem Dev.keyId_modLife (d : Dev) (f : LifeCycle → LifeCycle) (m : Nat) : (d.modLife f).keyId m = d.keyId m := rfl
@[simp] theorem Dev.badLine_modLife (d : Dev) (f : LifeCycle → LifeCycle) (m : Nat) : (d.modLife f).badLine m = d.badLine m := rfl
@[simp] theorem Dev.scaleEntry_modLife (d : Dev) (f : LifeCycle → LifeCycle) (m : Nat) : (d.modLife f).scaleEntry m = d.scaleEntry m := rfl
@[simp] theorem Dev.plan_modLife (d : Dev) (f : LifeCycle → LifeCycle) (m : Nat) : (d.modLife f).plan m = d.plan m := rfl
@[simp] theorem Dev.runOf_modLife (d : Dev) (f : LifeCycle → LifeCycle) (m : Nat) : (d.modLife f).runOf m = d.runOf m := rfl
@[simp] theorem Dev.extent_modLife (d : Dev) (f : LifeCycle → LifeCycle) (m : Nat) : (d.modLife f).extent m = d.extent m := rfl
@[simp] theorem Dev.flashOf_modLife (d : Dev) (f : LifeCycle → LifeCycle) (m : Nat) : (d.modLife f).flashOf m = d.flashOf m := rfl
@[simp] theorem Dev.haven_modLife (d : Dev) (f : LifeCycle → LifeCycle) (m : Nat) : (d.modLife f).haven m = d.haven m := rfl
@[simp] theorem Dev.job_modLife (d : Dev) (f : LifeCycle → LifeCycle) (m : Nat) : (d.modLife f).job m = d.job m := rfl
@[simp] theorem Dev.port_modLife (d : Dev) (f : LifeCycle → LifeCycle) (m : Nat) : (d.modLife f).port m = d.port m := rfl
@[simp] theorem Dev.group_modLife (d : Dev) (f : LifeCycle → LifeCycle) (m : Nat) : (d.modLife f).group m = d.group m := rfl
@[simp] theorem Dev.charter_modLife (d : Dev) (f : LifeCycle → LifeCycle) (m : Nat) : (d.modLife f).charter m = d.charter m := rfl
@[simp] theorem Dev.fn_modPower (d : Dev) (f : Power → Power) (m : Nat) : (d.modPower f).fn m = d.fn m := rfl
@[simp] theorem Dev.queue_modPower (d : Dev) (f : Power → Power) (m : Nat) : (d.modPower f).queue m = d.queue m := rfl
@[simp] theorem Dev.ctx_modPower (d : Dev) (f : Power → Power) (m : Nat) : (d.modPower f).ctx m = d.ctx m := rfl
@[simp] theorem Dev.mapEntry_modPower (d : Dev) (f : Power → Power) (m : Nat) : (d.modPower f).mapEntry m = d.mapEntry m := rfl
@[simp] theorem Dev.fence_modPower (d : Dev) (f : Power → Power) (m : Nat) : (d.modPower f).fence m = d.fence m := rfl
@[simp] theorem Dev.tile_modPower (d : Dev) (f : Power → Power) (m : Nat) : (d.modPower f).tile m = d.tile m := rfl
@[simp] theorem Dev.seam_modPower (d : Dev) (f : Power → Power) (m : Nat) : (d.modPower f).seam m = d.seam m := rfl
@[simp] theorem Dev.arb_modPower (d : Dev) (f : Power → Power) (m : Nat) : (d.modPower f).arb m = d.arb m := rfl
@[simp] theorem Dev.hub_modPower (d : Dev) (f : Power → Power) (m : Nat) : (d.modPower f).hub m = d.hub m := rfl
@[simp] theorem Dev.region_modPower (d : Dev) (f : Power → Power) (m : Nat) : (d.modPower f).region m = d.region m := rfl
@[simp] theorem Dev.counterBlock_modPower (d : Dev) (f : Power → Power) (m : Nat) : (d.modPower f).counterBlock m = d.counterBlock m := rfl
@[simp] theorem Dev.keyId_modPower (d : Dev) (f : Power → Power) (m : Nat) : (d.modPower f).keyId m = d.keyId m := rfl
@[simp] theorem Dev.badLine_modPower (d : Dev) (f : Power → Power) (m : Nat) : (d.modPower f).badLine m = d.badLine m := rfl
@[simp] theorem Dev.scaleEntry_modPower (d : Dev) (f : Power → Power) (m : Nat) : (d.modPower f).scaleEntry m = d.scaleEntry m := rfl
@[simp] theorem Dev.plan_modPower (d : Dev) (f : Power → Power) (m : Nat) : (d.modPower f).plan m = d.plan m := rfl
@[simp] theorem Dev.runOf_modPower (d : Dev) (f : Power → Power) (m : Nat) : (d.modPower f).runOf m = d.runOf m := rfl
@[simp] theorem Dev.extent_modPower (d : Dev) (f : Power → Power) (m : Nat) : (d.modPower f).extent m = d.extent m := rfl
@[simp] theorem Dev.flashOf_modPower (d : Dev) (f : Power → Power) (m : Nat) : (d.modPower f).flashOf m = d.flashOf m := rfl
@[simp] theorem Dev.haven_modPower (d : Dev) (f : Power → Power) (m : Nat) : (d.modPower f).haven m = d.haven m := rfl
@[simp] theorem Dev.job_modPower (d : Dev) (f : Power → Power) (m : Nat) : (d.modPower f).job m = d.job m := rfl
@[simp] theorem Dev.port_modPower (d : Dev) (f : Power → Power) (m : Nat) : (d.modPower f).port m = d.port m := rfl
@[simp] theorem Dev.group_modPower (d : Dev) (f : Power → Power) (m : Nat) : (d.modPower f).group m = d.group m := rfl
@[simp] theorem Dev.charter_modPower (d : Dev) (f : Power → Power) (m : Nat) : (d.modPower f).charter m = d.charter m := rfl
@[simp] theorem Dev.fn_modErrors (d : Dev) (f : Errors → Errors) (m : Nat) : (d.modErrors f).fn m = d.fn m := rfl
@[simp] theorem Dev.queue_modErrors (d : Dev) (f : Errors → Errors) (m : Nat) : (d.modErrors f).queue m = d.queue m := rfl
@[simp] theorem Dev.ctx_modErrors (d : Dev) (f : Errors → Errors) (m : Nat) : (d.modErrors f).ctx m = d.ctx m := rfl
@[simp] theorem Dev.mapEntry_modErrors (d : Dev) (f : Errors → Errors) (m : Nat) : (d.modErrors f).mapEntry m = d.mapEntry m := rfl
@[simp] theorem Dev.fence_modErrors (d : Dev) (f : Errors → Errors) (m : Nat) : (d.modErrors f).fence m = d.fence m := rfl
@[simp] theorem Dev.tile_modErrors (d : Dev) (f : Errors → Errors) (m : Nat) : (d.modErrors f).tile m = d.tile m := rfl
@[simp] theorem Dev.seam_modErrors (d : Dev) (f : Errors → Errors) (m : Nat) : (d.modErrors f).seam m = d.seam m := rfl
@[simp] theorem Dev.arb_modErrors (d : Dev) (f : Errors → Errors) (m : Nat) : (d.modErrors f).arb m = d.arb m := rfl
@[simp] theorem Dev.hub_modErrors (d : Dev) (f : Errors → Errors) (m : Nat) : (d.modErrors f).hub m = d.hub m := rfl
@[simp] theorem Dev.region_modErrors (d : Dev) (f : Errors → Errors) (m : Nat) : (d.modErrors f).region m = d.region m := rfl
@[simp] theorem Dev.counterBlock_modErrors (d : Dev) (f : Errors → Errors) (m : Nat) : (d.modErrors f).counterBlock m = d.counterBlock m := rfl
@[simp] theorem Dev.keyId_modErrors (d : Dev) (f : Errors → Errors) (m : Nat) : (d.modErrors f).keyId m = d.keyId m := rfl
@[simp] theorem Dev.badLine_modErrors (d : Dev) (f : Errors → Errors) (m : Nat) : (d.modErrors f).badLine m = d.badLine m := rfl
@[simp] theorem Dev.scaleEntry_modErrors (d : Dev) (f : Errors → Errors) (m : Nat) : (d.modErrors f).scaleEntry m = d.scaleEntry m := rfl
@[simp] theorem Dev.plan_modErrors (d : Dev) (f : Errors → Errors) (m : Nat) : (d.modErrors f).plan m = d.plan m := rfl
@[simp] theorem Dev.runOf_modErrors (d : Dev) (f : Errors → Errors) (m : Nat) : (d.modErrors f).runOf m = d.runOf m := rfl
@[simp] theorem Dev.extent_modErrors (d : Dev) (f : Errors → Errors) (m : Nat) : (d.modErrors f).extent m = d.extent m := rfl
@[simp] theorem Dev.flashOf_modErrors (d : Dev) (f : Errors → Errors) (m : Nat) : (d.modErrors f).flashOf m = d.flashOf m := rfl
@[simp] theorem Dev.haven_modErrors (d : Dev) (f : Errors → Errors) (m : Nat) : (d.modErrors f).haven m = d.haven m := rfl
@[simp] theorem Dev.job_modErrors (d : Dev) (f : Errors → Errors) (m : Nat) : (d.modErrors f).job m = d.job m := rfl
@[simp] theorem Dev.port_modErrors (d : Dev) (f : Errors → Errors) (m : Nat) : (d.modErrors f).port m = d.port m := rfl
@[simp] theorem Dev.group_modErrors (d : Dev) (f : Errors → Errors) (m : Nat) : (d.modErrors f).group m = d.group m := rfl
@[simp] theorem Dev.charter_modErrors (d : Dev) (f : Errors → Errors) (m : Nat) : (d.modErrors f).charter m = d.charter m := rfl
@[simp] theorem Dev.fn_modMgmt (d : Dev) (f : Mgmt → Mgmt) (m : Nat) : (d.modMgmt f).fn m = d.fn m := rfl
@[simp] theorem Dev.queue_modMgmt (d : Dev) (f : Mgmt → Mgmt) (m : Nat) : (d.modMgmt f).queue m = d.queue m := rfl
@[simp] theorem Dev.ctx_modMgmt (d : Dev) (f : Mgmt → Mgmt) (m : Nat) : (d.modMgmt f).ctx m = d.ctx m := rfl
@[simp] theorem Dev.mapEntry_modMgmt (d : Dev) (f : Mgmt → Mgmt) (m : Nat) : (d.modMgmt f).mapEntry m = d.mapEntry m := rfl
@[simp] theorem Dev.fence_modMgmt (d : Dev) (f : Mgmt → Mgmt) (m : Nat) : (d.modMgmt f).fence m = d.fence m := rfl
@[simp] theorem Dev.tile_modMgmt (d : Dev) (f : Mgmt → Mgmt) (m : Nat) : (d.modMgmt f).tile m = d.tile m := rfl
@[simp] theorem Dev.seam_modMgmt (d : Dev) (f : Mgmt → Mgmt) (m : Nat) : (d.modMgmt f).seam m = d.seam m := rfl
@[simp] theorem Dev.arb_modMgmt (d : Dev) (f : Mgmt → Mgmt) (m : Nat) : (d.modMgmt f).arb m = d.arb m := rfl
@[simp] theorem Dev.hub_modMgmt (d : Dev) (f : Mgmt → Mgmt) (m : Nat) : (d.modMgmt f).hub m = d.hub m := rfl
@[simp] theorem Dev.region_modMgmt (d : Dev) (f : Mgmt → Mgmt) (m : Nat) : (d.modMgmt f).region m = d.region m := rfl
@[simp] theorem Dev.counterBlock_modMgmt (d : Dev) (f : Mgmt → Mgmt) (m : Nat) : (d.modMgmt f).counterBlock m = d.counterBlock m := rfl
@[simp] theorem Dev.keyId_modMgmt (d : Dev) (f : Mgmt → Mgmt) (m : Nat) : (d.modMgmt f).keyId m = d.keyId m := rfl
@[simp] theorem Dev.badLine_modMgmt (d : Dev) (f : Mgmt → Mgmt) (m : Nat) : (d.modMgmt f).badLine m = d.badLine m := rfl
@[simp] theorem Dev.scaleEntry_modMgmt (d : Dev) (f : Mgmt → Mgmt) (m : Nat) : (d.modMgmt f).scaleEntry m = d.scaleEntry m := rfl
@[simp] theorem Dev.plan_modMgmt (d : Dev) (f : Mgmt → Mgmt) (m : Nat) : (d.modMgmt f).plan m = d.plan m := rfl
@[simp] theorem Dev.runOf_modMgmt (d : Dev) (f : Mgmt → Mgmt) (m : Nat) : (d.modMgmt f).runOf m = d.runOf m := rfl
@[simp] theorem Dev.extent_modMgmt (d : Dev) (f : Mgmt → Mgmt) (m : Nat) : (d.modMgmt f).extent m = d.extent m := rfl
@[simp] theorem Dev.flashOf_modMgmt (d : Dev) (f : Mgmt → Mgmt) (m : Nat) : (d.modMgmt f).flashOf m = d.flashOf m := rfl
@[simp] theorem Dev.haven_modMgmt (d : Dev) (f : Mgmt → Mgmt) (m : Nat) : (d.modMgmt f).haven m = d.haven m := rfl
@[simp] theorem Dev.job_modMgmt (d : Dev) (f : Mgmt → Mgmt) (m : Nat) : (d.modMgmt f).job m = d.job m := rfl
@[simp] theorem Dev.port_modMgmt (d : Dev) (f : Mgmt → Mgmt) (m : Nat) : (d.modMgmt f).port m = d.port m := rfl
@[simp] theorem Dev.group_modMgmt (d : Dev) (f : Mgmt → Mgmt) (m : Nat) : (d.modMgmt f).group m = d.group m := rfl
@[simp] theorem Dev.charter_modMgmt (d : Dev) (f : Mgmt → Mgmt) (m : Nat) : (d.modMgmt f).charter m = d.charter m := rfl
@[simp] theorem Dev.fn_modRunCmds (d : Dev) (f : List RunCmd → List RunCmd) (m : Nat) : (d.modRunCmds f).fn m = d.fn m := rfl
@[simp] theorem Dev.queue_modRunCmds (d : Dev) (f : List RunCmd → List RunCmd) (m : Nat) : (d.modRunCmds f).queue m = d.queue m := rfl
@[simp] theorem Dev.ctx_modRunCmds (d : Dev) (f : List RunCmd → List RunCmd) (m : Nat) : (d.modRunCmds f).ctx m = d.ctx m := rfl
@[simp] theorem Dev.mapEntry_modRunCmds (d : Dev) (f : List RunCmd → List RunCmd) (m : Nat) : (d.modRunCmds f).mapEntry m = d.mapEntry m := rfl
@[simp] theorem Dev.fence_modRunCmds (d : Dev) (f : List RunCmd → List RunCmd) (m : Nat) : (d.modRunCmds f).fence m = d.fence m := rfl
@[simp] theorem Dev.tile_modRunCmds (d : Dev) (f : List RunCmd → List RunCmd) (m : Nat) : (d.modRunCmds f).tile m = d.tile m := rfl
@[simp] theorem Dev.seam_modRunCmds (d : Dev) (f : List RunCmd → List RunCmd) (m : Nat) : (d.modRunCmds f).seam m = d.seam m := rfl
@[simp] theorem Dev.arb_modRunCmds (d : Dev) (f : List RunCmd → List RunCmd) (m : Nat) : (d.modRunCmds f).arb m = d.arb m := rfl
@[simp] theorem Dev.hub_modRunCmds (d : Dev) (f : List RunCmd → List RunCmd) (m : Nat) : (d.modRunCmds f).hub m = d.hub m := rfl
@[simp] theorem Dev.region_modRunCmds (d : Dev) (f : List RunCmd → List RunCmd) (m : Nat) : (d.modRunCmds f).region m = d.region m := rfl
@[simp] theorem Dev.counterBlock_modRunCmds (d : Dev) (f : List RunCmd → List RunCmd) (m : Nat) : (d.modRunCmds f).counterBlock m = d.counterBlock m := rfl
@[simp] theorem Dev.keyId_modRunCmds (d : Dev) (f : List RunCmd → List RunCmd) (m : Nat) : (d.modRunCmds f).keyId m = d.keyId m := rfl
@[simp] theorem Dev.badLine_modRunCmds (d : Dev) (f : List RunCmd → List RunCmd) (m : Nat) : (d.modRunCmds f).badLine m = d.badLine m := rfl
@[simp] theorem Dev.scaleEntry_modRunCmds (d : Dev) (f : List RunCmd → List RunCmd) (m : Nat) : (d.modRunCmds f).scaleEntry m = d.scaleEntry m := rfl
@[simp] theorem Dev.plan_modRunCmds (d : Dev) (f : List RunCmd → List RunCmd) (m : Nat) : (d.modRunCmds f).plan m = d.plan m := rfl
@[simp] theorem Dev.runOf_modRunCmds (d : Dev) (f : List RunCmd → List RunCmd) (m : Nat) : (d.modRunCmds f).runOf m = d.runOf m := rfl
@[simp] theorem Dev.extent_modRunCmds (d : Dev) (f : List RunCmd → List RunCmd) (m : Nat) : (d.modRunCmds f).extent m = d.extent m := rfl
@[simp] theorem Dev.flashOf_modRunCmds (d : Dev) (f : List RunCmd → List RunCmd) (m : Nat) : (d.modRunCmds f).flashOf m = d.flashOf m := rfl
@[simp] theorem Dev.haven_modRunCmds (d : Dev) (f : List RunCmd → List RunCmd) (m : Nat) : (d.modRunCmds f).haven m = d.haven m := rfl
@[simp] theorem Dev.job_modRunCmds (d : Dev) (f : List RunCmd → List RunCmd) (m : Nat) : (d.modRunCmds f).job m = d.job m := rfl
@[simp] theorem Dev.port_modRunCmds (d : Dev) (f : List RunCmd → List RunCmd) (m : Nat) : (d.modRunCmds f).port m = d.port m := rfl
@[simp] theorem Dev.group_modRunCmds (d : Dev) (f : List RunCmd → List RunCmd) (m : Nat) : (d.modRunCmds f).group m = d.group m := rfl
@[simp] theorem Dev.charter_modRunCmds (d : Dev) (f : List RunCmd → List RunCmd) (m : Nat) : (d.modRunCmds f).charter m = d.charter m := rfl
@[simp] theorem Dev.fn_emit (d : Dev) (o : Out) (m : Nat) : (d.emit o).fn m = d.fn m := rfl
@[simp] theorem Dev.queue_emit (d : Dev) (o : Out) (m : Nat) : (d.emit o).queue m = d.queue m := rfl
@[simp] theorem Dev.ctx_emit (d : Dev) (o : Out) (m : Nat) : (d.emit o).ctx m = d.ctx m := rfl
@[simp] theorem Dev.mapEntry_emit (d : Dev) (o : Out) (m : Nat) : (d.emit o).mapEntry m = d.mapEntry m := rfl
@[simp] theorem Dev.fence_emit (d : Dev) (o : Out) (m : Nat) : (d.emit o).fence m = d.fence m := rfl
@[simp] theorem Dev.tile_emit (d : Dev) (o : Out) (m : Nat) : (d.emit o).tile m = d.tile m := rfl
@[simp] theorem Dev.seam_emit (d : Dev) (o : Out) (m : Nat) : (d.emit o).seam m = d.seam m := rfl
@[simp] theorem Dev.arb_emit (d : Dev) (o : Out) (m : Nat) : (d.emit o).arb m = d.arb m := rfl
@[simp] theorem Dev.hub_emit (d : Dev) (o : Out) (m : Nat) : (d.emit o).hub m = d.hub m := rfl
@[simp] theorem Dev.region_emit (d : Dev) (o : Out) (m : Nat) : (d.emit o).region m = d.region m := rfl
@[simp] theorem Dev.counterBlock_emit (d : Dev) (o : Out) (m : Nat) : (d.emit o).counterBlock m = d.counterBlock m := rfl
@[simp] theorem Dev.keyId_emit (d : Dev) (o : Out) (m : Nat) : (d.emit o).keyId m = d.keyId m := rfl
@[simp] theorem Dev.badLine_emit (d : Dev) (o : Out) (m : Nat) : (d.emit o).badLine m = d.badLine m := rfl
@[simp] theorem Dev.scaleEntry_emit (d : Dev) (o : Out) (m : Nat) : (d.emit o).scaleEntry m = d.scaleEntry m := rfl
@[simp] theorem Dev.plan_emit (d : Dev) (o : Out) (m : Nat) : (d.emit o).plan m = d.plan m := rfl
@[simp] theorem Dev.runOf_emit (d : Dev) (o : Out) (m : Nat) : (d.emit o).runOf m = d.runOf m := rfl
@[simp] theorem Dev.extent_emit (d : Dev) (o : Out) (m : Nat) : (d.emit o).extent m = d.extent m := rfl
@[simp] theorem Dev.flashOf_emit (d : Dev) (o : Out) (m : Nat) : (d.emit o).flashOf m = d.flashOf m := rfl
@[simp] theorem Dev.haven_emit (d : Dev) (o : Out) (m : Nat) : (d.emit o).haven m = d.haven m := rfl
@[simp] theorem Dev.job_emit (d : Dev) (o : Out) (m : Nat) : (d.emit o).job m = d.job m := rfl
@[simp] theorem Dev.port_emit (d : Dev) (o : Out) (m : Nat) : (d.emit o).port m = d.port m := rfl
@[simp] theorem Dev.group_emit (d : Dev) (o : Out) (m : Nat) : (d.emit o).group m = d.group m := rfl
@[simp] theorem Dev.charter_emit (d : Dev) (o : Out) (m : Nat) : (d.emit o).charter m = d.charter m := rfl

end Sys2Proof.Machine
end

