-- ==== Sys2Proof/Laws/Head.lean ====
section
/-! SUPPORT. What the shared operations of the command rows do, case by case: a command at the head of a queue (R301, R311),
a change of the device under `onDev` and `onDevice`, a fold over a list, a memory read, an error-summary event. -/

namespace Sys2Proof.Machine

/-! ### The head of a queue -/

theorem Dev.onHead_idle {d : Dev} {q op : Nat} {want : Cmd → Bool} {go : Dev → Cmd → Nat → Bool}
    (effect : Dev → Cmd → Nat → Dev) (h : d.atHead q op want = .idle) : d.onHead q op effect want go = d := by
  unfold Dev.onHead; rw [h]

theorem Dev.onHead_fails {d : Dev} {q op code : Nat} {c : Cmd} {want : Cmd → Bool} {go : Dev → Cmd → Nat → Bool}
    (effect : Dev → Cmd → Nat → Dev) (h : d.atHead q op want = .fails c code) :
    d.onHead q op effect want go = d.failCmd q c code := by
  unfold Dev.onHead; rw [h]

theorem Dev.onHead_upstream {d : Dev} {q op f o : Nat} {c : Cmd} {want : Cmd → Bool} {go : Dev → Cmd → Nat → Bool}
    (effect : Dev → Cmd → Nat → Dev) (h : d.atHead q op want = .upstream c f o) :
    d.onHead q op effect want go = d.failUpstream q c f o := by
  unfold Dev.onHead; rw [h]

theorem Dev.onHead_ready {d : Dev} {q op ctx : Nat} {c : Cmd} {want : Cmd → Bool} {go : Dev → Cmd → Nat → Bool}
    (effect : Dev → Cmd → Nat → Dev) (h : d.atHead q op want = .ready c ctx) (g : go d c ctx = true) :
    d.onHead q op effect want go = effect (d.beginCmd q ctx c).1 (d.beginCmd q ctx c).2 ctx := by
  unfold Dev.onHead; rw [h]; simp [g]

theorem Dev.onHead_waits {d : Dev} {q op ctx : Nat} {c : Cmd} {want : Cmd → Bool} {go : Dev → Cmd → Nat → Bool}
    (effect : Dev → Cmd → Nat → Dev) (h : d.atHead q op want = .ready c ctx) (g : go d c ctx = false) :
    d.onHead q op effect want go = d := by
  unfold Dev.onHead; rw [h]; simp [g]

/-- The head command of a queue, taken up by HeadReady. -/
theorem HeadReady.onHead {s : State} {q op ctx : Nat} {c : Cmd} {want : Cmd → Bool}
    (effect : Dev → Cmd → Nat → Dev) (h : HeadReady s q op want c ctx) :
    s.dev.onHead q op effect want = effect (begun s q ctx c).1 (begun s q ctx c).2 ctx :=
  Dev.onHead_ready effect h rfl

/-! ### A command as it begins -/

theorem begun_queue_other (s : State) (q ctx n : Nat) (c : Cmd) (h : n ≠ q) :
    (begun s q ctx c).1.queue n = s.dev.queue n := by
  simp [begun, Dev.beginCmd, Dev.queue, Dev.modQueue, Tab.get_upd_other _ _ _ _ _ h]

theorem begun_eq (s : State) (q ctx : Nat) (c : Cmd) :
    (begun s q ctx c).1 = { s.dev with queues := (begun s q ctx c).1.queues } := rfl

@[simp] theorem begun_signal (s : State) (q ctx : Nat) (c : Cmd) : (begun s q ctx c).2.signal = c.signal := rfl
@[simp] theorem begun_payload (s : State) (q ctx : Nat) (c : Cmd) : (begun s q ctx c).2.payload = c.payload := rfl

/-! ### Folds and outcomes -/

@[simp] theorem Dev.each_nil {α : Type} (d : Dev) (f : Dev → α → Dev) : d.each [] f = d := rfl
@[simp] theorem Dev.each_cons {α : Type} (d : Dev) (a : α) (l : List α) (f : Dev → α → Dev) :
    d.each (a :: l) f = (f d a).each l f := rfl
theorem Dev.each_append {α : Type} (d : Dev) (l m : List α) (f : Dev → α → Dev) :
    d.each (l ++ m) f = (d.each l f).each m f := by simp [Dev.each, List.foldl_append]

/-- What every step of a fold keeps, the fold keeps. -/
theorem Dev.each_keeps {α : Type} (P : Dev → Prop) {d : Dev} {l : List α} {f : Dev → α → Dev} (h : P d)
    (k : ∀ d a, P d → P (f d a)) : P (d.each l f) := by
  induction l generalizing d with
  | nil => exact h
  | cons a l ih => exact ih (k d a h)

@[simp] theorem Dev.when_true (d : Dev) (f : Dev → Dev) : d.when true f = f d := rfl
@[simp] theorem Dev.when_false (d : Dev) (f : Dev → Dev) : d.when false f = d := rfl

theorem answers_onDev {i : Instr} {s : State} {f : Dev → Dev} {P : State → Prop} (e : exec i s = .next (s.onDev f))
    (h : P { s with dev := f s.dev }) : Answers i s P := ⟨_, e, h⟩

/-! ### Messages of the sensors (R649) -/

theorem Dev.sensorEvents_same {a b : Dev} (h : ∀ n, a.sensorLevel n = b.sensorLevel n) : a.sensorEvents b = b := by
  unfold Dev.sensorEvents
  split
  · rfl
  · next t _ _ =>
    refine Dev.each_keeps (fun d => d = b) rfl ?_
    rintro d n rfl
    simp [h n]

theorem Dev.sensorEvents_self (d : Dev) : d.sensorEvents d = d := Dev.sensorEvents_same fun _ => rfl

/-- The messages of the sensors change the outputs alone. -/
theorem Dev.sensorEvents_eq (a b : Dev) : a.sensorEvents b = { b with out := (a.sensorEvents b).out } := by
  unfold Dev.sensorEvents
  split
  · rfl
  · refine Dev.each_keeps (fun d => d = { b with out := d.out }) rfl ?_
    intro d n h
    split
    · exact h
    · rw [h]; rfl

/-! ### The error summary (R635, R650) -/

theorem Dev.msix_eq (d : Dev) (fn v : Nat) : ∃ f o, d.msix fn v = { d with fns := f, out := o } := by
  unfold Dev.msix
  split
  · exact ⟨d.fns, d.out, rfl⟩
  · split <;> exact ⟨_, _, rfl⟩

theorem Dev.logEvent_eq (d : Dev) (kind code die ctx queue step op fence detail : Nat) :
    ∃ x o, d.logEvent kind code die ctx queue step op fence detail = { d with errors := x, out := o } := by
  unfold Dev.logEvent
  dsimp only
  split <;> exact ⟨_, _, rfl⟩

/-- A summary event changes the error state, pending vectors and the outputs alone. -/
theorem Dev.errEvent_eq (d : Dev) (b : ErrBit) (code die ctx queue : Nat) :
    ∃ x f o, d.errEvent b code die ctx queue = { d with errors := x, fns := f, out := o } := by
  unfold Dev.errEvent
  extract_lets rise d1 d2
  obtain ⟨x, o, h⟩ : ∃ x o, d2 = { d1 with errors := x, out := o } := Dev.logEvent_eq ..
  split
  · obtain ⟨f, p, m⟩ := Dev.msix_eq d2 0 0
    exact ⟨x, f, p, by rw [m, h]; rfl⟩
  · exact ⟨x, d.fns, o, by rw [h]; rfl⟩

end Sys2Proof.Machine
end

