-- ==== Sys2Proof/Laws/Memory.lean ====
section
/-! SUPPORT. Laws of the stacked memory: a read after a write, the bytes a write leaves alone, and the canonical form,
which every operation on memory keeps. -/

namespace Sys2Proof.Machine

theorem Mem.wfFrom_mono {lo hi : Nat} (h : lo ≤ hi) {m : List Host.Cell} (w : Mem.wfFrom hi m = true) :
    Mem.wfFrom lo m = true := by
  cases m with
  | nil => rfl
  | cons c t =>
    obtain ⟨a, v⟩ := c
    simp [Mem.wfFrom] at w ⊢
    exact ⟨⟨Nat.le_trans h w.1.1, w.1.2⟩, w.2⟩

/-- An address below every listed one reads 0. -/
theorem Mem.read_below {lo a : Nat} {m : List Host.Cell} (w : Mem.wfFrom lo m = true) (h : a < lo) : Mem.read m a = 0 := by
  induction m generalizing lo with
  | nil => rfl
  | cons c t ih =>
    obtain ⟨b, v⟩ := c
    simp [Mem.wfFrom] at w
    have : b ≠ a := by omega
    simp [Mem.read, this]
    exact ih w.2 (by omega)

/-- A write keeps the canonical form. -/
theorem Mem.wfFrom_write {lo : Nat} {m : List Host.Cell} (w : Mem.wfFrom lo m = true) (a : Nat) (v : Byte) (h : lo ≤ a) :
    Mem.wfFrom lo (Mem.write a v m) = true := by
  induction m generalizing lo with
  | nil =>
    unfold Mem.write
    split
    · rfl
    · next hv => simp [Mem.wfFrom, h]; exact hv
  | cons c t ih =>
    obtain ⟨b, x⟩ := c
    simp [Mem.wfFrom] at w
    unfold Mem.write
    split
    · split
      · simp [Mem.wfFrom, w]
      · next hlt hv => simp [Mem.wfFrom, h, w]; exact ⟨hv, by omega⟩
    · split
      · split
        · exact Mem.wfFrom_mono (by omega) w.2
        · next e hv => simp [Mem.wfFrom, h]; exact ⟨hv, e ▸ w.2⟩
      · next h1 h2 =>
        simp [Mem.wfFrom, w.1]
        exact ih w.2 (by omega)

/-- A write keeps the canonical form. -/
theorem Mem.wf_write {m : List Host.Cell} (w : Mem.wf m = true) (a : Nat) (v : Byte) : Mem.wf (Mem.write a v m) = true :=
  Mem.wfFrom_write w a v (Nat.zero_le a)

/-- Writing a list of cells keeps the canonical form. -/
theorem Mem.wf_writeAll {m : List Host.Cell} (w : Mem.wf m = true) (cells : List Host.Cell) :
    Mem.wf (Mem.writeAll cells m) = true := by
  induction cells generalizing m with
  | nil => exact w
  | cons c t ih => exact ih (Mem.wf_write w c.1 c.2)

/-- Clearing a range keeps the canonical form. -/
theorem Mem.wfFrom_clear {lo : Nat} {m : List Host.Cell} (w : Mem.wfFrom lo m = true) (a n : Nat) :
    Mem.wfFrom lo (Mem.clear a n m) = true := by
  induction m generalizing lo with
  | nil => rfl
  | cons c t ih =>
    obtain ⟨b, x⟩ := c
    simp [Mem.wfFrom] at w
    have hw := ih w.2
    unfold Mem.clear at hw ⊢
    by_cases hb : (decide (b < a) || decide (a + n ≤ b)) = true
    · rw [List.filter_cons_of_pos (by simpa using hb)]
      simp [Mem.wfFrom, w.1, hw]
    · rw [List.filter_cons_of_neg (by simpa using hb)]
      exact Mem.wfFrom_mono (by omega) hw

/-- Clearing a range keeps the canonical form. -/
theorem Mem.wf_clear {m : List Host.Cell} (w : Mem.wf m = true) (a n : Nat) : Mem.wf (Mem.clear a n m) = true :=
  Mem.wfFrom_clear w a n

/-- A byte just written reads as it was written. -/
theorem Mem.read_write_self {lo : Nat} {m : List Host.Cell} (w : Mem.wfFrom lo m = true) (a : Nat) (v : Byte) :
    Mem.read (Mem.write a v m) a = v := by
  induction m generalizing lo with
  | nil =>
    unfold Mem.write
    split
    · next h => simp [Mem.read, h]
    · simp [Mem.read]
  | cons c t ih =>
    obtain ⟨b, x⟩ := c
    simp [Mem.wfFrom] at w
    unfold Mem.write
    split
    · next hlt =>
      split
      · next h =>
        have : b ≠ a := by omega
        simp [Mem.read, this, h, Mem.read_below w.2 (show a < b + 1 by omega)]
      · simp [Mem.read]
    · split
      · next e =>
        split
        · next h => rw [h]; exact Mem.read_below w.2 (by omega)
        · simp [Mem.read]
      · next h1 h2 =>
        have : b ≠ a := fun e => h2 e.symm
        simp [Mem.read, this]
        exact ih w.2

/-- Any other byte reads as before. -/
theorem Mem.read_write_other {m : List Host.Cell} (a b : Nat) (v : Byte) (h : b ≠ a) :
    Mem.read (Mem.write a v m) b = Mem.read m b := by
  induction m with
  | nil =>
    unfold Mem.write
    split
    · rfl
    · simp [Mem.read, Ne.symm h]
  | cons c t ih =>
    obtain ⟨k, x⟩ := c
    unfold Mem.write
    split
    · split
      · rfl
      · simp [Mem.read, Ne.symm h]
    · split
      · next e =>
        have : k ≠ b := fun z => h (z.symm.trans e.symm)
        split
        · simp [Mem.read, this]
        · simp [Mem.read, Ne.symm h, this]
      · simp [Mem.read, ih]

/-- Bytes outside a cleared range read as before. -/
theorem Mem.read_clear_other (a n b : Nat) (h : b < a ∨ a + n ≤ b) (m : List Host.Cell) :
    Mem.read (Mem.clear a n m) b = Mem.read m b := by
  induction m with
  | nil => rfl
  | cons c t ih =>
    obtain ⟨k, x⟩ := c
    unfold Mem.clear at ih ⊢
    by_cases hk : (decide (k < a) || decide (a + n ≤ k)) = true
    · rw [List.filter_cons_of_pos (by simpa using hk)]
      simp [Mem.read, ih]
    · rw [List.filter_cons_of_neg (by simpa using hk)]
      have : k ≠ b := by
        intro e; apply hk; simp; omega
      simp [Mem.read, this, ih]

/-- Bytes inside a cleared range read 0. -/
theorem Mem.read_clear_in (a n b : Nat) (h1 : a ≤ b) (h2 : b < a + n) (m : List Host.Cell) :
    Mem.read (Mem.clear a n m) b = 0 := by
  induction m with
  | nil => rfl
  | cons c t ih =>
    obtain ⟨k, x⟩ := c
    unfold Mem.clear at ih ⊢
    by_cases hk : (decide (k < a) || decide (a + n ≤ k)) = true
    · rw [List.filter_cons_of_pos (by simpa using hk)]
      have : k ≠ b := by
        intro e; simp at hk; omega
      simp [Mem.read, this, ih]
    · rw [List.filter_cons_of_neg (by simpa using hk)]
      exact ih

end Sys2Proof.Machine
end

