-- ==== Sys2Proof/Laws/Keeps.lean ====
section
/-! SUPPORT. Every operation of the device keeps the canonical form of T1 memory and, once the set-up lock is set, the
RWL fields (R630): one lemma for each function that answers a device, named after it (`Dev.f_good`), so that a proof
about either cites it and unfolds nothing. -/

namespace Sys2Proof.Machine

/-- The RWL fields read `wl` (R630), said of the fields alone. -/
def Locked (wl : List Nat) (arbs : Tab Arbiter) (maps : Tab W32) (address : BitVec 10) (harbour : W32)
    (i3c vdm : Bool) (static : BitVec 7) : Prop :=
  (((List.range 4) ++ (List.range 48).map (8 + ·)).map fun u => (Tab.get ({} : Arbiter) arbs u).sShare.toNat) ++
    [address.toNat, harbour.toNat] ++ ((List.range 4).map fun n => (maps.get 0xFFFFFFFF n).toNat) ++
    [boolNat i3c + 2 * boolNat vdm, static.toNat] = wl

/-- T1 memory is in canonical form and equals `mm` where that names a memory; and, where `lk` holds, the set-up lock is set and the RWL fields hold `wl`. -/
structure Dev.Good (mm : Option (List Host.Cell)) (lk : Bool) (wl : List Nat) (d : Dev) : Prop where
  mem  : Mem.wf d.mem = true
  same : ∀ m, mm = some m → d.mem = m
  lock : lk = true → d.sys.setupLock = true ∧ Locked wl d.arbs d.fabric.spareMap d.fabric.address d.fabric.harbour
    d.mgmt.i3cEnable d.mgmt.vdmEnable d.mgmt.staticAddr

variable {mm : Option (List Host.Cell)} {lk : Bool} {wl : List Nat}

theorem Dev.good_iff {d : Dev} : Dev.Good mm lk wl d ↔ Mem.wf d.mem = true ∧
    (∀ m, mm = some m → d.mem = m) ∧ (lk = true → d.sys.setupLock = true ∧ Locked wl d.arbs d.fabric.spareMap d.fabric.address d.fabric.harbour
    d.mgmt.i3cEnable d.mgmt.vdmEnable d.mgmt.staticAddr) := ⟨fun h => ⟨h.1, h.2, h.3⟩, fun h => ⟨h.1, h.2.1, h.2.2⟩⟩

theorem good_clear {m : List Host.Cell} {a n : Nat} {p : Prop} (h : Mem.wf m = true ∧ (∀ v, none = some v → m = v) ∧ p) :
    Mem.wf (Mem.clear a n m) = true ∧ (∀ v, none = some v → Mem.clear a n m = v) ∧ p :=
  ⟨Mem.wf_clear h.1 _ _, (fun _ q => by cases q), h.2.2⟩
theorem good_writeAll {m cells : List Host.Cell} {p : Prop} (h : Mem.wf m = true ∧ (∀ v, none = some v → m = v) ∧ p) :
    Mem.wf (Mem.writeAll cells m) = true ∧ (∀ v, none = some v → Mem.writeAll cells m = v) ∧ p :=
  ⟨Mem.wf_writeAll h.1 _, (fun _ q => by cases q), h.2.2⟩

/-- What holds of a locked device holds of one that no lock is claimed for. -/
theorem Dev.Good.free {d : Dev} (h : Dev.Good mm lk wl d) {v : List Nat} : Dev.Good mm false v d :=
  ⟨h.1, h.2, fun q => by cases q⟩

/-- What a function answers keeps both, where it answers a device: beside a result, or alone, or none. -/
structure OkR (mm : Option (List Host.Cell)) (lk : Bool) (wl : List Nat) {ε α : Type} (r : Except ε (Dev × α)) : Prop where
  out : ∀ e x, r = .ok (e, x) → Dev.Good mm lk wl e
structure OkE (mm : Option (List Host.Cell)) (lk : Bool) (wl : List Nat) {ε : Type} (r : Except ε Dev) : Prop where
  out : ∀ e, r = .ok e → Dev.Good mm lk wl e
structure OkO (mm : Option (List Host.Cell)) (lk : Bool) (wl : List Nat) (r : Option Dev) : Prop where
  out : ∀ e, r = some e → Dev.Good mm lk wl e
structure OkOR (mm : Option (List Host.Cell)) (lk : Bool) (wl : List Nat) {α : Type} (r : Option (Dev × α)) : Prop where
  out : ∀ e x, r = some (e, x) → Dev.Good mm lk wl e

theorem OkR.error {ε α : Type} {c : ε} : OkR mm lk wl (.error c : Except ε (Dev × α)) := ⟨fun _ _ q => by cases q⟩
theorem OkR.ok {ε α : Type} {d : Dev} {x : α} (h : Dev.Good mm lk wl d) : OkR mm lk wl (.ok (d, x) : Except ε (Dev × α)) :=
  ⟨fun _ _ q => by cases q; exact h⟩
theorem OkE.error {ε : Type} {c : ε} : OkE mm lk wl (.error c : Except ε Dev) := ⟨fun _ q => by cases q⟩
theorem OkE.ok {ε : Type} {d : Dev} (h : Dev.Good mm lk wl d) : OkE mm lk wl (.ok d : Except ε Dev) :=
  ⟨fun _ q => by cases q; exact h⟩
theorem OkO.none : OkO mm lk wl none := ⟨fun _ q => by cases q⟩
theorem OkO.some {d : Dev} (h : Dev.Good mm lk wl d) : OkO mm lk wl (some d) := ⟨fun _ q => by cases q; exact h⟩
theorem OkOR.none {α : Type} : OkOR mm lk wl (none : Option (Dev × α)) := ⟨fun _ _ q => by cases q⟩
theorem OkOR.some {α : Type} {d : Dev} {x : α} (h : Dev.Good mm lk wl d) : OkOR mm lk wl (some (d, x)) :=
  ⟨fun _ _ q => by cases q; exact h⟩
theorem OkR.elim {ε α : Type} {r : Except ε (Dev × α)} {e x} (h : OkR mm lk wl r) (q : r = .ok (e, x)) : Dev.Good mm lk wl e :=
  h.out e x q
theorem OkE.elim {ε : Type} {r : Except ε Dev} {e} (h : OkE mm lk wl r) (q : r = .ok e) : Dev.Good mm lk wl e := h.out e q
theorem OkO.elim {r : Option Dev} {e} (h : OkO mm lk wl r) (q : r = .some e) : Dev.Good mm lk wl e := h.out e q
theorem OkOR.elim {α : Type} {r : Option (Dev × α)} {e x} (h : OkOR mm lk wl r) (q : r = .some (e, x)) : Dev.Good mm lk wl e :=
  h.out e x q
theorem good_of_pair {α : Type} {p : Dev × α} {e x} (h : Dev.Good mm lk wl p.1) (q : p = (e, x)) : Dev.Good mm lk wl e := by
  cases q; exact h
theorem good_of_pair2 {α : Type} {p : α × Dev} {e x} (h : Dev.Good mm lk wl p.2) (q : p = (x, e)) : Dev.Good mm lk wl e := by
  cases q; exact h

theorem foldl_good {α : Type} {l : List α} {f : Dev → α → Dev} {d : Dev} (h : Dev.Good mm lk wl d)
    (k : ∀ d a, Dev.Good mm lk wl d → Dev.Good mm lk wl (f d a)) : Dev.Good mm lk wl (l.foldl f d) := by
  induction l generalizing d with
  | nil => exact h
  | cons a t ih => exact ih (k d a h)
theorem foldl_pair_good {α β : Type} {l : List α} {f : Dev × β → α → Dev × β} {p : Dev × β} (h : Dev.Good mm lk wl p.1)
    (k : ∀ p a, Dev.Good mm lk wl p.1 → Dev.Good mm lk wl (f p a).1) : Dev.Good mm lk wl (l.foldl f p).1 := by
  induction l generalizing p with
  | nil => exact h
  | cons a t ih => exact ih (k p a h)
theorem foldl_okR {ε α β : Type} {l : List α} {f : Except ε (Dev × β) → α → Except ε (Dev × β)} {p} (h : OkR mm lk wl p)
    (k : ∀ p a, OkR mm lk wl p → OkR mm lk wl (f p a)) : OkR mm lk wl (l.foldl f p) := by
  induction l generalizing p with
  | nil => exact h
  | cons a t ih => exact ih (k p a h)
theorem foldl_okOR {α β : Type} {l : List α} {f : Option (Dev × β) → α → Option (Dev × β)} {p} (h : OkOR mm lk wl p)
    (k : ∀ p a, OkOR mm lk wl p → OkOR mm lk wl (f p a)) : OkOR mm lk wl (l.foldl f p) := by
  induction l generalizing p with
  | nil => exact h
  | cons a t ih => exact ih (k p a h)
theorem foldl_okE {ε α : Type} {l : List α} {f : Except ε Dev → α → Except ε Dev} {p} (h : OkE mm lk wl p)
    (k : ∀ p a, OkE mm lk wl p → OkE mm lk wl (f p a)) : OkE mm lk wl (l.foldl f p) := by
  induction l generalizing p with
  | nil => exact h
  | cons a t ih => exact ih (k p a h)
theorem okOR_map {α β : Type} {r : Option (Dev × α)} {f : Dev × α → Dev × β} (h : OkOR mm lk wl r)
    (k : ∀ p, Dev.Good mm lk wl p.1 → Dev.Good mm lk wl (f p).1) : OkOR mm lk wl (r.map f) := by
  constructor
  intro e x q
  cases r with
  | none => cases q
  | some p =>
    have := k p (h.out p.1 p.2 rfl)
    simp only [Option.map_some, Option.some.injEq] at q
    rw [q] at this
    exact this
theorem okO_map {α : Type} {r : Option α} {f : α → Dev} (k : ∀ a, Dev.Good mm lk wl (f a)) : OkO mm lk wl (r.map f) := by
  constructor
  intro e q
  cases r with
  | none => cases q
  | some p =>
    simp only [Option.map_some, Option.some.injEq] at q
    rw [← q]
    exact k p

theorem Dev.each_good {α : Type} {d : Dev} {l : List α} {f : Dev → α → Dev} (h : Dev.Good mm lk wl d)
    (k : ∀ d a, Dev.Good mm lk wl d → Dev.Good mm lk wl (f d a)) : Dev.Good mm lk wl (d.each l f) := foldl_good h k
theorem Dev.when_good {d : Dev} {c : Bool} {f : Dev → Dev} (h : Dev.Good mm lk wl d)
    (k : Dev.Good mm lk wl d → Dev.Good mm lk wl (f d)) : Dev.Good mm lk wl (d.when c f) := by
  unfold Dev.when
  split
  · exact k h
  · exact h
theorem ite_good {c : Prop} [Decidable c] {a b : Dev} (ha : Dev.Good mm lk wl a) (hb : Dev.Good mm lk wl b) :
    Dev.Good mm lk wl (if c then a else b) := by
  split
  · exact ha
  · exact hb

theorem Dev.modSys_good {d : Dev} (h : Dev.Good mm lk wl d) {f : Sys → Sys} (k : ∀ x, x.setupLock = true → (f x).setupLock = true) :
    Dev.Good mm lk wl (d.modSys f) := ⟨h.1, h.2, fun q => ⟨k _ (h.3 q).1, (h.3 q).2⟩⟩
theorem Dev.modFabric_good {d : Dev} (h : Dev.Good mm lk wl d) {f : Fabric → Fabric}
    (k : ∀ x, (f x).spareMap = x.spareMap ∧ (f x).address = x.address ∧ (f x).harbour = x.harbour) :
    Dev.Good mm lk wl (d.modFabric f) := by
  refine ⟨h.1, h.2, fun q => ⟨(h.3 q).1, ?_⟩⟩
  simp only [Dev.modFabric, (k d.fabric).1, (k d.fabric).2.1, (k d.fabric).2.2]
  exact (h.3 q).2
theorem Dev.modMgmt_good {d : Dev} (h : Dev.Good mm lk wl d) {f : Mgmt → Mgmt}
    (k : ∀ x, (f x).i3cEnable = x.i3cEnable ∧ (f x).vdmEnable = x.vdmEnable ∧ (f x).staticAddr = x.staticAddr) :
    Dev.Good mm lk wl (d.modMgmt f) := by
  refine ⟨h.1, h.2, fun q => ⟨(h.3 q).1, ?_⟩⟩
  simp only [Dev.modMgmt, (k d.mgmt).1, (k d.mgmt).2.1, (k d.mgmt).2.2]
  exact (h.3 q).2
theorem Dev.modArb_good {d : Dev} (h : Dev.Good mm lk wl d) {n : Nat} {f : Arbiter → Arbiter}
    (k : ∀ x, (f x).sShare = x.sShare) : Dev.Good mm lk wl (d.modArb n f) := by
  refine ⟨h.1, h.2, fun q => ⟨(h.3 q).1, ?_⟩⟩
  have e : ∀ u, ((d.arbs.upd {} n f).get {} u).sShare = (d.arbs.get {} u).sShare := by
    intro u
    by_cases hu : u = n
    · subst hu; rw [Tab.get_upd_self]; exact k _
    · rw [Tab.get_upd_other _ _ _ _ _ hu]
  simp only [Dev.modArb, Locked, e]
  exact (h.3 q).2
theorem Dev.modFabric_free {d : Dev} (h : Dev.Good mm false wl d) {f : Fabric → Fabric} : Dev.Good mm false wl (d.modFabric f) :=
  ⟨h.1, h.2, fun q => by cases q⟩
theorem Dev.modMgmt_free {d : Dev} (h : Dev.Good mm false wl d) {f : Mgmt → Mgmt} : Dev.Good mm false wl (d.modMgmt f) :=
  ⟨h.1, h.2, fun q => by cases q⟩
theorem Dev.modArb_free {d : Dev} (h : Dev.Good mm false wl d) {n : Nat} {f : Arbiter → Arbiter} : Dev.Good mm false wl (d.modArb n f) :=
  ⟨h.1, h.2, fun q => by cases q⟩

theorem Mgmt.cancelUpdate_keeps (x : Mgmt) : x.cancelUpdate.i3cEnable = x.i3cEnable ∧
    x.cancelUpdate.vdmEnable = x.vdmEnable ∧ x.cancelUpdate.staticAddr = x.staticAddr := by
  unfold Mgmt.cancelUpdate
  split <;> exact ⟨rfl, rfl, rfl⟩

theorem Dev.modFn_good {d : Dev} (h : Dev.Good mm lk wl d) (n : Nat) (f : Function → Function) : Dev.Good mm lk wl (Dev.modFn d n f) := by
  unfold Dev.modFn
  repeat' (first | with_reducible assumption | (refine Dev.good_iff.mpr ?_; dsimp only; refine Dev.good_iff.mp ?_))

theorem Dev.modQueue_good {d : Dev} (h : Dev.Good mm lk wl d) (n : Nat) (f : Queue → Queue) : Dev.Good mm lk wl (Dev.modQueue d n f) := by
  unfold Dev.modQueue
  repeat' (first | with_reducible assumption | (refine Dev.good_iff.mpr ?_; dsimp only; refine Dev.good_iff.mp ?_))

theorem Dev.modCtx_good {d : Dev} (h : Dev.Good mm lk wl d) (n : Nat) (f : Context → Context) : Dev.Good mm lk wl (Dev.modCtx d n f) := by
  unfold Dev.modCtx
  repeat' (first | with_reducible assumption | (refine Dev.good_iff.mpr ?_; dsimp only; refine Dev.good_iff.mp ?_))

theorem Dev.modMap_good {d : Dev} (h : Dev.Good mm lk wl d) (n : Nat) (f : MapEntry → MapEntry) : Dev.Good mm lk wl (Dev.modMap d n f) := by
  unfold Dev.modMap
  repeat' (first | with_reducible assumption | (refine Dev.good_iff.mpr ?_; dsimp only; refine Dev.good_iff.mp ?_))

theorem Dev.modFence_good {d : Dev} (h : Dev.Good mm lk wl d) (n : Nat) (f : Fence → Fence) : Dev.Good mm lk wl (Dev.modFence d n f) := by
  unfold Dev.modFence
  repeat' (first | with_reducible assumption | (refine Dev.good_iff.mpr ?_; dsimp only; refine Dev.good_iff.mp ?_))

theorem Dev.modTile_good {d : Dev} (h : Dev.Good mm lk wl d) (n : Nat) (f : Tile → Tile) : Dev.Good mm lk wl (Dev.modTile d n f) := by
  unfold Dev.modTile
  repeat' (first | with_reducible assumption | (refine Dev.good_iff.mpr ?_; dsimp only; refine Dev.good_iff.mp ?_))

theorem Dev.modSeam_good {d : Dev} (h : Dev.Good mm lk wl d) (n : Nat) (f : Seam → Seam) : Dev.Good mm lk wl (Dev.modSeam d n f) := by
  unfold Dev.modSeam
  repeat' (first | with_reducible assumption | (refine Dev.good_iff.mpr ?_; dsimp only; refine Dev.good_iff.mp ?_))

theorem Dev.modHub_good {d : Dev} (h : Dev.Good mm lk wl d) (n : Nat) (f : Hub → Hub) : Dev.Good mm lk wl (Dev.modHub d n f) := by
  unfold Dev.modHub
  repeat' (first | with_reducible assumption | (refine Dev.good_iff.mpr ?_; dsimp only; refine Dev.good_iff.mp ?_))

theorem Dev.modRegion_good {d : Dev} (h : Dev.Good mm lk wl d) (n : Nat) (f : MemRegion → MemRegion) : Dev.Good mm lk wl (Dev.modRegion d n f) := by
  unfold Dev.modRegion
  repeat' (first | with_reducible assumption | (refine Dev.good_iff.mpr ?_; dsimp only; refine Dev.good_iff.mp ?_))

theorem Dev.modCounter_good {d : Dev} (h : Dev.Good mm lk wl d) (n : Nat) (f : CounterBlock → CounterBlock) : Dev.Good mm lk wl (Dev.modCounter d n f) := by
  unfold Dev.modCounter
  repeat' (first | with_reducible assumption | (refine Dev.good_iff.mpr ?_; dsimp only; refine Dev.good_iff.mp ?_))

theorem Dev.modNode_good {d : Dev} (h : Dev.Good mm lk wl d) (n : Nat) (f : CounterBlock → CounterBlock) : Dev.Good mm lk wl (Dev.modNode d n f) := by
  unfold Dev.modNode
  repeat' (first | with_reducible assumption | (refine Dev.good_iff.mpr ?_; dsimp only; refine Dev.good_iff.mp ?_))

theorem Dev.modKey_good {d : Dev} (h : Dev.Good mm lk wl d) (n : Nat) (f : KeyId → KeyId) : Dev.Good mm lk wl (Dev.modKey d n f) := by
  unfold Dev.modKey
  repeat' (first | with_reducible assumption | (refine Dev.good_iff.mpr ?_; dsimp only; refine Dev.good_iff.mp ?_))

theorem Dev.modBadLine_good {d : Dev} (h : Dev.Good mm lk wl d) (n : Nat) (f : BadLine → BadLine) : Dev.Good mm lk wl (Dev.modBadLine d n f) := by
  unfold Dev.modBadLine
  repeat' (first | with_reducible assumption | (refine Dev.good_iff.mpr ?_; dsimp only; refine Dev.good_iff.mp ?_))

theorem Dev.modScale_good {d : Dev} (h : Dev.Good mm lk wl d) (n : Nat) (f : ScaleEntry → ScaleEntry) : Dev.Good mm lk wl (Dev.modScale d n f) := by
  unfold Dev.modScale
  repeat' (first | with_reducible assumption | (refine Dev.good_iff.mpr ?_; dsimp only; refine Dev.good_iff.mp ?_))

theorem Dev.modPlan_good {d : Dev} (h : Dev.Good mm lk wl d) (n : Nat) (f : Plan → Plan) : Dev.Good mm lk wl (Dev.modPlan d n f) := by
  unfold Dev.modPlan
  repeat' (first | with_reducible assumption | (refine Dev.good_iff.mpr ?_; dsimp only; refine Dev.good_iff.mp ?_))

theorem Dev.setLoad_good {d : Dev} (h : Dev.Good mm lk wl d) (n : Nat) (l : Option Load) : Dev.Good mm lk wl (Dev.setLoad d n l) := by
  unfold Dev.setLoad
  repeat' (first | with_reducible assumption | (refine Dev.good_iff.mpr ?_; dsimp only; refine Dev.good_iff.mp ?_))

theorem Dev.modRun_good {d : Dev} (h : Dev.Good mm lk wl d) (n : Nat) (f : Run → Run) : Dev.Good mm lk wl (Dev.modRun d n f) := by
  unfold Dev.modRun
  repeat' (first | with_reducible assumption | (refine Dev.good_iff.mpr ?_; dsimp only; refine Dev.good_iff.mp ?_))

theorem Dev.modExtent_good {d : Dev} (h : Dev.Good mm lk wl d) (n : Nat) (f : Extent → Extent) : Dev.Good mm lk wl (Dev.modExtent d n f) := by
  unfold Dev.modExtent
  repeat' (first | with_reducible assumption | (refine Dev.good_iff.mpr ?_; dsimp only; refine Dev.good_iff.mp ?_))

theorem Dev.modFlash_good {d : Dev} (h : Dev.Good mm lk wl d) (n : Nat) (f : Flash → Flash) : Dev.Good mm lk wl (Dev.modFlash d n f) := by
  unfold Dev.modFlash
  repeat' (first | with_reducible assumption | (refine Dev.good_iff.mpr ?_; dsimp only; refine Dev.good_iff.mp ?_))

theorem Dev.modPort_good {d : Dev} (h : Dev.Good mm lk wl d) (n : Nat) (f : Port → Port) : Dev.Good mm lk wl (Dev.modPort d n f) := by
  unfold Dev.modPort
  repeat' (first | exact Mgmt.cancelUpdate_keeps | (exact fun _ h => h) | (exact fun _ => ⟨rfl, rfl, rfl⟩) | (exact fun _ => rfl) | (intro _; (repeat' split) <;> exact ⟨rfl, rfl, rfl⟩) | (intro _ h; (repeat' split) <;> exact h) | with_reducible assumption | with_reducible apply Dev.modFabric_good)

theorem Dev.modGroup_good {d : Dev} (h : Dev.Good mm lk wl d) (n : Nat) (f : Group → Group) : Dev.Good mm lk wl (Dev.modGroup d n f) := by
  unfold Dev.modGroup
  repeat' (first | exact Mgmt.cancelUpdate_keeps | (exact fun _ h => h) | (exact fun _ => ⟨rfl, rfl, rfl⟩) | (exact fun _ => rfl) | (intro _; (repeat' split) <;> exact ⟨rfl, rfl, rfl⟩) | (intro _ h; (repeat' split) <;> exact h) | with_reducible assumption | with_reducible apply Dev.modFabric_good)

theorem Dev.modHaven_good {d : Dev} (h : Dev.Good mm lk wl d) (n : Nat) (f : Haven → Haven) : Dev.Good mm lk wl (Dev.modHaven d n f) := by
  unfold Dev.modHaven
  repeat' (first | with_reducible assumption | (refine Dev.good_iff.mpr ?_; dsimp only; refine Dev.good_iff.mp ?_))

theorem Dev.modJob_good {d : Dev} (h : Dev.Good mm lk wl d) (n : Nat) (f : Job → Job) : Dev.Good mm lk wl (Dev.modJob d n f) := by
  unfold Dev.modJob
  repeat' (first | with_reducible assumption | (refine Dev.good_iff.mpr ?_; dsimp only; refine Dev.good_iff.mp ?_))

theorem Dev.modTrust_good {d : Dev} (h : Dev.Good mm lk wl d) (f : Trust → Trust) : Dev.Good mm lk wl (Dev.modTrust d f) := by
  unfold Dev.modTrust
  repeat' (first | with_reducible assumption | (refine Dev.good_iff.mpr ?_; dsimp only; refine Dev.good_iff.mp ?_))

theorem Dev.modCharter_good {d : Dev} (h : Dev.Good mm lk wl d) (n : Nat) (f : Charter → Charter) : Dev.Good mm lk wl (Dev.modCharter d n f) := by
  unfold Dev.modCharter
  repeat' (first | with_reducible assumption | with_reducible apply Dev.modTrust_good)

theorem Dev.modTide_good {d : Dev} (h : Dev.Good mm lk wl d) (f : Tide → Tide) : Dev.Good mm lk wl (Dev.modTide d f) := by
  unfold Dev.modTide
  repeat' (first | with_reducible assumption | (refine Dev.good_iff.mpr ?_; dsimp only; refine Dev.good_iff.mp ?_))

theorem Dev.modDike_good {d : Dev} (h : Dev.Good mm lk wl d) (f : Dikewatch → Dikewatch) : Dev.Good mm lk wl (Dev.modDike d f) := by
  unfold Dev.modDike
  repeat' (first | with_reducible assumption | (refine Dev.good_iff.mpr ?_; dsimp only; refine Dev.good_iff.mp ?_))

theorem Dev.modLife_good {d : Dev} (h : Dev.Good mm lk wl d) (f : LifeCycle → LifeCycle) : Dev.Good mm lk wl (Dev.modLife d f) := by
  unfold Dev.modLife
  repeat' (first | with_reducible assumption | (refine Dev.good_iff.mpr ?_; dsimp only; refine Dev.good_iff.mp ?_))

theorem Dev.modPower_good {d : Dev} (h : Dev.Good mm lk wl d) (f : Power → Power) : Dev.Good mm lk wl (Dev.modPower d f) := by
  unfold Dev.modPower
  repeat' (first | with_reducible assumption | (refine Dev.good_iff.mpr ?_; dsimp only; refine Dev.good_iff.mp ?_))

theorem Dev.modErrors_good {d : Dev} (h : Dev.Good mm lk wl d) (f : Errors → Errors) : Dev.Good mm lk wl (Dev.modErrors d f) := by
  unfold Dev.modErrors
  repeat' (first | with_reducible assumption | (refine Dev.good_iff.mpr ?_; dsimp only; refine Dev.good_iff.mp ?_))

theorem Dev.modRunCmds_good {d : Dev} (h : Dev.Good mm lk wl d) (f : List RunCmd → List RunCmd) : Dev.Good mm lk wl (Dev.modRunCmds d f) := by
  unfold Dev.modRunCmds
  repeat' (first | with_reducible assumption | (refine Dev.good_iff.mpr ?_; dsimp only; refine Dev.good_iff.mp ?_))

theorem Dev.emit_good {d : Dev} (h : Dev.Good mm lk wl d) (o : Out) : Dev.Good mm lk wl (Dev.emit d o) := by
  unfold Dev.emit
  repeat' (first | with_reducible assumption | (refine Dev.good_iff.mpr ?_; dsimp only; refine Dev.good_iff.mp ?_))

theorem Dev.hostWrite_good {d : Dev} (h : Dev.Good mm lk wl d) (fn addr : Nat) (words : List W32) : Dev.Good mm lk wl (Dev.hostWrite d fn addr words) := by
  unfold Dev.hostWrite
  repeat' (first | with_reducible assumption | (with_reducible intro _) | with_reducible apply Dev.each_good | with_reducible apply Dev.when_good | with_reducible apply Dev.emit_good | split)

theorem Dev.msix_good {d : Dev} (h : Dev.Good mm lk wl d) (fn vec : Nat) : Dev.Good mm lk wl (Dev.msix d fn vec) := by
  unfold Dev.msix
  repeat' (first | with_reducible assumption | (with_reducible intro _) | with_reducible apply Dev.modFn_good | with_reducible apply Dev.emit_good | split)

theorem Dev.draw_good {d : Dev} (h : Dev.Good mm lk wl d) : Dev.Good mm lk wl (Dev.draw d).2 := by
  unfold Dev.draw
  repeat' (first | exact Mgmt.cancelUpdate_keeps | (exact fun _ h => h) | (exact fun _ => ⟨rfl, rfl, rfl⟩) | (exact fun _ => rfl) | (intro _; (repeat' split) <;> exact ⟨rfl, rfl, rfl⟩) | (intro _ h; (repeat' split) <;> exact h) | with_reducible assumption | with_reducible apply Dev.modSys_good)

theorem Dev.logEvent_good {d : Dev} (h : Dev.Good mm lk wl d) (kind code : Nat) (die : Nat) (ctx : Nat) (queue : Nat)
    (step : Nat) (op : Nat) (fence : Nat) (detail : Nat) : Dev.Good mm lk wl (Dev.logEvent d kind code die ctx queue step op fence detail) := by
  unfold Dev.logEvent
  repeat' (first | with_reducible assumption | (with_reducible intro _) | with_reducible apply Dev.modErrors_good | with_reducible apply Dev.emit_good | split | (refine Dev.good_iff.mpr ?_; dsimp only; refine Dev.good_iff.mp ?_))

theorem Dev.errEvent_good {d : Dev} (h : Dev.Good mm lk wl d) (b : ErrBit) (code : Nat) (die : Nat) (ctx : Nat)
    (queue : Nat) : Dev.Good mm lk wl (Dev.errEvent d b code die ctx queue) := by
  unfold Dev.errEvent
  repeat' (first | with_reducible assumption | (with_reducible intro _) | with_reducible apply Dev.modErrors_good | with_reducible apply Dev.msix_good | with_reducible apply Dev.logEvent_good | split | (refine Dev.good_iff.mpr ?_; dsimp only; refine Dev.good_iff.mp ?_))

theorem Dev.dwEvent_good {d : Dev} (h : Dev.Good mm lk wl d) (input : DwInput) (unit : Nat) (amount : Nat) : Dev.Good mm lk wl (Dev.dwEvent d input unit amount) := by
  unfold Dev.dwEvent
  repeat' (first | with_reducible assumption | with_reducible apply Dev.modDike_good)

theorem Dev.placeLine_good {d : Dev} (h : Dev.Good mm lk wl d) (level key : Nat) (dirty : Bool) : Dev.Good mm lk wl (Dev.placeLine d level key dirty) := by
  unfold Dev.placeLine
  repeat' (first | with_reducible assumption | with_reducible apply Dev.modHub_good)

theorem Dev.writeBack_good {d : Dev} (h : Dev.Good mm lk wl d) (level key : Nat) : Dev.Good mm lk wl (Dev.writeBack d level key) := by
  unfold Dev.writeBack
  repeat' (first | with_reducible assumption | (with_reducible intro _) | with_reducible apply Dev.modNode_good | with_reducible apply Dev.placeLine_good | split)

theorem Dev.evictLines_good {d : Dev} (h : Dev.Good mm lk wl d) (hub n : Nat) : Dev.Good mm lk wl (d.evictLines hub n) := by
  induction n generalizing d with
  | zero =>
    unfold Dev.evictLines
    repeat' (first | with_reducible assumption | (with_reducible intro _) | with_reducible apply Dev.each_good | with_reducible apply Dev.when_good | with_reducible apply Dev.modHub_good | with_reducible apply Dev.writeBack_good | with_reducible exact OkR.error | with_reducible apply OkR.ok | with_reducible exact OkE.error | with_reducible apply OkE.ok | with_reducible exact OkO.none | with_reducible apply OkO.some | with_reducible exact OkOR.none | with_reducible apply OkOR.some | with_reducible refine OkR.elim ?_ (by assumption) | with_reducible refine OkE.elim ?_ (by assumption) | with_reducible refine OkO.elim ?_ (by assumption) | with_reducible refine OkOR.elim ?_ (by assumption) | with_reducible refine good_of_pair ?_ (by assumption) | with_reducible refine good_of_pair2 ?_ (by assumption) | with_reducible exact OkR.elim (by assumption) rfl | with_reducible exact OkE.elim (by assumption) rfl | with_reducible apply foldl_good | with_reducible apply foldl_pair_good | with_reducible apply foldl_okR | with_reducible apply foldl_okE | with_reducible apply foldl_okOR | with_reducible apply okOR_map | with_reducible apply okO_map | with_reducible exact OkO.elim (by assumption) rfl | with_reducible exact OkOR.elim (by assumption) rfl | split | (refine Dev.good_iff.mpr ?_; dsimp only; refine Dev.good_iff.mp ?_) | (refine Dev.good_iff.mpr ?_; dsimp only; refine good_clear (Dev.good_iff.mp ?_)) | (refine Dev.good_iff.mpr ?_; dsimp only; refine good_writeAll (Dev.good_iff.mp ?_)) | contradiction | dsimp only)
  | succ n ih =>
    unfold Dev.evictLines
    repeat' (first | with_reducible assumption | (with_reducible intro _) | with_reducible apply Dev.each_good | with_reducible apply Dev.when_good | with_reducible apply ih | with_reducible apply Dev.modHub_good | with_reducible apply Dev.writeBack_good | with_reducible exact OkR.error | with_reducible apply OkR.ok | with_reducible exact OkE.error | with_reducible apply OkE.ok | with_reducible exact OkO.none | with_reducible apply OkO.some | with_reducible exact OkOR.none | with_reducible apply OkOR.some | with_reducible refine OkR.elim ?_ (by assumption) | with_reducible refine OkE.elim ?_ (by assumption) | with_reducible refine OkO.elim ?_ (by assumption) | with_reducible refine OkOR.elim ?_ (by assumption) | with_reducible refine good_of_pair ?_ (by assumption) | with_reducible refine good_of_pair2 ?_ (by assumption) | with_reducible exact OkR.elim (by assumption) rfl | with_reducible exact OkE.elim (by assumption) rfl | with_reducible apply foldl_good | with_reducible apply foldl_pair_good | with_reducible apply foldl_okR | with_reducible apply foldl_okE | with_reducible apply foldl_okOR | with_reducible apply okOR_map | with_reducible apply okO_map | with_reducible exact OkO.elim (by assumption) rfl | with_reducible exact OkOR.elim (by assumption) rfl | split | (refine Dev.good_iff.mpr ?_; dsimp only; refine Dev.good_iff.mp ?_) | (refine Dev.good_iff.mpr ?_; dsimp only; refine good_clear (Dev.good_iff.mp ?_)) | (refine Dev.good_iff.mpr ?_; dsimp only; refine good_writeAll (Dev.good_iff.mp ?_)) | contradiction | dsimp only)

theorem Dev.touchBlock_good {d : Dev} (h : Dev.Good mm lk wl d) (k : Nat) : Dev.Good mm lk wl (Dev.touchBlock d k) := by
  unfold Dev.touchBlock
  repeat' (first | with_reducible assumption | with_reducible apply Dev.placeLine_good | with_reducible apply Dev.evictLines_good)

theorem Dev.flushLevel_good {d : Dev} (h : Dev.Good mm lk wl d) (r level : Nat) : Dev.Good mm lk wl (Dev.flushLevel d r level) := by
  unfold Dev.flushLevel
  repeat' (first | with_reducible assumption | (with_reducible intro _) | with_reducible apply Dev.each_good | with_reducible apply Dev.when_good | with_reducible apply Dev.modHub_good | with_reducible apply Dev.writeBack_good | split)

theorem Dev.flushRegion_good {d : Dev} (h : Dev.Good mm lk wl d) (r : Nat) : Dev.Good mm lk wl (Dev.flushRegion d r) := by
  unfold Dev.flushRegion
  repeat' (first | with_reducible assumption | with_reducible apply Dev.flushLevel_good)

theorem Dev.resetTree_good {d : Dev} (h : Dev.Good mm lk wl d) (r : Nat) : Dev.Good mm lk wl (Dev.resetTree d r) := by
  unfold Dev.resetTree
  repeat' (first | with_reducible assumption | with_reducible apply Dev.modHub_good | (refine Dev.good_iff.mpr ?_; dsimp only; refine Dev.good_iff.mp ?_))

theorem Dev.allocKey_good {d : Dev} (h : Dev.Good mm lk wl d) (b : Binding) : Dev.Good mm lk wl (Dev.allocKey d b).1 := by
  unfold Dev.allocKey
  repeat' (first | with_reducible assumption | with_reducible apply Dev.modKey_good | with_reducible apply Dev.modTrust_good)

theorem Dev.keyFor_good {d : Dev} (h : Dev.Good mm lk wl d) (b : Binding) : OkOR mm lk wl (Dev.keyFor d b) := by
  unfold Dev.keyFor
  repeat' (first | with_reducible assumption | (with_reducible intro _) | with_reducible apply Dev.allocKey_good | with_reducible exact OkR.error | with_reducible apply OkR.ok | with_reducible exact OkE.error | with_reducible apply OkE.ok | with_reducible exact OkO.none | with_reducible apply OkO.some | with_reducible exact OkOR.none | with_reducible apply OkOR.some | with_reducible refine OkR.elim ?_ (by assumption) | with_reducible refine OkE.elim ?_ (by assumption) | with_reducible refine OkO.elim ?_ (by assumption) | with_reducible refine OkOR.elim ?_ (by assumption) | split)

theorem Dev.startSweep_good {d : Dev} (h : Dev.Good mm lk wl d) (r : Nat) : Dev.Good mm lk wl (Dev.startSweep d r) := by
  unfold Dev.startSweep
  repeat' (first | with_reducible assumption | (with_reducible intro _) | with_reducible apply Dev.modRegion_good | with_reducible apply Dev.allocKey_good | split)

theorem Dev.raiseMajor_good {d : Dev} (h : Dev.Good mm lk wl d) (f g : Nat) : Dev.Good mm lk wl (Dev.raiseMajor d f g) := by
  unfold Dev.raiseMajor
  repeat' (first | with_reducible assumption | (with_reducible intro _) | with_reducible apply Dev.modRegion_good | with_reducible apply Dev.modCounter_good | with_reducible apply Dev.startSweep_good | split | (refine Dev.good_iff.mpr ?_; dsimp only; refine Dev.good_iff.mp ?_))

theorem Dev.sweepFirst_good {d : Dev} (h : Dev.Good mm lk wl d) (f g : Nat) : Dev.Good mm lk wl (Dev.sweepFirst d f g) := by
  unfold Dev.sweepFirst
  repeat' (first | with_reducible assumption | (with_reducible intro _) | with_reducible apply Dev.modCounter_good | split)

theorem Dev.countGranule_good {d : Dev} (h : Dev.Good mm lk wl d) (f g : Nat) : Dev.Good mm lk wl (Dev.countGranule d f g) := by
  unfold Dev.countGranule
  repeat' (first | with_reducible assumption | (with_reducible intro _) | with_reducible apply Dev.modCounter_good | with_reducible apply Dev.raiseMajor_good | with_reducible apply Dev.sweepFirst_good | split | (refine Dev.good_iff.mpr ?_; dsimp only; refine Dev.good_iff.mp ?_))

theorem Dev.sweepFullNodes_good {d : Dev} (h : Dev.Good mm lk wl d) : Dev.Good mm lk wl (Dev.sweepFullNodes d) := by
  unfold Dev.sweepFullNodes
  repeat' (first | with_reducible assumption | (with_reducible intro _) | with_reducible apply Dev.each_good | with_reducible apply Dev.when_good | with_reducible apply Dev.startSweep_good)

theorem Dev.countWrite_good {d : Dev} (h : Dev.Good mm lk wl d) (f g : Nat) : Dev.Good mm lk wl (Dev.countWrite d f g) := by
  unfold Dev.countWrite
  repeat' (first | with_reducible assumption | (with_reducible intro _) | with_reducible apply Dev.touchBlock_good | with_reducible apply Dev.countGranule_good | with_reducible apply Dev.sweepFullNodes_good | split | (refine Dev.good_iff.mpr ?_; dsimp only; refine Dev.good_iff.mp ?_))

theorem Dev.setMinors_good {d : Dev} (h : Dev.Good mm lk wl d) (f : Nat) (gs : List Nat) (v : Nat) : Dev.Good mm lk wl (Dev.setMinors d f gs v) := by
  unfold Dev.setMinors
  repeat' (first | with_reducible assumption | (with_reducible intro _) | with_reducible apply Dev.each_good | with_reducible apply Dev.when_good | with_reducible apply Dev.modCounter_good | with_reducible apply Dev.touchBlock_good | with_reducible apply Dev.raiseMajor_good | with_reducible apply Dev.sweepFullNodes_good | split)

theorem Dev.openFrame_good {d : Dev} (h : Dev.Good mm lk wl d) (f : Nat) : Dev.Good mm lk wl (Dev.openFrame d f) := by
  unfold Dev.openFrame
  repeat' (first | with_reducible assumption | (with_reducible intro _) | with_reducible apply Dev.modRegion_good | with_reducible apply Dev.startSweep_good | split)

theorem Dev.blankFrame_good {d : Dev} (h : Dev.Good none lk wl d) (f : Nat) : Dev.Good none lk wl (Dev.blankFrame d f) := by
  unfold Dev.blankFrame
  repeat' (first | with_reducible assumption | (with_reducible intro _) | with_reducible apply Dev.each_good | with_reducible apply Dev.when_good | with_reducible apply Dev.modRegion_good | with_reducible apply Dev.setMinors_good | with_reducible exact OkR.error | with_reducible apply OkR.ok | with_reducible exact OkE.error | with_reducible apply OkE.ok | with_reducible exact OkO.none | with_reducible apply OkO.some | with_reducible exact OkOR.none | with_reducible apply OkOR.some | with_reducible refine OkR.elim ?_ (by assumption) | with_reducible refine OkE.elim ?_ (by assumption) | with_reducible refine OkO.elim ?_ (by assumption) | with_reducible refine OkOR.elim ?_ (by assumption) | with_reducible refine good_of_pair ?_ (by assumption) | with_reducible refine good_of_pair2 ?_ (by assumption) | with_reducible exact OkR.elim (by assumption) rfl | with_reducible exact OkE.elim (by assumption) rfl | with_reducible apply foldl_good | with_reducible apply foldl_pair_good | with_reducible apply foldl_okR | with_reducible apply foldl_okE | with_reducible apply foldl_okOR | with_reducible apply okOR_map | with_reducible apply okO_map | with_reducible exact OkO.elim (by assumption) rfl | with_reducible exact OkOR.elim (by assumption) rfl | split | (refine Dev.good_iff.mpr ?_; dsimp only; refine Dev.good_iff.mp ?_) | (refine Dev.good_iff.mpr ?_; dsimp only; refine good_clear (Dev.good_iff.mp ?_)) | (refine Dev.good_iff.mpr ?_; dsimp only; refine good_writeAll (Dev.good_iff.mp ?_)) | contradiction | dsimp only)

theorem Dev.writeMem_good {d : Dev} (h : Dev.Good none lk wl d) (cells : List Host.Cell) : Dev.Good none lk wl (Dev.writeMem d cells) := by
  unfold Dev.writeMem
  repeat' (first | with_reducible assumption | (with_reducible intro _) | with_reducible apply Dev.each_good | with_reducible apply Dev.when_good | with_reducible apply Dev.countWrite_good | with_reducible apply Dev.openFrame_good | with_reducible exact OkR.error | with_reducible apply OkR.ok | with_reducible exact OkE.error | with_reducible apply OkE.ok | with_reducible exact OkO.none | with_reducible apply OkO.some | with_reducible exact OkOR.none | with_reducible apply OkOR.some | with_reducible refine OkR.elim ?_ (by assumption) | with_reducible refine OkE.elim ?_ (by assumption) | with_reducible refine OkO.elim ?_ (by assumption) | with_reducible refine OkOR.elim ?_ (by assumption) | with_reducible refine good_of_pair ?_ (by assumption) | with_reducible refine good_of_pair2 ?_ (by assumption) | with_reducible exact OkR.elim (by assumption) rfl | with_reducible exact OkE.elim (by assumption) rfl | with_reducible apply foldl_good | with_reducible apply foldl_pair_good | with_reducible apply foldl_okR | with_reducible apply foldl_okE | with_reducible apply foldl_okOR | with_reducible apply okOR_map | with_reducible apply okO_map | with_reducible exact OkO.elim (by assumption) rfl | with_reducible exact OkOR.elim (by assumption) rfl | split | (refine Dev.good_iff.mpr ?_; dsimp only; refine Dev.good_iff.mp ?_) | (refine Dev.good_iff.mpr ?_; dsimp only; refine good_clear (Dev.good_iff.mp ?_)) | (refine Dev.good_iff.mpr ?_; dsimp only; refine good_writeAll (Dev.good_iff.mp ?_)) | contradiction | dsimp only)

theorem Dev.takeFrame_good {d : Dev} (h : Dev.Good mm lk wl d) (b : Binding) (h : Nat) : OkR mm lk wl (Dev.takeFrame d b h) := by
  unfold Dev.takeFrame
  repeat' (first | with_reducible assumption | (with_reducible intro _) | with_reducible apply Dev.modRegion_good | with_reducible apply Dev.keyFor_good | with_reducible exact OkR.error | with_reducible apply OkR.ok | with_reducible exact OkE.error | with_reducible apply OkE.ok | with_reducible exact OkO.none | with_reducible apply OkO.some | with_reducible exact OkOR.none | with_reducible apply OkOR.some | with_reducible refine OkR.elim ?_ (by assumption) | with_reducible refine OkE.elim ?_ (by assumption) | with_reducible refine OkO.elim ?_ (by assumption) | with_reducible refine OkOR.elim ?_ (by assumption) | split)

theorem Dev.checkQuota_good {d : Dev} (h : Dev.Good mm lk wl d) (c : Nat) : Dev.Good mm lk wl (Dev.checkQuota d c) := by
  unfold Dev.checkQuota
  repeat' (first | with_reducible assumption | (with_reducible intro _) | with_reducible apply Dev.modCtx_good | with_reducible apply Dev.modErrors_good | with_reducible apply Dev.errEvent_good | split | (refine Dev.good_iff.mpr ?_; dsimp only; refine Dev.good_iff.mp ?_))

theorem Dev.assignFrame_good {d : Dev} (h : Dev.Good none lk wl d) (b : Binding) (h : Nat) : OkR none lk wl (Dev.assignFrame d b h) := by
  unfold Dev.assignFrame
  repeat' (first | with_reducible assumption | (with_reducible intro _) | with_reducible apply Dev.modCtx_good | with_reducible apply Dev.blankFrame_good | with_reducible apply Dev.takeFrame_good | with_reducible exact OkR.error | with_reducible apply OkR.ok | with_reducible exact OkE.error | with_reducible apply OkE.ok | with_reducible exact OkO.none | with_reducible apply OkO.some | with_reducible exact OkOR.none | with_reducible apply OkOR.some | with_reducible refine OkR.elim ?_ (by assumption) | with_reducible refine OkE.elim ?_ (by assumption) | with_reducible refine OkO.elim ?_ (by assumption) | with_reducible refine OkOR.elim ?_ (by assumption) | split)

theorem Dev.assignPage_good {d : Dev} (h : Dev.Good none lk wl d) (b : Binding) (e : Nat) : OkE none lk wl (Dev.assignPage d b e) := by
  unfold Dev.assignPage
  repeat' (first | with_reducible assumption | (with_reducible intro _) | with_reducible apply Dev.modMap_good | with_reducible apply Dev.assignFrame_good | with_reducible exact OkR.error | with_reducible apply OkR.ok | with_reducible exact OkE.error | with_reducible apply OkE.ok | with_reducible exact OkO.none | with_reducible apply OkO.some | with_reducible exact OkOR.none | with_reducible apply OkOR.some | with_reducible refine OkR.elim ?_ (by assumption) | with_reducible refine OkE.elim ?_ (by assumption) | with_reducible refine OkO.elim ?_ (by assumption) | with_reducible refine OkOR.elim ?_ (by assumption) | split)

theorem Dev.freeFrame_good {d : Dev} (h : Dev.Good mm lk wl d) (c f : Nat) : Dev.Good mm lk wl (Dev.freeFrame d c f) := by
  unfold Dev.freeFrame
  repeat' (first | with_reducible assumption | with_reducible apply Dev.modCtx_good | with_reducible apply Dev.modRegion_good | with_reducible apply Dev.checkQuota_good)

theorem Dev.dropFrame_good {d : Dev} (h : Dev.Good mm lk wl d) (f : Nat) : Dev.Good mm lk wl (Dev.dropFrame d f) := by
  unfold Dev.dropFrame
  repeat' (first | with_reducible assumption | (with_reducible intro _) | with_reducible apply Dev.freeFrame_good | split)

theorem Dev.invalidateEntry_good {d : Dev} (h : Dev.Good mm lk wl d) (e : Nat) : Dev.Good mm lk wl (Dev.invalidateEntry d e) := by
  unfold Dev.invalidateEntry
  repeat' (first | with_reducible assumption | (with_reducible intro _) | with_reducible apply Dev.each_good | with_reducible apply Dev.when_good | with_reducible apply Dev.modMap_good | with_reducible apply Dev.dropFrame_good)

theorem Dev.takeEntries_good {d : Dev} (h : Dev.Good mm lk wl d) (c n : Nat) : OkR mm lk wl (Dev.takeEntries d c n) := by
  unfold Dev.takeEntries
  repeat' (first | with_reducible assumption | (with_reducible intro _) | with_reducible apply Dev.each_good | with_reducible apply Dev.when_good | with_reducible apply Dev.keyFor_good | with_reducible exact OkR.error | with_reducible apply OkR.ok | with_reducible exact OkE.error | with_reducible apply OkE.ok | with_reducible exact OkO.none | with_reducible apply OkO.some | with_reducible exact OkOR.none | with_reducible apply OkOR.some | with_reducible refine OkR.elim ?_ (by assumption) | with_reducible refine OkE.elim ?_ (by assumption) | with_reducible refine OkO.elim ?_ (by assumption) | with_reducible refine OkOR.elim ?_ (by assumption) | with_reducible refine good_of_pair ?_ (by assumption) | with_reducible refine good_of_pair2 ?_ (by assumption) | with_reducible exact OkR.elim (by assumption) rfl | with_reducible exact OkE.elim (by assumption) rfl | with_reducible apply foldl_good | with_reducible apply foldl_pair_good | with_reducible apply foldl_okR | with_reducible apply foldl_okE | with_reducible apply foldl_okOR | with_reducible apply okOR_map | with_reducible apply okO_map | with_reducible exact OkO.elim (by assumption) rfl | with_reducible exact OkOR.elim (by assumption) rfl | split | (refine Dev.good_iff.mpr ?_; dsimp only; refine Dev.good_iff.mp ?_) | (refine Dev.good_iff.mpr ?_; dsimp only; refine good_clear (Dev.good_iff.mp ?_)) | (refine Dev.good_iff.mpr ?_; dsimp only; refine good_writeAll (Dev.good_iff.mp ?_)) | contradiction | dsimp only)

theorem Dev.modPlaced_good {d : Dev} (h : Dev.Good mm lk wl d) (plan t : Nat) (f : Placed → Placed) : Dev.Good mm lk wl (Dev.modPlaced d plan t f) := by
  unfold Dev.modPlaced
  repeat' (first | with_reducible assumption | with_reducible apply Dev.modPlan_good)

theorem Dev.dropCopy_good {d : Dev} (h : Dev.Good mm lk wl d) (e : Nat) : Dev.Good mm lk wl (Dev.dropCopy d e) := by
  unfold Dev.dropCopy
  repeat' (first | with_reducible assumption | (with_reducible intro _) | with_reducible apply Dev.each_good | with_reducible apply Dev.when_good | with_reducible apply Dev.modExtent_good | with_reducible apply Dev.dropFrame_good)

theorem Dev.settleRefs_good {d : Dev} (h : Dev.Good mm lk wl d) (e : Nat) : Dev.Good mm lk wl (Dev.settleRefs d e) := by
  unfold Dev.settleRefs
  repeat' (first | with_reducible assumption | (with_reducible intro _) | with_reducible apply Dev.modExtent_good | with_reducible apply Dev.dropCopy_good | split | (refine Dev.good_iff.mpr ?_; dsimp only; refine Dev.good_iff.mp ?_))

theorem Dev.freeExtentNow_good {d : Dev} (h : Dev.Good mm lk wl d) (e : Nat) : Dev.Good mm lk wl (Dev.freeExtentNow d e) := by
  unfold Dev.freeExtentNow
  repeat' (first | with_reducible assumption | (with_reducible intro _) | with_reducible apply Dev.modCtx_good | with_reducible apply Dev.modExtent_good | with_reducible apply Dev.modFlash_good | with_reducible apply Dev.checkQuota_good | with_reducible apply Dev.dropCopy_good | split)

theorem Dev.releaseRef_good {d : Dev} (h : Dev.Good mm lk wl d) (e plan : Nat) : Dev.Good mm lk wl (Dev.releaseRef d e plan) := by
  unfold Dev.releaseRef
  repeat' (first | with_reducible assumption | (with_reducible intro _) | with_reducible apply Dev.modExtent_good | with_reducible apply Dev.settleRefs_good | split | (refine Dev.good_iff.mpr ?_; dsimp only; refine Dev.good_iff.mp ?_))

theorem Dev.applyReleases_good {d : Dev} (h : Dev.Good mm lk wl d) (e : Nat) : Dev.Good mm lk wl (Dev.applyReleases d e) := by
  unfold Dev.applyReleases
  repeat' (first | with_reducible assumption | (with_reducible intro _) | with_reducible apply Dev.each_good | with_reducible apply Dev.when_good | with_reducible apply Dev.modExtent_good | with_reducible apply Dev.settleRefs_good | with_reducible apply Dev.freeExtentNow_good | with_reducible apply Dev.releaseRef_good | split | (refine Dev.good_iff.mpr ?_; dsimp only; refine Dev.good_iff.mp ?_))

theorem Dev.unholdExtent_good {d : Dev} (h : Dev.Good mm lk wl d) (e plan : Nat) : Dev.Good mm lk wl (Dev.unholdExtent d e plan) := by
  unfold Dev.unholdExtent
  repeat' (first | with_reducible assumption | (with_reducible intro _) | with_reducible apply Dev.modExtent_good | with_reducible apply Dev.releaseRef_good | with_reducible apply Dev.applyReleases_good | split | (refine Dev.good_iff.mpr ?_; dsimp only; refine Dev.good_iff.mp ?_))

theorem Dev.requestPromotion_good {d : Dev} (h : Dev.Good mm lk wl d) (e plan need : Nat) : Dev.Good mm lk wl (Dev.requestPromotion d e plan need) := by
  unfold Dev.requestPromotion
  repeat' (first | with_reducible assumption | (with_reducible intro _) | with_reducible apply Dev.modExtent_good | with_reducible apply Dev.modFlash_good | split | (refine Dev.good_iff.mpr ?_; dsimp only; refine Dev.good_iff.mp ?_))

theorem Dev.giveRng_good {d : Dev} (h : Dev.Good mm lk wl d) (ctx slot : Nat) : Dev.Good mm lk wl (Dev.giveRng d ctx slot) := by
  unfold Dev.giveRng
  repeat' (first | with_reducible assumption | (with_reducible intro _) | with_reducible apply Dev.modCtx_good | split)

theorem Dev.giveFlash_good {d : Dev} (h : Dev.Good mm lk wl d) (ctx owner : Nat) (hubs : List Nat) : Dev.Good mm lk wl (Dev.giveFlash d ctx owner hubs) := by
  unfold Dev.giveFlash
  repeat' (first | with_reducible assumption | with_reducible apply Dev.modCtx_good)

theorem Dev.waitKey_good {d : Dev} (h : Dev.Good mm lk wl d) (cls q : Nat) : Dev.Good mm lk wl (Dev.waitKey d cls q) := by
  unfold Dev.waitKey
  repeat' (first | with_reducible assumption | with_reducible apply Dev.modTrust_good)

theorem Dev.writeRecord_good {d : Dev} (h : Dev.Good mm lk wl d) (f : Nat) : Dev.Good mm lk wl (Dev.writeRecord d f) := by
  unfold Dev.writeRecord
  repeat' (first | with_reducible assumption | (with_reducible intro _) | with_reducible apply Dev.modFence_good | with_reducible apply Dev.hostWrite_good | split | (refine Dev.good_iff.mpr ?_; dsimp only; refine Dev.good_iff.mp ?_))

theorem Dev.countStale_good {d : Dev} (h : Dev.Good mm lk wl d) (f : Nat) : Dev.Good mm lk wl (Dev.countStale d f) := by
  unfold Dev.countStale
  repeat' (first | with_reducible assumption | (with_reducible intro _) | with_reducible apply Dev.modCtx_good | split)

theorem Dev.evalHeads_good {d : Dev} (h : Dev.Good mm lk wl d) : Dev.Good mm lk wl (Dev.evalHeads d) := by
  unfold Dev.evalHeads
  repeat' (first | with_reducible assumption | (refine Dev.good_iff.mpr ?_; dsimp only; refine Dev.good_iff.mp ?_))

theorem Dev.changeFence_good {d : Dev} (h : Dev.Good mm lk wl d) (f : Nat) (g : Fence → Fence) : Dev.Good mm lk wl (Dev.changeFence d f g) := by
  unfold Dev.changeFence
  repeat' (first | with_reducible assumption | with_reducible apply Dev.modFence_good | with_reducible apply Dev.evalHeads_good)

theorem Dev.breakFence_good {d : Dev} (h : Dev.Good mm lk wl d) (f : Nat) (b : FenceBreak) (ctx : Nat) (queue : Nat) : Dev.Good mm lk wl (Dev.breakFence d f b ctx queue) := by
  unfold Dev.breakFence
  repeat' (first | with_reducible assumption | (with_reducible intro _) | with_reducible apply Dev.logEvent_good | with_reducible apply Dev.changeFence_good | split)

theorem Dev.signalFence_good {d : Dev} (h : Dev.Good mm lk wl d) (f : Nat) (s : W32) (ctx : Nat) (queue : Nat) : Dev.Good mm lk wl (Dev.signalFence d f s ctx queue).1 := by
  unfold Dev.signalFence
  repeat' (first | with_reducible assumption | (with_reducible intro _) | with_reducible apply Dev.countStale_good | with_reducible apply Dev.changeFence_good | with_reducible apply Dev.breakFence_good | split | (refine Dev.good_iff.mpr ?_; dsimp only; refine Dev.good_iff.mp ?_))

theorem Dev.applyFenceOp_good (broken : List Nat) {d : Dev} (h : Dev.Good mm lk wl d) (o : FenceOp) : Dev.Good mm lk wl (Dev.applyFenceOp broken d o).1 := by
  unfold Dev.applyFenceOp
  repeat' (first | with_reducible assumption | (with_reducible intro _) | with_reducible apply Dev.countStale_good | with_reducible apply Dev.breakFence_good | with_reducible apply Dev.signalFence_good | split)

theorem Dev.applyFenceOps_good {d : Dev} (h : Dev.Good mm lk wl d) (ops : List FenceOp) : Dev.Good mm lk wl (Dev.applyFenceOps d ops).1 := by
  unfold Dev.applyFenceOps
  repeat' (first | with_reducible assumption | (with_reducible intro _) | with_reducible apply Dev.each_good | with_reducible apply Dev.when_good | with_reducible apply Dev.applyFenceOp_good | with_reducible exact OkR.error | with_reducible apply OkR.ok | with_reducible exact OkE.error | with_reducible apply OkE.ok | with_reducible exact OkO.none | with_reducible apply OkO.some | with_reducible exact OkOR.none | with_reducible apply OkOR.some | with_reducible refine OkR.elim ?_ (by assumption) | with_reducible refine OkE.elim ?_ (by assumption) | with_reducible refine OkO.elim ?_ (by assumption) | with_reducible refine OkOR.elim ?_ (by assumption) | with_reducible refine good_of_pair ?_ (by assumption) | with_reducible refine good_of_pair2 ?_ (by assumption) | with_reducible exact OkR.elim (by assumption) rfl | with_reducible exact OkE.elim (by assumption) rfl | with_reducible apply foldl_good | with_reducible apply foldl_pair_good | with_reducible apply foldl_okR | with_reducible apply foldl_okE | with_reducible apply foldl_okOR | with_reducible apply okOR_map | with_reducible apply okO_map | with_reducible exact OkO.elim (by assumption) rfl | with_reducible exact OkOR.elim (by assumption) rfl | split | (refine Dev.good_iff.mpr ?_; dsimp only; refine Dev.good_iff.mp ?_) | (refine Dev.good_iff.mpr ?_; dsimp only; refine good_clear (Dev.good_iff.mp ?_)) | (refine Dev.good_iff.mpr ?_; dsimp only; refine good_writeAll (Dev.good_iff.mp ?_)) | contradiction | dsimp only)

theorem Dev.writeCompletion_good {d : Dev} (h : Dev.Good mm lk wl d) (q : Nat) (c : Completion) : Dev.Good mm lk wl (Dev.writeCompletion d q c) := by
  unfold Dev.writeCompletion
  repeat' (first | with_reducible assumption | (with_reducible intro _) | with_reducible apply Dev.each_good | with_reducible apply Dev.when_good | with_reducible apply Dev.modQueue_good | with_reducible apply Dev.hostWrite_good)

theorem Dev.postCompletion_good {d : Dev} (h : Dev.Good mm lk wl d) (q : Nat) (c : Completion) : Dev.Good mm lk wl (Dev.postCompletion d q c).1 := by
  unfold Dev.postCompletion
  repeat' (first | with_reducible assumption | (with_reducible intro _) | with_reducible apply Dev.modQueue_good | with_reducible apply Dev.writeCompletion_good | split | (refine Dev.good_iff.mpr ?_; dsimp only; refine Dev.good_iff.mp ?_))

theorem Dev.logCodes_good {d : Dev} (h : Dev.Good mm lk wl d) (q : Nat) (c : Completion) : Dev.Good mm lk wl (Dev.logCodes d q c) := by
  unfold Dev.logCodes
  repeat' (first | with_reducible assumption | (with_reducible intro _) | with_reducible apply Dev.each_good | with_reducible apply Dev.when_good | with_reducible apply Dev.logEvent_good | split)

theorem Dev.retire_good {d : Dev} (h : Dev.Good mm lk wl d) (q seq : Nat) : Dev.Good mm lk wl (Dev.retire d q seq) := by
  unfold Dev.retire
  repeat' (first | with_reducible assumption | with_reducible apply Dev.modQueue_good)

theorem Dev.noteLeaps_good {d : Dev} (h : Dev.Good mm lk wl d) (leaps : List (Nat × Nat)) : Dev.Good mm lk wl (Dev.noteLeaps d leaps) := by
  unfold Dev.noteLeaps
  repeat' (first | with_reducible assumption | (refine Dev.good_iff.mpr ?_; dsimp only; refine Dev.good_iff.mp ?_))

theorem Dev.endAll_good {d : Dev} (h : Dev.Good mm lk wl d) (es : List Ending) (more : List FenceOp) (oneEach : Bool) : Dev.Good mm lk wl (Dev.endAll d es more oneEach) := by
  unfold Dev.endAll
  repeat' (first | with_reducible assumption | (with_reducible intro _) | with_reducible apply Dev.each_good | with_reducible apply Dev.when_good | with_reducible apply Dev.msix_good | with_reducible apply Dev.writeRecord_good | with_reducible apply Dev.applyFenceOps_good | with_reducible apply Dev.postCompletion_good | with_reducible apply Dev.logCodes_good | with_reducible apply Dev.retire_good | with_reducible apply Dev.noteLeaps_good | with_reducible exact OkR.error | with_reducible apply OkR.ok | with_reducible exact OkE.error | with_reducible apply OkE.ok | with_reducible exact OkO.none | with_reducible apply OkO.some | with_reducible exact OkOR.none | with_reducible apply OkOR.some | with_reducible refine OkR.elim ?_ (by assumption) | with_reducible refine OkE.elim ?_ (by assumption) | with_reducible refine OkO.elim ?_ (by assumption) | with_reducible refine OkOR.elim ?_ (by assumption) | with_reducible refine good_of_pair ?_ (by assumption) | with_reducible refine good_of_pair2 ?_ (by assumption) | with_reducible exact OkR.elim (by assumption) rfl | with_reducible exact OkE.elim (by assumption) rfl | with_reducible apply foldl_good | with_reducible apply foldl_pair_good | with_reducible apply foldl_okR | with_reducible apply foldl_okE | with_reducible apply foldl_okOR | with_reducible apply okOR_map | with_reducible apply okO_map | with_reducible exact OkO.elim (by assumption) rfl | with_reducible exact OkOR.elim (by assumption) rfl | split | (refine Dev.good_iff.mpr ?_; dsimp only; refine Dev.good_iff.mp ?_) | (refine Dev.good_iff.mpr ?_; dsimp only; refine good_clear (Dev.good_iff.mp ?_)) | (refine Dev.good_iff.mpr ?_; dsimp only; refine good_writeAll (Dev.good_iff.mp ?_)) | contradiction | dsimp only)

theorem Dev.finish_good {d : Dev} (h : Dev.Good mm lk wl d) (e : Ending) : Dev.Good mm lk wl (Dev.finish d e) := by
  unfold Dev.finish
  repeat' (first | with_reducible assumption | with_reducible apply Dev.endAll_good)

theorem Dev.succeed_good {d : Dev} (h : Dev.Good mm lk wl d) (q : Nat) (c : Cmd) (result : List W32) (codes : List CodeEntry) : Dev.Good mm lk wl (Dev.succeed d q c result codes) := by
  unfold Dev.succeed
  repeat' (first | with_reducible assumption | with_reducible apply Dev.finish_good)

theorem Dev.failCmd_good {d : Dev} (h : Dev.Good mm lk wl d) (q : Nat) (c : Cmd) (code : Nat) (index : Option Nat) (result : List W32) : Dev.Good mm lk wl (Dev.failCmd d q c code index result) := by
  unfold Dev.failCmd
  repeat' (first | with_reducible assumption | with_reducible apply Dev.finish_good)

theorem Dev.failUpstream_good {d : Dev} (h : Dev.Good mm lk wl d) (q : Nat) (c : Cmd) (slot originCode : Nat) : Dev.Good mm lk wl (Dev.failUpstream d q c slot originCode) := by
  unfold Dev.failUpstream
  repeat' (first | with_reducible assumption | with_reducible apply Dev.finish_good)

theorem Dev.stripe_good {d : Dev} (h : Dev.Good none lk wl d) (b : Binding) (order : List Nat) (pos : Nat) (es : List Nat) :
    OkE none lk wl (d.stripe b order pos es) := by
  induction es generalizing d pos with
  | nil =>
    unfold Dev.stripe
    repeat' (first | with_reducible assumption | (with_reducible intro _) | with_reducible apply Dev.modMap_good | with_reducible apply Dev.assignFrame_good | with_reducible exact OkR.error | with_reducible apply OkR.ok | with_reducible exact OkE.error | with_reducible apply OkE.ok | with_reducible exact OkO.none | with_reducible apply OkO.some | with_reducible exact OkOR.none | with_reducible apply OkOR.some | with_reducible refine OkR.elim ?_ (by assumption) | with_reducible refine OkE.elim ?_ (by assumption) | with_reducible refine OkO.elim ?_ (by assumption) | with_reducible refine OkOR.elim ?_ (by assumption) | split)
  | cons e es ih =>
    unfold Dev.stripe
    repeat' (first | with_reducible assumption | (with_reducible intro _) | with_reducible apply Dev.each_good | with_reducible apply Dev.when_good | with_reducible apply ih | with_reducible apply Dev.modMap_good | with_reducible apply Dev.assignFrame_good | with_reducible exact OkR.error | with_reducible apply OkR.ok | with_reducible exact OkE.error | with_reducible apply OkE.ok | with_reducible exact OkO.none | with_reducible apply OkO.some | with_reducible exact OkOR.none | with_reducible apply OkOR.some | with_reducible refine OkR.elim ?_ (by assumption) | with_reducible refine OkE.elim ?_ (by assumption) | with_reducible refine OkO.elim ?_ (by assumption) | with_reducible refine OkOR.elim ?_ (by assumption) | with_reducible refine good_of_pair ?_ (by assumption) | with_reducible refine good_of_pair2 ?_ (by assumption) | with_reducible exact OkR.elim (by assumption) rfl | with_reducible exact OkE.elim (by assumption) rfl | with_reducible apply foldl_good | with_reducible apply foldl_pair_good | with_reducible apply foldl_okR | with_reducible apply foldl_okE | with_reducible apply foldl_okOR | with_reducible apply okOR_map | with_reducible apply okO_map | with_reducible exact OkO.elim (by assumption) rfl | with_reducible exact OkOR.elim (by assumption) rfl | split | (refine Dev.good_iff.mpr ?_; dsimp only; refine Dev.good_iff.mp ?_) | (refine Dev.good_iff.mpr ?_; dsimp only; refine good_clear (Dev.good_iff.mp ?_)) | (refine Dev.good_iff.mpr ?_; dsimp only; refine good_writeAll (Dev.good_iff.mp ?_)) | contradiction | dsimp only)

theorem Dev.placeTensors_good {d : Dev} (h : Dev.Good none lk wl d) (c : Nat) (m : Module) (deep : List Nat) (entries : List (List Nat)) : OkE none lk wl (Dev.placeTensors d c m deep entries) := by
  unfold Dev.placeTensors
  repeat' (first | with_reducible assumption | (with_reducible intro _) | with_reducible apply Dev.each_good | with_reducible apply Dev.when_good | with_reducible apply Dev.stripe_good | with_reducible exact OkR.error | with_reducible apply OkR.ok | with_reducible exact OkE.error | with_reducible apply OkE.ok | with_reducible exact OkO.none | with_reducible apply OkO.some | with_reducible exact OkOR.none | with_reducible apply OkOR.some | with_reducible refine OkR.elim ?_ (by assumption) | with_reducible refine OkE.elim ?_ (by assumption) | with_reducible refine OkO.elim ?_ (by assumption) | with_reducible refine OkOR.elim ?_ (by assumption) | with_reducible refine good_of_pair ?_ (by assumption) | with_reducible refine good_of_pair2 ?_ (by assumption) | with_reducible exact OkR.elim (by assumption) rfl | with_reducible exact OkE.elim (by assumption) rfl | with_reducible apply foldl_good | with_reducible apply foldl_pair_good | with_reducible apply foldl_okR | with_reducible apply foldl_okE | with_reducible apply foldl_okOR | with_reducible apply okOR_map | with_reducible apply okO_map | with_reducible exact OkO.elim (by assumption) rfl | with_reducible exact OkOR.elim (by assumption) rfl | split | (refine Dev.good_iff.mpr ?_; dsimp only; refine Dev.good_iff.mp ?_) | (refine Dev.good_iff.mpr ?_; dsimp only; refine good_clear (Dev.good_iff.mp ?_)) | (refine Dev.good_iff.mpr ?_; dsimp only; refine good_writeAll (Dev.good_iff.mp ?_)) | contradiction | dsimp only)

theorem Dev.takeTwins_good {d : Dev} (h : Dev.Good none lk wl d) (c : Nat) (m : Module) (entries : List (List Nat)) : OkE none lk wl (Dev.takeTwins d c m entries) := by
  unfold Dev.takeTwins
  repeat' (first | with_reducible assumption | (with_reducible intro _) | with_reducible apply Dev.each_good | with_reducible apply Dev.when_good | with_reducible apply Dev.modMap_good | with_reducible apply Dev.assignFrame_good | with_reducible exact OkR.error | with_reducible apply OkR.ok | with_reducible exact OkE.error | with_reducible apply OkE.ok | with_reducible exact OkO.none | with_reducible apply OkO.some | with_reducible exact OkOR.none | with_reducible apply OkOR.some | with_reducible refine OkR.elim ?_ (by assumption) | with_reducible refine OkE.elim ?_ (by assumption) | with_reducible refine OkO.elim ?_ (by assumption) | with_reducible refine OkOR.elim ?_ (by assumption) | with_reducible refine good_of_pair ?_ (by assumption) | with_reducible refine good_of_pair2 ?_ (by assumption) | with_reducible exact OkR.elim (by assumption) rfl | with_reducible exact OkE.elim (by assumption) rfl | with_reducible apply foldl_good | with_reducible apply foldl_pair_good | with_reducible apply foldl_okR | with_reducible apply foldl_okE | with_reducible apply foldl_okOR | with_reducible apply okOR_map | with_reducible apply okO_map | with_reducible exact OkO.elim (by assumption) rfl | with_reducible exact OkOR.elim (by assumption) rfl | split | (refine Dev.good_iff.mpr ?_; dsimp only; refine Dev.good_iff.mp ?_) | (refine Dev.good_iff.mpr ?_; dsimp only; refine good_clear (Dev.good_iff.mp ?_)) | (refine Dev.good_iff.mpr ?_; dsimp only; refine good_writeAll (Dev.good_iff.mp ?_)) | contradiction | dsimp only)

theorem Dev.takeExtents_good {d : Dev} (h : Dev.Good mm lk wl d) (c owner slot : Nat) (ps : List (List Nat)) (turn : Nat) :
    OkR mm lk wl (d.takeExtents c owner slot ps turn) := by
  induction ps generalizing d turn with
  | nil =>
    unfold Dev.takeExtents
    repeat' (first | with_reducible assumption | (with_reducible intro _) | with_reducible apply Dev.modCtx_good | with_reducible apply Dev.modExtent_good | with_reducible exact OkR.error | with_reducible apply OkR.ok | with_reducible exact OkE.error | with_reducible apply OkE.ok | with_reducible exact OkO.none | with_reducible apply OkO.some | with_reducible exact OkOR.none | with_reducible apply OkOR.some | with_reducible refine OkR.elim ?_ (by assumption) | with_reducible refine OkE.elim ?_ (by assumption) | with_reducible refine OkO.elim ?_ (by assumption) | with_reducible refine OkOR.elim ?_ (by assumption) | split)
  | cons pair rest ih =>
    unfold Dev.takeExtents
    repeat' (first | with_reducible assumption | (with_reducible intro _) | with_reducible apply Dev.each_good | with_reducible apply Dev.when_good | with_reducible apply ih | with_reducible apply Dev.modCtx_good | with_reducible apply Dev.modExtent_good | with_reducible exact OkR.error | with_reducible apply OkR.ok | with_reducible exact OkE.error | with_reducible apply OkE.ok | with_reducible exact OkO.none | with_reducible apply OkO.some | with_reducible exact OkOR.none | with_reducible apply OkOR.some | with_reducible refine OkR.elim ?_ (by assumption) | with_reducible refine OkE.elim ?_ (by assumption) | with_reducible refine OkO.elim ?_ (by assumption) | with_reducible refine OkOR.elim ?_ (by assumption) | with_reducible refine good_of_pair ?_ (by assumption) | with_reducible refine good_of_pair2 ?_ (by assumption) | with_reducible exact OkR.elim (by assumption) rfl | with_reducible exact OkE.elim (by assumption) rfl | with_reducible apply foldl_good | with_reducible apply foldl_pair_good | with_reducible apply foldl_okR | with_reducible apply foldl_okE | with_reducible apply foldl_okOR | with_reducible apply okOR_map | with_reducible apply okO_map | with_reducible exact OkO.elim (by assumption) rfl | with_reducible exact OkOR.elim (by assumption) rfl | split | (refine Dev.good_iff.mpr ?_; dsimp only; refine Dev.good_iff.mp ?_) | (refine Dev.good_iff.mpr ?_; dsimp only; refine good_clear (Dev.good_iff.mp ?_)) | (refine Dev.good_iff.mpr ?_; dsimp only; refine good_writeAll (Dev.good_iff.mp ?_)) | contradiction | dsimp only)

theorem Dev.placeDeep_good {d : Dev} (h : Dev.Good mm lk wl d) (c slot : Nat) (m : Module) (pages : List (Nat × Nat)) (entries : List (List Nat)) : OkR mm lk wl (Dev.placeDeep d c slot m pages entries) := by
  unfold Dev.placeDeep
  repeat' (first | with_reducible assumption | (with_reducible intro _) | with_reducible apply Dev.each_good | with_reducible apply Dev.when_good | with_reducible apply Dev.modExtent_good | with_reducible apply Dev.takeExtents_good | with_reducible exact OkR.error | with_reducible apply OkR.ok | with_reducible exact OkE.error | with_reducible apply OkE.ok | with_reducible exact OkO.none | with_reducible apply OkO.some | with_reducible exact OkOR.none | with_reducible apply OkOR.some | with_reducible refine OkR.elim ?_ (by assumption) | with_reducible refine OkE.elim ?_ (by assumption) | with_reducible refine OkO.elim ?_ (by assumption) | with_reducible refine OkOR.elim ?_ (by assumption) | with_reducible refine good_of_pair ?_ (by assumption) | with_reducible refine good_of_pair2 ?_ (by assumption) | with_reducible exact OkR.elim (by assumption) rfl | with_reducible exact OkE.elim (by assumption) rfl | with_reducible apply foldl_good | with_reducible apply foldl_pair_good | with_reducible apply foldl_okR | with_reducible apply foldl_okE | with_reducible apply foldl_okOR | with_reducible apply okOR_map | with_reducible apply okO_map | with_reducible exact OkO.elim (by assumption) rfl | with_reducible exact OkOR.elim (by assumption) rfl | split | (refine Dev.good_iff.mpr ?_; dsimp only; refine Dev.good_iff.mp ?_) | (refine Dev.good_iff.mpr ?_; dsimp only; refine good_clear (Dev.good_iff.mp ?_)) | (refine Dev.good_iff.mpr ?_; dsimp only; refine good_writeAll (Dev.good_iff.mp ?_)) | contradiction | dsimp only)

/-- What the memory stage answers keeps the form. -/
structure OkT (mm : Option (List Host.Cell)) (lk : Bool) (wl : List Nat) (r : Except Refuse Taken) : Prop where
  out : ∀ k, r = .ok k → Dev.Good none lk wl k.dev
theorem OkT.error {c : Refuse} : OkT none lk wl (.error c) := by constructor; intro _ q; cases q
theorem OkT.ok {k : Taken} (h : Dev.Good none lk wl k.dev) : OkT none lk wl (.ok k) := by constructor; intro _ q; cases q; exact h
theorem OkT.elim {r : Except Refuse Taken} {k} (h : OkT none lk wl r) (q : r = .ok k) : Dev.Good none lk wl k.dev := h.out k q

set_option maxRecDepth 8000 in
theorem memoryCheck_good {d : Dev} (h : Dev.Good none lk wl d) (r : Req) (m : Module) : OkT none lk wl (memoryCheck d r m) := by
  unfold memoryCheck
  extract_lets x pages slot
  clear_value slot
  repeat' (first | with_reducible assumption | (with_reducible intro _) | with_reducible apply Dev.each_good | with_reducible apply Dev.when_good | with_reducible exact OkT.error | with_reducible apply OkT.ok | extract_lets | with_reducible apply Dev.placeDeep_good | with_reducible apply Dev.placeTensors_good | with_reducible apply Dev.takeTwins_good | with_reducible apply Dev.takeEntries_good | with_reducible apply Dev.modScale_good | with_reducible apply Dev.modPlan_good | with_reducible apply Dev.requestPromotion_good | with_reducible exact OkR.error | with_reducible apply OkR.ok | with_reducible exact OkE.error | with_reducible apply OkE.ok | with_reducible exact OkO.none | with_reducible apply OkO.some | with_reducible exact OkOR.none | with_reducible apply OkOR.some | with_reducible refine OkR.elim ?_ (by assumption) | with_reducible refine OkE.elim ?_ (by assumption) | with_reducible refine OkO.elim ?_ (by assumption) | with_reducible refine OkOR.elim ?_ (by assumption) | with_reducible refine good_of_pair ?_ (by assumption) | with_reducible refine good_of_pair2 ?_ (by assumption) | with_reducible exact OkR.elim (by assumption) rfl | with_reducible exact OkE.elim (by assumption) rfl | with_reducible apply foldl_good | with_reducible apply foldl_pair_good | with_reducible apply foldl_okR | with_reducible apply foldl_okE | with_reducible apply foldl_okOR | with_reducible apply okOR_map | with_reducible apply okO_map | with_reducible exact OkO.elim (by assumption) rfl | with_reducible exact OkOR.elim (by assumption) rfl | split | (refine Dev.good_iff.mpr ?_; dsimp only; refine Dev.good_iff.mp ?_) | (refine Dev.good_iff.mpr ?_; dsimp only; refine good_clear (Dev.good_iff.mp ?_)) | (refine Dev.good_iff.mpr ?_; dsimp only; refine good_writeAll (Dev.good_iff.mp ?_)) | contradiction | dsimp only)

theorem Dev.loadModule_good {d : Dev} (h : Dev.Good none lk wl d) (r : Req) (bytes : List Byte) (size : Nat) : OkR none lk wl (d.loadModule r bytes size) := by
  unfold Dev.loadModule
  repeat' (first | with_reducible assumption | (with_reducible intro _) | with_reducible apply Dev.each_good | with_reducible apply Dev.when_good | exact OkT.elim (memoryCheck_good h _ _) (by assumption) | with_reducible apply Dev.modScale_good | with_reducible apply Dev.modPlan_good | with_reducible apply Dev.requestPromotion_good | with_reducible exact OkR.error | with_reducible apply OkR.ok | with_reducible exact OkE.error | with_reducible apply OkE.ok | with_reducible exact OkO.none | with_reducible apply OkO.some | with_reducible exact OkOR.none | with_reducible apply OkOR.some | with_reducible refine OkR.elim ?_ (by assumption) | with_reducible refine OkE.elim ?_ (by assumption) | with_reducible refine OkO.elim ?_ (by assumption) | with_reducible refine OkOR.elim ?_ (by assumption) | with_reducible refine good_of_pair ?_ (by assumption) | with_reducible refine good_of_pair2 ?_ (by assumption) | with_reducible exact OkR.elim (by assumption) rfl | with_reducible exact OkE.elim (by assumption) rfl | with_reducible apply foldl_good | with_reducible apply foldl_pair_good | with_reducible apply foldl_okR | with_reducible apply foldl_okE | with_reducible apply foldl_okOR | with_reducible apply okOR_map | with_reducible apply okO_map | with_reducible exact OkO.elim (by assumption) rfl | with_reducible exact OkOR.elim (by assumption) rfl | split | (refine Dev.good_iff.mpr ?_; dsimp only; refine Dev.good_iff.mp ?_) | (refine Dev.good_iff.mpr ?_; dsimp only; refine good_clear (Dev.good_iff.mp ?_)) | (refine Dev.good_iff.mpr ?_; dsimp only; refine good_writeAll (Dev.good_iff.mp ?_)) | contradiction | dsimp only)

theorem Dev.leaveTiles_good {d : Dev} (h : Dev.Good mm lk wl d) (c : Nat) (tiles : List Nat) : Dev.Good mm lk wl (Dev.leaveTiles d c tiles) := by
  unfold Dev.leaveTiles
  repeat' (first | with_reducible assumption | (with_reducible intro _) | with_reducible apply Dev.each_good | with_reducible apply Dev.when_good | with_reducible apply Dev.modTile_good | split)

theorem Dev.unloadPlan_good {d : Dev} (h : Dev.Good mm lk wl d) (slot : Nat) : Dev.Good mm lk wl (Dev.unloadPlan d slot) := by
  unfold Dev.unloadPlan
  repeat' (first | with_reducible assumption | (with_reducible intro _) | with_reducible apply Dev.each_good | with_reducible apply Dev.when_good | with_reducible apply Dev.modScale_good | with_reducible apply Dev.modPlan_good | with_reducible apply Dev.unholdExtent_good | with_reducible apply Dev.leaveTiles_good)

theorem Dev.fillMeters_good {d : Dev} (h : Dev.Good mm lk wl d) (u : Nat) : Dev.Good mm lk wl (Dev.fillMeters d u) := by
  unfold Dev.fillMeters
  repeat' (first | exact Mgmt.cancelUpdate_keeps | (exact fun _ h => h) | (exact fun _ => ⟨rfl, rfl, rfl⟩) | (exact fun _ => rfl) | (intro _; (repeat' split) <;> exact ⟨rfl, rfl, rfl⟩) | (intro _ h; (repeat' split) <;> exact h) | with_reducible assumption | with_reducible apply Dev.modArb_good)

theorem Arbiter.charge_share (a : Arbiter) (u r level : Nat) (b : Option Nat) : (a.charge u r level b).sShare = a.sShare := by
  unfold Arbiter.charge
  (repeat' split) <;> rfl

theorem Dev.arbCycle_good {d : Dev} (h : Dev.Good mm lk wl d) (u : Nat) : Dev.Good mm lk wl (d.arbCycle u) := by
  unfold Dev.arbCycle
  repeat' (first | exact Mgmt.cancelUpdate_keeps | (exact fun _ h => h) | (exact fun _ => ⟨rfl, rfl, rfl⟩) | (exact fun _ => rfl) | (intro _; (repeat' split) <;> exact ⟨rfl, rfl, rfl⟩) | (intro _ h; (repeat' split) <;> exact h) | with_reducible assumption | (with_reducible intro _) | with_reducible apply Dev.each_good | with_reducible apply Dev.when_good | exact fun _ => Arbiter.charge_share .. | exact Arbiter.charge_share .. | with_reducible apply Dev.modArb_good | with_reducible apply Dev.fillMeters_good | with_reducible exact OkR.error | with_reducible apply OkR.ok | with_reducible exact OkE.error | with_reducible apply OkE.ok | with_reducible exact OkO.none | with_reducible apply OkO.some | with_reducible exact OkOR.none | with_reducible apply OkOR.some | with_reducible refine OkR.elim ?_ (by assumption) | with_reducible refine OkE.elim ?_ (by assumption) | with_reducible refine OkO.elim ?_ (by assumption) | with_reducible refine OkOR.elim ?_ (by assumption) | with_reducible refine good_of_pair ?_ (by assumption) | with_reducible refine good_of_pair2 ?_ (by assumption) | with_reducible exact OkR.elim (by assumption) rfl | with_reducible exact OkE.elim (by assumption) rfl | with_reducible apply foldl_good | with_reducible apply foldl_pair_good | with_reducible apply foldl_okR | with_reducible apply foldl_okE | with_reducible apply foldl_okOR | with_reducible apply okOR_map | with_reducible apply okO_map | with_reducible exact OkO.elim (by assumption) rfl | with_reducible exact OkOR.elim (by assumption) rfl | split | (refine Dev.good_iff.mpr ?_; dsimp only; refine Dev.good_iff.mp ?_) | (refine Dev.good_iff.mpr ?_; dsimp only; refine good_clear (Dev.good_iff.mp ?_)) | (refine Dev.good_iff.mpr ?_; dsimp only; refine good_writeAll (Dev.good_iff.mp ?_)) | contradiction | dsimp only)

theorem Dev.meshCycle_good {d : Dev} (h : Dev.Good mm lk wl d) (m : Nat) : Dev.Good mm lk wl (Dev.meshCycle d m) := by
  unfold Dev.meshCycle
  repeat' (first | with_reducible assumption | (with_reducible intro _) | split | (refine Dev.good_iff.mpr ?_; dsimp only; refine Dev.good_iff.mp ?_))

theorem Dev.arbTick_good {d : Dev} (h : Dev.Good mm lk wl d) : Dev.Good mm lk wl (Dev.arbTick d) := by
  unfold Dev.arbTick
  repeat' (first | with_reducible assumption | (with_reducible intro _) | with_reducible apply Dev.each_good | with_reducible apply Dev.when_good | with_reducible apply Dev.arbCycle_good | with_reducible apply Dev.meshCycle_good | split | (refine Dev.good_iff.mpr ?_; dsimp only; refine Dev.good_iff.mp ?_))

theorem Dev.beginCmd_good {d : Dev} (h : Dev.Good mm lk wl d) (q ctx : Nat) (c : Cmd) : Dev.Good mm lk wl (Dev.beginCmd d q ctx c).1 := by
  unfold Dev.beginCmd
  repeat' (first | with_reducible assumption | with_reducible apply Dev.modQueue_good)

theorem Dev.onHead_good {d : Dev} (h : Dev.Good mm lk wl d) (q op : Nat) (effect : Dev → Cmd → Nat → Dev) (want : Cmd → Bool)
    (go : Dev → Cmd → Nat → Bool) (k : ∀ d c x, Dev.Good mm lk wl d → Dev.Good mm lk wl (effect d c x)) : Dev.Good mm lk wl (d.onHead q op effect want go) := by
  unfold Dev.onHead
  repeat' (first | with_reducible assumption | (with_reducible intro _) | with_reducible apply Dev.each_good | with_reducible apply Dev.when_good | with_reducible apply k | with_reducible apply Dev.failCmd_good | with_reducible apply Dev.failUpstream_good | with_reducible apply Dev.beginCmd_good | with_reducible exact OkR.error | with_reducible apply OkR.ok | with_reducible exact OkE.error | with_reducible apply OkE.ok | with_reducible exact OkO.none | with_reducible apply OkO.some | with_reducible exact OkOR.none | with_reducible apply OkOR.some | with_reducible refine OkR.elim ?_ (by assumption) | with_reducible refine OkE.elim ?_ (by assumption) | with_reducible refine OkO.elim ?_ (by assumption) | with_reducible refine OkOR.elim ?_ (by assumption) | with_reducible refine good_of_pair ?_ (by assumption) | with_reducible refine good_of_pair2 ?_ (by assumption) | with_reducible exact OkR.elim (by assumption) rfl | with_reducible exact OkE.elim (by assumption) rfl | with_reducible apply foldl_good | with_reducible apply foldl_pair_good | with_reducible apply foldl_okR | with_reducible apply foldl_okE | with_reducible apply foldl_okOR | with_reducible apply okOR_map | with_reducible apply okO_map | with_reducible exact OkO.elim (by assumption) rfl | with_reducible exact OkOR.elim (by assumption) rfl | split | (refine Dev.good_iff.mpr ?_; dsimp only; refine Dev.good_iff.mp ?_) | (refine Dev.good_iff.mpr ?_; dsimp only; refine good_clear (Dev.good_iff.mp ?_)) | (refine Dev.good_iff.mpr ?_; dsimp only; refine good_writeAll (Dev.good_iff.mp ?_)) | contradiction | dsimp only)

theorem Dev.haltQueue_good {d : Dev} (h : Dev.Good mm lk wl d) (q code : Nat) : Dev.Good mm lk wl (Dev.haltQueue d q code) := by
  unfold Dev.haltQueue
  repeat' (first | with_reducible assumption | with_reducible apply Dev.modQueue_good | with_reducible apply Dev.modErrors_good | with_reducible apply Dev.errEvent_good)

theorem Dev.flushWaiting_good {d : Dev} (h : Dev.Good mm lk wl d) (q n : Nat) : Dev.Good mm lk wl (d.flushWaiting q n) := by
  induction n generalizing d with
  | zero =>
    unfold Dev.flushWaiting
    repeat' (first | with_reducible assumption | with_reducible apply Dev.modQueue_good | with_reducible apply Dev.msix_good | with_reducible apply Dev.writeCompletion_good)
  | succ n ih =>
    unfold Dev.flushWaiting
    repeat' (first | with_reducible assumption | (with_reducible intro _) | with_reducible apply Dev.each_good | with_reducible apply Dev.when_good | with_reducible apply ih | with_reducible apply Dev.modQueue_good | with_reducible apply Dev.msix_good | with_reducible apply Dev.writeCompletion_good | with_reducible exact OkR.error | with_reducible apply OkR.ok | with_reducible exact OkE.error | with_reducible apply OkE.ok | with_reducible exact OkO.none | with_reducible apply OkO.some | with_reducible exact OkOR.none | with_reducible apply OkOR.some | with_reducible refine OkR.elim ?_ (by assumption) | with_reducible refine OkE.elim ?_ (by assumption) | with_reducible refine OkO.elim ?_ (by assumption) | with_reducible refine OkOR.elim ?_ (by assumption) | with_reducible refine good_of_pair ?_ (by assumption) | with_reducible refine good_of_pair2 ?_ (by assumption) | with_reducible exact OkR.elim (by assumption) rfl | with_reducible exact OkE.elim (by assumption) rfl | with_reducible apply foldl_good | with_reducible apply foldl_pair_good | with_reducible apply foldl_okR | with_reducible apply foldl_okE | with_reducible apply foldl_okOR | with_reducible apply okOR_map | with_reducible apply okO_map | with_reducible exact OkO.elim (by assumption) rfl | with_reducible exact OkOR.elim (by assumption) rfl | split | (refine Dev.good_iff.mpr ?_; dsimp only; refine Dev.good_iff.mp ?_) | (refine Dev.good_iff.mpr ?_; dsimp only; refine good_clear (Dev.good_iff.mp ?_)) | (refine Dev.good_iff.mpr ?_; dsimp only; refine good_writeAll (Dev.good_iff.mp ?_)) | contradiction | dsimp only)

theorem Dev.readCplHead_good {d : Dev} (h : Dev.Good mm lk wl d) (q head : Nat) : Dev.Good mm lk wl (Dev.readCplHead d q head) := by
  unfold Dev.readCplHead
  repeat' (first | with_reducible assumption | with_reducible apply Dev.modQueue_good | with_reducible apply Dev.flushWaiting_good)

theorem Dev.takeDoorbell_good {d : Dev} (h : Dev.Good mm lk wl d) (fn : Nat) (classP : Bool) (b : DoorbellRead) : Dev.Good mm lk wl (Dev.takeDoorbell d fn classP b) := by
  unfold Dev.takeDoorbell
  repeat' (first | with_reducible assumption | (with_reducible intro _) | with_reducible apply Dev.modQueue_good | with_reducible apply Dev.haltQueue_good | with_reducible apply Dev.readCplHead_good | split | (refine Dev.good_iff.mpr ?_; dsimp only; refine Dev.good_iff.mp ?_))

theorem Dev.takeBells_good {d : Dev} (h : Dev.Good mm lk wl d) (fn : Nat) (classP : Bool) (bits : List Nat) (reads : List DoorbellRead) : Dev.Good mm lk wl (Dev.takeBells d fn classP bits reads) := by
  unfold Dev.takeBells
  repeat' (first | with_reducible assumption | (with_reducible intro _) | with_reducible apply Dev.each_good | with_reducible apply Dev.when_good | with_reducible apply Dev.takeDoorbell_good | split)

theorem Dev.poll_good {d : Dev} (h : Dev.Good mm lk wl d) (fn : Nat) (classP : Bool) (words : List SummaryWord) (first again : List DoorbellRead) : Dev.Good mm lk wl (Dev.poll d fn classP words first again) := by
  unfold Dev.poll
  repeat' (first | with_reducible assumption | (with_reducible intro _) | with_reducible apply Dev.each_good | with_reducible apply Dev.when_good | with_reducible apply Dev.emit_good | with_reducible apply Dev.takeBells_good | split)

theorem Dev.admitCmd_good {d : Dev} (h : Dev.Good mm lk wl d) (q : Nat) (c : Cmd) (fails : Option Nat) : Dev.Good mm lk wl (Dev.admitCmd d q c fails) := by
  unfold Dev.admitCmd
  repeat' (first | with_reducible assumption | (with_reducible intro _) | with_reducible apply Dev.modQueue_good | with_reducible apply Dev.failCmd_good | split)

theorem Dev.decodeFirst_good {d : Dev} (h : Dev.Good mm lk wl d) (q : Nat) (w : List W32) (c : Cmd) : Dev.Good mm lk wl (Dev.decodeFirst d q w c) := by
  unfold Dev.decodeFirst
  repeat' (first | with_reducible assumption | (with_reducible intro _) | with_reducible apply Dev.modQueue_good | with_reducible apply Dev.admitCmd_good | split | (refine Dev.good_iff.mpr ?_; dsimp only; refine Dev.good_iff.mp ?_))

theorem Dev.decodeNext_good {d : Dev} (h : Dev.Good mm lk wl d) (q : Nat) (w : List W32) (g c : Cmd) : Dev.Good mm lk wl (Dev.decodeNext d q w g c) := by
  unfold Dev.decodeNext
  repeat' (first | with_reducible assumption | (with_reducible intro _) | with_reducible apply Dev.modQueue_good | with_reducible apply Dev.admitCmd_good | split | (refine Dev.good_iff.mpr ?_; dsimp only; refine Dev.good_iff.mp ?_))

theorem Dev.decodePacket_good {d : Dev} (h : Dev.Good mm lk wl d) (q : Nat) (w : List W32) : Dev.Good mm lk wl (Dev.decodePacket d q w) := by
  unfold Dev.decodePacket
  repeat' (first | with_reducible assumption | (with_reducible intro _) | with_reducible apply Dev.modQueue_good | with_reducible apply Dev.haltQueue_good | with_reducible apply Dev.admitCmd_good | with_reducible apply Dev.decodeFirst_good | with_reducible apply Dev.decodeNext_good | split | (refine Dev.good_iff.mpr ?_; dsimp only; refine Dev.good_iff.mp ?_))

theorem Dev.promoteFor_good {d : Dev} (h : Dev.Good mm lk wl d) (plan first count start : Nat) : Dev.Good mm lk wl (Dev.promoteFor d plan first count start) := by
  unfold Dev.promoteFor
  repeat' (first | with_reducible assumption | (with_reducible intro _) | with_reducible apply Dev.each_good | with_reducible apply Dev.when_good | with_reducible apply Dev.requestPromotion_good | split | (refine Dev.good_iff.mpr ?_; dsimp only; refine Dev.good_iff.mp ?_))

theorem Dev.promoteDue_good {d : Dev} (h : Dev.Good mm lk wl d) : Dev.Good mm lk wl (Dev.promoteDue d) := by
  unfold Dev.promoteDue
  repeat' (first | with_reducible assumption | (with_reducible intro _) | with_reducible apply Dev.each_good | with_reducible apply Dev.when_good | with_reducible apply Dev.promoteFor_good)

theorem Dev.rejectQueue_good {d : Dev} (h : Dev.Good mm lk wl d) (q : Nat) : Dev.Good mm lk wl (Dev.rejectQueue d q) := by
  unfold Dev.rejectQueue
  repeat' (first | with_reducible assumption | with_reducible apply Dev.modQueue_good)

theorem Dev.enableQueue_good {d : Dev} (h : Dev.Good mm lk wl d) (fn : Nat) : Dev.Good mm lk wl (Dev.enableQueue d fn) := by
  unfold Dev.enableQueue
  repeat' (first | with_reducible assumption | (with_reducible intro _) | with_reducible apply Dev.modFn_good | with_reducible apply Dev.modQueue_good | with_reducible apply Dev.rejectQueue_good | split | (refine Dev.good_iff.mpr ?_; dsimp only; refine Dev.good_iff.mp ?_))

theorem Dev.dropFetched_good {d : Dev} (h : Dev.Good mm lk wl d) (q : Nat) : Dev.Good mm lk wl (Dev.dropFetched d q) := by
  unfold Dev.dropFetched
  repeat' (first | with_reducible assumption | (with_reducible intro _) | with_reducible apply Dev.each_good | with_reducible apply Dev.when_good | with_reducible apply Dev.modQueue_good | with_reducible apply Dev.failCmd_good)

theorem Dev.disableQueue_good {d : Dev} (h : Dev.Good mm lk wl d) (q : Nat) : Dev.Good mm lk wl (Dev.disableQueue d q) := by
  unfold Dev.disableQueue
  repeat' (first | with_reducible assumption | with_reducible apply Dev.modQueue_good | with_reducible apply Dev.dropFetched_good)

theorem Dev.silenceFn_good {d : Dev} (h : Dev.Good mm lk wl d) (fn : Nat) : Dev.Good mm lk wl (Dev.silenceFn d fn) := by
  unfold Dev.silenceFn
  repeat' (first | with_reducible assumption | (with_reducible intro _) | with_reducible apply Dev.each_good | with_reducible apply Dev.when_good | with_reducible apply Dev.modFn_good | with_reducible apply Dev.modQueue_good | (refine Dev.good_iff.mpr ?_; dsimp only; refine Dev.good_iff.mp ?_))

theorem Dev.tdiError_good {d : Dev} (h : Dev.Good mm lk wl d) (fn : Nat) : Dev.Good mm lk wl (Dev.tdiError d fn) := by
  unfold Dev.tdiError
  repeat' (first | with_reducible assumption | (with_reducible intro _) | with_reducible apply Dev.each_good | with_reducible apply Dev.when_good | with_reducible apply Dev.modFn_good | with_reducible apply Dev.errEvent_good | with_reducible apply Dev.silenceFn_good)

theorem Dev.clearEnable_good {d : Dev} (h : Dev.Good mm lk wl d) (fn : Nat) : Dev.Good mm lk wl (Dev.clearEnable d fn) := by
  unfold Dev.clearEnable
  repeat' (first | with_reducible assumption | (with_reducible intro _) | with_reducible apply Dev.each_good | with_reducible apply Dev.when_good | with_reducible apply Dev.rejectQueue_good | with_reducible apply Dev.disableQueue_good | with_reducible apply Dev.tdiError_good | split | (refine Dev.good_iff.mpr ?_; dsimp only; refine Dev.good_iff.mp ?_))

theorem Dev.openContext_good {d : Dev} (h : Dev.Good mm lk wl d) (c : Nat) : Dev.Good mm lk wl (Dev.openContext d c) := by
  unfold Dev.openContext
  repeat' (first | with_reducible assumption | (with_reducible intro _) | with_reducible apply Dev.each_good | with_reducible apply Dev.when_good | with_reducible apply Dev.modCtx_good | with_reducible apply Dev.modMap_good | with_reducible apply Dev.modFence_good | with_reducible apply Dev.modTrust_good | with_reducible apply Dev.writeRecord_good)

theorem Dev.openCommand_good {d : Dev} (h : Dev.Good mm lk wl d) (c : Nat) : Dev.Good mm lk wl (Dev.openCommand d c) := by
  unfold Dev.openCommand
  repeat' (first | with_reducible assumption | (with_reducible intro _) | with_reducible apply Dev.modCtx_good | with_reducible apply Dev.openContext_good | split)

theorem Dev.closeCommand_good {d : Dev} (h : Dev.Good mm lk wl d) (c : Nat) : Dev.Good mm lk wl (Dev.closeCommand d c) := by
  unfold Dev.closeCommand
  repeat' (first | with_reducible assumption | (with_reducible intro _) | with_reducible apply Dev.each_good | with_reducible apply Dev.when_good | with_reducible apply Dev.modCtx_good | with_reducible apply Dev.disableQueue_good | split | (refine Dev.good_iff.mpr ?_; dsimp only; refine Dev.good_iff.mp ?_))

theorem Dev.mapPages_good {d : Dev} (h : Dev.Good mm lk wl d) (q : Nat) (c : Cmd) (ctx : Nat) : Dev.Good mm lk wl (Dev.mapPages d q c ctx) := by
  unfold Dev.mapPages
  repeat' (first | with_reducible assumption | (with_reducible intro _) | with_reducible apply Dev.each_good | with_reducible apply Dev.when_good | with_reducible apply Dev.modMap_good | with_reducible apply Dev.succeed_good | with_reducible apply Dev.failCmd_good | split)

theorem Dev.unmapPages_good {d : Dev} (h : Dev.Good mm lk wl d) (q : Nat) (c : Cmd) (ctx : Nat) : Dev.Good mm lk wl (Dev.unmapPages d q c ctx) := by
  unfold Dev.unmapPages
  repeat' (first | with_reducible assumption | (with_reducible intro _) | with_reducible apply Dev.each_good | with_reducible apply Dev.when_good | with_reducible apply Dev.modCtx_good | with_reducible apply Dev.modMap_good | with_reducible apply Dev.modPlaced_good | with_reducible apply Dev.succeed_good | with_reducible apply Dev.failCmd_good | split)

theorem Dev.quotaSet_good {d : Dev} (h : Dev.Good mm lk wl d) (q : Nat) (c : Cmd) (ctx : Nat) : Dev.Good mm lk wl (Dev.quotaSet d q c ctx) := by
  unfold Dev.quotaSet
  repeat' (first | with_reducible assumption | with_reducible apply Dev.modCtx_good | with_reducible apply Dev.checkQuota_good | with_reducible apply Dev.succeed_good)

theorem Dev.dropForQuota_good {d : Dev} (h : Dev.Good mm lk wl d) (c : Nat) : Dev.Good mm lk wl (Dev.dropForQuota d c) := by
  unfold Dev.dropForQuota
  repeat' (first | with_reducible assumption | (with_reducible intro _) | with_reducible apply Dev.each_good | with_reducible apply Dev.when_good | with_reducible apply Dev.modExtent_good | with_reducible apply Dev.dropCopy_good | split)

theorem Dev.quotaAtEbb_good {d : Dev} (h : Dev.Good mm lk wl d) (c : Nat) : Dev.Good mm lk wl (Dev.quotaAtEbb d c) := by
  unfold Dev.quotaAtEbb
  repeat' (first | with_reducible assumption | (with_reducible intro _) | with_reducible apply Dev.modCtx_good | split | (refine Dev.good_iff.mpr ?_; dsimp only; refine Dev.good_iff.mp ?_))

theorem Dev.sendTracked_good {d : Dev} (h : Dev.Good mm lk wl d) (c dst : Nat) (m : FabMsg) : Dev.Good mm lk wl (Dev.sendTracked d c dst m) := by
  unfold Dev.sendTracked
  repeat' (first | exact Mgmt.cancelUpdate_keeps | (exact fun _ h => h) | (exact fun _ => ⟨rfl, rfl, rfl⟩) | (exact fun _ => rfl) | (intro _; (repeat' split) <;> exact ⟨rfl, rfl, rfl⟩) | (intro _ h; (repeat' split) <;> exact h) | with_reducible assumption | with_reducible apply Dev.modFabric_good | with_reducible apply Dev.modCtx_good | with_reducible apply Dev.emit_good)

theorem Dev.discard_good {d : Dev} (h : Dev.Good mm lk wl d) (c code : Nat) (i : HeldItem) : Dev.Good mm lk wl (Dev.discard d c code i) := by
  unfold Dev.discard
  repeat' (first | with_reducible assumption | (with_reducible intro _) | with_reducible apply Dev.finish_good | with_reducible apply Dev.sendTracked_good | split)

theorem Dev.holdEgress_good {d : Dev} (h : Dev.Good mm lk wl d) (c : Nat) (i : HeldItem) : Dev.Good mm lk wl (Dev.holdEgress d c i) := by
  unfold Dev.holdEgress
  repeat' (first | with_reducible assumption | (with_reducible intro _) | with_reducible apply Dev.discard_good | split | (refine Dev.good_iff.mpr ?_; dsimp only; refine Dev.good_iff.mp ?_))

theorem Dev.abortJoined_good {d : Dev} (h : Dev.Good mm lk wl d) (c : Nat) : Dev.Good mm lk wl (Dev.abortJoined d c) := by
  unfold Dev.abortJoined
  repeat' (first | with_reducible assumption | (with_reducible intro _) | with_reducible apply Dev.each_good | with_reducible apply Dev.when_good | with_reducible apply Dev.sendTracked_good | split)

theorem Dev.discardSettlements_good {d : Dev} (h : Dev.Good mm lk wl d) (c : Nat) : Dev.Good mm lk wl (Dev.discardSettlements d c) := by
  unfold Dev.discardSettlements
  repeat' (first | with_reducible assumption | (refine Dev.good_iff.mpr ?_; dsimp only; refine Dev.good_iff.mp ?_))

theorem Dev.checkFailed_good {d : Dev} (h : Dev.Good mm lk wl d) (c code : Nat) : Dev.Good mm lk wl (Dev.checkFailed d c code) := by
  unfold Dev.checkFailed
  repeat' (first | with_reducible assumption | (with_reducible intro _) | with_reducible apply Dev.each_good | with_reducible apply Dev.when_good | with_reducible apply Dev.modCtx_good | with_reducible apply Dev.discard_good | with_reducible apply Dev.abortJoined_good | with_reducible apply Dev.discardSettlements_good | (refine Dev.good_iff.mpr ?_; dsimp only; refine Dev.good_iff.mp ?_))

theorem Dev.mirrorCells_good {d : Dev} (h : Dev.Good mm lk wl d) (c : Nat) (cells : List Host.Cell) : Dev.Good mm lk wl (Dev.mirrorCells d c cells) := by
  unfold Dev.mirrorCells
  repeat' (first | with_reducible assumption | (with_reducible intro _) | with_reducible apply Dev.holdEgress_good | split | (refine Dev.good_iff.mpr ?_; dsimp only; refine Dev.good_iff.mp ?_))

theorem Dev.withholdCtx_good {d : Dev} (h : Dev.Good mm lk wl d) (c code : Nat) : Dev.Good mm lk wl (Dev.withholdCtx d c code) := by
  unfold Dev.withholdCtx
  repeat' (first | with_reducible assumption | with_reducible apply Dev.modCtx_good)

theorem Dev.passGate_good {d : Dev} (h : Dev.Good mm lk wl d) (h : Held) : Dev.Good mm lk wl (Dev.passGate d h) := by
  unfold Dev.passGate
  repeat' (first | with_reducible assumption | (with_reducible intro _) | with_reducible apply Dev.emit_good | with_reducible apply Dev.finish_good | with_reducible apply Dev.sendTracked_good | split)

theorem Dev.closeHorizons_good {d : Dev} (h : Dev.Good mm lk wl d) (through : Nat) : Dev.Good mm lk wl (Dev.closeHorizons d through) := by
  unfold Dev.closeHorizons
  repeat' (first | with_reducible assumption | (refine Dev.good_iff.mpr ?_; dsimp only; refine Dev.good_iff.mp ?_))

theorem Dev.openGates_good {d : Dev} (h : Dev.Good mm lk wl d) (through : Nat) : Dev.Good mm lk wl (Dev.openGates d through) := by
  unfold Dev.openGates
  repeat' (first | with_reducible assumption | (with_reducible intro _) | with_reducible apply Dev.each_good | with_reducible apply Dev.when_good | with_reducible apply Dev.passGate_good | (refine Dev.good_iff.mpr ?_; dsimp only; refine Dev.good_iff.mp ?_))

theorem Dev.holdRead_good {d : Dev} (h : Dev.Good mm lk wl d) (run g : Nat) : Dev.Good mm lk wl (Dev.holdRead d run g) := by
  unfold Dev.holdRead
  repeat' (first | with_reducible assumption | with_reducible apply Dev.modBadLine_good)

theorem Dev.holdCtxRead_good {d : Dev} (h : Dev.Good mm lk wl d) (c g : Nat) : Dev.Good mm lk wl (Dev.holdCtxRead d c g) := by
  unfold Dev.holdCtxRead
  repeat' (first | with_reducible assumption | with_reducible apply Dev.modBadLine_good)

theorem Dev.noteDraws_good {d : Dev} (h : Dev.Good mm lk wl d) (r : Run) : Dev.Good mm lk wl (Dev.noteDraws d r) := by
  unfold Dev.noteDraws
  repeat' (first | with_reducible assumption | (with_reducible intro _) | with_reducible apply Dev.modPlan_good | split)

theorem Dev.sendInput_good {d : Dev} (h : Dev.Good mm lk wl d) (r : Run) (k : Nat) (o : OpRec) (v : TensorVal) (i : Nat) : Dev.Good mm lk wl (Dev.sendInput d r k o v i) := by
  unfold Dev.sendInput
  repeat' (first | with_reducible assumption | (with_reducible intro _) | with_reducible apply Dev.each_good | with_reducible apply Dev.when_good | with_reducible apply Dev.holdEgress_good)

theorem Dev.grantCredits_good {d : Dev} (h : Dev.Good mm lk wl d) (r : Run) (k : Nat) (o : OpRec) : Dev.Good mm lk wl (Dev.grantCredits d r k o) := by
  unfold Dev.grantCredits
  repeat' (first | with_reducible assumption | (with_reducible intro _) | with_reducible apply Dev.each_good | with_reducible apply Dev.when_good | with_reducible apply Dev.emit_good)

theorem Dev.spendCredit_good {d : Dev} (h : Dev.Good mm lk wl d) (r : Run) (k : Nat) (o : OpRec) (i : Nat) : Dev.Good mm lk wl (Dev.spendCredit d r k o i) := by
  unfold Dev.spendCredit
  repeat' (first | exact Mgmt.cancelUpdate_keeps | (exact fun _ h => h) | (exact fun _ => ⟨rfl, rfl, rfl⟩) | (exact fun _ => rfl) | (intro _; (repeat' split) <;> exact ⟨rfl, rfl, rfl⟩) | (intro _ h; (repeat' split) <;> exact h) | with_reducible assumption | with_reducible apply Dev.modFabric_good)

theorem Dev.issueColl_good {d : Dev} (h : Dev.Good mm lk wl d) (r : Run) (k : Nat) (o : OpRec) : Dev.Good mm lk wl (Dev.issueColl d r k o) := by
  unfold Dev.issueColl
  repeat' (first | with_reducible assumption | (with_reducible intro _) | with_reducible apply Dev.each_good | with_reducible apply Dev.when_good | with_reducible apply Dev.sendInput_good | with_reducible apply Dev.grantCredits_good | with_reducible apply Dev.spendCredit_good | (refine Dev.good_iff.mpr ?_; dsimp only; refine Dev.good_iff.mp ?_))

theorem Dev.sendOutput_good {d : Dev} (h : Dev.Good mm lk wl d) (r : Run) (k : Nat) (o : OpRec) (out : OpOut) : Dev.Good mm lk wl (Dev.sendOutput d r k o out) := by
  unfold Dev.sendOutput
  repeat' (first | with_reducible assumption | (with_reducible intro _) | with_reducible apply Dev.each_good | with_reducible apply Dev.when_good | with_reducible apply Dev.holdEgress_good | split)

theorem Dev.endColl_good {d : Dev} (h : Dev.Good mm lk wl d) (r : Run) (k : Nat) (o : OpRec) (c : CollResult) : Dev.Good mm lk wl (Dev.endColl d r k o c) := by
  unfold Dev.endColl
  repeat' (first | with_reducible assumption | with_reducible apply Dev.noteDraws_good | with_reducible apply Dev.sendOutput_good | (refine Dev.good_iff.mpr ?_; dsimp only; refine Dev.good_iff.mp ?_))

theorem Dev.failColl_good {d : Dev} (h : Dev.Good mm lk wl d) (id k code : Nat) (origin : Option Nat) : Dev.Good mm lk wl (Dev.failColl d id k code origin) := by
  unfold Dev.failColl
  repeat' (first | with_reducible assumption | (refine Dev.good_iff.mpr ?_; dsimp only; refine Dev.good_iff.mp ?_))

theorem Dev.readStall_good {d : Dev} (h : Dev.Good mm lk wl d) (run : Nat) (r : Run) (ks : List Nat) : OkO mm lk wl (Dev.readStall d run r ks) := by
  unfold Dev.readStall
  repeat' (first | with_reducible assumption | (with_reducible intro _) | with_reducible apply Dev.each_good | with_reducible apply Dev.when_good | with_reducible apply Dev.holdRead_good | with_reducible exact OkR.error | with_reducible apply OkR.ok | with_reducible exact OkE.error | with_reducible apply OkE.ok | with_reducible exact OkO.none | with_reducible apply OkO.some | with_reducible exact OkOR.none | with_reducible apply OkOR.some | with_reducible refine OkR.elim ?_ (by assumption) | with_reducible refine OkE.elim ?_ (by assumption) | with_reducible refine OkO.elim ?_ (by assumption) | with_reducible refine OkOR.elim ?_ (by assumption) | with_reducible refine good_of_pair ?_ (by assumption) | with_reducible refine good_of_pair2 ?_ (by assumption) | with_reducible exact OkR.elim (by assumption) rfl | with_reducible exact OkE.elim (by assumption) rfl | with_reducible apply foldl_good | with_reducible apply foldl_pair_good | with_reducible apply foldl_okR | with_reducible apply foldl_okE | with_reducible apply foldl_okOR | with_reducible apply okOR_map | with_reducible apply okO_map | with_reducible exact OkO.elim (by assumption) rfl | with_reducible exact OkOR.elim (by assumption) rfl | split | (refine Dev.good_iff.mpr ?_; dsimp only; refine Dev.good_iff.mp ?_) | (refine Dev.good_iff.mpr ?_; dsimp only; refine good_clear (Dev.good_iff.mp ?_)) | (refine Dev.good_iff.mpr ?_; dsimp only; refine good_writeAll (Dev.good_iff.mp ?_)) | contradiction | dsimp only)

theorem Dev.failChecks_good {d : Dev} (h : Dev.Good mm lk wl d) (run : Nat) (r : Run) (ks : List Nat) : Dev.Good mm lk wl (Dev.failChecks d run r ks) := by
  unfold Dev.failChecks
  repeat' (first | with_reducible assumption | (with_reducible intro _) | with_reducible apply Dev.each_good | with_reducible apply Dev.when_good | with_reducible apply Dev.checkFailed_good | split | (refine Dev.good_iff.mpr ?_; dsimp only; refine Dev.good_iff.mp ?_))

theorem Dev.runColl_good {d : Dev} (h : Dev.Good mm lk wl d) (run op opcode : Nat) (c : CollResult) : Dev.Good mm lk wl (Dev.runColl d run op opcode c) := by
  unfold Dev.runColl
  repeat' (first | with_reducible assumption | (with_reducible intro _) | with_reducible apply Dev.each_good | with_reducible apply Dev.when_good | with_reducible apply Dev.issueColl_good | with_reducible apply Dev.endColl_good | with_reducible apply Dev.readStall_good | with_reducible apply Dev.failChecks_good | with_reducible exact OkR.error | with_reducible apply OkR.ok | with_reducible exact OkE.error | with_reducible apply OkE.ok | with_reducible exact OkO.none | with_reducible apply OkO.some | with_reducible exact OkOR.none | with_reducible apply OkOR.some | with_reducible refine OkR.elim ?_ (by assumption) | with_reducible refine OkE.elim ?_ (by assumption) | with_reducible refine OkO.elim ?_ (by assumption) | with_reducible refine OkOR.elim ?_ (by assumption) | with_reducible refine good_of_pair ?_ (by assumption) | with_reducible refine good_of_pair2 ?_ (by assumption) | with_reducible exact OkR.elim (by assumption) rfl | with_reducible exact OkE.elim (by assumption) rfl | with_reducible apply foldl_good | with_reducible apply foldl_pair_good | with_reducible apply foldl_okR | with_reducible apply foldl_okE | with_reducible apply foldl_okOR | with_reducible apply okOR_map | with_reducible apply okO_map | with_reducible exact OkO.elim (by assumption) rfl | with_reducible exact OkOR.elim (by assumption) rfl | split | (refine Dev.good_iff.mpr ?_; dsimp only; refine Dev.good_iff.mp ?_) | (refine Dev.good_iff.mpr ?_; dsimp only; refine good_clear (Dev.good_iff.mp ?_)) | (refine Dev.good_iff.mpr ?_; dsimp only; refine good_writeAll (Dev.good_iff.mp ?_)) | contradiction | dsimp only)

theorem Dev.sendNested_good {d : Dev} (h : Dev.Good mm lk wl d) (r : Run) (sent : List (Nat × TensorVal)) : Dev.Good mm lk wl (Dev.sendNested d r sent) := by
  unfold Dev.sendNested
  repeat' (first | with_reducible assumption | (with_reducible intro _) | with_reducible apply Dev.each_good | with_reducible apply Dev.when_good | with_reducible apply Dev.sendInput_good | split)

theorem Dev.runOp_good {d : Dev} (h : Dev.Good mm lk wl d) (run op opcode : Nat) (sched : Sched) (coll : List CollResult) : Dev.Good mm lk wl (Dev.runOp d run op opcode sched coll) := by
  unfold Dev.runOp
  repeat' (first | with_reducible assumption | (with_reducible intro _) | with_reducible apply Dev.each_good | with_reducible apply Dev.when_good | with_reducible apply Dev.noteDraws_good | with_reducible apply Dev.readStall_good | with_reducible apply Dev.failChecks_good | with_reducible apply Dev.sendNested_good | with_reducible exact OkR.error | with_reducible apply OkR.ok | with_reducible exact OkE.error | with_reducible apply OkE.ok | with_reducible exact OkO.none | with_reducible apply OkO.some | with_reducible exact OkOR.none | with_reducible apply OkOR.some | with_reducible refine OkR.elim ?_ (by assumption) | with_reducible refine OkE.elim ?_ (by assumption) | with_reducible refine OkO.elim ?_ (by assumption) | with_reducible refine OkOR.elim ?_ (by assumption) | with_reducible refine good_of_pair ?_ (by assumption) | with_reducible refine good_of_pair2 ?_ (by assumption) | with_reducible exact OkR.elim (by assumption) rfl | with_reducible exact OkE.elim (by assumption) rfl | with_reducible apply foldl_good | with_reducible apply foldl_pair_good | with_reducible apply foldl_okR | with_reducible apply foldl_okE | with_reducible apply foldl_okOR | with_reducible apply okOR_map | with_reducible apply okO_map | with_reducible exact OkO.elim (by assumption) rfl | with_reducible exact OkOR.elim (by assumption) rfl | split | (refine Dev.good_iff.mpr ?_; dsimp only; refine Dev.good_iff.mp ?_) | (refine Dev.good_iff.mpr ?_; dsimp only; refine good_clear (Dev.good_iff.mp ?_)) | (refine Dev.good_iff.mpr ?_; dsimp only; refine good_writeAll (Dev.good_iff.mp ?_)) | contradiction | dsimp only)

theorem Dev.startStep_good {d : Dev} (h : Dev.Good mm lk wl d) (r : RunCmd) : Dev.Good mm lk wl (Dev.startStep d r) := by
  unfold Dev.startStep
  repeat' (first | with_reducible assumption | (with_reducible intro _) | with_reducible apply Dev.each_good | with_reducible apply Dev.when_good | with_reducible apply Dev.modCtx_good | with_reducible apply Dev.modScale_good | with_reducible apply Dev.modPlan_good | with_reducible apply Dev.modExtent_good | with_reducible apply Dev.releaseRef_good | with_reducible apply Dev.requestPromotion_good | split | (refine Dev.good_iff.mpr ?_; dsimp only; refine Dev.good_iff.mp ?_))

theorem Dev.takeDone_good {d : Dev} (h : Dev.Good mm lk wl d) : Dev.Good mm lk wl (Dev.takeDone d).1 := by
  unfold Dev.takeDone
  repeat' (first | with_reducible assumption | (with_reducible intro _) | split | (refine Dev.good_iff.mpr ?_; dsimp only; refine Dev.good_iff.mp ?_))

theorem Dev.finishDone_good {d : Dev} (h : Dev.Good mm lk wl d) : Dev.Good mm lk wl (Dev.finishDone d) := by
  unfold Dev.finishDone
  repeat' (first | with_reducible assumption | (with_reducible intro _) | with_reducible apply Dev.each_good | with_reducible apply Dev.when_good | with_reducible apply Dev.finish_good | with_reducible apply Dev.takeDone_good)

theorem Dev.breakCmd_good {d : Dev} (h : Dev.Good mm lk wl d) (r : RunCmd) (e : CodeEntry) : Dev.Good mm lk wl (Dev.breakCmd d r e) := by
  unfold Dev.breakCmd
  repeat' (first | with_reducible assumption | (with_reducible intro _) | split | (refine Dev.good_iff.mpr ?_; dsimp only; refine Dev.good_iff.mp ?_))

theorem Dev.tryStart_good {d : Dev} (h : Dev.Good mm lk wl d) (c n : Nat) : Dev.Good mm lk wl (d.tryStart c n) := by
  induction n generalizing d with
  | zero =>
    unfold Dev.tryStart
    repeat' (first | with_reducible assumption | with_reducible apply Dev.startStep_good | with_reducible apply Dev.finishDone_good | with_reducible apply Dev.breakCmd_good)
  | succ n ih =>
    unfold Dev.tryStart
    repeat' (first | with_reducible assumption | (with_reducible intro _) | with_reducible apply Dev.each_good | with_reducible apply Dev.when_good | with_reducible apply ih | with_reducible apply Dev.startStep_good | with_reducible apply Dev.finishDone_good | with_reducible apply Dev.breakCmd_good | with_reducible exact OkR.error | with_reducible apply OkR.ok | with_reducible exact OkE.error | with_reducible apply OkE.ok | with_reducible exact OkO.none | with_reducible apply OkO.some | with_reducible exact OkOR.none | with_reducible apply OkOR.some | with_reducible refine OkR.elim ?_ (by assumption) | with_reducible refine OkE.elim ?_ (by assumption) | with_reducible refine OkO.elim ?_ (by assumption) | with_reducible refine OkOR.elim ?_ (by assumption) | with_reducible refine good_of_pair ?_ (by assumption) | with_reducible refine good_of_pair2 ?_ (by assumption) | with_reducible exact OkR.elim (by assumption) rfl | with_reducible exact OkE.elim (by assumption) rfl | with_reducible apply foldl_good | with_reducible apply foldl_pair_good | with_reducible apply foldl_okR | with_reducible apply foldl_okE | with_reducible apply foldl_okOR | with_reducible apply okOR_map | with_reducible apply okO_map | with_reducible exact OkO.elim (by assumption) rfl | with_reducible exact OkOR.elim (by assumption) rfl | split | (refine Dev.good_iff.mpr ?_; dsimp only; refine Dev.good_iff.mp ?_) | (refine Dev.good_iff.mpr ?_; dsimp only; refine good_clear (Dev.good_iff.mp ?_)) | (refine Dev.good_iff.mpr ?_; dsimp only; refine good_writeAll (Dev.good_iff.mp ?_)) | contradiction | dsimp only)

theorem Dev.startAll_good {d : Dev} (h : Dev.Good mm lk wl d) : Dev.Good mm lk wl (Dev.startAll d) := by
  unfold Dev.startAll
  repeat' (first | with_reducible assumption | (with_reducible intro _) | with_reducible apply Dev.each_good | with_reducible apply Dev.when_good | with_reducible apply Dev.tryStart_good)

theorem Dev.markUnlocked_good {d : Dev} (h : Dev.Good mm lk wl d) : Dev.Good mm lk wl (Dev.markUnlocked d) := by
  unfold Dev.markUnlocked
  repeat' (first | with_reducible assumption | (refine Dev.good_iff.mpr ?_; dsimp only; refine Dev.good_iff.mp ?_))

theorem Dev.addPending_good {d : Dev} (h : Dev.Good mm lk wl d) (r : Run) : Dev.Good mm lk wl (Dev.addPending d r) := by
  unfold Dev.addPending
  repeat' (first | with_reducible assumption | (with_reducible intro _) | with_reducible apply Dev.each_good | with_reducible apply Dev.when_good | with_reducible apply Dev.modScale_good | split)

theorem Dev.endStep_good {d : Dev} (h : Dev.Good mm lk wl d) (id ranNs : Nat) : Dev.Good mm lk wl (Dev.endStep d id ranNs) := by
  unfold Dev.endStep
  repeat' (first | with_reducible assumption | (with_reducible intro _) | with_reducible apply Dev.each_good | with_reducible apply Dev.when_good | with_reducible apply Dev.modTile_good | with_reducible apply Dev.modTide_good | with_reducible apply Dev.tryStart_good | with_reducible apply Dev.addPending_good | split | (refine Dev.good_iff.mpr ?_; dsimp only; refine Dev.good_iff.mp ?_))

theorem Dev.spill_good {d : Dev} (h : Dev.Good mm lk wl d) (id : Nat) : Dev.Good mm lk wl (Dev.spill d id) := by
  unfold Dev.spill
  repeat' (first | with_reducible assumption | (with_reducible intro _) | with_reducible apply Dev.each_good | with_reducible apply Dev.when_good | with_reducible apply Dev.modTide_good | with_reducible apply Dev.dwEvent_good | split | (refine Dev.good_iff.mpr ?_; dsimp only; refine Dev.good_iff.mp ?_))

theorem Dev.spillAll_good {d : Dev} (h : Dev.Good mm lk wl d) : Dev.Good mm lk wl (Dev.spillAll d) := by
  unfold Dev.spillAll
  repeat' (first | with_reducible assumption | (with_reducible intro _) | with_reducible apply Dev.each_good | with_reducible apply Dev.when_good | with_reducible apply Dev.spill_good)

theorem Dev.breakWaiters_good {d : Dev} (h : Dev.Good mm lk wl d) (r : Run) (code : Nat) : Dev.Good mm lk wl (Dev.breakWaiters d r code) := by
  unfold Dev.breakWaiters
  repeat' (first | with_reducible assumption | (with_reducible intro _) | with_reducible apply Dev.each_good | with_reducible apply Dev.when_good | with_reducible apply Dev.breakCmd_good)

theorem Dev.abortSpill_good {d : Dev} (h : Dev.Good mm lk wl d) (id : Nat) : Dev.Good mm lk wl (Dev.abortSpill d id) := by
  unfold Dev.abortSpill
  repeat' (first | with_reducible assumption | (with_reducible intro _) | with_reducible apply Dev.each_good | with_reducible apply Dev.when_good | with_reducible apply Dev.dwEvent_good | (refine Dev.good_iff.mpr ?_; dsimp only; refine Dev.good_iff.mp ?_))

theorem Dev.releaseStep_good {d : Dev} (h : Dev.Good mm lk wl d) (r : Run) : Dev.Good mm lk wl (Dev.releaseStep d r) := by
  unfold Dev.releaseStep
  repeat' (first | with_reducible assumption | (with_reducible intro _) | with_reducible apply Dev.each_good | with_reducible apply Dev.when_good | with_reducible apply Dev.releaseRef_good)

theorem Dev.dropRun_good {d : Dev} (h : Dev.Good mm lk wl d) (r : Run) (f : RunCmd → RunCmd) : Dev.Good mm lk wl (Dev.dropRun d r f) := by
  unfold Dev.dropRun
  repeat' (first | with_reducible assumption | (with_reducible intro _) | split | (refine Dev.good_iff.mpr ?_; dsimp only; refine Dev.good_iff.mp ?_))

theorem Dev.commitScales_good {d : Dev} (h : Dev.Good mm lk wl d) (r : Run) : Dev.Good mm lk wl (Dev.commitScales d r) := by
  unfold Dev.commitScales
  repeat' (first | with_reducible assumption | (with_reducible intro _) | with_reducible apply Dev.each_good | with_reducible apply Dev.when_good | with_reducible apply Dev.modScale_good | split)

theorem Dev.commitRun_good {d : Dev} (h : Dev.Good none lk wl d) (r : Run) : Dev.Good none lk wl (Dev.commitRun d r).1 := by
  unfold Dev.commitRun
  repeat' (first | with_reducible assumption | (with_reducible intro _) | with_reducible apply Dev.each_good | with_reducible apply Dev.when_good | with_reducible apply Dev.modCtx_good | with_reducible apply Dev.modPlan_good | with_reducible apply Dev.writeMem_good | with_reducible apply Dev.modPlaced_good | with_reducible apply Dev.releaseStep_good | with_reducible apply Dev.dropRun_good | with_reducible apply Dev.commitScales_good)

theorem Dev.withholdRun_good {d : Dev} (h : Dev.Good mm lk wl d) (r : Run) (e : CodeEntry) (also : List CodeEntry) : Dev.Good mm lk wl (Dev.withholdRun d r e also) := by
  unfold Dev.withholdRun
  repeat' (first | with_reducible assumption | (with_reducible intro _) | with_reducible apply Dev.each_good | with_reducible apply Dev.when_good | with_reducible apply Dev.modScale_good | with_reducible apply Dev.releaseStep_good | with_reducible apply Dev.dropRun_good | split)

theorem Dev.taintReaders_good {d : Dev} (h : Dev.Good mm lk wl d) (r : Run) (code : Nat) : Dev.Good mm lk wl (Dev.taintReaders d r code) := by
  unfold Dev.taintReaders
  repeat' (first | with_reducible assumption | (with_reducible intro _) | split | (refine Dev.good_iff.mpr ?_; dsimp only; refine Dev.good_iff.mp ?_))

theorem Dev.settleCtx_good {d : Dev} (h : Dev.Good none lk wl d) (c : Nat) : Dev.Good none lk wl (Dev.settleCtx d c).1 := by
  unfold Dev.settleCtx
  repeat' (first | with_reducible assumption | (with_reducible intro _) | with_reducible apply Dev.each_good | with_reducible apply Dev.when_good | with_reducible apply Dev.modCtx_good | with_reducible apply Dev.breakWaiters_good | with_reducible apply Dev.commitRun_good | with_reducible apply Dev.withholdRun_good | with_reducible apply Dev.taintReaders_good | with_reducible exact OkR.error | with_reducible apply OkR.ok | with_reducible exact OkE.error | with_reducible apply OkE.ok | with_reducible exact OkO.none | with_reducible apply OkO.some | with_reducible exact OkOR.none | with_reducible apply OkOR.some | with_reducible refine OkR.elim ?_ (by assumption) | with_reducible refine OkE.elim ?_ (by assumption) | with_reducible refine OkO.elim ?_ (by assumption) | with_reducible refine OkOR.elim ?_ (by assumption) | with_reducible refine good_of_pair ?_ (by assumption) | with_reducible refine good_of_pair2 ?_ (by assumption) | with_reducible exact OkR.elim (by assumption) rfl | with_reducible exact OkE.elim (by assumption) rfl | with_reducible apply foldl_good | with_reducible apply foldl_pair_good | with_reducible apply foldl_okR | with_reducible apply foldl_okE | with_reducible apply foldl_okOR | with_reducible apply okOR_map | with_reducible apply okO_map | with_reducible exact OkO.elim (by assumption) rfl | with_reducible exact OkOR.elim (by assumption) rfl | split | (refine Dev.good_iff.mpr ?_; dsimp only; refine Dev.good_iff.mp ?_) | (refine Dev.good_iff.mpr ?_; dsimp only; refine good_clear (Dev.good_iff.mp ?_)) | (refine Dev.good_iff.mpr ?_; dsimp only; refine good_writeAll (Dev.good_iff.mp ?_)) | contradiction | dsimp only)

theorem Dev.carried_good {d : Dev} (h : Dev.Good mm lk wl d) (c : Cmd) (ctx t : Nat) (fresh : Bool) : OkOR mm lk wl (Dev.carried d c ctx t fresh) := by
  unfold Dev.carried
  repeat' (first | with_reducible assumption | (with_reducible intro _) | with_reducible apply Dev.each_good | with_reducible apply Dev.when_good | with_reducible apply Dev.modCharter_good | with_reducible exact OkR.error | with_reducible apply OkR.ok | with_reducible exact OkE.error | with_reducible apply OkE.ok | with_reducible exact OkO.none | with_reducible apply OkO.some | with_reducible exact OkOR.none | with_reducible apply OkOR.some | with_reducible refine OkR.elim ?_ (by assumption) | with_reducible refine OkE.elim ?_ (by assumption) | with_reducible refine OkO.elim ?_ (by assumption) | with_reducible refine OkOR.elim ?_ (by assumption) | with_reducible refine good_of_pair ?_ (by assumption) | with_reducible refine good_of_pair2 ?_ (by assumption) | with_reducible exact OkR.elim (by assumption) rfl | with_reducible exact OkE.elim (by assumption) rfl | with_reducible apply foldl_good | with_reducible apply foldl_pair_good | with_reducible apply foldl_okR | with_reducible apply foldl_okE | with_reducible apply foldl_okOR | with_reducible apply okOR_map | with_reducible apply okO_map | with_reducible exact OkO.elim (by assumption) rfl | with_reducible exact OkOR.elim (by assumption) rfl | split | (refine Dev.good_iff.mpr ?_; dsimp only; refine Dev.good_iff.mp ?_) | (refine Dev.good_iff.mpr ?_; dsimp only; refine good_clear (Dev.good_iff.mp ?_)) | (refine Dev.good_iff.mpr ?_; dsimp only; refine good_writeAll (Dev.good_iff.mp ?_)) | contradiction | dsimp only)

theorem Dev.recordWrite_good {d : Dev} (h : Dev.Good mm lk wl d) (plan t : Nat) (coarse : Option W32) : Dev.Good mm lk wl (Dev.recordWrite d plan t coarse) := by
  unfold Dev.recordWrite
  repeat' (first | with_reducible assumption | with_reducible apply Dev.modPlaced_good)

theorem Dev.takeCopy_good {d : Dev} (h : Dev.Good none lk wl d) (b : Binding) (hub n : Nat) : OkR none lk wl (d.takeCopy b hub n) := by
  induction n generalizing d with
  | zero =>
    unfold Dev.takeCopy
    repeat' (first | with_reducible assumption | (with_reducible intro _) | with_reducible apply Dev.assignFrame_good | with_reducible exact OkR.error | with_reducible apply OkR.ok | with_reducible exact OkE.error | with_reducible apply OkE.ok | with_reducible exact OkO.none | with_reducible apply OkO.some | with_reducible exact OkOR.none | with_reducible apply OkOR.some | with_reducible refine OkR.elim ?_ (by assumption) | with_reducible refine OkE.elim ?_ (by assumption) | with_reducible refine OkO.elim ?_ (by assumption) | with_reducible refine OkOR.elim ?_ (by assumption) | split)
  | succ n ih =>
    unfold Dev.takeCopy
    repeat' (first | with_reducible assumption | (with_reducible intro _) | with_reducible apply Dev.each_good | with_reducible apply Dev.when_good | with_reducible apply ih | with_reducible apply Dev.assignFrame_good | with_reducible exact OkR.error | with_reducible apply OkR.ok | with_reducible exact OkE.error | with_reducible apply OkE.ok | with_reducible exact OkO.none | with_reducible apply OkO.some | with_reducible exact OkOR.none | with_reducible apply OkOR.some | with_reducible refine OkR.elim ?_ (by assumption) | with_reducible refine OkE.elim ?_ (by assumption) | with_reducible refine OkO.elim ?_ (by assumption) | with_reducible refine OkOR.elim ?_ (by assumption) | with_reducible refine good_of_pair ?_ (by assumption) | with_reducible refine good_of_pair2 ?_ (by assumption) | with_reducible exact OkR.elim (by assumption) rfl | with_reducible exact OkE.elim (by assumption) rfl | with_reducible apply foldl_good | with_reducible apply foldl_pair_good | with_reducible apply foldl_okR | with_reducible apply foldl_okE | with_reducible apply foldl_okOR | with_reducible apply okOR_map | with_reducible apply okO_map | with_reducible exact OkO.elim (by assumption) rfl | with_reducible exact OkOR.elim (by assumption) rfl | split | (refine Dev.good_iff.mpr ?_; dsimp only; refine Dev.good_iff.mp ?_) | (refine Dev.good_iff.mpr ?_; dsimp only; refine good_clear (Dev.good_iff.mp ?_)) | (refine Dev.good_iff.mpr ?_; dsimp only; refine good_writeAll (Dev.good_iff.mp ?_)) | contradiction | dsimp only)

theorem Dev.openExtent_good {d : Dev} (h : Dev.Good none lk wl d) (b : Binding) (t : TensorDecl) (e i : Nat) : OkE none lk wl (Dev.openExtent d b t e i) := by
  unfold Dev.openExtent
  repeat' (first | with_reducible assumption | (with_reducible intro _) | with_reducible apply Dev.each_good | with_reducible apply Dev.when_good | with_reducible apply Dev.modExtent_good | with_reducible apply Dev.writeMem_good | with_reducible apply Dev.takeCopy_good | with_reducible exact OkR.error | with_reducible apply OkR.ok | with_reducible exact OkE.error | with_reducible apply OkE.ok | with_reducible exact OkO.none | with_reducible apply OkO.some | with_reducible exact OkOR.none | with_reducible apply OkOR.some | with_reducible refine OkR.elim ?_ (by assumption) | with_reducible refine OkE.elim ?_ (by assumption) | with_reducible refine OkO.elim ?_ (by assumption) | with_reducible refine OkOR.elim ?_ (by assumption) | with_reducible refine good_of_pair ?_ (by assumption) | with_reducible refine good_of_pair2 ?_ (by assumption) | with_reducible exact OkR.elim (by assumption) rfl | with_reducible exact OkE.elim (by assumption) rfl | with_reducible apply foldl_good | with_reducible apply foldl_pair_good | with_reducible apply foldl_okR | with_reducible apply foldl_okE | with_reducible apply foldl_okOR | with_reducible apply okOR_map | with_reducible apply okO_map | with_reducible exact OkO.elim (by assumption) rfl | with_reducible exact OkOR.elim (by assumption) rfl | split | (refine Dev.good_iff.mpr ?_; dsimp only; refine Dev.good_iff.mp ?_) | (refine Dev.good_iff.mpr ?_; dsimp only; refine good_clear (Dev.good_iff.mp ?_)) | (refine Dev.good_iff.mpr ?_; dsimp only; refine good_writeAll (Dev.good_iff.mp ?_)) | contradiction | dsimp only)

theorem Dev.stageNow_good {d : Dev} (h : Dev.Good none lk wl d) (q : Nat) (c : Cmd) (ctx : Nat) (fresh : Bool) : Dev.Good none lk wl (Dev.stageNow d q c ctx fresh) := by
  unfold Dev.stageNow
  repeat' (first | with_reducible assumption | (with_reducible intro _) | with_reducible apply Dev.each_good | with_reducible apply Dev.when_good | with_reducible apply Dev.modExtent_good | with_reducible apply Dev.writeMem_good | with_reducible apply Dev.succeed_good | with_reducible apply Dev.failCmd_good | with_reducible apply Dev.carried_good | with_reducible apply Dev.recordWrite_good | with_reducible apply Dev.openExtent_good | with_reducible exact OkR.error | with_reducible apply OkR.ok | with_reducible exact OkE.error | with_reducible apply OkE.ok | with_reducible exact OkO.none | with_reducible apply OkO.some | with_reducible exact OkOR.none | with_reducible apply OkOR.some | with_reducible refine OkR.elim ?_ (by assumption) | with_reducible refine OkE.elim ?_ (by assumption) | with_reducible refine OkO.elim ?_ (by assumption) | with_reducible refine OkOR.elim ?_ (by assumption) | with_reducible refine good_of_pair ?_ (by assumption) | with_reducible refine good_of_pair2 ?_ (by assumption) | with_reducible exact OkR.elim (by assumption) rfl | with_reducible exact OkE.elim (by assumption) rfl | with_reducible apply foldl_good | with_reducible apply foldl_pair_good | with_reducible apply foldl_okR | with_reducible apply foldl_okE | with_reducible apply foldl_okOR | with_reducible apply okOR_map | with_reducible apply okO_map | with_reducible exact OkO.elim (by assumption) rfl | with_reducible exact OkOR.elim (by assumption) rfl | split | (refine Dev.good_iff.mpr ?_; dsimp only; refine Dev.good_iff.mp ?_) | (refine Dev.good_iff.mpr ?_; dsimp only; refine good_clear (Dev.good_iff.mp ?_)) | (refine Dev.good_iff.mpr ?_; dsimp only; refine good_writeAll (Dev.good_iff.mp ?_)) | contradiction | dsimp only)

theorem Dev.stage_good {d : Dev} (h : Dev.Good none lk wl d) (q : Nat) (c : Cmd) (ctx : Nat) : Dev.Good none lk wl (Dev.stage d q c ctx) := by
  unfold Dev.stage
  repeat' (first | with_reducible assumption | (with_reducible intro _) | with_reducible apply Dev.each_good | with_reducible apply Dev.when_good | with_reducible apply Dev.failCmd_good | with_reducible apply Dev.carried_good | with_reducible apply Dev.stageNow_good | with_reducible exact OkR.error | with_reducible apply OkR.ok | with_reducible exact OkE.error | with_reducible apply OkE.ok | with_reducible exact OkO.none | with_reducible apply OkO.some | with_reducible exact OkOR.none | with_reducible apply OkOR.some | with_reducible refine OkR.elim ?_ (by assumption) | with_reducible refine OkE.elim ?_ (by assumption) | with_reducible refine OkO.elim ?_ (by assumption) | with_reducible refine OkOR.elim ?_ (by assumption) | with_reducible refine good_of_pair ?_ (by assumption) | with_reducible refine good_of_pair2 ?_ (by assumption) | with_reducible exact OkR.elim (by assumption) rfl | with_reducible exact OkE.elim (by assumption) rfl | with_reducible apply foldl_good | with_reducible apply foldl_pair_good | with_reducible apply foldl_okR | with_reducible apply foldl_okE | with_reducible apply foldl_okOR | with_reducible apply okOR_map | with_reducible apply okO_map | with_reducible exact OkO.elim (by assumption) rfl | with_reducible exact OkOR.elim (by assumption) rfl | split | (refine Dev.good_iff.mpr ?_; dsimp only; refine Dev.good_iff.mp ?_) | (refine Dev.good_iff.mpr ?_; dsimp only; refine good_clear (Dev.good_iff.mp ?_)) | (refine Dev.good_iff.mpr ?_; dsimp only; refine good_writeAll (Dev.good_iff.mp ?_)) | contradiction | dsimp only)

theorem Dev.retryStages_good {d : Dev} (h : Dev.Good none lk wl d) : Dev.Good none lk wl (Dev.retryStages d) := by
  unfold Dev.retryStages
  repeat' (first | with_reducible assumption | (with_reducible intro _) | with_reducible apply Dev.each_good | with_reducible apply Dev.when_good | with_reducible apply Dev.stageNow_good | split | (refine Dev.good_iff.mpr ?_; dsimp only; refine Dev.good_iff.mp ?_))

theorem Dev.putNow_good {d : Dev} (h : Dev.Good none lk wl d) (q : Nat) (c : Cmd) (ctx : Nat) : Dev.Good none lk wl (Dev.putNow d q c ctx) := by
  unfold Dev.putNow
  repeat' (first | with_reducible assumption | (with_reducible intro _) | with_reducible apply Dev.each_good | with_reducible apply Dev.when_good | with_reducible apply Dev.writeMem_good | with_reducible apply Dev.succeed_good | with_reducible apply Dev.failCmd_good | with_reducible apply Dev.mirrorCells_good | with_reducible apply Dev.carried_good | with_reducible apply Dev.recordWrite_good | with_reducible exact OkR.error | with_reducible apply OkR.ok | with_reducible exact OkE.error | with_reducible apply OkE.ok | with_reducible exact OkO.none | with_reducible apply OkO.some | with_reducible exact OkOR.none | with_reducible apply OkOR.some | with_reducible refine OkR.elim ?_ (by assumption) | with_reducible refine OkE.elim ?_ (by assumption) | with_reducible refine OkO.elim ?_ (by assumption) | with_reducible refine OkOR.elim ?_ (by assumption) | with_reducible refine good_of_pair ?_ (by assumption) | with_reducible refine good_of_pair2 ?_ (by assumption) | with_reducible exact OkR.elim (by assumption) rfl | with_reducible exact OkE.elim (by assumption) rfl | with_reducible apply foldl_good | with_reducible apply foldl_pair_good | with_reducible apply foldl_okR | with_reducible apply foldl_okE | with_reducible apply foldl_okOR | with_reducible apply okOR_map | with_reducible apply okO_map | with_reducible exact OkO.elim (by assumption) rfl | with_reducible exact OkOR.elim (by assumption) rfl | split | (refine Dev.good_iff.mpr ?_; dsimp only; refine Dev.good_iff.mp ?_) | (refine Dev.good_iff.mpr ?_; dsimp only; refine good_clear (Dev.good_iff.mp ?_)) | (refine Dev.good_iff.mpr ?_; dsimp only; refine good_writeAll (Dev.good_iff.mp ?_)) | contradiction | dsimp only)

theorem Dev.stageKeyed_good {d : Dev} (h : Dev.Good none lk wl d) (q : Nat) (c : Cmd) (ctx : Nat) : Dev.Good none lk wl (Dev.stageKeyed d q c ctx) := by
  unfold Dev.stageKeyed
  repeat' (first | with_reducible assumption | (with_reducible intro _) | with_reducible apply Dev.each_good | with_reducible apply Dev.when_good | with_reducible apply Dev.giveFlash_good | with_reducible apply Dev.stage_good | with_reducible exact OkR.error | with_reducible apply OkR.ok | with_reducible exact OkE.error | with_reducible apply OkE.ok | with_reducible exact OkO.none | with_reducible apply OkO.some | with_reducible exact OkOR.none | with_reducible apply OkOR.some | with_reducible refine OkR.elim ?_ (by assumption) | with_reducible refine OkE.elim ?_ (by assumption) | with_reducible refine OkO.elim ?_ (by assumption) | with_reducible refine OkOR.elim ?_ (by assumption) | with_reducible refine good_of_pair ?_ (by assumption) | with_reducible refine good_of_pair2 ?_ (by assumption) | with_reducible exact OkR.elim (by assumption) rfl | with_reducible exact OkE.elim (by assumption) rfl | with_reducible apply foldl_good | with_reducible apply foldl_pair_good | with_reducible apply foldl_okR | with_reducible apply foldl_okE | with_reducible apply foldl_okOR | with_reducible apply okOR_map | with_reducible apply okO_map | with_reducible exact OkO.elim (by assumption) rfl | with_reducible exact OkOR.elim (by assumption) rfl | split | (refine Dev.good_iff.mpr ?_; dsimp only; refine Dev.good_iff.mp ?_) | (refine Dev.good_iff.mpr ?_; dsimp only; refine good_clear (Dev.good_iff.mp ?_)) | (refine Dev.good_iff.mpr ?_; dsimp only; refine good_writeAll (Dev.good_iff.mp ?_)) | contradiction | dsimp only)

theorem Dev.putHead_good {d : Dev} (h : Dev.Good none lk wl d) (q op : Nat) : Dev.Good none lk wl (Dev.putHead d q op) := by
  unfold Dev.putHead
  repeat' (first | with_reducible assumption | (with_reducible intro _) | with_reducible apply Dev.each_good | with_reducible apply Dev.when_good | with_reducible apply Dev.waitKey_good | with_reducible apply Dev.onHead_good | with_reducible apply Dev.putNow_good | with_reducible apply Dev.stageKeyed_good | with_reducible exact OkR.error | with_reducible apply OkR.ok | with_reducible exact OkE.error | with_reducible apply OkE.ok | with_reducible exact OkO.none | with_reducible apply OkO.some | with_reducible exact OkOR.none | with_reducible apply OkOR.some | with_reducible refine OkR.elim ?_ (by assumption) | with_reducible refine OkE.elim ?_ (by assumption) | with_reducible refine OkO.elim ?_ (by assumption) | with_reducible refine OkOR.elim ?_ (by assumption) | with_reducible refine good_of_pair ?_ (by assumption) | with_reducible refine good_of_pair2 ?_ (by assumption) | with_reducible exact OkR.elim (by assumption) rfl | with_reducible exact OkE.elim (by assumption) rfl | with_reducible apply foldl_good | with_reducible apply foldl_pair_good | with_reducible apply foldl_okR | with_reducible apply foldl_okE | with_reducible apply foldl_okOR | with_reducible apply okOR_map | with_reducible apply okO_map | with_reducible exact OkO.elim (by assumption) rfl | with_reducible exact OkOR.elim (by assumption) rfl | split | (refine Dev.good_iff.mpr ?_; dsimp only; refine Dev.good_iff.mp ?_) | (refine Dev.good_iff.mpr ?_; dsimp only; refine good_clear (Dev.good_iff.mp ?_)) | (refine Dev.good_iff.mpr ?_; dsimp only; refine good_writeAll (Dev.good_iff.mp ?_)) | contradiction | dsimp only)

theorem Dev.getResult_good {d : Dev} (h : Dev.Good mm lk wl d) (c : Cmd) (ctx : Nat) : Dev.Good mm lk wl (Dev.getResult d c ctx).1 := by
  unfold Dev.getResult
  repeat' (first | with_reducible assumption | (with_reducible intro _) | with_reducible apply Dev.each_good | with_reducible apply Dev.when_good | with_reducible apply Dev.modCharter_good | with_reducible exact OkR.error | with_reducible apply OkR.ok | with_reducible exact OkE.error | with_reducible apply OkE.ok | with_reducible exact OkO.none | with_reducible apply OkO.some | with_reducible exact OkOR.none | with_reducible apply OkOR.some | with_reducible refine OkR.elim ?_ (by assumption) | with_reducible refine OkE.elim ?_ (by assumption) | with_reducible refine OkO.elim ?_ (by assumption) | with_reducible refine OkOR.elim ?_ (by assumption) | with_reducible refine good_of_pair ?_ (by assumption) | with_reducible refine good_of_pair2 ?_ (by assumption) | with_reducible exact OkR.elim (by assumption) rfl | with_reducible exact OkE.elim (by assumption) rfl | with_reducible apply foldl_good | with_reducible apply foldl_pair_good | with_reducible apply foldl_okR | with_reducible apply foldl_okE | with_reducible apply foldl_okOR | with_reducible apply okOR_map | with_reducible apply okO_map | with_reducible exact OkO.elim (by assumption) rfl | with_reducible exact OkOR.elim (by assumption) rfl | split | (refine Dev.good_iff.mpr ?_; dsimp only; refine Dev.good_iff.mp ?_) | (refine Dev.good_iff.mpr ?_; dsimp only; refine good_clear (Dev.good_iff.mp ?_)) | (refine Dev.good_iff.mpr ?_; dsimp only; refine good_writeAll (Dev.good_iff.mp ?_)) | contradiction | dsimp only)

theorem Dev.getNow_good {d : Dev} (h : Dev.Good mm lk wl d) (q : Nat) (c : Cmd) (ctx : Nat) : Dev.Good mm lk wl (Dev.getNow d q c ctx) := by
  unfold Dev.getNow
  repeat' (first | with_reducible assumption | (with_reducible intro _) | with_reducible apply Dev.each_good | with_reducible apply Dev.when_good | with_reducible apply Dev.modBadLine_good | with_reducible apply Dev.failCmd_good | with_reducible apply Dev.holdEgress_good | with_reducible apply Dev.checkFailed_good | with_reducible apply Dev.getResult_good | with_reducible exact OkR.error | with_reducible apply OkR.ok | with_reducible exact OkE.error | with_reducible apply OkE.ok | with_reducible exact OkO.none | with_reducible apply OkO.some | with_reducible exact OkOR.none | with_reducible apply OkOR.some | with_reducible refine OkR.elim ?_ (by assumption) | with_reducible refine OkE.elim ?_ (by assumption) | with_reducible refine OkO.elim ?_ (by assumption) | with_reducible refine OkOR.elim ?_ (by assumption) | with_reducible refine good_of_pair ?_ (by assumption) | with_reducible refine good_of_pair2 ?_ (by assumption) | with_reducible exact OkR.elim (by assumption) rfl | with_reducible exact OkE.elim (by assumption) rfl | with_reducible apply foldl_good | with_reducible apply foldl_pair_good | with_reducible apply foldl_okR | with_reducible apply foldl_okE | with_reducible apply foldl_okOR | with_reducible apply okOR_map | with_reducible apply okO_map | with_reducible exact OkO.elim (by assumption) rfl | with_reducible exact OkOR.elim (by assumption) rfl | split | (refine Dev.good_iff.mpr ?_; dsimp only; refine Dev.good_iff.mp ?_) | (refine Dev.good_iff.mpr ?_; dsimp only; refine good_clear (Dev.good_iff.mp ?_)) | (refine Dev.good_iff.mpr ?_; dsimp only; refine good_writeAll (Dev.good_iff.mp ?_)) | contradiction | dsimp only)

theorem Dev.setPort_good {d : Dev} (h : Dev.Good mm lk wl d) (p st : Nat) : Dev.Good mm lk wl (Dev.setPort d p st) := by
  unfold Dev.setPort
  repeat' (first | exact Mgmt.cancelUpdate_keeps | (exact fun _ h => h) | (exact fun _ => ⟨rfl, rfl, rfl⟩) | (exact fun _ => rfl) | (intro _; (repeat' split) <;> exact ⟨rfl, rfl, rfl⟩) | (intro _ h; (repeat' split) <;> exact h) | with_reducible assumption | (with_reducible intro _) | with_reducible apply Dev.each_good | with_reducible apply Dev.when_good | with_reducible apply Dev.modFabric_good | with_reducible apply Dev.modPort_good | with_reducible apply Dev.errEvent_good | split | (refine Dev.good_iff.mpr ?_; dsimp only; refine Dev.good_iff.mp ?_))

theorem Dev.trainPorts_good {d : Dev} (h : Dev.Good mm lk wl d) : Dev.Good mm lk wl (Dev.trainPorts d) := by
  unfold Dev.trainPorts
  repeat' (first | with_reducible assumption | (with_reducible intro _) | with_reducible apply Dev.each_good | with_reducible apply Dev.when_good | with_reducible apply Dev.setPort_good | split)

theorem Dev.setTrain_good {d : Dev} (h : Dev.Good mm lk wl d) (train : Bool) : Dev.Good mm lk wl (Dev.setTrain d train) := by
  unfold Dev.setTrain
  repeat' (first | exact Mgmt.cancelUpdate_keeps | (exact fun _ h => h) | (exact fun _ => ⟨rfl, rfl, rfl⟩) | (exact fun _ => rfl) | (intro _; (repeat' split) <;> exact ⟨rfl, rfl, rfl⟩) | (intro _ h; (repeat' split) <;> exact h) | with_reducible assumption | with_reducible apply Dev.modFabric_good | with_reducible apply Dev.trainPorts_good)

theorem Dev.dropPorts_good {d : Dev} (h : Dev.Good mm lk wl d) : Dev.Good mm lk wl (Dev.dropPorts d) := by
  unfold Dev.dropPorts
  repeat' (first | exact Mgmt.cancelUpdate_keeps | (exact fun _ h => h) | (exact fun _ => ⟨rfl, rfl, rfl⟩) | (exact fun _ => rfl) | (intro _; (repeat' split) <;> exact ⟨rfl, rfl, rfl⟩) | (intro _ h; (repeat' split) <;> exact h) | with_reducible assumption | (with_reducible intro _) | with_reducible apply Dev.each_good | with_reducible apply Dev.when_good | with_reducible apply Dev.modFabric_good | with_reducible apply Dev.setPort_good | split)

theorem Dev.refuseLink_good {d : Dev} (h : Dev.Good mm lk wl d) (p st : Nat) : Dev.Good mm lk wl (Dev.refuseLink d p st) := by
  unfold Dev.refuseLink
  repeat' (first | with_reducible assumption | with_reducible apply Dev.logEvent_good | with_reducible apply Dev.setPort_good)

theorem Dev.handshake_good {d : Dev} (h : Dev.Good mm lk wl d) (h : Handshake) : Dev.Good mm lk wl (Dev.handshake d h) := by
  unfold Dev.handshake
  repeat' (first | exact Mgmt.cancelUpdate_keeps | (exact fun _ h => h) | (exact fun _ => ⟨rfl, rfl, rfl⟩) | (exact fun _ => rfl) | (intro _; (repeat' split) <;> exact ⟨rfl, rfl, rfl⟩) | (intro _ h; (repeat' split) <;> exact h) | with_reducible assumption | (with_reducible intro _) | with_reducible apply Dev.modFabric_good | with_reducible apply Dev.modPort_good | with_reducible apply Dev.emit_good | with_reducible apply Dev.dwEvent_good | with_reducible apply Dev.setPort_good | with_reducible apply Dev.refuseLink_good | split | (refine Dev.good_iff.mpr ?_; dsimp only; refine Dev.good_iff.mp ?_))

theorem Dev.retrain_good {d : Dev} (h : Dev.Good mm lk wl d) (p : Nat) : Dev.Good mm lk wl (Dev.retrain d p) := by
  unfold Dev.retrain
  repeat' (first | with_reducible assumption | with_reducible apply Dev.modPort_good | with_reducible apply Dev.dwEvent_good | with_reducible apply Dev.setPort_good)

theorem Dev.degrade_good {d : Dev} (h : Dev.Good mm lk wl d) (p lane : Nat) : Dev.Good mm lk wl (Dev.degrade d p lane) := by
  unfold Dev.degrade
  repeat' (first | with_reducible assumption | (with_reducible intro _) | with_reducible apply Dev.modPort_good | with_reducible apply Dev.dwEvent_good | with_reducible apply Dev.setPort_good | with_reducible apply Dev.retrain_good | split | (refine Dev.good_iff.mpr ?_; dsimp only; refine Dev.good_iff.mp ?_))

theorem Dev.rewriteRoutes_good {d : Dev} (h : Dev.Good mm lk wl d) : Dev.Good mm lk wl (Dev.rewriteRoutes d) := by
  unfold Dev.rewriteRoutes
  repeat' (first | exact Mgmt.cancelUpdate_keeps | (exact fun _ h => h) | (exact fun _ => ⟨rfl, rfl, rfl⟩) | (exact fun _ => rfl) | (intro _; (repeat' split) <;> exact ⟨rfl, rfl, rfl⟩) | (intro _ h; (repeat' split) <;> exact h) | with_reducible assumption | (with_reducible intro _) | with_reducible apply Dev.modFabric_good | split | (refine Dev.good_iff.mpr ?_; dsimp only; refine Dev.good_iff.mp ?_))

theorem Dev.landWrite_good {d : Dev} (h : Dev.Good mm lk wl d) (slot : Nat) (p : FabricPacket) : Dev.Good mm lk wl (Dev.landWrite d slot p) := by
  unfold Dev.landWrite
  repeat' (first | with_reducible assumption | (with_reducible intro _) | split | (refine Dev.good_iff.mpr ?_; dsimp only; refine Dev.good_iff.mp ?_))

theorem Dev.modKeep_good {d : Dev} (h : Dev.Good mm lk wl d) (c : Nat) (src : Nat × Nat) (f : Keeping → Keeping) : Dev.Good mm lk wl (Dev.modKeep d c src f) := by
  unfold Dev.modKeep
  repeat' (first | with_reducible assumption | with_reducible apply Dev.modHaven_good)

theorem Dev.acked_good {d : Dev} (h : Dev.Good mm lk wl d) (src seq key : Nat) : Dev.Good mm lk wl (Dev.acked d src seq key) := by
  unfold Dev.acked
  repeat' (first | exact Mgmt.cancelUpdate_keeps | (exact fun _ h => h) | (exact fun _ => ⟨rfl, rfl, rfl⟩) | (exact fun _ => rfl) | (intro _; (repeat' split) <;> exact ⟨rfl, rfl, rfl⟩) | (intro _ h; (repeat' split) <;> exact h) | with_reducible assumption | with_reducible apply Dev.modFabric_good)

theorem Dev.placePacket_good {d : Dev} (h : Dev.Good mm lk wl d) (p : FabricPacket) : Dev.Good mm lk wl (Dev.placePacket d p) := by
  unfold Dev.placePacket
  repeat' (first | exact Mgmt.cancelUpdate_keeps | (exact fun _ h => h) | (exact fun _ => ⟨rfl, rfl, rfl⟩) | (exact fun _ => rfl) | (intro _; (repeat' split) <;> exact ⟨rfl, rfl, rfl⟩) | (intro _ h; (repeat' split) <;> exact h) | with_reducible assumption | (with_reducible intro _) | with_reducible apply Dev.modFabric_good | with_reducible apply Dev.emit_good | with_reducible apply Dev.holdEgress_good | with_reducible apply Dev.landWrite_good | with_reducible apply Dev.modKeep_good | split | (refine Dev.good_iff.mpr ?_; dsimp only; refine Dev.good_iff.mp ?_))

theorem Dev.forward_good {d : Dev} (h : Dev.Good mm lk wl d) (p : FabricPacket) : Dev.Good mm lk wl (Dev.forward d p) := by
  unfold Dev.forward
  repeat' (first | exact Mgmt.cancelUpdate_keeps | (exact fun _ h => h) | (exact fun _ => ⟨rfl, rfl, rfl⟩) | (exact fun _ => rfl) | (intro _; (repeat' split) <;> exact ⟨rfl, rfl, rfl⟩) | (intro _ h; (repeat' split) <;> exact h) | with_reducible assumption | (with_reducible intro _) | with_reducible apply Dev.each_good | with_reducible apply Dev.when_good | with_reducible apply Dev.modFabric_good | with_reducible apply Dev.emit_good | split)

theorem Dev.takeCredit_good {d : Dev} (h : Dev.Good mm lk wl d) (p : FabricPacket) : Dev.Good mm lk wl (Dev.takeCredit d p) := by
  unfold Dev.takeCredit
  repeat' (first | exact Mgmt.cancelUpdate_keeps | (exact fun _ h => h) | (exact fun _ => ⟨rfl, rfl, rfl⟩) | (exact fun _ => rfl) | (intro _; (repeat' split) <;> exact ⟨rfl, rfl, rfl⟩) | (intro _ h; (repeat' split) <;> exact h) | with_reducible assumption | (with_reducible intro _) | with_reducible apply Dev.modFabric_good | with_reducible apply Dev.sendInput_good | split | (refine Dev.good_iff.mpr ?_; dsimp only; refine Dev.good_iff.mp ?_))

theorem Dev.mismatched_good {d : Dev} (h : Dev.Good mm lk wl d) (slot : Nat) (p : FabricPacket) : Dev.Good mm lk wl (Dev.mismatched d slot p) := by
  unfold Dev.mismatched
  repeat' (first | with_reducible assumption | (with_reducible intro _) | with_reducible apply Dev.each_good | with_reducible apply Dev.when_good | with_reducible apply Dev.sendTracked_good | with_reducible apply Dev.failColl_good | split)

theorem Dev.receivePacket_good {d : Dev} (h : Dev.Good mm lk wl d) (p : FabricPacket) : Dev.Good mm lk wl (d.receivePacket p) := by
  unfold Dev.receivePacket
  refine ite_good h <| ite_good (Dev.forward_good h ..) <| ite_good h <| ite_good (Dev.modFabric_good h fun _ => ⟨rfl, rfl, rfl⟩) <|
    ite_good (Dev.acked_good h ..) <| ite_good (Dev.takeCredit_good h ..) <| ite_good (Dev.emit_good h ..) <|
    ite_good (Dev.placePacket_good h ..) ?_
  split
  · refine Dev.emit_good (Dev.modFabric_good h ?_) ..
    exact fun _ => ⟨rfl, rfl, rfl⟩
  · exact ite_good (Dev.placePacket_good h ..) (ite_good (Dev.mismatched_good h ..) h)
  · exact Dev.placePacket_good h ..

theorem Dev.freeGroup_good {d : Dev} (h : Dev.Good mm lk wl d) (g : Nat) : Dev.Good mm lk wl (Dev.freeGroup d g) := by
  unfold Dev.freeGroup
  repeat' (first | with_reducible assumption | (with_reducible intro _) | with_reducible apply Dev.modGroup_good | split | (refine Dev.good_iff.mpr ?_; dsimp only; refine Dev.good_iff.mp ?_))

theorem Dev.failGroup_good {d : Dev} (h : Dev.Good mm lk wl d) (g code : Nat) : Dev.Good mm lk wl (Dev.failGroup d g code) := by
  unfold Dev.failGroup
  repeat' (first | with_reducible assumption | (with_reducible intro _) | with_reducible apply Dev.failCmd_good | with_reducible apply Dev.freeGroup_good | split | (refine Dev.good_iff.mpr ?_; dsimp only; refine Dev.good_iff.mp ?_))

theorem Dev.restartSeqs_good {d : Dev} (h : Dev.Good mm lk wl d) (groupId : Nat) : Dev.Good mm lk wl (Dev.restartSeqs d groupId) := by
  unfold Dev.restartSeqs
  repeat' (first | exact Mgmt.cancelUpdate_keeps | (exact fun _ h => h) | (exact fun _ => ⟨rfl, rfl, rfl⟩) | (exact fun _ => rfl) | (intro _; (repeat' split) <;> exact ⟨rfl, rfl, rfl⟩) | (intro _ h; (repeat' split) <;> exact h) | with_reducible assumption | with_reducible apply Dev.modFabric_good)

theorem Dev.completeGroup_good {d : Dev} (h : Dev.Good mm lk wl d) (g nonce : Nat) : Dev.Good mm lk wl (Dev.completeGroup d g nonce) := by
  unfold Dev.completeGroup
  repeat' (first | with_reducible assumption | (with_reducible intro _) | with_reducible apply Dev.modGroup_good | with_reducible apply Dev.succeed_good | with_reducible apply Dev.restartSeqs_good | split | (refine Dev.good_iff.mpr ?_; dsimp only; refine Dev.good_iff.mp ?_))

theorem Dev.tellRanks_good {d : Dev} (h : Dev.Good mm lk wl d) (x : Group) (m : GroupControl) : Dev.Good mm lk wl (Dev.tellRanks d x m) := by
  unfold Dev.tellRanks
  repeat' (first | with_reducible assumption | (with_reducible intro _) | with_reducible apply Dev.each_good | with_reducible apply Dev.when_good | with_reducible apply Dev.sendTracked_good)

theorem Dev.openIfMatched_good {d : Dev} (h : Dev.Good mm lk wl d) (g : Nat) : Dev.Good mm lk wl (Dev.openIfMatched d g) := by
  unfold Dev.openIfMatched
  repeat' (first | with_reducible assumption | (with_reducible intro _) | with_reducible apply Dev.each_good | with_reducible apply Dev.when_good | with_reducible apply Dev.draw_good | with_reducible apply Dev.completeGroup_good | with_reducible apply Dev.tellRanks_good | with_reducible exact OkR.error | with_reducible apply OkR.ok | with_reducible exact OkE.error | with_reducible apply OkE.ok | with_reducible exact OkO.none | with_reducible apply OkO.some | with_reducible exact OkOR.none | with_reducible apply OkOR.some | with_reducible refine OkR.elim ?_ (by assumption) | with_reducible refine OkE.elim ?_ (by assumption) | with_reducible refine OkO.elim ?_ (by assumption) | with_reducible refine OkOR.elim ?_ (by assumption) | with_reducible refine good_of_pair ?_ (by assumption) | with_reducible refine good_of_pair2 ?_ (by assumption) | with_reducible exact OkR.elim (by assumption) rfl | with_reducible exact OkE.elim (by assumption) rfl | with_reducible apply foldl_good | with_reducible apply foldl_pair_good | with_reducible apply foldl_okR | with_reducible apply foldl_okE | with_reducible apply foldl_okOR | with_reducible apply okOR_map | with_reducible apply okO_map | with_reducible exact OkO.elim (by assumption) rfl | with_reducible exact OkOR.elim (by assumption) rfl | split | (refine Dev.good_iff.mpr ?_; dsimp only; refine Dev.good_iff.mp ?_) | (refine Dev.good_iff.mpr ?_; dsimp only; refine good_clear (Dev.good_iff.mp ?_)) | (refine Dev.good_iff.mpr ?_; dsimp only; refine good_writeAll (Dev.good_iff.mp ?_)) | contradiction | dsimp only)

theorem Dev.matchRank_good {d : Dev} (h : Dev.Good mm lk wl d) (g src : Nat) (list charter : List Byte) (rank : Nat) : Dev.Good mm lk wl (Dev.matchRank d g src list charter rank) := by
  unfold Dev.matchRank
  repeat' (first | with_reducible assumption | (with_reducible intro _) | with_reducible apply Dev.modGroup_good | with_reducible apply Dev.failGroup_good | with_reducible apply Dev.tellRanks_good | with_reducible apply Dev.openIfMatched_good | split | (refine Dev.good_iff.mpr ?_; dsimp only; refine Dev.good_iff.mp ?_))

theorem Dev.groupOpen_good {d : Dev} (h : Dev.Good mm lk wl d) (q : Nat) (c : Cmd) (ctx : Nat) : Dev.Good mm lk wl (Dev.groupOpen d q c ctx) := by
  unfold Dev.groupOpen
  repeat' (first | exact Mgmt.cancelUpdate_keeps | (exact fun _ h => h) | (exact fun _ => ⟨rfl, rfl, rfl⟩) | (exact fun _ => rfl) | (intro _; (repeat' split) <;> exact ⟨rfl, rfl, rfl⟩) | (intro _ h; (repeat' split) <;> exact h) | with_reducible assumption | (with_reducible intro _) | with_reducible apply Dev.each_good | with_reducible apply Dev.when_good | with_reducible apply Dev.modFabric_good | with_reducible apply Dev.modGroup_good | with_reducible apply Dev.failCmd_good | with_reducible apply Dev.sendTracked_good | with_reducible apply Dev.matchRank_good | split | (refine Dev.good_iff.mpr ?_; dsimp only; refine Dev.good_iff.mp ?_))

theorem Dev.groupControl_good {d : Dev} (h : Dev.Good mm lk wl d) (src : Nat) (m : GroupControl) : Dev.Good mm lk wl (Dev.groupControl d src m) := by
  unfold Dev.groupControl
  repeat' (first | exact Mgmt.cancelUpdate_keeps | (exact fun _ h => h) | (exact fun _ => ⟨rfl, rfl, rfl⟩) | (exact fun _ => rfl) | (intro _; (repeat' split) <;> exact ⟨rfl, rfl, rfl⟩) | (intro _ h; (repeat' split) <;> exact h) | with_reducible assumption | (with_reducible intro _) | with_reducible apply Dev.each_good | with_reducible apply Dev.when_good | with_reducible apply Dev.modFabric_good | with_reducible apply Dev.failColl_good | with_reducible apply Dev.failGroup_good | with_reducible apply Dev.completeGroup_good | with_reducible apply Dev.matchRank_good | split)

theorem Dev.breakWaiting_good {d : Dev} (h : Dev.Good mm lk wl d) (code : Nat) (u : Unacked) : Dev.Good mm lk wl (Dev.breakWaiting d code u) := by
  unfold Dev.breakWaiting
  repeat' (first | with_reducible assumption | (with_reducible intro _) | with_reducible apply Dev.each_good | with_reducible apply Dev.when_good | with_reducible apply Dev.failColl_good | with_reducible apply Dev.failGroup_good | split)

theorem Dev.groupsAtEbb_good {d : Dev} (h : Dev.Good mm lk wl d) : Dev.Good mm lk wl (Dev.groupsAtEbb d).1 := by
  unfold Dev.groupsAtEbb
  repeat' (first | with_reducible assumption | (with_reducible intro _) | with_reducible apply Dev.each_good | with_reducible apply Dev.when_good | with_reducible apply Dev.freeGroup_good | split)

theorem Dev.completeLoad_good {d : Dev} (h : Dev.Good none lk wl d) (l : Load) : Dev.Good none lk wl (Dev.completeLoad d l) := by
  unfold Dev.completeLoad
  repeat' (first | with_reducible assumption | (with_reducible intro _) | with_reducible apply Dev.finish_good | with_reducible apply Dev.succeed_good | with_reducible apply Dev.failCmd_good | with_reducible apply Dev.loadModule_good | with_reducible exact OkR.error | with_reducible apply OkR.ok | with_reducible exact OkE.error | with_reducible apply OkE.ok | with_reducible exact OkO.none | with_reducible apply OkO.some | with_reducible exact OkOR.none | with_reducible apply OkOR.some | with_reducible refine OkR.elim ?_ (by assumption) | with_reducible refine OkE.elim ?_ (by assumption) | with_reducible refine OkO.elim ?_ (by assumption) | with_reducible refine OkOR.elim ?_ (by assumption) | split)

theorem Dev.unloadDue_good {d : Dev} (h : Dev.Good mm lk wl d) : Dev.Good mm lk wl (Dev.unloadDue d).1 := by
  unfold Dev.unloadDue
  repeat' (first | with_reducible assumption | (with_reducible intro _) | with_reducible apply Dev.each_good | with_reducible apply Dev.when_good | with_reducible apply Dev.unloadPlan_good | split)

theorem Dev.beginRun_good {d : Dev} (h : Dev.Good mm lk wl d) (q : Nat) (c : Cmd) (ctx due : Nat) : Dev.Good mm lk wl (Dev.beginRun d q c ctx due) := by
  unfold Dev.beginRun
  repeat' (first | with_reducible assumption | (with_reducible intro _) | with_reducible apply Dev.giveRng_good | with_reducible apply Dev.failCmd_good | with_reducible apply Dev.promoteDue_good | split | (refine Dev.good_iff.mpr ?_; dsimp only; refine Dev.good_iff.mp ?_))

theorem Dev.beginAtBoundary_good {d : Dev} (h : Dev.Good mm lk wl d) (q n : Nat) : Dev.Good mm lk wl (d.beginAtBoundary q n) := by
  induction n generalizing d with
  | zero =>
    unfold Dev.beginAtBoundary
    repeat' (first | with_reducible assumption | with_reducible apply Dev.waitKey_good | with_reducible apply Dev.beginCmd_good | with_reducible apply Dev.beginRun_good)
  | succ n ih =>
    unfold Dev.beginAtBoundary
    repeat' (first | with_reducible assumption | (with_reducible intro _) | with_reducible apply Dev.each_good | with_reducible apply Dev.when_good | with_reducible apply ih | with_reducible apply Dev.waitKey_good | with_reducible apply Dev.beginCmd_good | with_reducible apply Dev.beginRun_good | with_reducible exact OkR.error | with_reducible apply OkR.ok | with_reducible exact OkE.error | with_reducible apply OkE.ok | with_reducible exact OkO.none | with_reducible apply OkO.some | with_reducible exact OkOR.none | with_reducible apply OkOR.some | with_reducible refine OkR.elim ?_ (by assumption) | with_reducible refine OkE.elim ?_ (by assumption) | with_reducible refine OkO.elim ?_ (by assumption) | with_reducible refine OkOR.elim ?_ (by assumption) | with_reducible refine good_of_pair ?_ (by assumption) | with_reducible refine good_of_pair2 ?_ (by assumption) | with_reducible exact OkR.elim (by assumption) rfl | with_reducible exact OkE.elim (by assumption) rfl | with_reducible apply foldl_good | with_reducible apply foldl_pair_good | with_reducible apply foldl_okR | with_reducible apply foldl_okE | with_reducible apply foldl_okOR | with_reducible apply okOR_map | with_reducible apply okO_map | with_reducible exact OkO.elim (by assumption) rfl | with_reducible exact OkOR.elim (by assumption) rfl | split | (refine Dev.good_iff.mpr ?_; dsimp only; refine Dev.good_iff.mp ?_) | (refine Dev.good_iff.mpr ?_; dsimp only; refine good_clear (Dev.good_iff.mp ?_)) | (refine Dev.good_iff.mpr ?_; dsimp only; refine good_writeAll (Dev.good_iff.mp ?_)) | contradiction | dsimp only)

theorem Dev.runPlanHead_good {d : Dev} (h : Dev.Good mm lk wl d) (q : Nat) : Dev.Good mm lk wl (Dev.runPlanHead d q) := by
  unfold Dev.runPlanHead
  repeat' (first | with_reducible assumption | (with_reducible intro _) | with_reducible apply Dev.waitKey_good | with_reducible apply Dev.onHead_good | with_reducible apply Dev.beginRun_good | split)

theorem Dev.replaceAll_good {d : Dev} (h : Dev.Good mm lk wl d) (t : Nat) : Dev.Good mm lk wl (Dev.replaceAll d t).1 := by
  unfold Dev.replaceAll
  repeat' (first | with_reducible assumption | (with_reducible intro _) | with_reducible apply Dev.each_good | with_reducible apply Dev.when_good | with_reducible apply Dev.modTile_good | with_reducible apply Dev.modPlan_good | with_reducible exact OkR.error | with_reducible apply OkR.ok | with_reducible exact OkE.error | with_reducible apply OkE.ok | with_reducible exact OkO.none | with_reducible apply OkO.some | with_reducible exact OkOR.none | with_reducible apply OkOR.some | with_reducible refine OkR.elim ?_ (by assumption) | with_reducible refine OkE.elim ?_ (by assumption) | with_reducible refine OkO.elim ?_ (by assumption) | with_reducible refine OkOR.elim ?_ (by assumption) | with_reducible refine good_of_pair ?_ (by assumption) | with_reducible refine good_of_pair2 ?_ (by assumption) | with_reducible exact OkR.elim (by assumption) rfl | with_reducible exact OkE.elim (by assumption) rfl | with_reducible apply foldl_good | with_reducible apply foldl_pair_good | with_reducible apply foldl_okR | with_reducible apply foldl_okE | with_reducible apply foldl_okOR | with_reducible apply okOR_map | with_reducible apply okO_map | with_reducible exact OkO.elim (by assumption) rfl | with_reducible exact OkOR.elim (by assumption) rfl | split | (refine Dev.good_iff.mpr ?_; dsimp only; refine Dev.good_iff.mp ?_) | (refine Dev.good_iff.mpr ?_; dsimp only; refine good_clear (Dev.good_iff.mp ?_)) | (refine Dev.good_iff.mpr ?_; dsimp only; refine good_writeAll (Dev.good_iff.mp ?_)) | contradiction | dsimp only)

theorem Dev.suspendPlan_good {d : Dev} (h : Dev.Good mm lk wl d) (slot : Nat) : Dev.Good mm lk wl (Dev.suspendPlan d slot) := by
  unfold Dev.suspendPlan
  repeat' (first | with_reducible assumption | (with_reducible intro _) | with_reducible apply Dev.each_good | with_reducible apply Dev.when_good | with_reducible apply Dev.modPlan_good | with_reducible apply Dev.finishDone_good | with_reducible apply Dev.breakCmd_good | split)

theorem Dev.startDrain_good {d : Dev} (h : Dev.Good mm lk wl d) (t : Nat) (forced : Bool) (cmd : Option (Nat × Cmd)) : Dev.Good mm lk wl (Dev.startDrain d t forced cmd) := by
  unfold Dev.startDrain
  repeat' (first | with_reducible assumption | (with_reducible intro _) | with_reducible apply Dev.each_good | with_reducible apply Dev.when_good | with_reducible apply Dev.finish_good | with_reducible apply Dev.replaceAll_good | with_reducible apply Dev.suspendPlan_good | with_reducible exact OkR.error | with_reducible apply OkR.ok | with_reducible exact OkE.error | with_reducible apply OkE.ok | with_reducible exact OkO.none | with_reducible apply OkO.some | with_reducible exact OkOR.none | with_reducible apply OkOR.some | with_reducible refine OkR.elim ?_ (by assumption) | with_reducible refine OkE.elim ?_ (by assumption) | with_reducible refine OkO.elim ?_ (by assumption) | with_reducible refine OkOR.elim ?_ (by assumption) | with_reducible refine good_of_pair ?_ (by assumption) | with_reducible refine good_of_pair2 ?_ (by assumption) | with_reducible exact OkR.elim (by assumption) rfl | with_reducible exact OkE.elim (by assumption) rfl | with_reducible apply foldl_good | with_reducible apply foldl_pair_good | with_reducible apply foldl_okR | with_reducible apply foldl_okE | with_reducible apply foldl_okOR | with_reducible apply okOR_map | with_reducible apply okO_map | with_reducible exact OkO.elim (by assumption) rfl | with_reducible exact OkOR.elim (by assumption) rfl | split | (refine Dev.good_iff.mpr ?_; dsimp only; refine Dev.good_iff.mp ?_) | (refine Dev.good_iff.mpr ?_; dsimp only; refine good_clear (Dev.good_iff.mp ?_)) | (refine Dev.good_iff.mpr ?_; dsimp only; refine good_writeAll (Dev.good_iff.mp ?_)) | contradiction | dsimp only)

theorem Dev.switchPlan_good {d : Dev} (h : Dev.Good mm lk wl d) (slot : Nat) : Dev.Good mm lk wl (Dev.switchPlan d slot) := by
  unfold Dev.switchPlan
  repeat' (first | with_reducible assumption | (with_reducible intro _) | with_reducible apply Dev.modPlan_good | split | (refine Dev.good_iff.mpr ?_; dsimp only; refine Dev.good_iff.mp ?_))

theorem Dev.drainAtEbb_good {d : Dev} (h : Dev.Good mm lk wl d) (t : Nat) : Dev.Good mm lk wl (Dev.drainAtEbb d t).1 := by
  unfold Dev.drainAtEbb
  repeat' (first | with_reducible assumption | (with_reducible intro _) | with_reducible apply Dev.each_good | with_reducible apply Dev.when_good | with_reducible apply Dev.modTile_good | with_reducible apply Dev.modPlan_good | with_reducible apply Dev.switchPlan_good | split | (refine Dev.good_iff.mpr ?_; dsimp only; refine Dev.good_iff.mp ?_))

theorem Dev.drainsAtEbb_good {d : Dev} (h : Dev.Good mm lk wl d) : Dev.Good mm lk wl (Dev.drainsAtEbb d).1 := by
  unfold Dev.drainsAtEbb
  repeat' (first | with_reducible assumption | (with_reducible intro _) | with_reducible apply Dev.each_good | with_reducible apply Dev.when_good | with_reducible apply Dev.drainAtEbb_good | with_reducible exact OkR.error | with_reducible apply OkR.ok | with_reducible exact OkE.error | with_reducible apply OkE.ok | with_reducible exact OkO.none | with_reducible apply OkO.some | with_reducible exact OkOR.none | with_reducible apply OkOR.some | with_reducible refine OkR.elim ?_ (by assumption) | with_reducible refine OkE.elim ?_ (by assumption) | with_reducible refine OkO.elim ?_ (by assumption) | with_reducible refine OkOR.elim ?_ (by assumption) | with_reducible refine good_of_pair ?_ (by assumption) | with_reducible refine good_of_pair2 ?_ (by assumption) | with_reducible exact OkR.elim (by assumption) rfl | with_reducible exact OkE.elim (by assumption) rfl | with_reducible apply foldl_good | with_reducible apply foldl_pair_good | with_reducible apply foldl_okR | with_reducible apply foldl_okE | with_reducible apply foldl_okOR | with_reducible apply okOR_map | with_reducible apply okO_map | with_reducible exact OkO.elim (by assumption) rfl | with_reducible exact OkOR.elim (by assumption) rfl | split | (refine Dev.good_iff.mpr ?_; dsimp only; refine Dev.good_iff.mp ?_) | (refine Dev.good_iff.mpr ?_; dsimp only; refine good_clear (Dev.good_iff.mp ?_)) | (refine Dev.good_iff.mpr ?_; dsimp only; refine good_writeAll (Dev.good_iff.mp ?_)) | contradiction | dsimp only)

theorem Dev.tilesReturn_good {d : Dev} (h : Dev.Good mm lk wl d) : Dev.Good mm lk wl (Dev.tilesReturn d) := by
  unfold Dev.tilesReturn
  repeat' (first | with_reducible assumption | (with_reducible intro _) | with_reducible apply Dev.each_good | with_reducible apply Dev.when_good | with_reducible apply Dev.modTile_good | split)

theorem Dev.failRun_good {d : Dev} (h : Dev.Good mm lk wl d) (id code g : Nat) : Dev.Good mm lk wl (Dev.failRun d id code g) := by
  unfold Dev.failRun
  repeat' (first | with_reducible assumption | (with_reducible intro _) | split | (refine Dev.good_iff.mpr ?_; dsimp only; refine Dev.good_iff.mp ?_))

theorem Dev.containReaders_good {d : Dev} (h : Dev.Good mm lk wl d) (code : Nat) (g : Option Nat) (runs ctxs : List Nat) : Dev.Good mm lk wl (Dev.containReaders d code g runs ctxs) := by
  unfold Dev.containReaders
  repeat' (first | with_reducible assumption | (with_reducible intro _) | with_reducible apply Dev.each_good | with_reducible apply Dev.when_good | with_reducible apply Dev.checkFailed_good | with_reducible apply Dev.withholdCtx_good | with_reducible apply Dev.failRun_good | split | (refine Dev.good_iff.mpr ?_; dsimp only; refine Dev.good_iff.mp ?_))

theorem Dev.noteLoss_good {d : Dev} (h : Dev.Good mm lk wl d) (h : Nat) (frames : List Nat) : Dev.Good mm lk wl (Dev.noteLoss d h frames) := by
  unfold Dev.noteLoss
  repeat' (first | with_reducible assumption | with_reducible apply Dev.modHub_good)

theorem Dev.markBad_good {d : Dev} (h : Dev.Good mm lk wl d) (f g code : Nat) (holding : Bool) (runs ctxs : List Nat) : Dev.Good mm lk wl (Dev.markBad d f g code holding runs ctxs) := by
  unfold Dev.markBad
  repeat' (first | with_reducible assumption | with_reducible apply Dev.modBadLine_good)

theorem Dev.askRepair_good {d : Dev} (h : Dev.Good mm lk wl d) (f g : Nat) (runs ctxs : List Nat) : Dev.Good mm lk wl (Dev.askRepair d f g runs ctxs) := by
  unfold Dev.askRepair
  repeat' (first | with_reducible assumption | (with_reducible intro _) | with_reducible apply Dev.emit_good | with_reducible apply Dev.markBad_good | split | (refine Dev.good_iff.mpr ?_; dsimp only; refine Dev.good_iff.mp ?_))

theorem Dev.remapFrame_good {d : Dev} (h : Dev.Good mm lk wl d) (f : Nat) : Dev.Good mm lk wl (Dev.remapFrame d f) := by
  unfold Dev.remapFrame
  repeat' (first | with_reducible assumption | with_reducible apply Dev.modHub_good)

theorem Dev.integrityAlarm_good {d : Dev} (h : Dev.Good mm lk wl d) (f g : Nat) (runs ctxs : List Nat) : Dev.Good mm lk wl (Dev.integrityAlarm d f g runs ctxs) := by
  unfold Dev.integrityAlarm
  repeat' (first | with_reducible assumption | (with_reducible intro _) | with_reducible apply Dev.each_good | with_reducible apply Dev.when_good | with_reducible apply Dev.modRegion_good | with_reducible apply Dev.dwEvent_good | with_reducible apply Dev.containReaders_good | split)

theorem Dev.scanFailed_good {d : Dev} (h : Dev.Good mm lk wl d) (f g : Nat) : Dev.Good mm lk wl (Dev.scanFailed d f g) := by
  unfold Dev.scanFailed
  repeat' (first | with_reducible assumption | (with_reducible intro _) | with_reducible apply Dev.each_good | with_reducible apply Dev.when_good | with_reducible apply Dev.setMinors_good | with_reducible apply Dev.noteLoss_good | with_reducible apply Dev.markBad_good | with_reducible apply Dev.askRepair_good | with_reducible apply Dev.integrityAlarm_good | split)

theorem Dev.loseRange_good {d : Dev} (h : Dev.Good mm lk wl d) (r : Nat) (l : LostLine) : Dev.Good mm lk wl (Dev.loseRange d r l) := by
  unfold Dev.loseRange
  repeat' (first | with_reducible assumption | (with_reducible intro _) | with_reducible apply Dev.each_good | with_reducible apply Dev.when_good | with_reducible apply Dev.modRegion_good | with_reducible apply Dev.modCounter_good | with_reducible apply Dev.setMinors_good | with_reducible apply Dev.withholdCtx_good | with_reducible apply Dev.noteLoss_good | with_reducible apply Dev.markBad_good | split | (refine Dev.good_iff.mpr ?_; dsimp only; refine Dev.good_iff.mp ?_))

theorem Dev.passDeadline_good {d : Dev} (h : Dev.Good mm lk wl d) (k : Nat) : Dev.Good mm lk wl (Dev.passDeadline d k) := by
  unfold Dev.passDeadline
  repeat' (first | with_reducible assumption | (with_reducible intro _) | with_reducible apply Dev.each_good | with_reducible apply Dev.when_good | with_reducible apply Dev.modBadLine_good | with_reducible apply Dev.dwEvent_good | with_reducible apply Dev.checkFailed_good | split | (refine Dev.good_iff.mpr ?_; dsimp only; refine Dev.good_iff.mp ?_))

theorem Dev.passDeadlines_good {d : Dev} (h : Dev.Good mm lk wl d) : Dev.Good mm lk wl (Dev.passDeadlines d) := by
  unfold Dev.passDeadlines
  repeat' (first | with_reducible assumption | (with_reducible intro _) | with_reducible apply Dev.each_good | with_reducible apply Dev.when_good | with_reducible apply Dev.passDeadline_good | split)

theorem Dev.repairRow_good {d : Dev} (h : Dev.Good mm lk wl d) (h : Nat) (r : DramRow) : Dev.Good mm lk wl (Dev.repairRow d h r) := by
  unfold Dev.repairRow
  repeat' (first | with_reducible assumption | (with_reducible intro _) | with_reducible apply Dev.each_good | with_reducible apply Dev.when_good | with_reducible apply Dev.modHub_good | with_reducible apply Dev.remapFrame_good | split)

theorem Dev.repairRows_good {d : Dev} (h : Dev.Good mm lk wl d) : Dev.Good mm lk wl (Dev.repairRows d) := by
  unfold Dev.repairRows
  repeat' (first | with_reducible assumption | (with_reducible intro _) | with_reducible apply Dev.each_good | with_reducible apply Dev.when_good | with_reducible apply Dev.modHub_good | with_reducible apply Dev.repairRow_good | split)

theorem Dev.endSweep_good {d : Dev} (h : Dev.Good mm lk wl d) (r : Nat) : Dev.Good mm lk wl (Dev.endSweep d r) := by
  unfold Dev.endSweep
  repeat' (first | with_reducible assumption | (with_reducible intro _) | with_reducible apply Dev.each_good | with_reducible apply Dev.when_good | with_reducible apply Dev.modRegion_good | with_reducible apply Dev.modKey_good | with_reducible apply Dev.flushRegion_good | with_reducible apply Dev.resetTree_good | split | (refine Dev.good_iff.mpr ?_; dsimp only; refine Dev.good_iff.mp ?_))

theorem Dev.startRetirements_good {d : Dev} (h : Dev.Good mm lk wl d) : Dev.Good mm lk wl (Dev.startRetirements d) := by
  unfold Dev.startRetirements
  repeat' (first | with_reducible assumption | (with_reducible intro _) | with_reducible apply Dev.each_good | with_reducible apply Dev.when_good | with_reducible apply Dev.modKey_good | split)

theorem Dev.detachRegions_good {d : Dev} (h : Dev.Good mm lk wl d) : Dev.Good mm lk wl (Dev.detachRegions d) := by
  unfold Dev.detachRegions
  repeat' (first | with_reducible assumption | (with_reducible intro _) | with_reducible apply Dev.each_good | with_reducible apply Dev.when_good | with_reducible apply Dev.modRegion_good | with_reducible apply Dev.resetTree_good | (refine Dev.good_iff.mpr ?_; dsimp only; refine Dev.good_iff.mp ?_))

theorem Dev.settleCharter_good {d : Dev} (h : Dev.Good mm lk wl d) (k : Nat) : Dev.Good mm lk wl (Dev.settleCharter d k) := by
  unfold Dev.settleCharter
  repeat' (first | with_reducible assumption | (with_reducible intro _) | with_reducible apply Dev.each_good | with_reducible apply Dev.when_good | with_reducible apply Dev.modCharter_good | with_reducible apply Dev.modLife_good | split)

theorem Dev.endClose_good {d : Dev} (h : Dev.Good mm lk wl d) (c : Nat) : Dev.Good mm lk wl (Dev.endClose d c) := by
  unfold Dev.endClose
  repeat' (first | with_reducible assumption | (with_reducible intro _) | with_reducible apply Dev.each_good | with_reducible apply Dev.when_good | with_reducible apply Dev.modCtx_good | with_reducible apply Dev.modGroup_good | with_reducible apply Dev.settleCharter_good | split | (refine Dev.good_iff.mpr ?_; dsimp only; refine Dev.good_iff.mp ?_))

theorem Dev.closeAtEbb_good {d : Dev} (h : Dev.Good mm lk wl d) (c : Nat) : Dev.Good mm lk wl (Dev.closeAtEbb d c) := by
  unfold Dev.closeAtEbb
  repeat' (first | with_reducible assumption | (with_reducible intro _) | with_reducible apply Dev.each_good | with_reducible apply Dev.when_good | with_reducible apply Dev.modCtx_good | with_reducible apply Dev.freeFrame_good | with_reducible apply Dev.invalidateEntry_good | with_reducible apply Dev.unloadPlan_good | split)

theorem Dev.scrubTiles_good {d : Dev} (h : Dev.Good mm lk wl d) : Dev.Good mm lk wl (Dev.scrubTiles d) := by
  unfold Dev.scrubTiles
  repeat' (first | with_reducible assumption | (with_reducible intro _) | with_reducible apply Dev.each_good | with_reducible apply Dev.when_good | with_reducible apply Dev.modCtx_good | with_reducible apply Dev.modTile_good | split)

theorem Dev.ebbKeys_good {d : Dev} (h : Dev.Good mm lk wl d) : Dev.Good mm lk wl (Dev.ebbKeys d) := by
  unfold Dev.ebbKeys
  repeat' (first | with_reducible assumption | (with_reducible intro _) | with_reducible apply Dev.each_good | with_reducible apply Dev.when_good | with_reducible apply Dev.startRetirements_good | with_reducible apply Dev.endClose_good | with_reducible apply Dev.closeAtEbb_good | with_reducible apply Dev.scrubTiles_good | split)

theorem Dev.flitFails_good {d : Dev} (h : Dev.Good mm lk wl d) (s : Nat) (dir : Bool) (n : Nat) (runs ctxs : List Nat) : Dev.Good mm lk wl (Dev.flitFails d s dir n runs ctxs) := by
  unfold Dev.flitFails
  repeat' (first | with_reducible assumption | (with_reducible intro _) | with_reducible apply Dev.each_good | with_reducible apply Dev.when_good | with_reducible apply Dev.modSeam_good | with_reducible apply Dev.errEvent_good | with_reducible apply Dev.dwEvent_good | with_reducible apply Dev.containReaders_good | split | (refine Dev.good_iff.mpr ?_; dsimp only; refine Dev.good_iff.mp ?_))

theorem Dev.rerouteSeams_good {d : Dev} (h : Dev.Good mm lk wl d) : Dev.Good mm lk wl (Dev.rerouteSeams d) := by
  unfold Dev.rerouteSeams
  repeat' (first | with_reducible assumption | (with_reducible intro _) | with_reducible apply Dev.each_good | with_reducible apply Dev.when_good | with_reducible apply Dev.modSeam_good | split)

theorem Dev.tellJob_good {d : Dev} (h : Dev.Good mm lk wl d) (j : Nat) (m : FabMsg) : Dev.Good mm lk wl (Dev.tellJob d j m) := by
  unfold Dev.tellJob
  repeat' (first | with_reducible assumption | (with_reducible intro _) | with_reducible apply Dev.each_good | with_reducible apply Dev.when_good | with_reducible apply Dev.emit_good | split)

theorem Dev.tellCoordinator_good {d : Dev} (h : Dev.Good mm lk wl d) (j : Nat) (m : FabMsg) : Dev.Good mm lk wl (Dev.tellCoordinator d j m) := by
  unfold Dev.tellCoordinator
  repeat' (first | with_reducible assumption | (with_reducible intro _) | with_reducible apply Dev.each_good | with_reducible apply Dev.when_good | with_reducible apply Dev.emit_good | split)

theorem Dev.chargeTwins_good {d : Dev} (h : Dev.Good none lk wl d) (c : Nat) : OkE none lk wl (Dev.chargeTwins d c) := by
  unfold Dev.chargeTwins
  repeat' (first | with_reducible assumption | (with_reducible intro _) | with_reducible apply Dev.each_good | with_reducible apply Dev.when_good | with_reducible apply Dev.takeTwins_good | with_reducible exact OkR.error | with_reducible apply OkR.ok | with_reducible exact OkE.error | with_reducible apply OkE.ok | with_reducible exact OkO.none | with_reducible apply OkO.some | with_reducible exact OkOR.none | with_reducible apply OkOR.some | with_reducible refine OkR.elim ?_ (by assumption) | with_reducible refine OkE.elim ?_ (by assumption) | with_reducible refine OkO.elim ?_ (by assumption) | with_reducible refine OkOR.elim ?_ (by assumption) | with_reducible refine good_of_pair ?_ (by assumption) | with_reducible refine good_of_pair2 ?_ (by assumption) | with_reducible exact OkR.elim (by assumption) rfl | with_reducible exact OkE.elim (by assumption) rfl | with_reducible apply foldl_good | with_reducible apply foldl_pair_good | with_reducible apply foldl_okR | with_reducible apply foldl_okE | with_reducible apply foldl_okOR | with_reducible apply okOR_map | with_reducible apply okO_map | with_reducible exact OkO.elim (by assumption) rfl | with_reducible exact OkOR.elim (by assumption) rfl | split | (refine Dev.good_iff.mpr ?_; dsimp only; refine Dev.good_iff.mp ?_) | (refine Dev.good_iff.mpr ?_; dsimp only; refine good_clear (Dev.good_iff.mp ?_)) | (refine Dev.good_iff.mpr ?_; dsimp only; refine good_writeAll (Dev.good_iff.mp ?_)) | contradiction | dsimp only)

theorem Dev.releaseTwins_good {d : Dev} (h : Dev.Good mm lk wl d) (c : Nat) : Dev.Good mm lk wl (Dev.releaseTwins d c) := by
  unfold Dev.releaseTwins
  repeat' (first | with_reducible assumption | (with_reducible intro _) | with_reducible apply Dev.each_good | with_reducible apply Dev.when_good | with_reducible apply Dev.modMap_good | with_reducible apply Dev.dropFrame_good | split)

theorem Dev.havenDrain_good {d : Dev} (h : Dev.Good mm lk wl d) (c : Nat) : Dev.Good mm lk wl (Dev.havenDrain d c) := by
  unfold Dev.havenDrain
  repeat' (first | with_reducible assumption | (with_reducible intro _) | with_reducible apply Dev.each_good | with_reducible apply Dev.when_good | with_reducible apply Dev.holdEgress_good | split)

theorem Dev.dropDrain_good {d : Dev} (h : Dev.Good mm lk wl d) (c : Nat) : Dev.Good mm lk wl (Dev.dropDrain d c) := by
  unfold Dev.dropDrain
  repeat' (first | with_reducible assumption | (with_reducible intro _) | with_reducible apply Dev.each_good | with_reducible apply Dev.when_good | with_reducible apply Dev.modHaven_good | (refine Dev.good_iff.mpr ?_; dsimp only; refine Dev.good_iff.mp ?_))

theorem Dev.copyFrame_good {d : Dev} (h : Dev.Good none lk wl d) (src dst : Nat) : Dev.Good none lk wl (Dev.copyFrame d src dst) := by
  unfold Dev.copyFrame
  repeat' (first | with_reducible assumption | (with_reducible intro _) | with_reducible apply Dev.each_good | with_reducible apply Dev.when_good | with_reducible apply Dev.modBadLine_good | with_reducible apply Dev.blankFrame_good | with_reducible apply Dev.writeMem_good | split)

theorem Dev.swapState_good {d : Dev} (h : Dev.Good mm lk wl d) (c : Nat) : Dev.Good mm lk wl (Dev.swapState d c).1 := by
  unfold Dev.swapState
  repeat' (first | with_reducible assumption | (with_reducible intro _) | with_reducible apply Dev.each_good | with_reducible apply Dev.when_good | with_reducible apply Dev.modMap_good | with_reducible apply Dev.modPlan_good | split)

theorem Dev.freezeJob_good {d : Dev} (h : Dev.Good none lk wl d) (j : Nat) : Dev.Good none lk wl (Dev.freezeJob d j) := by
  unfold Dev.freezeJob
  repeat' (first | with_reducible assumption | (with_reducible intro _) | with_reducible apply Dev.each_good | with_reducible apply Dev.when_good | with_reducible apply Dev.modMap_good | with_reducible apply Dev.modHaven_good | with_reducible apply Dev.modJob_good | with_reducible apply Dev.copyFrame_good | with_reducible apply Dev.swapState_good | split)

theorem Dev.takeFreeze_good {d : Dev} (h : Dev.Good none lk wl d) (j : Nat) : Dev.Good none lk wl (Dev.takeFreeze d j) := by
  unfold Dev.takeFreeze
  repeat' (first | with_reducible assumption | (with_reducible intro _) | with_reducible apply Dev.each_good | with_reducible apply Dev.when_good | with_reducible apply Dev.modJob_good | with_reducible apply Dev.freezeJob_good | split)

theorem Dev.waitingFreezes_good {d : Dev} (h : Dev.Good none lk wl d) : Dev.Good none lk wl (Dev.waitingFreezes d) := by
  unfold Dev.waitingFreezes
  repeat' (first | with_reducible assumption | (with_reducible intro _) | with_reducible apply Dev.each_good | with_reducible apply Dev.when_good | with_reducible apply Dev.freezeJob_good | split)

theorem Dev.declineJob_good {d : Dev} (h : Dev.Good mm lk wl d) (j : Nat) : Dev.Good mm lk wl (Dev.declineJob d j) := by
  unfold Dev.declineJob
  repeat' (first | with_reducible assumption | with_reducible apply Dev.modCtx_good | with_reducible apply Dev.modJob_good)

theorem Dev.tellKeeper_good {d : Dev} (h : Dev.Good mm lk wl d) (c : Nat) (g : Option Nat) : Dev.Good mm lk wl (Dev.tellKeeper d c g) := by
  unfold Dev.tellKeeper
  repeat' (first | with_reducible assumption | (with_reducible intro _) | with_reducible apply Dev.emit_good | split)

theorem Dev.abandonJob_good {d : Dev} (h : Dev.Good mm lk wl d) (j : Nat) : Dev.Good mm lk wl (Dev.abandonJob d j) := by
  unfold Dev.abandonJob
  repeat' (first | with_reducible assumption | with_reducible apply Dev.modJob_good | with_reducible apply Dev.dropDrain_good | with_reducible apply Dev.declineJob_good | with_reducible apply Dev.tellKeeper_good)

theorem Dev.failDrain_good {d : Dev} (h : Dev.Good mm lk wl d) (c : Nat) : Dev.Good mm lk wl (Dev.failDrain d c) := by
  unfold Dev.failDrain
  repeat' (first | with_reducible assumption | (with_reducible intro _) | with_reducible apply Dev.each_good | with_reducible apply Dev.when_good | with_reducible apply Dev.tellJob_good | with_reducible apply Dev.tellCoordinator_good | with_reducible apply Dev.abandonJob_good | split)

theorem Dev.lostPacket_good {d : Dev} (h : Dev.Good mm lk wl d) (code : Nat) (u : Unacked) : Dev.Good mm lk wl (Dev.lostPacket d code u) := by
  unfold Dev.lostPacket
  repeat' (first | with_reducible assumption | (with_reducible intro _) | with_reducible apply Dev.breakWaiting_good | with_reducible apply Dev.failDrain_good | split | (refine Dev.good_iff.mpr ?_; dsimp only; refine Dev.good_iff.mp ?_))

theorem Dev.resend_good {d : Dev} (h : Dev.Good mm lk wl d) (id : Nat) (report : SendReport) : Dev.Good mm lk wl (Dev.resend d id report) := by
  unfold Dev.resend
  repeat' (first | exact Mgmt.cancelUpdate_keeps | (exact fun _ h => h) | (exact fun _ => ⟨rfl, rfl, rfl⟩) | (exact fun _ => rfl) | (intro _; (repeat' split) <;> exact ⟨rfl, rfl, rfl⟩) | (intro _ h; (repeat' split) <;> exact h) | with_reducible assumption | (with_reducible intro _) | with_reducible apply Dev.each_good | with_reducible apply Dev.when_good | with_reducible apply Dev.modFabric_good | with_reducible apply Dev.emit_good | with_reducible apply Dev.failColl_good | with_reducible apply Dev.lostPacket_good | split)

theorem Dev.missedFreezes_good {d : Dev} (h : Dev.Good none lk wl d) : Dev.Good none lk wl (Dev.missedFreezes d) := by
  unfold Dev.missedFreezes
  repeat' (first | with_reducible assumption | (with_reducible intro _) | with_reducible apply Dev.each_good | with_reducible apply Dev.when_good | with_reducible apply Dev.tellCoordinator_good | with_reducible apply Dev.waitingFreezes_good | with_reducible apply Dev.declineJob_good | split)

theorem Dev.decideIfVoted_good {d : Dev} (h : Dev.Good none lk wl d) (j : Nat) : Dev.Good none lk wl (Dev.decideIfVoted d j) := by
  unfold Dev.decideIfVoted
  repeat' (first | with_reducible assumption | (with_reducible intro _) | with_reducible apply Dev.each_good | with_reducible apply Dev.when_good | with_reducible apply Dev.modJob_good | with_reducible apply Dev.tellJob_good | with_reducible apply Dev.takeFreeze_good | with_reducible apply Dev.declineJob_good | split | (refine Dev.good_iff.mpr ?_; dsimp only; refine Dev.good_iff.mp ?_))

theorem Dev.passCandidate_good {d : Dev} (h : Dev.Good mm lk wl d) (j : Nat) : Dev.Good mm lk wl (Dev.passCandidate d j) := by
  unfold Dev.passCandidate
  repeat' (first | with_reducible assumption | with_reducible apply Dev.modJob_good)

theorem Dev.secureNow_good {d : Dev} (h : Dev.Good mm lk wl d) (j rank : Nat) : Dev.Good mm lk wl (Dev.secureNow d j rank) := by
  unfold Dev.secureNow
  repeat' (first | with_reducible assumption | (with_reducible intro _) | with_reducible apply Dev.each_good | with_reducible apply Dev.when_good | with_reducible apply Dev.modJob_good | with_reducible apply Dev.tellJob_good | split)

theorem Dev.voteAtEbb_good {d : Dev} (h : Dev.Good none lk wl d) (withheld : List Nat) : Dev.Good none lk wl (Dev.voteAtEbb d withheld) := by
  unfold Dev.voteAtEbb
  repeat' (first | with_reducible assumption | (with_reducible intro _) | with_reducible apply Dev.each_good | with_reducible apply Dev.when_good | with_reducible apply Dev.modJob_good | with_reducible apply Dev.tellCoordinator_good | with_reducible apply Dev.decideIfVoted_good | with_reducible apply Dev.passCandidate_good | with_reducible apply Dev.secureNow_good | split | (refine Dev.good_iff.mpr ?_; dsimp only; refine Dev.good_iff.mp ?_))

theorem Dev.installSchedule_good {d : Dev} (h : Dev.Good mm lk wl d) (j interval first : Nat) (stop : Bool) (progress : Option (Nat × Nat)) : Dev.Good mm lk wl (Dev.installSchedule d j interval first stop progress) := by
  unfold Dev.installSchedule
  repeat' (first | with_reducible assumption | with_reducible apply Dev.modJob_good)

theorem Dev.snapshot_good {d : Dev} (h : Dev.Good mm lk wl d) (q : Nat) (c : Cmd) (ctx : Nat) : Dev.Good mm lk wl (Dev.snapshot d q c ctx) := by
  unfold Dev.snapshot
  repeat' (first | with_reducible assumption | (with_reducible intro _) | with_reducible apply Dev.each_good | with_reducible apply Dev.when_good | with_reducible apply Dev.modJob_good | with_reducible apply Dev.succeed_good | with_reducible apply Dev.failCmd_good | with_reducible apply Dev.tellJob_good | with_reducible apply Dev.installSchedule_good | split | (refine Dev.good_iff.mpr ?_; dsimp only; refine Dev.good_iff.mp ?_))

theorem Dev.takeSchedule_good {d : Dev} (h : Dev.Good mm lk wl d) (j interval first : Nat) (stop : Bool) : Dev.Good mm lk wl (Dev.takeSchedule d j interval first stop) := by
  unfold Dev.takeSchedule
  repeat' (first | with_reducible assumption | (with_reducible intro _) | with_reducible apply Dev.each_good | with_reducible apply Dev.when_good | with_reducible apply Dev.tellCoordinator_good | with_reducible apply Dev.installSchedule_good)

theorem Dev.scheduleReply_good {d : Dev} (h : Dev.Good mm lk wl d) (j rank : Nat) (bound : Bool) : Dev.Good mm lk wl (Dev.scheduleReply d j rank bound) := by
  unfold Dev.scheduleReply
  repeat' (first | with_reducible assumption | (with_reducible intro _) | with_reducible apply Dev.modJob_good | with_reducible apply Dev.succeed_good | with_reducible apply Dev.failCmd_good | with_reducible apply Dev.tellJob_good | with_reducible apply Dev.installSchedule_good | split | (refine Dev.good_iff.mpr ?_; dsimp only; refine Dev.good_iff.mp ?_))

theorem Dev.keeperFrames_good {d : Dev} (h : Dev.Good none lk wl d) (c n : Nat) : OkOR none lk wl (Dev.keeperFrames d c n) := by
  unfold Dev.keeperFrames
  repeat' (first | with_reducible assumption | (with_reducible intro _) | with_reducible apply Dev.each_good | with_reducible apply Dev.when_good | with_reducible apply Dev.assignFrame_good | with_reducible exact OkR.error | with_reducible apply OkR.ok | with_reducible exact OkE.error | with_reducible apply OkE.ok | with_reducible exact OkO.none | with_reducible apply OkO.some | with_reducible exact OkOR.none | with_reducible apply OkOR.some | with_reducible refine OkR.elim ?_ (by assumption) | with_reducible refine OkE.elim ?_ (by assumption) | with_reducible refine OkO.elim ?_ (by assumption) | with_reducible refine OkOR.elim ?_ (by assumption) | with_reducible refine good_of_pair ?_ (by assumption) | with_reducible refine good_of_pair2 ?_ (by assumption) | with_reducible exact OkR.elim (by assumption) rfl | with_reducible exact OkE.elim (by assumption) rfl | with_reducible apply foldl_good | with_reducible apply foldl_pair_good | with_reducible apply foldl_okR | with_reducible apply foldl_okE | with_reducible apply foldl_okOR | with_reducible apply okOR_map | with_reducible apply okO_map | with_reducible exact OkO.elim (by assumption) rfl | with_reducible exact OkOR.elim (by assumption) rfl | split | (refine Dev.good_iff.mpr ?_; dsimp only; refine Dev.good_iff.mp ?_) | (refine Dev.good_iff.mpr ?_; dsimp only; refine good_clear (Dev.good_iff.mp ?_)) | (refine Dev.good_iff.mpr ?_; dsimp only; refine good_writeAll (Dev.good_iff.mp ?_)) | contradiction | dsimp only)

theorem Dev.keepUnit_good {d : Dev} (h : Dev.Good none lk wl d) (c : Nat) (k : Keeping) (u : HavenUnit) : Dev.Good none lk wl (Dev.keepUnit d c k u) := by
  unfold Dev.keepUnit
  repeat' (first | with_reducible assumption | (with_reducible intro _) | with_reducible apply Dev.each_good | with_reducible apply Dev.when_good | with_reducible apply Dev.emit_good | with_reducible apply Dev.freeFrame_good | with_reducible apply Dev.modKeep_good | with_reducible apply Dev.keeperFrames_good | with_reducible exact OkR.error | with_reducible apply OkR.ok | with_reducible exact OkE.error | with_reducible apply OkE.ok | with_reducible exact OkO.none | with_reducible apply OkO.some | with_reducible exact OkOR.none | with_reducible apply OkOR.some | with_reducible refine OkR.elim ?_ (by assumption) | with_reducible refine OkE.elim ?_ (by assumption) | with_reducible refine OkO.elim ?_ (by assumption) | with_reducible refine OkOR.elim ?_ (by assumption) | with_reducible refine good_of_pair ?_ (by assumption) | with_reducible refine good_of_pair2 ?_ (by assumption) | with_reducible exact OkR.elim (by assumption) rfl | with_reducible exact OkE.elim (by assumption) rfl | with_reducible apply foldl_good | with_reducible apply foldl_pair_good | with_reducible apply foldl_okR | with_reducible apply foldl_okE | with_reducible apply foldl_okOR | with_reducible apply okOR_map | with_reducible apply okO_map | with_reducible exact OkO.elim (by assumption) rfl | with_reducible exact OkOR.elim (by assumption) rfl | split | (refine Dev.good_iff.mpr ?_; dsimp only; refine Dev.good_iff.mp ?_) | (refine Dev.good_iff.mpr ?_; dsimp only; refine good_clear (Dev.good_iff.mp ?_)) | (refine Dev.good_iff.mpr ?_; dsimp only; refine good_writeAll (Dev.good_iff.mp ?_)) | contradiction | dsimp only)

theorem Dev.emptySlots_good {d : Dev} (h : Dev.Good mm lk wl d) (c source sourceCtx g : Nat) : Dev.Good mm lk wl (Dev.emptySlots d c source sourceCtx g) := by
  unfold Dev.emptySlots
  repeat' (first | with_reducible assumption | (with_reducible intro _) | with_reducible apply Dev.each_good | with_reducible apply Dev.when_good | with_reducible apply Dev.freeFrame_good | with_reducible apply Dev.modKeep_good | split)

theorem Dev.generationDone_good {d : Dev} (h : Dev.Good mm lk wl d) (j : Nat) : Dev.Good mm lk wl (Dev.generationDone d j) := by
  unfold Dev.generationDone
  repeat' (first | with_reducible assumption | with_reducible apply Dev.modJob_good)

theorem Dev.completeGeneration_good {d : Dev} (h : Dev.Good mm lk wl d) (j g : Nat) : Dev.Good mm lk wl (Dev.completeGeneration d j g) := by
  unfold Dev.completeGeneration
  repeat' (first | with_reducible assumption | (with_reducible intro _) | with_reducible apply Dev.each_good | with_reducible apply Dev.when_good | with_reducible apply Dev.emit_good | with_reducible apply Dev.endAll_good | with_reducible apply Dev.tellJob_good | with_reducible apply Dev.generationDone_good | split | (refine Dev.good_iff.mpr ?_; dsimp only; refine Dev.good_iff.mp ?_))

theorem Dev.reassignScales_good {d : Dev} (h : Dev.Good mm lk wl d) (c : Nat) : OkE mm lk wl (Dev.reassignScales d c) := by
  unfold Dev.reassignScales
  repeat' (first | with_reducible assumption | (with_reducible intro _) | with_reducible apply Dev.each_good | with_reducible apply Dev.when_good | with_reducible apply Dev.modScale_good | with_reducible apply Dev.takeEntries_good | with_reducible apply Dev.modPlaced_good | with_reducible exact OkR.error | with_reducible apply OkR.ok | with_reducible exact OkE.error | with_reducible apply OkE.ok | with_reducible exact OkO.none | with_reducible apply OkO.some | with_reducible exact OkOR.none | with_reducible apply OkOR.some | with_reducible refine OkR.elim ?_ (by assumption) | with_reducible refine OkE.elim ?_ (by assumption) | with_reducible refine OkO.elim ?_ (by assumption) | with_reducible refine OkOR.elim ?_ (by assumption) | with_reducible refine good_of_pair ?_ (by assumption) | with_reducible refine good_of_pair2 ?_ (by assumption) | with_reducible exact OkR.elim (by assumption) rfl | with_reducible exact OkE.elim (by assumption) rfl | with_reducible apply foldl_good | with_reducible apply foldl_pair_good | with_reducible apply foldl_okR | with_reducible apply foldl_okE | with_reducible apply foldl_okOR | with_reducible apply okOR_map | with_reducible apply okO_map | with_reducible exact OkO.elim (by assumption) rfl | with_reducible exact OkOR.elim (by assumption) rfl | split | (refine Dev.good_iff.mpr ?_; dsimp only; refine Dev.good_iff.mp ?_) | (refine Dev.good_iff.mpr ?_; dsimp only; refine good_clear (Dev.good_iff.mp ?_)) | (refine Dev.good_iff.mpr ?_; dsimp only; refine good_writeAll (Dev.good_iff.mp ?_)) | contradiction | dsimp only)

theorem Dev.beginRestore_good {d : Dev} (h : Dev.Good mm lk wl d) (q : Nat) (c : Cmd) (ctx : Nat) (r : PullResult) : Dev.Good mm lk wl (Dev.beginRestore d q c ctx r) := by
  unfold Dev.beginRestore
  repeat' (first | with_reducible assumption | (with_reducible intro _) | with_reducible apply Dev.each_good | with_reducible apply Dev.when_good | with_reducible apply Dev.modHaven_good | with_reducible apply Dev.failCmd_good | with_reducible apply Dev.unloadPlan_good | with_reducible apply Dev.reassignScales_good | with_reducible exact OkR.error | with_reducible apply OkR.ok | with_reducible exact OkE.error | with_reducible apply OkE.ok | with_reducible exact OkO.none | with_reducible apply OkO.some | with_reducible exact OkOR.none | with_reducible apply OkOR.some | with_reducible refine OkR.elim ?_ (by assumption) | with_reducible refine OkE.elim ?_ (by assumption) | with_reducible refine OkO.elim ?_ (by assumption) | with_reducible refine OkOR.elim ?_ (by assumption) | with_reducible refine good_of_pair ?_ (by assumption) | with_reducible refine good_of_pair2 ?_ (by assumption) | with_reducible exact OkR.elim (by assumption) rfl | with_reducible exact OkE.elim (by assumption) rfl | with_reducible apply foldl_good | with_reducible apply foldl_pair_good | with_reducible apply foldl_okR | with_reducible apply foldl_okE | with_reducible apply foldl_okOR | with_reducible apply okOR_map | with_reducible apply okO_map | with_reducible exact OkO.elim (by assumption) rfl | with_reducible exact OkOR.elim (by assumption) rfl | split | (refine Dev.good_iff.mpr ?_; dsimp only; refine Dev.good_iff.mp ?_) | (refine Dev.good_iff.mpr ?_; dsimp only; refine good_clear (Dev.good_iff.mp ?_)) | (refine Dev.good_iff.mpr ?_; dsimp only; refine good_writeAll (Dev.good_iff.mp ?_)) | contradiction | dsimp only)

theorem Dev.restoreScales_good {d : Dev} (h : Dev.Good mm lk wl d) (c : Nat) (s : Shard) : Dev.Good mm lk wl (Dev.restoreScales d c s).1 := by
  unfold Dev.restoreScales
  repeat' (first | with_reducible assumption | (with_reducible intro _) | with_reducible apply Dev.each_good | with_reducible apply Dev.when_good | with_reducible apply Dev.modScale_good | with_reducible exact OkR.error | with_reducible apply OkR.ok | with_reducible exact OkE.error | with_reducible apply OkE.ok | with_reducible exact OkO.none | with_reducible apply OkO.some | with_reducible exact OkOR.none | with_reducible apply OkOR.some | with_reducible refine OkR.elim ?_ (by assumption) | with_reducible refine OkE.elim ?_ (by assumption) | with_reducible refine OkO.elim ?_ (by assumption) | with_reducible refine OkOR.elim ?_ (by assumption) | with_reducible refine good_of_pair ?_ (by assumption) | with_reducible refine good_of_pair2 ?_ (by assumption) | with_reducible exact OkR.elim (by assumption) rfl | with_reducible exact OkE.elim (by assumption) rfl | with_reducible apply foldl_good | with_reducible apply foldl_pair_good | with_reducible apply foldl_okR | with_reducible apply foldl_okE | with_reducible apply foldl_okOR | with_reducible apply okOR_map | with_reducible apply okO_map | with_reducible exact OkO.elim (by assumption) rfl | with_reducible exact OkOR.elim (by assumption) rfl | split | (refine Dev.good_iff.mpr ?_; dsimp only; refine Dev.good_iff.mp ?_) | (refine Dev.good_iff.mpr ?_; dsimp only; refine good_clear (Dev.good_iff.mp ?_)) | (refine Dev.good_iff.mpr ?_; dsimp only; refine good_writeAll (Dev.good_iff.mp ?_)) | contradiction | dsimp only)

theorem Dev.switchRestore_good {d : Dev} (h : Dev.Good none lk wl d) (c : Nat) : Dev.Good none lk wl (Dev.switchRestore d c) := by
  unfold Dev.switchRestore
  repeat' (first | with_reducible assumption | (with_reducible intro _) | with_reducible apply Dev.each_good | with_reducible apply Dev.when_good | with_reducible apply Dev.modCtx_good | with_reducible apply Dev.modMap_good | with_reducible apply Dev.modPlan_good | with_reducible apply Dev.modHaven_good | with_reducible apply Dev.modJob_good | with_reducible apply Dev.blankFrame_good | with_reducible apply Dev.writeMem_good | with_reducible apply Dev.modPlaced_good | with_reducible apply Dev.succeed_good | with_reducible apply Dev.dropDrain_good | with_reducible apply Dev.swapState_good | with_reducible apply Dev.restoreScales_good | split)

theorem Dev.switchRestores_good {d : Dev} (h : Dev.Good none lk wl d) : Dev.Good none lk wl (Dev.switchRestores d) := by
  unfold Dev.switchRestores
  repeat' (first | with_reducible assumption | (with_reducible intro _) | with_reducible apply Dev.each_good | with_reducible apply Dev.when_good | with_reducible apply Dev.switchRestore_good | split)

theorem Dev.meetBind_good {d : Dev} (h : Dev.Good mm lk wl d) (c a x : Nat) : Dev.Good mm lk wl (Dev.meetBind d c a x) := by
  unfold Dev.meetBind
  repeat' (first | with_reducible assumption | (with_reducible intro _) | with_reducible apply Dev.each_good | with_reducible apply Dev.when_good | with_reducible apply Dev.modHaven_good | with_reducible apply Dev.succeed_good | split | (refine Dev.good_iff.mpr ?_; dsimp only; refine Dev.good_iff.mp ?_))

theorem Dev.havenBind_good {d : Dev} (h : Dev.Good none lk wl d) (q : Nat) (c : Cmd) (ctx : Nat) : Dev.Good none lk wl (Dev.havenBind d q c ctx) := by
  unfold Dev.havenBind
  repeat' (first | with_reducible assumption | (with_reducible intro _) | with_reducible apply Dev.each_good | with_reducible apply Dev.when_good | with_reducible apply Dev.modHaven_good | with_reducible apply Dev.emit_good | with_reducible apply Dev.succeed_good | with_reducible apply Dev.failCmd_good | with_reducible apply Dev.chargeTwins_good | with_reducible apply Dev.meetBind_good | with_reducible exact OkR.error | with_reducible apply OkR.ok | with_reducible exact OkE.error | with_reducible apply OkE.ok | with_reducible exact OkO.none | with_reducible apply OkO.some | with_reducible exact OkOR.none | with_reducible apply OkOR.some | with_reducible refine OkR.elim ?_ (by assumption) | with_reducible refine OkE.elim ?_ (by assumption) | with_reducible refine OkO.elim ?_ (by assumption) | with_reducible refine OkOR.elim ?_ (by assumption) | with_reducible refine good_of_pair ?_ (by assumption) | with_reducible refine good_of_pair2 ?_ (by assumption) | with_reducible exact OkR.elim (by assumption) rfl | with_reducible exact OkE.elim (by assumption) rfl | with_reducible apply foldl_good | with_reducible apply foldl_pair_good | with_reducible apply foldl_okR | with_reducible apply foldl_okE | with_reducible apply foldl_okOR | with_reducible apply okOR_map | with_reducible apply okO_map | with_reducible exact OkO.elim (by assumption) rfl | with_reducible exact OkOR.elim (by assumption) rfl | split | (refine Dev.good_iff.mpr ?_; dsimp only; refine Dev.good_iff.mp ?_) | (refine Dev.good_iff.mpr ?_; dsimp only; refine good_clear (Dev.good_iff.mp ?_)) | (refine Dev.good_iff.mpr ?_; dsimp only; refine good_writeAll (Dev.good_iff.mp ?_)) | contradiction | dsimp only)

theorem Dev.havenBindHead_good {d : Dev} (h : Dev.Good none lk wl d) (q : Nat) : Dev.Good none lk wl (Dev.havenBindHead d q) := by
  unfold Dev.havenBindHead
  repeat' (first | with_reducible assumption | (with_reducible intro _) | with_reducible apply Dev.each_good | with_reducible apply Dev.when_good | with_reducible apply Dev.waitKey_good | with_reducible apply Dev.onHead_good | with_reducible apply Dev.havenBind_good | split | (refine Dev.good_iff.mpr ?_; dsimp only; refine Dev.good_iff.mp ?_))

theorem Dev.dropSource_good {d : Dev} (h : Dev.Good mm lk wl d) (c : Nat) : Dev.Good mm lk wl (Dev.dropSource d c) := by
  unfold Dev.dropSource
  repeat' (first | with_reducible assumption | with_reducible apply Dev.modHaven_good | with_reducible apply Dev.releaseTwins_good)

theorem Dev.dropKeep_good {d : Dev} (h : Dev.Good mm lk wl d) (c a x : Nat) : Dev.Good mm lk wl (Dev.dropKeep d c a x) := by
  unfold Dev.dropKeep
  repeat' (first | with_reducible assumption | (with_reducible intro _) | with_reducible apply Dev.each_good | with_reducible apply Dev.when_good | with_reducible apply Dev.modHaven_good | with_reducible apply Dev.freeFrame_good | (refine Dev.good_iff.mpr ?_; dsimp only; refine Dev.good_iff.mp ?_))

theorem Dev.havenUnbind_good {d : Dev} (h : Dev.Good mm lk wl d) (q : Nat) (c : Cmd) (ctx : Nat) : Dev.Good mm lk wl (Dev.havenUnbind d q c ctx) := by
  unfold Dev.havenUnbind
  repeat' (first | with_reducible assumption | (with_reducible intro _) | with_reducible apply Dev.each_good | with_reducible apply Dev.when_good | with_reducible apply Dev.succeed_good | with_reducible apply Dev.failCmd_good | with_reducible apply Dev.dropSource_good | with_reducible apply Dev.dropKeep_good | split | (refine Dev.good_iff.mpr ?_; dsimp only; refine Dev.good_iff.mp ?_))

theorem Dev.takeover_good {d : Dev} (h : Dev.Good mm lk wl d) (q : Nat) (c : Cmd) (ctx : Nat) : Dev.Good mm lk wl (Dev.takeover d q c ctx) := by
  unfold Dev.takeover
  repeat' (first | with_reducible assumption | (with_reducible intro _) | with_reducible apply Dev.each_good | with_reducible apply Dev.when_good | with_reducible apply Dev.modHaven_good | with_reducible apply Dev.emit_good | with_reducible apply Dev.failCmd_good | split | (refine Dev.good_iff.mpr ?_; dsimp only; refine Dev.good_iff.mp ?_))

theorem Dev.surviveSub_good {d : Dev} (h : Dev.Good mm lk wl d) (g : Nat) (m : Substitution) : Dev.Good mm lk wl (Dev.surviveSub d g m) := by
  unfold Dev.surviveSub
  repeat' (first | with_reducible assumption | (with_reducible intro _) | with_reducible apply Dev.each_good | with_reducible apply Dev.when_good | with_reducible apply Dev.modGroup_good | with_reducible apply Dev.modJob_good | with_reducible apply Dev.emit_good | with_reducible apply Dev.restartSeqs_good | with_reducible apply Dev.abandonJob_good | split | (refine Dev.good_iff.mpr ?_; dsimp only; refine Dev.good_iff.mp ?_))

theorem Dev.spareSub_good {d : Dev} (h : Dev.Good none lk wl d) (c : Nat) (m : Substitution) : Dev.Good none lk wl (Dev.spareSub d c m) := by
  unfold Dev.spareSub
  repeat' (first | with_reducible assumption | (with_reducible intro _) | with_reducible apply Dev.each_good | with_reducible apply Dev.when_good | with_reducible apply Dev.modGroup_good | with_reducible apply Dev.modHaven_good | with_reducible apply Dev.modJob_good | with_reducible apply Dev.succeed_good | with_reducible apply Dev.failCmd_good | with_reducible apply Dev.restartSeqs_good | with_reducible apply Dev.chargeTwins_good | with_reducible apply Dev.takeover_good | with_reducible exact OkR.error | with_reducible apply OkR.ok | with_reducible exact OkE.error | with_reducible apply OkE.ok | with_reducible exact OkO.none | with_reducible apply OkO.some | with_reducible exact OkOR.none | with_reducible apply OkOR.some | with_reducible refine OkR.elim ?_ (by assumption) | with_reducible refine OkE.elim ?_ (by assumption) | with_reducible refine OkO.elim ?_ (by assumption) | with_reducible refine OkOR.elim ?_ (by assumption) | with_reducible refine good_of_pair ?_ (by assumption) | with_reducible refine good_of_pair2 ?_ (by assumption) | with_reducible exact OkR.elim (by assumption) rfl | with_reducible exact OkE.elim (by assumption) rfl | with_reducible apply foldl_good | with_reducible apply foldl_pair_good | with_reducible apply foldl_okR | with_reducible apply foldl_okE | with_reducible apply foldl_okOR | with_reducible apply okOR_map | with_reducible apply okO_map | with_reducible exact OkO.elim (by assumption) rfl | with_reducible exact OkOR.elim (by assumption) rfl | split | (refine Dev.good_iff.mpr ?_; dsimp only; refine Dev.good_iff.mp ?_) | (refine Dev.good_iff.mpr ?_; dsimp only; refine good_clear (Dev.good_iff.mp ?_)) | (refine Dev.good_iff.mpr ?_; dsimp only; refine good_writeAll (Dev.good_iff.mp ?_)) | contradiction | dsimp only)

theorem Dev.keeperSub_good {d : Dev} (h : Dev.Good mm lk wl d) (m : Substitution) : Dev.Good mm lk wl (Dev.keeperSub d m) := by
  unfold Dev.keeperSub
  repeat' (first | with_reducible assumption | (with_reducible intro _) | with_reducible apply Dev.each_good | with_reducible apply Dev.when_good | with_reducible apply Dev.modHaven_good | split | (refine Dev.good_iff.mpr ?_; dsimp only; refine Dev.good_iff.mp ?_))

theorem Dev.takeSub_good {d : Dev} (h : Dev.Good none lk wl d) (m : Substitution) : Dev.Good none lk wl (Dev.takeSub d m) := by
  unfold Dev.takeSub
  repeat' (first | with_reducible assumption | (with_reducible intro _) | with_reducible apply Dev.each_good | with_reducible apply Dev.when_good | with_reducible apply Dev.surviveSub_good | with_reducible apply Dev.spareSub_good | with_reducible apply Dev.keeperSub_good | split | (refine Dev.good_iff.mpr ?_; dsimp only; refine Dev.good_iff.mp ?_))

theorem Dev.takeRequest_good {d : Dev} (h : Dev.Good none lk wl d) (m : TakeoverRequest) : Dev.Good none lk wl (Dev.takeRequest d m) := by
  unfold Dev.takeRequest
  repeat' (first | with_reducible assumption | (with_reducible intro _) | with_reducible apply Dev.each_good | with_reducible apply Dev.when_good | with_reducible apply Dev.emit_good | with_reducible apply Dev.draw_good | with_reducible apply Dev.tellCoordinator_good | with_reducible apply Dev.takeSub_good | split | (refine Dev.good_iff.mpr ?_; dsimp only; refine Dev.good_iff.mp ?_))

theorem Dev.rollbackJob_good {d : Dev} (h : Dev.Good mm lk wl d) (j g : Nat) : Dev.Good mm lk wl (Dev.rollbackJob d j g) := by
  unfold Dev.rollbackJob
  repeat' (first | with_reducible assumption | (with_reducible intro _) | with_reducible apply Dev.each_good | with_reducible apply Dev.when_good | with_reducible apply Dev.modCtx_good | with_reducible apply Dev.modJob_good | with_reducible apply Dev.withholdCtx_good | with_reducible apply Dev.breakCmd_good | (refine Dev.good_iff.mpr ?_; dsimp only; refine Dev.good_iff.mp ?_))

theorem Dev.rollbacks_good {d : Dev} (h : Dev.Good mm lk wl d) : Dev.Good mm lk wl (Dev.rollbacks d) := by
  unfold Dev.rollbacks
  repeat' (first | with_reducible assumption | (with_reducible intro _) | with_reducible apply Dev.each_good | with_reducible apply Dev.when_good | with_reducible apply Dev.rollbackJob_good | (refine Dev.good_iff.mpr ?_; dsimp only; refine Dev.good_iff.mp ?_))

theorem Dev.holdJob_good {d : Dev} (h : Dev.Good mm lk wl d) (j : Nat) : Dev.Good mm lk wl (Dev.holdJob d j) := by
  unfold Dev.holdJob
  repeat' (first | with_reducible assumption | with_reducible apply Dev.modCtx_good | with_reducible apply Dev.modJob_good)

theorem Dev.stopContext_good {d : Dev} (h : Dev.Good mm lk wl d) (c : Nat) : Dev.Good mm lk wl (Dev.stopContext d c) := by
  unfold Dev.stopContext
  repeat' (first | with_reducible assumption | (with_reducible intro _) | with_reducible apply Dev.each_good | with_reducible apply Dev.when_good | with_reducible apply Dev.modCtx_good | with_reducible apply Dev.failCmd_good | with_reducible apply Dev.finishDone_good | with_reducible apply Dev.breakCmd_good | (refine Dev.good_iff.mpr ?_; dsimp only; refine Dev.good_iff.mp ?_))

theorem Dev.loaderFault_good {d : Dev} (h : Dev.Good mm lk wl d) (k : Nat) : Dev.Good mm lk wl (Dev.loaderFault d k) := by
  unfold Dev.loaderFault
  repeat' (first | with_reducible assumption | (with_reducible intro _) | with_reducible apply Dev.each_good | with_reducible apply Dev.when_good | with_reducible apply Dev.setLoad_good | with_reducible apply Dev.failCmd_good | split | (refine Dev.good_iff.mpr ?_; dsimp only; refine Dev.good_iff.mp ?_))

theorem Dev.dikeScores_good {d : Dev} (h : Dev.Good mm lk wl d) : Dev.Good mm lk wl (Dev.dikeScores d) := by
  unfold Dev.dikeScores
  repeat' (first | with_reducible assumption | with_reducible apply Dev.modDike_good)

theorem Dev.askSnapshot_good {d : Dev} (h : Dev.Good mm lk wl d) (j : Nat) : Dev.Good mm lk wl (Dev.askSnapshot d j) := by
  unfold Dev.askSnapshot
  repeat' (first | with_reducible assumption | (with_reducible intro _) | with_reducible apply Dev.each_good | with_reducible apply Dev.when_good | with_reducible apply Dev.tellCoordinator_good | with_reducible apply Dev.secureNow_good | split | (refine Dev.good_iff.mpr ?_; dsimp only; refine Dev.good_iff.mp ?_))

theorem Dev.dikeLevel_good {d : Dev} (h : Dev.Good mm lk wl d) : Dev.Good mm lk wl (Dev.dikeLevel d) := by
  unfold Dev.dikeLevel
  repeat' (first | with_reducible assumption | (with_reducible intro _) | with_reducible apply Dev.each_good | with_reducible apply Dev.when_good | with_reducible apply Dev.modDike_good | with_reducible apply Dev.errEvent_good | with_reducible apply Dev.askSnapshot_good | split | (refine Dev.good_iff.mpr ?_; dsimp only; refine Dev.good_iff.mp ?_))

theorem Dev.dikeTile_good {d : Dev} (h : Dev.Good mm lk wl d) (t : Nat) : Dev.Good mm lk wl (Dev.dikeTile d t) := by
  unfold Dev.dikeTile
  repeat' (first | with_reducible assumption | (with_reducible intro _) | with_reducible apply Dev.each_good | with_reducible apply Dev.when_good | with_reducible apply Dev.modTile_good | with_reducible apply Dev.startDrain_good | split | (refine Dev.good_iff.mpr ?_; dsimp only; refine Dev.good_iff.mp ?_))

theorem Dev.dikeBanks_good {d : Dev} (h : Dev.Good mm lk wl d) (t : Nat) : Dev.Good mm lk wl (Dev.dikeBanks d t) := by
  unfold Dev.dikeBanks
  repeat' (first | with_reducible assumption | with_reducible apply Dev.modTile_good)

theorem Dev.dikeAtEbb_good {d : Dev} (h : Dev.Good mm lk wl d) : Dev.Good mm lk wl (Dev.dikeAtEbb d) := by
  unfold Dev.dikeAtEbb
  repeat' (first | with_reducible assumption | (with_reducible intro _) | with_reducible apply Dev.each_good | with_reducible apply Dev.when_good | with_reducible apply Dev.dikeScores_good | with_reducible apply Dev.dikeLevel_good | with_reducible apply Dev.dikeTile_good | with_reducible apply Dev.dikeBanks_good | (refine Dev.good_iff.mpr ?_; dsimp only; refine Dev.good_iff.mp ?_))

theorem Dev.systemLostAtEbb_good {d : Dev} (h : Dev.Good mm lk wl d) : Dev.Good mm lk wl (Dev.systemLostAtEbb d) := by
  unfold Dev.systemLostAtEbb
  repeat' (first | with_reducible assumption | (with_reducible intro _) | with_reducible apply Dev.each_good | with_reducible apply Dev.when_good | with_reducible apply Dev.modDike_good | with_reducible apply Dev.errEvent_good | with_reducible apply Dev.writeRecord_good | with_reducible apply Dev.breakFence_good | with_reducible apply Dev.failCmd_good | with_reducible apply Dev.withholdCtx_good | split | (refine Dev.good_iff.mpr ?_; dsimp only; refine Dev.good_iff.mp ?_))

theorem Dev.holdCharters_good {d : Dev} (h : Dev.Good mm lk wl d) : Dev.Good mm lk wl (Dev.holdCharters d) := by
  unfold Dev.holdCharters
  repeat' (first | with_reducible assumption | (with_reducible intro _) | with_reducible apply Dev.each_good | with_reducible apply Dev.when_good | with_reducible apply Dev.modCharter_good | with_reducible apply Dev.modLife_good | (refine Dev.good_iff.mpr ?_; dsimp only; refine Dev.good_iff.mp ?_))

theorem Dev.charterCreate_good {d : Dev} (h : Dev.Good mm lk wl d) (q : Nat) (c : Cmd) : Dev.Good mm lk wl (Dev.charterCreate d q c) := by
  unfold Dev.charterCreate
  repeat' (first | with_reducible assumption | (with_reducible intro _) | with_reducible apply Dev.each_good | with_reducible apply Dev.when_good | with_reducible apply Dev.modCharter_good | with_reducible apply Dev.succeed_good | with_reducible apply Dev.failCmd_good | split | (refine Dev.good_iff.mpr ?_; dsimp only; refine Dev.good_iff.mp ?_))

theorem Dev.charterKey_good {d : Dev} (h : Dev.Good mm lk wl d) (q : Nat) (c : Cmd) : Dev.Good mm lk wl (Dev.charterKey d q c) := by
  unfold Dev.charterKey
  repeat' (first | with_reducible assumption | (with_reducible intro _) | with_reducible apply Dev.each_good | with_reducible apply Dev.when_good | with_reducible apply Dev.modCharter_good | with_reducible apply Dev.succeed_good | with_reducible apply Dev.failCmd_good | split | (refine Dev.good_iff.mpr ?_; dsimp only; refine Dev.good_iff.mp ?_))

theorem Dev.charterKeyHead_good {d : Dev} (h : Dev.Good mm lk wl d) (q : Nat) : Dev.Good mm lk wl (Dev.charterKeyHead d q) := by
  unfold Dev.charterKeyHead
  repeat' (first | with_reducible assumption | (with_reducible intro _) | with_reducible apply Dev.each_good | with_reducible apply Dev.when_good | with_reducible apply Dev.waitKey_good | with_reducible apply Dev.onHead_good | with_reducible apply Dev.charterKey_good | split | (refine Dev.good_iff.mpr ?_; dsimp only; refine Dev.good_iff.mp ?_))

theorem Dev.charterBind_good {d : Dev} (h : Dev.Good mm lk wl d) (q : Nat) (c : Cmd) (ctx : Nat) : Dev.Good mm lk wl (Dev.charterBind d q c ctx) := by
  unfold Dev.charterBind
  repeat' (first | with_reducible assumption | (with_reducible intro _) | with_reducible apply Dev.each_good | with_reducible apply Dev.when_good | with_reducible apply Dev.modCtx_good | with_reducible apply Dev.succeed_good | with_reducible apply Dev.failCmd_good | split | (refine Dev.good_iff.mpr ?_; dsimp only; refine Dev.good_iff.mp ?_))

theorem Dev.charterAdmit_good {d : Dev} (h : Dev.Good mm lk wl d) (q : Nat) (c : Cmd) (ctx : Nat) : Dev.Good mm lk wl (Dev.charterAdmit d q c ctx) := by
  unfold Dev.charterAdmit
  repeat' (first | with_reducible assumption | (with_reducible intro _) | with_reducible apply Dev.each_good | with_reducible apply Dev.when_good | with_reducible apply Dev.modFn_good | with_reducible apply Dev.succeed_good | with_reducible apply Dev.failCmd_good | split | (refine Dev.good_iff.mpr ?_; dsimp only; refine Dev.good_iff.mp ?_))

theorem Dev.stopInterface_good {d : Dev} (h : Dev.Good mm lk wl d) (fn : Nat) : Dev.Good mm lk wl (Dev.stopInterface d fn) := by
  unfold Dev.stopInterface
  repeat' (first | with_reducible assumption | (with_reducible intro _) | with_reducible apply Dev.each_good | with_reducible apply Dev.when_good | with_reducible apply Dev.modFn_good | with_reducible apply Dev.silenceFn_good | (refine Dev.good_iff.mpr ?_; dsimp only; refine Dev.good_iff.mp ?_))

theorem Dev.ideKm_good {d : Dev} (h : Dev.Good mm lk wl d) (m : IdeKm) : Dev.Good mm lk wl (Dev.ideKm d m) := by
  unfold Dev.ideKm
  repeat' (first | with_reducible assumption | (with_reducible intro _) | with_reducible apply Dev.each_good | with_reducible apply Dev.when_good | with_reducible apply Dev.modFn_good | with_reducible apply Dev.modTrust_good | with_reducible apply Dev.emit_good | split | (refine Dev.good_iff.mpr ?_; dsimp only; refine Dev.good_iff.mp ?_))

theorem Dev.onTransport_good {d : Dev} (h : Dev.Good mm lk wl d) (t : Nat) (f : Dev → Dev) (k : ∀ d, Dev.Good mm lk wl d → Dev.Good mm lk wl (f d)) :
    Dev.Good mm lk wl (d.onTransport t f) := by
  unfold Dev.onTransport
  repeat' (first | exact Mgmt.cancelUpdate_keeps | (exact fun _ h => h) | (exact fun _ => ⟨rfl, rfl, rfl⟩) | (exact fun _ => rfl) | (intro _; (repeat' split) <;> exact ⟨rfl, rfl, rfl⟩) | (intro _ h; (repeat' split) <;> exact h) | with_reducible assumption | (with_reducible intro _) | with_reducible apply Dev.each_good | with_reducible apply Dev.when_good | with_reducible apply k | with_reducible apply Dev.modMgmt_good | with_reducible exact OkR.error | with_reducible apply OkR.ok | with_reducible exact OkE.error | with_reducible apply OkE.ok | with_reducible exact OkO.none | with_reducible apply OkO.some | with_reducible exact OkOR.none | with_reducible apply OkOR.some | with_reducible refine OkR.elim ?_ (by assumption) | with_reducible refine OkE.elim ?_ (by assumption) | with_reducible refine OkO.elim ?_ (by assumption) | with_reducible refine OkOR.elim ?_ (by assumption) | with_reducible refine good_of_pair ?_ (by assumption) | with_reducible refine good_of_pair2 ?_ (by assumption) | with_reducible exact OkR.elim (by assumption) rfl | with_reducible exact OkE.elim (by assumption) rfl | with_reducible apply foldl_good | with_reducible apply foldl_pair_good | with_reducible apply foldl_okR | with_reducible apply foldl_okE | with_reducible apply foldl_okOR | with_reducible apply okOR_map | with_reducible apply okO_map | with_reducible exact OkO.elim (by assumption) rfl | with_reducible exact OkOR.elim (by assumption) rfl | split | (refine Dev.good_iff.mpr ?_; dsimp only; refine Dev.good_iff.mp ?_) | (refine Dev.good_iff.mpr ?_; dsimp only; refine good_clear (Dev.good_iff.mp ?_)) | (refine Dev.good_iff.mpr ?_; dsimp only; refine good_writeAll (Dev.good_iff.mp ?_)) | contradiction | dsimp only)

theorem Dev.spdm_good {d : Dev} (h : Dev.Good mm lk wl d) (t : Nat) (m : SpdmMsg) : Dev.Good mm lk wl (Dev.spdm d t m) := by
  unfold Dev.spdm
  repeat' (first | with_reducible assumption | (with_reducible intro _) | with_reducible apply Dev.each_good | with_reducible apply Dev.when_good | with_reducible apply Dev.modTrust_good | with_reducible apply Dev.emit_good | with_reducible apply Dev.finish_good | split | (refine Dev.good_iff.mpr ?_; dsimp only; refine Dev.good_iff.mp ?_))

theorem Dev.answerLc_good {d : Dev} (h : Dev.Good mm lk wl d) (code : Nat) : Dev.Good mm lk wl (Dev.answerLc d code) := by
  unfold Dev.answerLc
  repeat' (first | exact Mgmt.cancelUpdate_keeps | (exact fun _ h => h) | (exact fun _ => ⟨rfl, rfl, rfl⟩) | (exact fun _ => rfl) | (intro _; (repeat' split) <;> exact ⟨rfl, rfl, rfl⟩) | (intro _ h; (repeat' split) <;> exact h) | with_reducible assumption | (with_reducible intro _) | with_reducible apply Dev.each_good | with_reducible apply Dev.when_good | with_reducible apply Dev.modMgmt_good | with_reducible apply Dev.emit_good | split | (refine Dev.good_iff.mpr ?_; dsimp only; refine Dev.good_iff.mp ?_))

theorem Dev.endLife_good {d : Dev} (h : Dev.Good mm lk wl d) (code : Nat) (f : LifeCycle → LifeCycle) : Dev.Good mm lk wl (Dev.endLife d code f) := by
  unfold Dev.endLife
  repeat' (first | with_reducible assumption | with_reducible apply Dev.modLife_good | with_reducible apply Dev.errEvent_good | with_reducible apply Dev.finish_good | with_reducible apply Dev.answerLc_good)

theorem Dev.requestTransition_good {d : Dev} (h : Dev.Good mm lk wl d) (target : Nat) : Dev.Good mm lk wl (Dev.requestTransition d target) := by
  unfold Dev.requestTransition
  repeat' (first | with_reducible assumption | (with_reducible intro _) | with_reducible apply Dev.each_good | with_reducible apply Dev.when_good | with_reducible apply Dev.modLife_good | with_reducible apply Dev.endLife_good | split | (refine Dev.good_iff.mpr ?_; dsimp only; refine Dev.good_iff.mp ?_))

theorem Dev.drawRoot_good {d : Dev} (h : Dev.Good mm lk wl d) (b : Nat) : Dev.Good mm lk wl (Dev.drawRoot d b) := by
  unfold Dev.drawRoot
  repeat' (first | with_reducible assumption | with_reducible apply Dev.modLife_good | with_reducible apply Dev.draw_good)

theorem Dev.reconcile_good {d : Dev} (h : Dev.Good mm lk wl d) (t : Nat) : Dev.Good mm lk wl (Dev.reconcile d t) := by
  unfold Dev.reconcile
  repeat' (first | with_reducible assumption | (with_reducible intro _) | with_reducible apply Dev.each_good | with_reducible apply Dev.when_good | with_reducible apply Dev.modLife_good | with_reducible apply Dev.drawRoot_good | with_reducible exact OkR.error | with_reducible apply OkR.ok | with_reducible exact OkE.error | with_reducible apply OkE.ok | with_reducible exact OkO.none | with_reducible apply OkO.some | with_reducible exact OkOR.none | with_reducible apply OkOR.some | with_reducible refine OkR.elim ?_ (by assumption) | with_reducible refine OkE.elim ?_ (by assumption) | with_reducible refine OkO.elim ?_ (by assumption) | with_reducible refine OkOR.elim ?_ (by assumption) | with_reducible refine good_of_pair ?_ (by assumption) | with_reducible refine good_of_pair2 ?_ (by assumption) | with_reducible exact OkR.elim (by assumption) rfl | with_reducible exact OkE.elim (by assumption) rfl | with_reducible apply foldl_good | with_reducible apply foldl_pair_good | with_reducible apply foldl_okR | with_reducible apply foldl_okE | with_reducible apply foldl_okOR | with_reducible apply okOR_map | with_reducible apply okO_map | with_reducible exact OkO.elim (by assumption) rfl | with_reducible exact OkOR.elim (by assumption) rfl | split | (refine Dev.good_iff.mpr ?_; dsimp only; refine Dev.good_iff.mp ?_) | (refine Dev.good_iff.mpr ?_; dsimp only; refine good_clear (Dev.good_iff.mp ?_)) | (refine Dev.good_iff.mpr ?_; dsimp only; refine good_writeAll (Dev.good_iff.mp ?_)) | contradiction | dsimp only)

theorem Dev.bootLife_good {d : Dev} (h : Dev.Good mm lk wl d) : Dev.Good mm lk wl (Dev.bootLife d) := by
  unfold Dev.bootLife
  repeat' (first | with_reducible assumption | (with_reducible intro _) | with_reducible apply Dev.each_good | with_reducible apply Dev.when_good | with_reducible apply Dev.modLife_good | with_reducible apply Dev.draw_good | with_reducible apply Dev.reconcile_good | (refine Dev.good_iff.mpr ?_; dsimp only; refine Dev.good_iff.mp ?_))

theorem Dev.debugOpen_good {d : Dev} (h : Dev.Good mm lk wl d) : Dev.Good mm lk wl (Dev.debugOpen d) := by
  unfold Dev.debugOpen
  repeat' (first | with_reducible assumption | (with_reducible intro _) | with_reducible apply Dev.each_good | with_reducible apply Dev.when_good | with_reducible apply Dev.endLife_good | split | (refine Dev.good_iff.mpr ?_; dsimp only; refine Dev.good_iff.mp ?_))

theorem Dev.debugClose_good {d : Dev} (h : Dev.Good mm lk wl d) : Dev.Good mm lk wl (Dev.debugClose d) := by
  unfold Dev.debugClose
  repeat' (first | with_reducible assumption | (with_reducible intro _) | with_reducible apply Dev.each_good | with_reducible apply Dev.when_good | with_reducible apply Dev.endLife_good | split | (refine Dev.good_iff.mpr ?_; dsimp only; refine Dev.good_iff.mp ?_))

theorem Dev.takePoints_good {d : Dev} (h : Dev.Good mm lk wl d) : Dev.Good mm lk wl (Dev.takePoints d).1 := by
  unfold Dev.takePoints
  repeat' (first | with_reducible assumption | with_reducible apply Dev.modPower_good)

theorem Dev.setOppoint_good {d : Dev} (h : Dev.Good mm lk wl d) (q : Nat) (c : Cmd) : Dev.Good mm lk wl (Dev.setOppoint d q c) := by
  unfold Dev.setOppoint
  repeat' (first | with_reducible assumption | (with_reducible intro _) | with_reducible apply Dev.each_good | with_reducible apply Dev.when_good | with_reducible apply Dev.modTile_good | with_reducible apply Dev.modPower_good | with_reducible apply Dev.finish_good | with_reducible apply Dev.failCmd_good | with_reducible apply Dev.takePoints_good | split | (refine Dev.good_iff.mpr ?_; dsimp only; refine Dev.good_iff.mp ?_))

theorem Dev.powerReading_good {d : Dev} (h : Dev.Good mm lk wl d) (p : PowerReading) : Dev.Good mm lk wl (Dev.powerReading d p) := by
  unfold Dev.powerReading
  repeat' (first | with_reducible assumption | (with_reducible intro _) | with_reducible apply Dev.each_good | with_reducible apply Dev.when_good | with_reducible apply Dev.modTile_good | with_reducible apply Dev.modPower_good | (refine Dev.good_iff.mpr ?_; dsimp only; refine Dev.good_iff.mp ?_))

theorem Dev.gateTile_good {d : Dev} (h : Dev.Good mm lk wl d) (t : Nat) : Dev.Good mm lk wl (Dev.gateTile d t) := by
  unfold Dev.gateTile
  repeat' (first | with_reducible assumption | (with_reducible intro _) | with_reducible apply Dev.each_good | with_reducible apply Dev.when_good | with_reducible apply Dev.modTile_good | split | (refine Dev.good_iff.mpr ?_; dsimp only; refine Dev.good_iff.mp ?_))

theorem Dev.refreshStacks_good {d : Dev} (h : Dev.Good mm lk wl d) (l : List (Nat × Nat)) : Dev.Good mm lk wl (Dev.refreshStacks d l) := by
  unfold Dev.refreshStacks
  repeat' (first | with_reducible assumption | (with_reducible intro _) | with_reducible apply Dev.each_good | with_reducible apply Dev.when_good | with_reducible apply Dev.modHub_good | (refine Dev.good_iff.mpr ?_; dsimp only; refine Dev.good_iff.mp ?_))

theorem Dev.thermalReading_good {d : Dev} (h : Dev.Good mm lk wl d) (r : ThermalReading) : Dev.Good mm lk wl (Dev.thermalReading d r) := by
  unfold Dev.thermalReading
  repeat' (first | with_reducible assumption | (with_reducible intro _) | with_reducible apply Dev.each_good | with_reducible apply Dev.when_good | with_reducible apply Dev.modTile_good | with_reducible apply Dev.modDike_good | with_reducible apply Dev.modPower_good | with_reducible apply Dev.errEvent_good | with_reducible apply Dev.dwEvent_good | with_reducible apply Dev.gateTile_good | with_reducible apply Dev.refreshStacks_good | split | (refine Dev.good_iff.mpr ?_; dsimp only; refine Dev.good_iff.mp ?_))

theorem Dev.lowerForCap_good {d : Dev} (h : Dev.Good mm lk wl d) (ts : List Nat) (mw : Frac) : Dev.Good mm lk wl (d.lowerForCap ts mw) := by
  induction ts generalizing d mw with
  | nil =>
    unfold Dev.lowerForCap
    repeat' (first | with_reducible assumption | with_reducible apply Dev.modTile_good)
  | cons t ts ih =>
    unfold Dev.lowerForCap
    repeat' (first | with_reducible assumption | (with_reducible intro _) | with_reducible apply Dev.each_good | with_reducible apply Dev.when_good | with_reducible apply ih | with_reducible apply Dev.modTile_good | with_reducible exact OkR.error | with_reducible apply OkR.ok | with_reducible exact OkE.error | with_reducible apply OkE.ok | with_reducible exact OkO.none | with_reducible apply OkO.some | with_reducible exact OkOR.none | with_reducible apply OkOR.some | with_reducible refine OkR.elim ?_ (by assumption) | with_reducible refine OkE.elim ?_ (by assumption) | with_reducible refine OkO.elim ?_ (by assumption) | with_reducible refine OkOR.elim ?_ (by assumption) | with_reducible refine good_of_pair ?_ (by assumption) | with_reducible refine good_of_pair2 ?_ (by assumption) | with_reducible exact OkR.elim (by assumption) rfl | with_reducible exact OkE.elim (by assumption) rfl | with_reducible apply foldl_good | with_reducible apply foldl_pair_good | with_reducible apply foldl_okR | with_reducible apply foldl_okE | with_reducible apply foldl_okOR | with_reducible apply okOR_map | with_reducible apply okO_map | with_reducible exact OkO.elim (by assumption) rfl | with_reducible exact OkOR.elim (by assumption) rfl | split | (refine Dev.good_iff.mpr ?_; dsimp only; refine Dev.good_iff.mp ?_) | (refine Dev.good_iff.mpr ?_; dsimp only; refine good_clear (Dev.good_iff.mp ?_)) | (refine Dev.good_iff.mpr ?_; dsimp only; refine good_writeAll (Dev.good_iff.mp ?_)) | contradiction | dsimp only)

theorem Dev.capAtEbb_good {d : Dev} (h : Dev.Good mm lk wl d) : Dev.Good mm lk wl (Dev.capAtEbb d) := by
  unfold Dev.capAtEbb
  repeat' (first | with_reducible assumption | (with_reducible intro _) | with_reducible apply Dev.each_good | with_reducible apply Dev.when_good | with_reducible apply Dev.modPower_good | with_reducible apply Dev.logEvent_good | with_reducible apply Dev.errEvent_good | with_reducible apply Dev.lowerForCap_good | split | (refine Dev.good_iff.mpr ?_; dsimp only; refine Dev.good_iff.mp ?_))

theorem Dev.heatTile_good {d : Dev} (h : Dev.Good mm lk wl d) (t : Nat) : Dev.Good mm lk wl (Dev.heatTile d t) := by
  unfold Dev.heatTile
  repeat' (first | with_reducible assumption | (with_reducible intro _) | with_reducible apply Dev.each_good | with_reducible apply Dev.when_good | with_reducible apply Dev.modTile_good | with_reducible apply Dev.logEvent_good | split | (refine Dev.good_iff.mpr ?_; dsimp only; refine Dev.good_iff.mp ?_))

theorem Dev.easeTile_good {d : Dev} (h : Dev.Good mm lk wl d) (t : Nat) : Dev.Good mm lk wl (Dev.easeTile d t) := by
  unfold Dev.easeTile
  repeat' (first | with_reducible assumption | (with_reducible intro _) | with_reducible apply Dev.each_good | with_reducible apply Dev.when_good | with_reducible apply Dev.modTile_good | split | (refine Dev.good_iff.mpr ?_; dsimp only; refine Dev.good_iff.mp ?_))

theorem Dev.movePoint_good {d : Dev} (h : Dev.Good mm lk wl d) (t p : Nat) : Dev.Good mm lk wl (Dev.movePoint d t p) := by
  unfold Dev.movePoint
  repeat' (first | with_reducible assumption | with_reducible apply Dev.modTile_good | with_reducible apply Dev.emit_good)

theorem Dev.refuseRaise_good {d : Dev} (h : Dev.Good mm lk wl d) (t code : Nat) : Dev.Good mm lk wl (Dev.refuseRaise d t code) := by
  unfold Dev.refuseRaise
  repeat' (first | with_reducible assumption | (with_reducible intro _) | with_reducible apply Dev.each_good | with_reducible apply Dev.when_good | with_reducible apply Dev.modPlan_good | (refine Dev.good_iff.mpr ?_; dsimp only; refine Dev.good_iff.mp ?_))

theorem Dev.clearRaises_good {d : Dev} (h : Dev.Good mm lk wl d) : Dev.Good mm lk wl (Dev.clearRaises d) := by
  unfold Dev.clearRaises
  repeat' (first | with_reducible assumption | (with_reducible intro _) | with_reducible apply Dev.each_good | with_reducible apply Dev.when_good | with_reducible apply Dev.modPlan_good)

theorem Dev.stepTile_good {d : Dev} (h : Dev.Good mm lk wl d) (mw : Frac) (t : Nat) : Dev.Good mm lk wl (Dev.stepTile d mw t).1 := by
  unfold Dev.stepTile
  repeat' (first | with_reducible assumption | (with_reducible intro _) | with_reducible apply Dev.each_good | with_reducible apply Dev.when_good | with_reducible apply Dev.modTile_good | with_reducible apply Dev.movePoint_good | with_reducible apply Dev.refuseRaise_good | split | (refine Dev.good_iff.mpr ?_; dsimp only; refine Dev.good_iff.mp ?_))

theorem Dev.trimTile_good {d : Dev} (h : Dev.Good mm lk wl d) (t : Nat) : Dev.Good mm lk wl (Dev.trimTile d t) := by
  unfold Dev.trimTile
  repeat' (first | with_reducible assumption | with_reducible apply Dev.modTile_good)

theorem Dev.opStep_good {d : Dev} (h : Dev.Good mm lk wl d) : Dev.Good mm lk wl (Dev.opStep d).1 := by
  unfold Dev.opStep
  repeat' (first | with_reducible assumption | (with_reducible intro _) | with_reducible apply Dev.each_good | with_reducible apply Dev.when_good | with_reducible apply Dev.takePoints_good | with_reducible apply Dev.capAtEbb_good | with_reducible apply Dev.heatTile_good | with_reducible apply Dev.easeTile_good | with_reducible apply Dev.clearRaises_good | with_reducible apply Dev.stepTile_good | with_reducible apply Dev.trimTile_good | with_reducible exact OkR.error | with_reducible apply OkR.ok | with_reducible exact OkE.error | with_reducible apply OkE.ok | with_reducible exact OkO.none | with_reducible apply OkO.some | with_reducible exact OkOR.none | with_reducible apply OkOR.some | with_reducible refine OkR.elim ?_ (by assumption) | with_reducible refine OkE.elim ?_ (by assumption) | with_reducible refine OkO.elim ?_ (by assumption) | with_reducible refine OkOR.elim ?_ (by assumption) | with_reducible refine good_of_pair ?_ (by assumption) | with_reducible refine good_of_pair2 ?_ (by assumption) | with_reducible exact OkR.elim (by assumption) rfl | with_reducible exact OkE.elim (by assumption) rfl | with_reducible apply foldl_good | with_reducible apply foldl_pair_good | with_reducible apply foldl_okR | with_reducible apply foldl_okE | with_reducible apply foldl_okOR | with_reducible apply okOR_map | with_reducible apply okO_map | with_reducible exact OkO.elim (by assumption) rfl | with_reducible exact OkOR.elim (by assumption) rfl | split | (refine Dev.good_iff.mpr ?_; dsimp only; refine Dev.good_iff.mp ?_) | (refine Dev.good_iff.mpr ?_; dsimp only; refine good_clear (Dev.good_iff.mp ?_)) | (refine Dev.good_iff.mpr ?_; dsimp only; refine good_writeAll (Dev.good_iff.mp ?_)) | contradiction | dsimp only)

theorem Dev.sensorEvents_good (before : Dev) {d : Dev} (h : Dev.Good mm lk wl d) : Dev.Good mm lk wl (before.sensorEvents d) := by
  unfold Dev.sensorEvents
  repeat' (first | with_reducible assumption | (with_reducible intro _) | with_reducible apply Dev.each_good | with_reducible apply Dev.when_good | with_reducible apply Dev.emit_good | split | (refine Dev.good_iff.mpr ?_; dsimp only; refine Dev.good_iff.mp ?_))

theorem Dev.relocate_good {d : Dev} (h : Dev.Good mm lk wl d) (h n : Nat) : Dev.Good mm lk wl (Dev.relocate d h n) := by
  unfold Dev.relocate
  repeat' (first | with_reducible assumption | (with_reducible intro _) | with_reducible apply Dev.each_good | with_reducible apply Dev.when_good | with_reducible apply Dev.modExtent_good | with_reducible apply Dev.modFlash_good | with_reducible exact OkR.error | with_reducible apply OkR.ok | with_reducible exact OkE.error | with_reducible apply OkE.ok | with_reducible exact OkO.none | with_reducible apply OkO.some | with_reducible exact OkOR.none | with_reducible apply OkOR.some | with_reducible refine OkR.elim ?_ (by assumption) | with_reducible refine OkE.elim ?_ (by assumption) | with_reducible refine OkO.elim ?_ (by assumption) | with_reducible refine OkOR.elim ?_ (by assumption) | with_reducible refine good_of_pair ?_ (by assumption) | with_reducible refine good_of_pair2 ?_ (by assumption) | with_reducible exact OkR.elim (by assumption) rfl | with_reducible exact OkE.elim (by assumption) rfl | with_reducible apply foldl_good | with_reducible apply foldl_pair_good | with_reducible apply foldl_okR | with_reducible apply foldl_okE | with_reducible apply foldl_okOR | with_reducible apply okOR_map | with_reducible apply okO_map | with_reducible exact OkO.elim (by assumption) rfl | with_reducible exact OkOR.elim (by assumption) rfl | split | (refine Dev.good_iff.mpr ?_; dsimp only; refine Dev.good_iff.mp ?_) | (refine Dev.good_iff.mpr ?_; dsimp only; refine good_clear (Dev.good_iff.mp ?_)) | (refine Dev.good_iff.mpr ?_; dsimp only; refine good_writeAll (Dev.good_iff.mp ?_)) | contradiction | dsimp only)

theorem Dev.startPromotion_good {d : Dev} (h : Dev.Good none lk wl d) (e : Nat) : Dev.Good none lk wl (Dev.startPromotion d e) := by
  unfold Dev.startPromotion
  repeat' (first | with_reducible assumption | (with_reducible intro _) | with_reducible apply Dev.each_good | with_reducible apply Dev.when_good | with_reducible apply Dev.modCtx_good | with_reducible apply Dev.modExtent_good | with_reducible apply Dev.modFlash_good | with_reducible apply Dev.takeCopy_good | with_reducible exact OkR.error | with_reducible apply OkR.ok | with_reducible exact OkE.error | with_reducible apply OkE.ok | with_reducible exact OkO.none | with_reducible apply OkO.some | with_reducible exact OkOR.none | with_reducible apply OkOR.some | with_reducible refine OkR.elim ?_ (by assumption) | with_reducible refine OkE.elim ?_ (by assumption) | with_reducible refine OkO.elim ?_ (by assumption) | with_reducible refine OkOR.elim ?_ (by assumption) | with_reducible refine good_of_pair ?_ (by assumption) | with_reducible refine good_of_pair2 ?_ (by assumption) | with_reducible exact OkR.elim (by assumption) rfl | with_reducible exact OkE.elim (by assumption) rfl | with_reducible apply foldl_good | with_reducible apply foldl_pair_good | with_reducible apply foldl_okR | with_reducible apply foldl_okE | with_reducible apply foldl_okOR | with_reducible apply okOR_map | with_reducible apply okO_map | with_reducible exact OkO.elim (by assumption) rfl | with_reducible exact OkOR.elim (by assumption) rfl | split | (refine Dev.good_iff.mpr ?_; dsimp only; refine Dev.good_iff.mp ?_) | (refine Dev.good_iff.mpr ?_; dsimp only; refine good_clear (Dev.good_iff.mp ?_)) | (refine Dev.good_iff.mpr ?_; dsimp only; refine good_writeAll (Dev.good_iff.mp ?_)) | contradiction | dsimp only)

theorem Dev.endPromotion_good {d : Dev} (h : Dev.Good none lk wl d) (e : Nat) : Dev.Good none lk wl (Dev.endPromotion d e) := by
  unfold Dev.endPromotion
  repeat' (first | with_reducible assumption | (with_reducible intro _) | with_reducible apply Dev.each_good | with_reducible apply Dev.when_good | with_reducible apply Dev.modExtent_good | with_reducible apply Dev.modDike_good | with_reducible apply Dev.openFrame_good | with_reducible apply Dev.writeMem_good | with_reducible apply Dev.applyReleases_good | with_reducible apply Dev.retryStages_good | split | (refine Dev.good_iff.mpr ?_; dsimp only; refine Dev.good_iff.mp ?_))

theorem Dev.failWaiting_good {d : Dev} (h : Dev.Good mm lk wl d) (e id : Nat) : Dev.Good mm lk wl (Dev.failWaiting d e id) := by
  unfold Dev.failWaiting
  repeat' (first | with_reducible assumption | (with_reducible intro _) | with_reducible apply Dev.each_good | with_reducible apply Dev.when_good | split | (refine Dev.good_iff.mpr ?_; dsimp only; refine Dev.good_iff.mp ?_))

theorem Dev.loseExtent_good {d : Dev} (h : Dev.Good none lk wl d) (e : Nat) : Dev.Good none lk wl (Dev.loseExtent d e) := by
  unfold Dev.loseExtent
  repeat' (first | with_reducible assumption | (with_reducible intro _) | with_reducible apply Dev.each_good | with_reducible apply Dev.when_good | with_reducible apply Dev.modExtent_good | with_reducible apply Dev.dropCopy_good | with_reducible apply Dev.applyReleases_good | with_reducible apply Dev.retryStages_good | with_reducible apply Dev.failWaiting_good | split | (refine Dev.good_iff.mpr ?_; dsimp only; refine Dev.good_iff.mp ?_))

theorem Dev.settleFails_good {d : Dev} (h : Dev.Good mm lk wl d) (e code : Nat) : Dev.Good mm lk wl (Dev.settleFails d e code) := by
  unfold Dev.settleFails
  repeat' (first | with_reducible assumption | (with_reducible intro _) | with_reducible apply Dev.each_good | with_reducible apply Dev.when_good | with_reducible apply Dev.modExtent_good | with_reducible apply Dev.failCmd_good | split | (refine Dev.good_iff.mpr ?_; dsimp only; refine Dev.good_iff.mp ?_))

theorem Dev.startSettlement_good {d : Dev} (h : Dev.Good mm lk wl d) (e : Nat) : Dev.Good mm lk wl (Dev.startSettlement d e) := by
  unfold Dev.startSettlement
  repeat' (first | with_reducible assumption | (with_reducible intro _) | with_reducible apply Dev.each_good | with_reducible apply Dev.when_good | with_reducible apply Dev.modExtent_good | with_reducible apply Dev.modFlash_good | with_reducible apply Dev.settleFails_good | split | (refine Dev.good_iff.mpr ?_; dsimp only; refine Dev.good_iff.mp ?_))

theorem Dev.settleStagers_good {d : Dev} (h : Dev.Good mm lk wl d) (e : Nat) : Dev.Good mm lk wl (Dev.settleStagers d e) := by
  unfold Dev.settleStagers
  repeat' (first | with_reducible assumption | (with_reducible intro _) | with_reducible apply Dev.each_good | with_reducible apply Dev.when_good | with_reducible apply Dev.modExtent_good | with_reducible apply Dev.succeed_good | split | (refine Dev.good_iff.mpr ?_; dsimp only; refine Dev.good_iff.mp ?_))

theorem Dev.endSettlement_good {d : Dev} (h : Dev.Good none lk wl d) (e : Nat) : Dev.Good none lk wl (Dev.endSettlement d e) := by
  unfold Dev.endSettlement
  repeat' (first | with_reducible assumption | (with_reducible intro _) | with_reducible apply Dev.each_good | with_reducible apply Dev.when_good | with_reducible apply Dev.modCtx_good | with_reducible apply Dev.modExtent_good | with_reducible apply Dev.modFlash_good | with_reducible apply Dev.applyReleases_good | with_reducible apply Dev.mirrorCells_good | with_reducible apply Dev.retryStages_good | with_reducible apply Dev.settleFails_good | with_reducible apply Dev.settleStagers_good | split | (refine Dev.good_iff.mpr ?_; dsimp only; refine Dev.good_iff.mp ?_))

theorem Dev.settleAtEbb_good {d : Dev} (h : Dev.Good mm lk wl d) : Dev.Good mm lk wl (Dev.settleAtEbb d) := by
  unfold Dev.settleAtEbb
  repeat' (first | with_reducible assumption | (with_reducible intro _) | with_reducible apply Dev.each_good | with_reducible apply Dev.when_good | with_reducible apply Dev.startSettlement_good | split | (refine Dev.good_iff.mpr ?_; dsimp only; refine Dev.good_iff.mp ?_))

theorem Dev.useSlot_good {d : Dev} (h : Dev.Good mm lk wl d) (c slot : Nat) : Dev.Good mm lk wl (Dev.useSlot d c slot) := by
  unfold Dev.useSlot
  repeat' (first | exact Mgmt.cancelUpdate_keeps | (exact fun _ h => h) | (exact fun _ => ⟨rfl, rfl, rfl⟩) | (exact fun _ => rfl) | (intro _; (repeat' split) <;> exact ⟨rfl, rfl, rfl⟩) | (intro _ h; (repeat' split) <;> exact h) | with_reducible assumption | with_reducible apply Dev.modMgmt_good | with_reducible apply Dev.modTrust_good)

theorem Dev.swapSlot_good {d : Dev} (h : Dev.Good mm lk wl d) (c : Nat) : Dev.Good mm lk wl (Dev.swapSlot d c) := by
  unfold Dev.swapSlot
  repeat' (first | with_reducible assumption | (with_reducible intro _) | with_reducible apply Dev.each_good | with_reducible apply Dev.when_good | with_reducible apply Dev.modTrust_good | with_reducible apply Dev.useSlot_good | split | (refine Dev.good_iff.mpr ?_; dsimp only; refine Dev.good_iff.mp ?_))

theorem Dev.swapFirmware_good {d : Dev} (h : Dev.Good mm lk wl d) : Dev.Good mm lk wl (Dev.swapFirmware d) := by
  unfold Dev.swapFirmware
  repeat' (first | exact Mgmt.cancelUpdate_keeps | (exact fun _ h => h) | (exact fun _ => ⟨rfl, rfl, rfl⟩) | (exact fun _ => rfl) | (intro _; (repeat' split) <;> exact ⟨rfl, rfl, rfl⟩) | (intro _ h; (repeat' split) <;> exact h) | with_reducible assumption | (with_reducible intro _) | with_reducible apply Dev.each_good | with_reducible apply Dev.when_good | with_reducible apply Dev.modMgmt_good | with_reducible apply Dev.swapSlot_good | split | (refine Dev.good_iff.mpr ?_; dsimp only; refine Dev.good_iff.mp ?_))

theorem Dev.applyMgmt_good {d : Dev} (h : Dev.Good mm lk wl d) : Dev.Good mm lk wl (Dev.applyMgmt d) := by
  unfold Dev.applyMgmt
  repeat' (first | exact Mgmt.cancelUpdate_keeps | (exact fun _ h => h) | (exact fun _ => ⟨rfl, rfl, rfl⟩) | (exact fun _ => rfl) | (intro _; (repeat' split) <;> exact ⟨rfl, rfl, rfl⟩) | (intro _ h; (repeat' split) <;> exact h) | with_reducible assumption | with_reducible apply Dev.modMgmt_good)

theorem Dev.counterRecords_good {d : Dev} (h : Dev.Good mm lk wl d) : Dev.Good mm lk wl (Dev.counterRecords d) := by
  unfold Dev.counterRecords
  refine Dev.each_good (Dev.each_good (Dev.each_good h fun d c hd => Dev.modMgmt_good hd fun x => ?_) fun d c hd => Dev.modCtx_good hd ..)
    fun d c hd => Dev.modCtx_good hd ..
  dsimp only
  exact ⟨rfl, rfl, rfl⟩

theorem Dev.verificationClose_good {d : Dev} (h : Dev.Good mm lk wl d) : Dev.Good mm lk wl (Dev.verificationClose d) := by
  unfold Dev.verificationClose
  repeat' (first | with_reducible assumption | with_reducible apply Dev.modTide_good | with_reducible apply Dev.closeHorizons_good | with_reducible apply Dev.openGates_good)

theorem Dev.settleAll_good {d : Dev} (h : Dev.Good none lk wl d) : Dev.Good none lk wl (Dev.settleAll d).1 := by
  unfold Dev.settleAll
  repeat' (first | with_reducible assumption | (with_reducible intro _) | with_reducible apply Dev.each_good | with_reducible apply Dev.when_good | with_reducible apply Dev.settleCtx_good | with_reducible exact OkR.error | with_reducible apply OkR.ok | with_reducible exact OkE.error | with_reducible apply OkE.ok | with_reducible exact OkO.none | with_reducible apply OkO.some | with_reducible exact OkOR.none | with_reducible apply OkOR.some | with_reducible refine OkR.elim ?_ (by assumption) | with_reducible refine OkE.elim ?_ (by assumption) | with_reducible refine OkO.elim ?_ (by assumption) | with_reducible refine OkOR.elim ?_ (by assumption) | with_reducible refine good_of_pair ?_ (by assumption) | with_reducible refine good_of_pair2 ?_ (by assumption) | with_reducible exact OkR.elim (by assumption) rfl | with_reducible exact OkE.elim (by assumption) rfl | with_reducible apply foldl_good | with_reducible apply foldl_pair_good | with_reducible apply foldl_okR | with_reducible apply foldl_okE | with_reducible apply foldl_okOR | with_reducible apply okOR_map | with_reducible apply okO_map | with_reducible exact OkO.elim (by assumption) rfl | with_reducible exact OkOR.elim (by assumption) rfl | split | (refine Dev.good_iff.mpr ?_; dsimp only; refine Dev.good_iff.mp ?_) | (refine Dev.good_iff.mpr ?_; dsimp only; refine good_clear (Dev.good_iff.mp ?_)) | (refine Dev.good_iff.mpr ?_; dsimp only; refine good_writeAll (Dev.good_iff.mp ?_)) | contradiction | dsimp only)

theorem Dev.ebbCompletions_good {d : Dev} (h : Dev.Good mm lk wl d) (ops : List FenceOp) : Dev.Good mm lk wl (Dev.ebbCompletions d ops) := by
  unfold Dev.ebbCompletions
  repeat' (first | with_reducible assumption | with_reducible apply Dev.endAll_good | with_reducible apply Dev.takeDone_good | with_reducible apply Dev.groupsAtEbb_good | with_reducible apply Dev.unloadDue_good | with_reducible apply Dev.drainsAtEbb_good | with_reducible apply Dev.counterRecords_good)

theorem Dev.ebbPoints_good {d : Dev} (h : Dev.Good mm lk wl d) : Dev.Good mm lk wl (Dev.ebbPoints d) := by
  unfold Dev.ebbPoints
  repeat' (first | with_reducible assumption | with_reducible apply Dev.endAll_good | with_reducible apply Dev.opStep_good)

theorem Dev.afterActions_good {d : Dev} (h : Dev.Good mm lk wl d) : Dev.Good mm lk wl (Dev.afterActions d) := by
  unfold Dev.afterActions
  repeat' (first | with_reducible assumption | (with_reducible intro _) | with_reducible apply Dev.each_good | with_reducible apply Dev.when_good | with_reducible apply Dev.quotaAtEbb_good | with_reducible apply Dev.dropPorts_good | with_reducible apply Dev.rewriteRoutes_good | with_reducible apply Dev.tilesReturn_good | with_reducible apply Dev.repairRows_good | with_reducible apply Dev.rerouteSeams_good | with_reducible apply Dev.dikeAtEbb_good | with_reducible apply Dev.settleAtEbb_good | with_reducible apply Dev.swapFirmware_good | with_reducible apply Dev.applyMgmt_good | with_reducible exact OkR.error | with_reducible apply OkR.ok | with_reducible exact OkE.error | with_reducible apply OkE.ok | with_reducible exact OkO.none | with_reducible apply OkO.some | with_reducible exact OkOR.none | with_reducible apply OkOR.some | with_reducible refine OkR.elim ?_ (by assumption) | with_reducible refine OkE.elim ?_ (by assumption) | with_reducible refine OkO.elim ?_ (by assumption) | with_reducible refine OkOR.elim ?_ (by assumption) | with_reducible refine good_of_pair ?_ (by assumption) | with_reducible refine good_of_pair2 ?_ (by assumption) | with_reducible exact OkR.elim (by assumption) rfl | with_reducible exact OkE.elim (by assumption) rfl | with_reducible apply foldl_good | with_reducible apply foldl_pair_good | with_reducible apply foldl_okR | with_reducible apply foldl_okE | with_reducible apply foldl_okOR | with_reducible apply okOR_map | with_reducible apply okO_map | with_reducible exact OkO.elim (by assumption) rfl | with_reducible exact OkOR.elim (by assumption) rfl | split | (refine Dev.good_iff.mpr ?_; dsimp only; refine Dev.good_iff.mp ?_) | (refine Dev.good_iff.mpr ?_; dsimp only; refine good_clear (Dev.good_iff.mp ?_)) | (refine Dev.good_iff.mpr ?_; dsimp only; refine good_writeAll (Dev.good_iff.mp ?_)) | contradiction | dsimp only)

theorem Dev.startDrains_good {d : Dev} (h : Dev.Good mm lk wl d) : Dev.Good mm lk wl (Dev.startDrains d) := by
  unfold Dev.startDrains
  repeat' (first | with_reducible assumption | (with_reducible intro _) | with_reducible apply Dev.each_good | with_reducible apply Dev.when_good | with_reducible apply Dev.modHaven_good | with_reducible apply Dev.havenDrain_good)

theorem Dev.finishEbb_good {d : Dev} (h : Dev.Good mm lk wl d) : Dev.Good mm lk wl (Dev.finishEbb d) := by
  unfold Dev.finishEbb
  repeat' (first | with_reducible assumption | with_reducible apply Dev.modTide_good | with_reducible apply Dev.ebbKeys_good | with_reducible apply Dev.holdCharters_good | with_reducible apply Dev.ebbPoints_good | with_reducible apply Dev.afterActions_good | with_reducible apply Dev.startDrains_good)

theorem Dev.restOfEbb_good {d : Dev} (h : Dev.Good mm lk wl d) : Dev.Good mm lk wl (Dev.restOfEbb d) := by
  unfold Dev.restOfEbb
  repeat' (first | with_reducible assumption | (with_reducible intro _) | with_reducible apply Dev.finishEbb_good | split)

theorem Dev.afterFreezes_good {d : Dev} (h : Dev.Good mm lk wl d) : Dev.Good mm lk wl (Dev.afterFreezes d) := by
  unfold Dev.afterFreezes
  repeat' (first | with_reducible assumption | (with_reducible intro _) | with_reducible apply Dev.restOfEbb_good | split)

theorem Dev.ebbActions_good {d : Dev} (h : Dev.Good none lk wl d) : Dev.Good none lk wl (Dev.ebbActions d) := by
  unfold Dev.ebbActions
  repeat' (first | with_reducible assumption | with_reducible apply Dev.modTide_good | with_reducible apply Dev.spillAll_good | with_reducible apply Dev.passDeadlines_good | with_reducible apply Dev.detachRegions_good | with_reducible apply Dev.voteAtEbb_good | with_reducible apply Dev.switchRestores_good | with_reducible apply Dev.rollbacks_good | with_reducible apply Dev.systemLostAtEbb_good | with_reducible apply Dev.verificationClose_good | with_reducible apply Dev.settleAll_good | with_reducible apply Dev.ebbCompletions_good | with_reducible apply Dev.afterFreezes_good)

theorem Dev.sendBeacon_good {d : Dev} (h : Dev.Good mm lk wl d) : Dev.Good mm lk wl (Dev.sendBeacon d) := by
  unfold Dev.sendBeacon
  repeat' (first | with_reducible assumption | (with_reducible intro _) | with_reducible apply Dev.each_good | with_reducible apply Dev.when_good | with_reducible apply Dev.modTide_good | with_reducible apply Dev.emit_good | split | (refine Dev.good_iff.mpr ?_; dsimp only; refine Dev.good_iff.mp ?_))

theorem Dev.floodStarts_good {d : Dev} (h : Dev.Good mm lk wl d) : Dev.Good mm lk wl (Dev.floodStarts d) := by
  unfold Dev.floodStarts
  repeat' (first | with_reducible assumption | (with_reducible intro _) | with_reducible apply Dev.each_good | with_reducible apply Dev.when_good | with_reducible apply Dev.modQueue_good | with_reducible apply Dev.modTile_good | with_reducible apply Dev.promoteDue_good | with_reducible apply Dev.startAll_good | with_reducible apply Dev.beginAtBoundary_good | with_reducible exact OkR.error | with_reducible apply OkR.ok | with_reducible exact OkE.error | with_reducible apply OkE.ok | with_reducible exact OkO.none | with_reducible apply OkO.some | with_reducible exact OkOR.none | with_reducible apply OkOR.some | with_reducible refine OkR.elim ?_ (by assumption) | with_reducible refine OkE.elim ?_ (by assumption) | with_reducible refine OkO.elim ?_ (by assumption) | with_reducible refine OkOR.elim ?_ (by assumption) | with_reducible refine good_of_pair ?_ (by assumption) | with_reducible refine good_of_pair2 ?_ (by assumption) | with_reducible exact OkR.elim (by assumption) rfl | with_reducible exact OkE.elim (by assumption) rfl | with_reducible apply foldl_good | with_reducible apply foldl_pair_good | with_reducible apply foldl_okR | with_reducible apply foldl_okE | with_reducible apply foldl_okOR | with_reducible apply okOR_map | with_reducible apply okO_map | with_reducible exact OkO.elim (by assumption) rfl | with_reducible exact OkOR.elim (by assumption) rfl | split | (refine Dev.good_iff.mpr ?_; dsimp only; refine Dev.good_iff.mp ?_) | (refine Dev.good_iff.mpr ?_; dsimp only; refine good_clear (Dev.good_iff.mp ?_)) | (refine Dev.good_iff.mpr ?_; dsimp only; refine good_writeAll (Dev.good_iff.mp ?_)) | contradiction | dsimp only)

theorem Dev.beginTide_good {d : Dev} (h : Dev.Good mm lk wl d) (n : Nat) : Dev.Good mm lk wl (Dev.beginTide d n) := by
  unfold Dev.beginTide
  repeat' (first | with_reducible assumption | (with_reducible intro _) | with_reducible apply Dev.each_good | with_reducible apply Dev.when_good | with_reducible apply Dev.modTide_good | with_reducible apply Dev.sendBeacon_good | with_reducible apply Dev.floodStarts_good | with_reducible exact OkR.error | with_reducible apply OkR.ok | with_reducible exact OkE.error | with_reducible apply OkE.ok | with_reducible exact OkO.none | with_reducible apply OkO.some | with_reducible exact OkOR.none | with_reducible apply OkOR.some | with_reducible refine OkR.elim ?_ (by assumption) | with_reducible refine OkE.elim ?_ (by assumption) | with_reducible refine OkO.elim ?_ (by assumption) | with_reducible refine OkOR.elim ?_ (by assumption) | with_reducible refine good_of_pair ?_ (by assumption) | with_reducible refine good_of_pair2 ?_ (by assumption) | with_reducible exact OkR.elim (by assumption) rfl | with_reducible exact OkE.elim (by assumption) rfl | with_reducible apply foldl_good | with_reducible apply foldl_pair_good | with_reducible apply foldl_okR | with_reducible apply foldl_okE | with_reducible apply foldl_okOR | with_reducible apply okOR_map | with_reducible apply okO_map | with_reducible exact OkO.elim (by assumption) rfl | with_reducible exact OkOR.elim (by assumption) rfl | split | (refine Dev.good_iff.mpr ?_; dsimp only; refine Dev.good_iff.mp ?_) | (refine Dev.good_iff.mpr ?_; dsimp only; refine good_clear (Dev.good_iff.mp ?_)) | (refine Dev.good_iff.mpr ?_; dsimp only; refine good_writeAll (Dev.good_iff.mp ?_)) | contradiction | dsimp only)

theorem Dev.drawHarbourKey_good {d : Dev} (h : Dev.Good mm lk wl d) : Dev.Good mm lk wl (Dev.drawHarbourKey d) := by
  unfold Dev.drawHarbourKey
  repeat' (first | exact Mgmt.cancelUpdate_keeps | (exact fun _ h => h) | (exact fun _ => ⟨rfl, rfl, rfl⟩) | (exact fun _ => rfl) | (intro _; (repeat' split) <;> exact ⟨rfl, rfl, rfl⟩) | (intro _ h; (repeat' split) <;> exact h) | with_reducible assumption | (with_reducible intro _) | with_reducible apply Dev.each_good | with_reducible apply Dev.when_good | with_reducible apply Dev.modFabric_good | with_reducible apply Dev.emit_good | with_reducible apply Dev.draw_good | with_reducible exact OkR.error | with_reducible apply OkR.ok | with_reducible exact OkE.error | with_reducible apply OkE.ok | with_reducible exact OkO.none | with_reducible apply OkO.some | with_reducible exact OkOR.none | with_reducible apply OkOR.some | with_reducible refine OkR.elim ?_ (by assumption) | with_reducible refine OkE.elim ?_ (by assumption) | with_reducible refine OkO.elim ?_ (by assumption) | with_reducible refine OkOR.elim ?_ (by assumption) | with_reducible refine good_of_pair ?_ (by assumption) | with_reducible refine good_of_pair2 ?_ (by assumption) | with_reducible exact OkR.elim (by assumption) rfl | with_reducible exact OkE.elim (by assumption) rfl | with_reducible apply foldl_good | with_reducible apply foldl_pair_good | with_reducible apply foldl_okR | with_reducible apply foldl_okE | with_reducible apply foldl_okOR | with_reducible apply okOR_map | with_reducible apply okO_map | with_reducible exact OkO.elim (by assumption) rfl | with_reducible exact OkOR.elim (by assumption) rfl | split | (refine Dev.good_iff.mpr ?_; dsimp only; refine Dev.good_iff.mp ?_) | (refine Dev.good_iff.mpr ?_; dsimp only; refine good_clear (Dev.good_iff.mp ?_)) | (refine Dev.good_iff.mpr ?_; dsimp only; refine good_writeAll (Dev.good_iff.mp ?_)) | contradiction | dsimp only)

theorem Dev.startTimer_good {d : Dev} (h : Dev.Good mm lk wl d) : Dev.Good mm lk wl (Dev.startTimer d) := by
  unfold Dev.startTimer
  repeat' (first | with_reducible assumption | (with_reducible intro _) | with_reducible apply Dev.each_good | with_reducible apply Dev.when_good | with_reducible apply Dev.modTide_good | with_reducible apply Dev.beginTide_good | with_reducible apply Dev.drawHarbourKey_good | with_reducible exact OkR.error | with_reducible apply OkR.ok | with_reducible exact OkE.error | with_reducible apply OkE.ok | with_reducible exact OkO.none | with_reducible apply OkO.some | with_reducible exact OkOR.none | with_reducible apply OkOR.some | with_reducible refine OkR.elim ?_ (by assumption) | with_reducible refine OkE.elim ?_ (by assumption) | with_reducible refine OkO.elim ?_ (by assumption) | with_reducible refine OkOR.elim ?_ (by assumption) | with_reducible refine good_of_pair ?_ (by assumption) | with_reducible refine good_of_pair2 ?_ (by assumption) | with_reducible exact OkR.elim (by assumption) rfl | with_reducible exact OkE.elim (by assumption) rfl | with_reducible apply foldl_good | with_reducible apply foldl_pair_good | with_reducible apply foldl_okR | with_reducible apply foldl_okE | with_reducible apply foldl_okOR | with_reducible apply okOR_map | with_reducible apply okO_map | with_reducible exact OkO.elim (by assumption) rfl | with_reducible exact OkOR.elim (by assumption) rfl | split | (refine Dev.good_iff.mpr ?_; dsimp only; refine Dev.good_iff.mp ?_) | (refine Dev.good_iff.mpr ?_; dsimp only; refine good_clear (Dev.good_iff.mp ?_)) | (refine Dev.good_iff.mpr ?_; dsimp only; refine good_writeAll (Dev.good_iff.mp ?_)) | contradiction | dsimp only)

theorem Dev.stopTimer_good {d : Dev} (h : Dev.Good mm lk wl d) : Dev.Good mm lk wl (Dev.stopTimer d) := by
  unfold Dev.stopTimer
  repeat' (first | with_reducible assumption | (with_reducible intro _) | with_reducible apply Dev.modTide_good | with_reducible apply Dev.swapFirmware_good | with_reducible apply Dev.applyMgmt_good | with_reducible exact OkR.error | with_reducible apply OkR.ok | with_reducible exact OkE.error | with_reducible apply OkE.ok | with_reducible exact OkO.none | with_reducible apply OkO.some | with_reducible exact OkOR.none | with_reducible apply OkOR.some | with_reducible refine OkR.elim ?_ (by assumption) | with_reducible refine OkE.elim ?_ (by assumption) | with_reducible refine OkO.elim ?_ (by assumption) | with_reducible refine OkOR.elim ?_ (by assumption) | split)

theorem Dev.relayBeacon_good {d : Dev} (h : Dev.Good mm lk wl d) (b : Beacon) : Dev.Good mm lk wl (Dev.relayBeacon d b) := by
  unfold Dev.relayBeacon
  repeat' (first | with_reducible assumption | (with_reducible intro _) | with_reducible apply Dev.each_good | with_reducible apply Dev.when_good | with_reducible apply Dev.modTide_good | with_reducible apply Dev.emit_good | with_reducible exact OkR.error | with_reducible apply OkR.ok | with_reducible exact OkE.error | with_reducible apply OkE.ok | with_reducible exact OkO.none | with_reducible apply OkO.some | with_reducible exact OkOR.none | with_reducible apply OkOR.some | with_reducible refine OkR.elim ?_ (by assumption) | with_reducible refine OkE.elim ?_ (by assumption) | with_reducible refine OkO.elim ?_ (by assumption) | with_reducible refine OkOR.elim ?_ (by assumption) | with_reducible refine good_of_pair ?_ (by assumption) | with_reducible refine good_of_pair2 ?_ (by assumption) | with_reducible exact OkR.elim (by assumption) rfl | with_reducible exact OkE.elim (by assumption) rfl | with_reducible apply foldl_good | with_reducible apply foldl_pair_good | with_reducible apply foldl_okR | with_reducible apply foldl_okE | with_reducible apply foldl_okOR | with_reducible apply okOR_map | with_reducible apply okO_map | with_reducible exact OkO.elim (by assumption) rfl | with_reducible exact OkOR.elim (by assumption) rfl | split | (refine Dev.good_iff.mpr ?_; dsimp only; refine Dev.good_iff.mp ?_) | (refine Dev.good_iff.mpr ?_; dsimp only; refine good_clear (Dev.good_iff.mp ?_)) | (refine Dev.good_iff.mpr ?_; dsimp only; refine good_writeAll (Dev.good_iff.mp ?_)) | contradiction | dsimp only)

theorem Dev.firstBeacon_good {d : Dev} (h : Dev.Good mm lk wl d) (b : Beacon) : Dev.Good mm lk wl (Dev.firstBeacon d b) := by
  unfold Dev.firstBeacon
  repeat' (first | with_reducible assumption | (with_reducible intro _) | with_reducible apply Dev.modTide_good | with_reducible apply Dev.emit_good | with_reducible apply Dev.beginTide_good | with_reducible exact OkR.error | with_reducible apply OkR.ok | with_reducible exact OkE.error | with_reducible apply OkE.ok | with_reducible exact OkO.none | with_reducible apply OkO.some | with_reducible exact OkOR.none | with_reducible apply OkOR.some | with_reducible refine OkR.elim ?_ (by assumption) | with_reducible refine OkE.elim ?_ (by assumption) | with_reducible refine OkO.elim ?_ (by assumption) | with_reducible refine OkOR.elim ?_ (by assumption) | split)

theorem Dev.yieldSource_good {d : Dev} (h : Dev.Good mm lk wl d) (b : Beacon) : Dev.Good mm lk wl (Dev.yieldSource d b) := by
  unfold Dev.yieldSource
  repeat' (first | with_reducible assumption | with_reducible apply Dev.modTide_good | with_reducible apply Dev.modDike_good | with_reducible apply Dev.logEvent_good)

theorem Dev.takeBeacon_good {d : Dev} (h : Dev.Good mm lk wl d) (b : Beacon) : Dev.Good mm lk wl (Dev.takeBeacon d b) := by
  unfold Dev.takeBeacon
  repeat' (first | with_reducible assumption | (with_reducible intro _) | with_reducible apply Dev.each_good | with_reducible apply Dev.when_good | with_reducible apply Dev.modTide_good | with_reducible apply Dev.firstBeacon_good | with_reducible apply Dev.yieldSource_good | with_reducible exact OkR.error | with_reducible apply OkR.ok | with_reducible exact OkE.error | with_reducible apply OkE.ok | with_reducible exact OkO.none | with_reducible apply OkO.some | with_reducible exact OkOR.none | with_reducible apply OkOR.some | with_reducible refine OkR.elim ?_ (by assumption) | with_reducible refine OkE.elim ?_ (by assumption) | with_reducible refine OkO.elim ?_ (by assumption) | with_reducible refine OkOR.elim ?_ (by assumption) | with_reducible refine good_of_pair ?_ (by assumption) | with_reducible refine good_of_pair2 ?_ (by assumption) | with_reducible exact OkR.elim (by assumption) rfl | with_reducible exact OkE.elim (by assumption) rfl | with_reducible apply foldl_good | with_reducible apply foldl_pair_good | with_reducible apply foldl_okR | with_reducible apply foldl_okE | with_reducible apply foldl_okOR | with_reducible apply okOR_map | with_reducible apply okO_map | with_reducible exact OkO.elim (by assumption) rfl | with_reducible exact OkOR.elim (by assumption) rfl | split | (refine Dev.good_iff.mpr ?_; dsimp only; refine Dev.good_iff.mp ?_) | (refine Dev.good_iff.mpr ?_; dsimp only; refine good_clear (Dev.good_iff.mp ?_)) | (refine Dev.good_iff.mpr ?_; dsimp only; refine good_writeAll (Dev.good_iff.mp ?_)) | contradiction | dsimp only)

theorem Dev.takeDecision_good {d : Dev} (h : Dev.Good none lk wl d) (job : Nat) (freeze : Bool) : Dev.Good none lk wl (Dev.takeDecision d job freeze) := by
  unfold Dev.takeDecision
  repeat' (first | with_reducible assumption | (with_reducible intro _) | with_reducible apply Dev.each_good | with_reducible apply Dev.when_good | with_reducible apply Dev.tellJob_good | with_reducible apply Dev.takeFreeze_good | with_reducible apply Dev.declineJob_good | with_reducible apply Dev.abandonJob_good | with_reducible apply Dev.afterFreezes_good | with_reducible exact OkR.error | with_reducible apply OkR.ok | with_reducible exact OkE.error | with_reducible apply OkE.ok | with_reducible exact OkO.none | with_reducible apply OkO.some | with_reducible exact OkOR.none | with_reducible apply OkOR.some | with_reducible refine OkR.elim ?_ (by assumption) | with_reducible refine OkE.elim ?_ (by assumption) | with_reducible refine OkO.elim ?_ (by assumption) | with_reducible refine OkOR.elim ?_ (by assumption) | with_reducible refine good_of_pair ?_ (by assumption) | with_reducible refine good_of_pair2 ?_ (by assumption) | with_reducible exact OkR.elim (by assumption) rfl | with_reducible exact OkE.elim (by assumption) rfl | with_reducible apply foldl_good | with_reducible apply foldl_pair_good | with_reducible apply foldl_okR | with_reducible apply foldl_okE | with_reducible apply foldl_okOR | with_reducible apply okOR_map | with_reducible apply okO_map | with_reducible exact OkO.elim (by assumption) rfl | with_reducible exact OkOR.elim (by assumption) rfl | split | (refine Dev.good_iff.mpr ?_; dsimp only; refine Dev.good_iff.mp ?_) | (refine Dev.good_iff.mpr ?_; dsimp only; refine good_clear (Dev.good_iff.mp ?_)) | (refine Dev.good_iff.mpr ?_; dsimp only; refine good_writeAll (Dev.good_iff.mp ?_)) | contradiction | dsimp only)

theorem Dev.clockLossRuns_good {d : Dev} (h : Dev.Good mm lk wl d) : Dev.Good mm lk wl (Dev.clockLossRuns d) := by
  unfold Dev.clockLossRuns
  repeat' (first | with_reducible assumption | (with_reducible intro _) | with_reducible apply Dev.each_good | with_reducible apply Dev.when_good | with_reducible apply Dev.finishDone_good | with_reducible apply Dev.withholdRun_good | with_reducible exact OkR.error | with_reducible apply OkR.ok | with_reducible exact OkE.error | with_reducible apply OkE.ok | with_reducible exact OkO.none | with_reducible apply OkO.some | with_reducible exact OkOR.none | with_reducible apply OkOR.some | with_reducible refine OkR.elim ?_ (by assumption) | with_reducible refine OkE.elim ?_ (by assumption) | with_reducible refine OkO.elim ?_ (by assumption) | with_reducible refine OkOR.elim ?_ (by assumption) | with_reducible refine good_of_pair ?_ (by assumption) | with_reducible refine good_of_pair2 ?_ (by assumption) | with_reducible exact OkR.elim (by assumption) rfl | with_reducible exact OkE.elim (by assumption) rfl | with_reducible apply foldl_good | with_reducible apply foldl_pair_good | with_reducible apply foldl_okR | with_reducible apply foldl_okE | with_reducible apply foldl_okOR | with_reducible apply okOR_map | with_reducible apply okO_map | with_reducible exact OkO.elim (by assumption) rfl | with_reducible exact OkOR.elim (by assumption) rfl | split | (refine Dev.good_iff.mpr ?_; dsimp only; refine Dev.good_iff.mp ?_) | (refine Dev.good_iff.mpr ?_; dsimp only; refine good_clear (Dev.good_iff.mp ?_)) | (refine Dev.good_iff.mpr ?_; dsimp only; refine good_writeAll (Dev.good_iff.mp ?_)) | contradiction | dsimp only)

theorem Dev.clockLossJobs_good {d : Dev} (h : Dev.Good none lk wl d) : Dev.Good none lk wl (Dev.clockLossJobs d) := by
  unfold Dev.clockLossJobs
  repeat' (first | with_reducible assumption | (with_reducible intro _) | with_reducible apply Dev.each_good | with_reducible apply Dev.when_good | with_reducible apply Dev.tellJob_good | with_reducible apply Dev.tellCoordinator_good | with_reducible apply Dev.abandonJob_good | with_reducible apply Dev.missedFreezes_good | with_reducible exact OkR.error | with_reducible apply OkR.ok | with_reducible exact OkE.error | with_reducible apply OkE.ok | with_reducible exact OkO.none | with_reducible apply OkO.some | with_reducible exact OkOR.none | with_reducible apply OkOR.some | with_reducible refine OkR.elim ?_ (by assumption) | with_reducible refine OkE.elim ?_ (by assumption) | with_reducible refine OkO.elim ?_ (by assumption) | with_reducible refine OkOR.elim ?_ (by assumption) | with_reducible refine good_of_pair ?_ (by assumption) | with_reducible refine good_of_pair2 ?_ (by assumption) | with_reducible exact OkR.elim (by assumption) rfl | with_reducible exact OkE.elim (by assumption) rfl | with_reducible apply foldl_good | with_reducible apply foldl_pair_good | with_reducible apply foldl_okR | with_reducible apply foldl_okE | with_reducible apply foldl_okOR | with_reducible apply okOR_map | with_reducible apply okO_map | with_reducible exact OkO.elim (by assumption) rfl | with_reducible exact OkOR.elim (by assumption) rfl | split | (refine Dev.good_iff.mpr ?_; dsimp only; refine Dev.good_iff.mp ?_) | (refine Dev.good_iff.mpr ?_; dsimp only; refine good_clear (Dev.good_iff.mp ?_)) | (refine Dev.good_iff.mpr ?_; dsimp only; refine good_writeAll (Dev.good_iff.mp ?_)) | contradiction | dsimp only)

theorem Dev.linkLost_good {d : Dev} (h : Dev.Good mm lk wl d) : Dev.Good mm lk wl (Dev.linkLost d) := by
  unfold Dev.linkLost
  repeat' (first | with_reducible assumption | (with_reducible intro _) | with_reducible apply Dev.each_good | with_reducible apply Dev.when_good | with_reducible apply Dev.modFn_good | with_reducible apply Dev.modTrust_good | with_reducible apply Dev.tdiError_good | with_reducible exact OkR.error | with_reducible apply OkR.ok | with_reducible exact OkE.error | with_reducible apply OkE.ok | with_reducible exact OkO.none | with_reducible apply OkO.some | with_reducible exact OkOR.none | with_reducible apply OkOR.some | with_reducible refine OkR.elim ?_ (by assumption) | with_reducible refine OkE.elim ?_ (by assumption) | with_reducible refine OkO.elim ?_ (by assumption) | with_reducible refine OkOR.elim ?_ (by assumption) | with_reducible refine good_of_pair ?_ (by assumption) | with_reducible refine good_of_pair2 ?_ (by assumption) | with_reducible exact OkR.elim (by assumption) rfl | with_reducible exact OkE.elim (by assumption) rfl | with_reducible apply foldl_good | with_reducible apply foldl_pair_good | with_reducible apply foldl_okR | with_reducible apply foldl_okE | with_reducible apply foldl_okOR | with_reducible apply okOR_map | with_reducible apply okO_map | with_reducible exact OkO.elim (by assumption) rfl | with_reducible exact OkOR.elim (by assumption) rfl | split | (refine Dev.good_iff.mpr ?_; dsimp only; refine Dev.good_iff.mp ?_) | (refine Dev.good_iff.mpr ?_; dsimp only; refine good_clear (Dev.good_iff.mp ?_)) | (refine Dev.good_iff.mpr ?_; dsimp only; refine good_writeAll (Dev.good_iff.mp ?_)) | contradiction | dsimp only)

theorem Dev.relocateSuspects_good {d : Dev} (h : Dev.Good mm lk wl d) : Dev.Good mm lk wl (Dev.relocateSuspects d) := by
  unfold Dev.relocateSuspects
  repeat' (first | with_reducible assumption | (with_reducible intro _) | with_reducible apply Dev.each_good | with_reducible apply Dev.when_good | with_reducible apply Dev.modFlash_good | with_reducible apply Dev.relocate_good | with_reducible exact OkR.error | with_reducible apply OkR.ok | with_reducible exact OkE.error | with_reducible apply OkE.ok | with_reducible exact OkO.none | with_reducible apply OkO.some | with_reducible exact OkOR.none | with_reducible apply OkOR.some | with_reducible refine OkR.elim ?_ (by assumption) | with_reducible refine OkE.elim ?_ (by assumption) | with_reducible refine OkO.elim ?_ (by assumption) | with_reducible refine OkOR.elim ?_ (by assumption) | with_reducible refine good_of_pair ?_ (by assumption) | with_reducible refine good_of_pair2 ?_ (by assumption) | with_reducible exact OkR.elim (by assumption) rfl | with_reducible exact OkE.elim (by assumption) rfl | with_reducible apply foldl_good | with_reducible apply foldl_pair_good | with_reducible apply foldl_okR | with_reducible apply foldl_okE | with_reducible apply foldl_okOR | with_reducible apply okOR_map | with_reducible apply okO_map | with_reducible exact OkO.elim (by assumption) rfl | with_reducible exact OkOR.elim (by assumption) rfl | split | (refine Dev.good_iff.mpr ?_; dsimp only; refine Dev.good_iff.mp ?_) | (refine Dev.good_iff.mpr ?_; dsimp only; refine good_clear (Dev.good_iff.mp ?_)) | (refine Dev.good_iff.mpr ?_; dsimp only; refine good_writeAll (Dev.good_iff.mp ?_)) | contradiction | dsimp only)

theorem Dev.restartTimer_good {d : Dev} (h : Dev.Good mm lk wl d) : Dev.Good mm lk wl (Dev.restartTimer d) := by
  unfold Dev.restartTimer
  repeat' (first | with_reducible assumption | (with_reducible intro _) | with_reducible apply Dev.modTide_good | with_reducible apply Dev.beginTide_good | with_reducible exact OkR.error | with_reducible apply OkR.ok | with_reducible exact OkE.error | with_reducible apply OkE.ok | with_reducible exact OkO.none | with_reducible apply OkO.some | with_reducible exact OkOR.none | with_reducible apply OkOR.some | with_reducible refine OkR.elim ?_ (by assumption) | with_reducible refine OkE.elim ?_ (by assumption) | with_reducible refine OkO.elim ?_ (by assumption) | with_reducible refine OkOR.elim ?_ (by assumption) | split)

theorem Dev.recoverClock_good {d : Dev} (h : Dev.Good none lk wl d) : Dev.Good none lk wl (Dev.recoverClock d) := by
  unfold Dev.recoverClock
  repeat' (first | exact Mgmt.cancelUpdate_keeps | (exact fun _ h => h) | (exact fun _ => ⟨rfl, rfl, rfl⟩) | (exact fun _ => rfl) | (intro _; (repeat' split) <;> exact ⟨rfl, rfl, rfl⟩) | (intro _ h; (repeat' split) <;> exact h) | with_reducible assumption | (with_reducible intro _) | with_reducible apply Dev.each_good | with_reducible apply Dev.when_good | with_reducible apply Dev.modSys_good | with_reducible apply Dev.errEvent_good | with_reducible apply Dev.dwEvent_good | with_reducible apply Dev.setPort_good | with_reducible apply Dev.clockLossRuns_good | with_reducible apply Dev.clockLossJobs_good | with_reducible apply Dev.linkLost_good | with_reducible apply Dev.relocateSuspects_good | with_reducible apply Dev.restartTimer_good | with_reducible exact OkR.error | with_reducible apply OkR.ok | with_reducible exact OkE.error | with_reducible apply OkE.ok | with_reducible exact OkO.none | with_reducible apply OkO.some | with_reducible exact OkOR.none | with_reducible apply OkOR.some | with_reducible refine OkR.elim ?_ (by assumption) | with_reducible refine OkE.elim ?_ (by assumption) | with_reducible refine OkO.elim ?_ (by assumption) | with_reducible refine OkOR.elim ?_ (by assumption) | with_reducible refine good_of_pair ?_ (by assumption) | with_reducible refine good_of_pair2 ?_ (by assumption) | with_reducible exact OkR.elim (by assumption) rfl | with_reducible exact OkE.elim (by assumption) rfl | with_reducible apply foldl_good | with_reducible apply foldl_pair_good | with_reducible apply foldl_okR | with_reducible apply foldl_okE | with_reducible apply foldl_okOR | with_reducible apply okOR_map | with_reducible apply okO_map | with_reducible exact OkO.elim (by assumption) rfl | with_reducible exact OkOR.elim (by assumption) rfl | split | (refine Dev.good_iff.mpr ?_; dsimp only; refine Dev.good_iff.mp ?_) | (refine Dev.good_iff.mpr ?_; dsimp only; refine good_clear (Dev.good_iff.mp ?_)) | (refine Dev.good_iff.mpr ?_; dsimp only; refine good_writeAll (Dev.good_iff.mp ?_)) | contradiction | dsimp only)

theorem Dev.resetTo_good (d : Dev) (cause : Nat) (links : Bool) (sys : Sys) : Dev.Good none false wl (d.resetTo cause links sys) :=
  ⟨rfl, (fun _ q => by cases q), (fun q => by cases q)⟩

theorem Dev.deviceReset_good (d : Dev) (cause : ResetCause) : Dev.Good none false wl (d.deviceReset cause) :=
  d.resetTo_good ..

theorem Dev.bootSlots_good {d : Dev} (h : Dev.Good mm lk wl d) (slot : Nat) : Dev.Good mm lk wl (Dev.bootSlots d slot) := by
  unfold Dev.bootSlots
  repeat' (first | exact Mgmt.cancelUpdate_keeps | (exact fun _ h => h) | (exact fun _ => ⟨rfl, rfl, rfl⟩) | (exact fun _ => rfl) | (intro _; (repeat' split) <;> exact ⟨rfl, rfl, rfl⟩) | (intro _ h; (repeat' split) <;> exact h) | with_reducible assumption | (with_reducible intro _) | with_reducible apply Dev.each_good | with_reducible apply Dev.when_good | with_reducible apply Dev.modMgmt_good | with_reducible apply Dev.useSlot_good | with_reducible exact OkR.error | with_reducible apply OkR.ok | with_reducible exact OkE.error | with_reducible apply OkE.ok | with_reducible exact OkO.none | with_reducible apply OkO.some | with_reducible exact OkOR.none | with_reducible apply OkOR.some | with_reducible refine OkR.elim ?_ (by assumption) | with_reducible refine OkE.elim ?_ (by assumption) | with_reducible refine OkO.elim ?_ (by assumption) | with_reducible refine OkOR.elim ?_ (by assumption) | with_reducible refine good_of_pair ?_ (by assumption) | with_reducible refine good_of_pair2 ?_ (by assumption) | with_reducible exact OkR.elim (by assumption) rfl | with_reducible exact OkE.elim (by assumption) rfl | with_reducible apply foldl_good | with_reducible apply foldl_pair_good | with_reducible apply foldl_okR | with_reducible apply foldl_okE | with_reducible apply foldl_okOR | with_reducible apply okOR_map | with_reducible apply okO_map | with_reducible exact OkO.elim (by assumption) rfl | with_reducible exact OkOR.elim (by assumption) rfl | split | (refine Dev.good_iff.mpr ?_; dsimp only; refine Dev.good_iff.mp ?_) | (refine Dev.good_iff.mpr ?_; dsimp only; refine good_clear (Dev.good_iff.mp ?_)) | (refine Dev.good_iff.mpr ?_; dsimp only; refine good_writeAll (Dev.good_iff.mp ?_)) | contradiction | dsimp only)

theorem Dev.hold_good {d : Dev} (h : Dev.Good mm lk wl d) (cause : BitVec 8) (locked : Bool) : Dev.Good mm lk wl (Dev.hold d cause locked) := by
  unfold Dev.hold
  repeat' (first | exact Mgmt.cancelUpdate_keeps | (exact fun _ h => h) | (exact fun _ => ⟨rfl, rfl, rfl⟩) | (exact fun _ => rfl) | (intro _; (repeat' split) <;> exact ⟨rfl, rfl, rfl⟩) | (intro _ h; (repeat' split) <;> exact h) | with_reducible assumption | with_reducible apply Dev.modSys_good)

theorem Dev.bringUp_good {d : Dev} (h : Dev.Good mm lk wl d) (f : BootFacts) : Dev.Good mm lk wl (Dev.bringUp d f) := by
  unfold Dev.bringUp
  repeat' (first | exact Mgmt.cancelUpdate_keeps | (exact fun _ h => h) | (exact fun _ => ⟨rfl, rfl, rfl⟩) | (exact fun _ => rfl) | (intro _; (repeat' split) <;> exact ⟨rfl, rfl, rfl⟩) | (intro _ h; (repeat' split) <;> exact h) | with_reducible assumption | (with_reducible intro _) | with_reducible apply Dev.each_good | with_reducible apply Dev.when_good | with_reducible apply Dev.modSys_good | with_reducible apply Dev.modDike_good | with_reducible apply Dev.draw_good | with_reducible apply Dev.bootLife_good | with_reducible apply Dev.bootSlots_good | with_reducible apply Dev.hold_good | with_reducible exact OkR.error | with_reducible apply OkR.ok | with_reducible exact OkE.error | with_reducible apply OkE.ok | with_reducible exact OkO.none | with_reducible apply OkO.some | with_reducible exact OkOR.none | with_reducible apply OkOR.some | with_reducible refine OkR.elim ?_ (by assumption) | with_reducible refine OkE.elim ?_ (by assumption) | with_reducible refine OkO.elim ?_ (by assumption) | with_reducible refine OkOR.elim ?_ (by assumption) | with_reducible refine good_of_pair ?_ (by assumption) | with_reducible refine good_of_pair2 ?_ (by assumption) | with_reducible exact OkR.elim (by assumption) rfl | with_reducible exact OkE.elim (by assumption) rfl | with_reducible apply foldl_good | with_reducible apply foldl_pair_good | with_reducible apply foldl_okR | with_reducible apply foldl_okE | with_reducible apply foldl_okOR | with_reducible apply okOR_map | with_reducible apply okO_map | with_reducible exact OkO.elim (by assumption) rfl | with_reducible exact OkOR.elim (by assumption) rfl | split | (refine Dev.good_iff.mpr ?_; dsimp only; refine Dev.good_iff.mp ?_) | (refine Dev.good_iff.mpr ?_; dsimp only; refine good_clear (Dev.good_iff.mp ?_)) | (refine Dev.good_iff.mpr ?_; dsimp only; refine good_writeAll (Dev.good_iff.mp ?_)) | contradiction | dsimp only)

theorem Dev.hubIn_good {d : Dev} (h : Dev.Good mm lk wl d) (h : Nat) (agents : BitVec 5) : Dev.Good mm lk wl (Dev.hubIn d h agents) := by
  unfold Dev.hubIn
  repeat' (first | exact Mgmt.cancelUpdate_keeps | (exact fun _ h => h) | (exact fun _ => ⟨rfl, rfl, rfl⟩) | (exact fun _ => rfl) | (intro _; (repeat' split) <;> exact ⟨rfl, rfl, rfl⟩) | (intro _ h; (repeat' split) <;> exact h) | with_reducible assumption | with_reducible apply Dev.modArb_good | with_reducible apply Dev.modHub_good)

theorem Dev.trainFlash_good {d : Dev} (h : Dev.Good mm lk wl d) (h : Nat) (g : FlashGeom) : Dev.Good mm lk wl (Dev.trainFlash d h g) := by
  unfold Dev.trainFlash
  repeat' (first | with_reducible assumption | with_reducible apply Dev.modFlash_good | with_reducible apply Dev.modDike_good)

theorem Dev.coverFailures_good {d : Dev} (h : Dev.Good mm lk wl d) (clusters : List (Nat × Nat)) (banks : List Nat) : Dev.Good mm lk wl (Dev.coverFailures d clusters banks) := by
  unfold Dev.coverFailures
  repeat' (first | with_reducible assumption | (with_reducible intro _) | with_reducible apply Dev.each_good | with_reducible apply Dev.when_good | with_reducible apply Dev.modTile_good)

theorem Dev.springEntry_good {d : Dev} (h : Dev.Good mm lk wl d) (flash : List FlashGeom) : Dev.Good mm lk wl (Dev.springEntry d flash) := by
  unfold Dev.springEntry
  repeat' (first | exact Mgmt.cancelUpdate_keeps | (exact fun _ h => h) | (exact fun _ => ⟨rfl, rfl, rfl⟩) | (exact fun _ => rfl) | (intro _; (repeat' split) <;> exact ⟨rfl, rfl, rfl⟩) | (intro _ h; (repeat' split) <;> exact h) | with_reducible assumption | (with_reducible intro _) | with_reducible apply Dev.each_good | with_reducible apply Dev.when_good | with_reducible apply Dev.modSys_good | with_reducible apply Dev.modTile_good | with_reducible apply Dev.modHub_good | with_reducible apply Dev.emit_good | with_reducible apply Dev.trainPorts_good | with_reducible apply Dev.hubIn_good | with_reducible apply Dev.trainFlash_good | with_reducible exact OkR.error | with_reducible apply OkR.ok | with_reducible exact OkE.error | with_reducible apply OkE.ok | with_reducible exact OkO.none | with_reducible apply OkO.some | with_reducible exact OkOR.none | with_reducible apply OkOR.some | with_reducible refine OkR.elim ?_ (by assumption) | with_reducible refine OkE.elim ?_ (by assumption) | with_reducible refine OkO.elim ?_ (by assumption) | with_reducible refine OkOR.elim ?_ (by assumption) | with_reducible refine good_of_pair ?_ (by assumption) | with_reducible refine good_of_pair2 ?_ (by assumption) | with_reducible exact OkR.elim (by assumption) rfl | with_reducible exact OkE.elim (by assumption) rfl | with_reducible apply foldl_good | with_reducible apply foldl_pair_good | with_reducible apply foldl_okR | with_reducible apply foldl_okE | with_reducible apply foldl_okOR | with_reducible apply okOR_map | with_reducible apply okO_map | with_reducible exact OkO.elim (by assumption) rfl | with_reducible exact OkOR.elim (by assumption) rfl | split | (refine Dev.good_iff.mpr ?_; dsimp only; refine Dev.good_iff.mp ?_) | (refine Dev.good_iff.mpr ?_; dsimp only; refine good_clear (Dev.good_iff.mp ?_)) | (refine Dev.good_iff.mpr ?_; dsimp only; refine good_writeAll (Dev.good_iff.mp ?_)) | contradiction | dsimp only)

theorem Dev.mctpControl_good {d : Dev} (h : Dev.Good mm lk wl d) (t : Nat) (m : MctpControl) : Dev.Good mm lk wl (Dev.mctpControl d t m) := by
  unfold Dev.mctpControl
  repeat' (first | exact Mgmt.cancelUpdate_keeps | (exact fun _ h => h) | (exact fun _ => ⟨rfl, rfl, rfl⟩) | (exact fun _ => rfl) | (intro _; (repeat' split) <;> exact ⟨rfl, rfl, rfl⟩) | (intro _ h; (repeat' split) <;> exact h) | with_reducible assumption | (with_reducible intro _) | with_reducible apply Dev.modMgmt_good | with_reducible apply Dev.emit_good | with_reducible exact OkR.error | with_reducible apply OkR.ok | with_reducible exact OkE.error | with_reducible apply OkE.ok | with_reducible exact OkO.none | with_reducible apply OkO.some | with_reducible exact OkOR.none | with_reducible apply OkOR.some | with_reducible refine OkR.elim ?_ (by assumption) | with_reducible refine OkE.elim ?_ (by assumption) | with_reducible refine OkO.elim ?_ (by assumption) | with_reducible refine OkOR.elim ?_ (by assumption) | split)

theorem Dev.pldmPlatform_good {d : Dev} (h : Dev.Good mm lk wl d) (t : Nat) (m : PldmPlatform) : Dev.Good mm lk wl (Dev.pldmPlatform d t m) := by
  unfold Dev.pldmPlatform
  repeat' (first | exact Mgmt.cancelUpdate_keeps | (exact fun _ h => h) | (exact fun _ => ⟨rfl, rfl, rfl⟩) | (exact fun _ => rfl) | (intro _; (repeat' split) <;> exact ⟨rfl, rfl, rfl⟩) | (intro _ h; (repeat' split) <;> exact h) | with_reducible assumption | (with_reducible intro _) | with_reducible apply Dev.modMgmt_good | with_reducible apply Dev.emit_good | with_reducible exact OkR.error | with_reducible apply OkR.ok | with_reducible exact OkE.error | with_reducible apply OkE.ok | with_reducible exact OkO.none | with_reducible apply OkO.some | with_reducible exact OkOR.none | with_reducible apply OkOR.some | with_reducible refine OkR.elim ?_ (by assumption) | with_reducible refine OkE.elim ?_ (by assumption) | with_reducible refine OkO.elim ?_ (by assumption) | with_reducible refine OkOR.elim ?_ (by assumption) | split)

theorem Dev.requestChunk_good {d : Dev} (h : Dev.Good mm lk wl d) : Dev.Good mm lk wl (Dev.requestChunk d) := by
  unfold Dev.requestChunk
  repeat' (first | exact Mgmt.cancelUpdate_keeps | (exact fun _ h => h) | (exact fun _ => ⟨rfl, rfl, rfl⟩) | (exact fun _ => rfl) | (intro _; (repeat' split) <;> exact ⟨rfl, rfl, rfl⟩) | (intro _ h; (repeat' split) <;> exact h) | with_reducible assumption | (with_reducible intro _) | with_reducible apply Dev.modMgmt_good | with_reducible apply Dev.emit_good | with_reducible exact OkR.error | with_reducible apply OkR.ok | with_reducible exact OkE.error | with_reducible apply OkE.ok | with_reducible exact OkO.none | with_reducible apply OkO.some | with_reducible exact OkOR.none | with_reducible apply OkOR.some | with_reducible refine OkR.elim ?_ (by assumption) | with_reducible refine OkE.elim ?_ (by assumption) | with_reducible refine OkO.elim ?_ (by assumption) | with_reducible refine OkOR.elim ?_ (by assumption) | split)

theorem Dev.verifyUpdate_good {d : Dev} (h : Dev.Good mm lk wl d) (ok : Bool) (digest : List Byte) (version : BitVec 31) : Dev.Good mm lk wl (Dev.verifyUpdate d ok digest version) := by
  unfold Dev.verifyUpdate
  repeat' (first | exact Mgmt.cancelUpdate_keeps | (exact fun _ h => h) | (exact fun _ => ⟨rfl, rfl, rfl⟩) | (exact fun _ => rfl) | (intro _; (repeat' split) <;> exact ⟨rfl, rfl, rfl⟩) | (intro _ h; (repeat' split) <;> exact h) | with_reducible assumption | (with_reducible intro _) | with_reducible apply Dev.modMgmt_good | with_reducible apply Dev.emit_good | with_reducible exact OkR.error | with_reducible apply OkR.ok | with_reducible exact OkE.error | with_reducible apply OkE.ok | with_reducible exact OkO.none | with_reducible apply OkO.some | with_reducible exact OkOR.none | with_reducible apply OkOR.some | with_reducible refine OkR.elim ?_ (by assumption) | with_reducible refine OkE.elim ?_ (by assumption) | with_reducible refine OkO.elim ?_ (by assumption) | with_reducible refine OkOR.elim ?_ (by assumption) | split)

theorem Dev.activate_good {d : Dev} (h : Dev.Good none false wl d) : Dev.Good none false wl d.activate := by
  unfold Dev.activate
  repeat' (first | exact Mgmt.cancelUpdate_keeps | (exact fun _ h => h) | (exact fun _ => ⟨rfl, rfl, rfl⟩) | (exact fun _ => rfl) | (intro _; (repeat' split) <;> exact ⟨rfl, rfl, rfl⟩) | (intro _ h; (repeat' split) <;> exact h) | with_reducible apply Dev.modFabric_free | with_reducible apply Dev.modMgmt_free | with_reducible apply Dev.modArb_free | with_reducible assumption | (with_reducible intro _) | with_reducible apply Dev.each_good | with_reducible apply Dev.when_good | with_reducible apply Dev.resetTo_good | with_reducible apply Dev.modMgmt_good | with_reducible apply Dev.modSys_good | with_reducible apply Dev.emit_good | with_reducible apply Dev.swapFirmware_good | with_reducible exact OkR.error | with_reducible apply OkR.ok | with_reducible exact OkE.error | with_reducible apply OkE.ok | with_reducible exact OkO.none | with_reducible apply OkO.some | with_reducible exact OkOR.none | with_reducible apply OkOR.some | with_reducible refine OkR.elim ?_ (by assumption) | with_reducible refine OkE.elim ?_ (by assumption) | with_reducible refine OkO.elim ?_ (by assumption) | with_reducible refine OkOR.elim ?_ (by assumption) | with_reducible refine good_of_pair ?_ (by assumption) | with_reducible refine good_of_pair2 ?_ (by assumption) | with_reducible exact OkR.elim (by assumption) rfl | with_reducible exact OkE.elim (by assumption) rfl | with_reducible apply foldl_good | with_reducible apply foldl_pair_good | with_reducible apply foldl_okR | with_reducible apply foldl_okE | with_reducible apply foldl_okOR | with_reducible apply okOR_map | with_reducible apply okO_map | with_reducible exact OkO.elim (by assumption) rfl | with_reducible exact OkOR.elim (by assumption) rfl | split | (refine Dev.good_iff.mpr ?_; dsimp only; refine Dev.good_iff.mp ?_) | (refine Dev.good_iff.mpr ?_; dsimp only; refine good_clear (Dev.good_iff.mp ?_)) | (refine Dev.good_iff.mpr ?_; dsimp only; refine good_writeAll (Dev.good_iff.mp ?_)) | contradiction | dsimp only)

theorem Dev.lcCommand_good {d : Dev} (h : Dev.Good mm lk wl d) (w : W32) : Dev.Good mm lk wl (Dev.lcCommand d w) := by
  unfold Dev.lcCommand
  repeat' (first | with_reducible assumption | (with_reducible intro _) | with_reducible apply Dev.requestTransition_good | with_reducible apply Dev.debugOpen_good | with_reducible apply Dev.debugClose_good | with_reducible exact OkR.error | with_reducible apply OkR.ok | with_reducible exact OkE.error | with_reducible apply OkE.ok | with_reducible exact OkO.none | with_reducible apply OkO.some | with_reducible exact OkOR.none | with_reducible apply OkOR.some | with_reducible refine OkR.elim ?_ (by assumption) | with_reducible refine OkE.elim ?_ (by assumption) | with_reducible refine OkO.elim ?_ (by assumption) | with_reducible refine OkOR.elim ?_ (by assumption) | split)

theorem Dev.linkDown_good {d : Dev} (h : Dev.Good mm lk wl d) (l : Nat) : Dev.Good mm lk wl (Dev.linkDown d l) := by
  unfold Dev.linkDown
  repeat' (first | with_reducible assumption | (with_reducible intro _) | with_reducible apply Dev.each_good | with_reducible apply Dev.when_good | with_reducible apply Dev.modFn_good | with_reducible apply Dev.modTrust_good | with_reducible apply Dev.tdiError_good | with_reducible exact OkR.error | with_reducible apply OkR.ok | with_reducible exact OkE.error | with_reducible apply OkE.ok | with_reducible exact OkO.none | with_reducible apply OkO.some | with_reducible exact OkOR.none | with_reducible apply OkOR.some | with_reducible refine OkR.elim ?_ (by assumption) | with_reducible refine OkE.elim ?_ (by assumption) | with_reducible refine OkO.elim ?_ (by assumption) | with_reducible refine OkOR.elim ?_ (by assumption) | with_reducible refine good_of_pair ?_ (by assumption) | with_reducible refine good_of_pair2 ?_ (by assumption) | with_reducible exact OkR.elim (by assumption) rfl | with_reducible exact OkE.elim (by assumption) rfl | with_reducible apply foldl_good | with_reducible apply foldl_pair_good | with_reducible apply foldl_okR | with_reducible apply foldl_okE | with_reducible apply foldl_okOR | with_reducible apply okOR_map | with_reducible apply okO_map | with_reducible exact OkO.elim (by assumption) rfl | with_reducible exact OkOR.elim (by assumption) rfl | split | (refine Dev.good_iff.mpr ?_; dsimp only; refine Dev.good_iff.mp ?_) | (refine Dev.good_iff.mpr ?_; dsimp only; refine good_clear (Dev.good_iff.mp ?_)) | (refine Dev.good_iff.mpr ?_; dsimp only; refine good_writeAll (Dev.good_iff.mp ?_)) | contradiction | dsimp only)

theorem Dev.modSel_good {d : Dev} (h : Dev.Good mm lk wl d) (fn : Nat) (f : Selects → Selects) : Dev.Good mm lk wl (Dev.modSel d fn f) := by
  unfold Dev.modSel
  repeat' (first | exact Mgmt.cancelUpdate_keeps | (exact fun _ h => h) | (exact fun _ => ⟨rfl, rfl, rfl⟩) | (exact fun _ => rfl) | (intro _; (repeat' split) <;> exact ⟨rfl, rfl, rfl⟩) | (intro _ h; (repeat' split) <;> exact h) | with_reducible assumption | with_reducible apply Dev.modSys_good)

theorem Dev.rwl_good {d : Dev} (h : Dev.Good mm lk wl d) (f : Dev → Dev) (k : ∀ d, Dev.Good mm false wl d → Dev.Good mm false wl (f d)) :
    Dev.Good mm lk wl (d.rwl f) := by
  unfold Dev.rwl
  split
  · exact Dev.errEvent_good h ..
  · rename_i hl
    cases lk with
    | false => exact k d h
    | true => exact absurd (h.lock rfl).1 hl

theorem Dev.writeGcCtrl_good {d : Dev} (h : Dev.Good mm lk wl d) (w : W32) : Dev.Good mm lk wl (Dev.writeGcCtrl d w) := by
  unfold Dev.writeGcCtrl
  repeat' (first | exact Mgmt.cancelUpdate_keeps | (exact fun _ h => h) | (exact fun _ => ⟨rfl, rfl, rfl⟩) | (exact fun _ => rfl) | (intro _; (repeat' split) <;> exact ⟨rfl, rfl, rfl⟩) | (intro _ h; (repeat' split) <;> exact h) | with_reducible assumption | (with_reducible intro _) | with_reducible apply Dev.modSys_good | with_reducible apply Dev.rwl_good | with_reducible exact OkR.error | with_reducible apply OkR.ok | with_reducible exact OkE.error | with_reducible apply OkE.ok | with_reducible exact OkO.none | with_reducible apply OkO.some | with_reducible exact OkOR.none | with_reducible apply OkOR.some | with_reducible refine OkR.elim ?_ (by assumption) | with_reducible refine OkE.elim ?_ (by assumption) | with_reducible refine OkO.elim ?_ (by assumption) | with_reducible refine OkOR.elim ?_ (by assumption) | split)

theorem Dev.writeGlobal_good {d : Dev} (h : Dev.Good mm lk wl d) (off : Nat) (w : W32) : Dev.Good mm lk wl (Dev.writeGlobal d off w) := by
  unfold Dev.writeGlobal
  repeat' (first | exact Mgmt.cancelUpdate_keeps | (exact fun _ h => h) | (exact fun _ => ⟨rfl, rfl, rfl⟩) | (exact fun _ => rfl) | (intro _; (repeat' split) <;> exact ⟨rfl, rfl, rfl⟩) | (intro _ h; (repeat' split) <;> exact h) | with_reducible assumption | (with_reducible intro _) | with_reducible apply Dev.modSys_good | with_reducible apply Dev.modPower_good | with_reducible apply Dev.modSel_good | with_reducible apply Dev.writeGcCtrl_good | with_reducible exact OkR.error | with_reducible apply OkR.ok | with_reducible exact OkE.error | with_reducible apply OkE.ok | with_reducible exact OkO.none | with_reducible apply OkO.some | with_reducible exact OkOR.none | with_reducible apply OkOR.some | with_reducible refine OkR.elim ?_ (by assumption) | with_reducible refine OkE.elim ?_ (by assumption) | with_reducible refine OkO.elim ?_ (by assumption) | with_reducible refine OkOR.elim ?_ (by assumption) | split)

theorem Dev.writeFabric_good {d : Dev} (h : Dev.Good mm lk wl d) (off : Nat) (w : W32) : Dev.Good mm lk wl (Dev.writeFabric d off w) := by
  unfold Dev.writeFabric
  repeat' (first | exact Mgmt.cancelUpdate_keeps | (exact fun _ h => h) | (exact fun _ => ⟨rfl, rfl, rfl⟩) | (exact fun _ => rfl) | (intro _; (repeat' split) <;> exact ⟨rfl, rfl, rfl⟩) | (intro _ h; (repeat' split) <;> exact h) | with_reducible apply Dev.modFabric_free | with_reducible apply Dev.modMgmt_free | with_reducible apply Dev.modArb_free | with_reducible assumption | (with_reducible intro _) | with_reducible apply Dev.each_good | with_reducible apply Dev.when_good | with_reducible apply Dev.modFabric_good | with_reducible apply Dev.modPort_good | with_reducible apply Dev.trainPorts_good | with_reducible apply Dev.setTrain_good | with_reducible apply Dev.modSel_good | with_reducible apply Dev.rwl_good | with_reducible exact OkR.error | with_reducible apply OkR.ok | with_reducible exact OkE.error | with_reducible apply OkE.ok | with_reducible exact OkO.none | with_reducible apply OkO.some | with_reducible exact OkOR.none | with_reducible apply OkOR.some | with_reducible refine OkR.elim ?_ (by assumption) | with_reducible refine OkE.elim ?_ (by assumption) | with_reducible refine OkO.elim ?_ (by assumption) | with_reducible refine OkOR.elim ?_ (by assumption) | with_reducible refine good_of_pair ?_ (by assumption) | with_reducible refine good_of_pair2 ?_ (by assumption) | with_reducible exact OkR.elim (by assumption) rfl | with_reducible exact OkE.elim (by assumption) rfl | with_reducible apply foldl_good | with_reducible apply foldl_pair_good | with_reducible apply foldl_okR | with_reducible apply foldl_okE | with_reducible apply foldl_okOR | with_reducible apply okOR_map | with_reducible apply okO_map | with_reducible exact OkO.elim (by assumption) rfl | with_reducible exact OkOR.elim (by assumption) rfl | split | (refine Dev.good_iff.mpr ?_; dsimp only; refine Dev.good_iff.mp ?_) | (refine Dev.good_iff.mpr ?_; dsimp only; refine good_clear (Dev.good_iff.mp ?_)) | (refine Dev.good_iff.mpr ?_; dsimp only; refine good_writeAll (Dev.good_iff.mp ?_)) | contradiction | dsimp only)

theorem Dev.writeDike_good {d : Dev} (h : Dev.Good mm lk wl d) (off : Nat) (w : W32) : Dev.Good mm lk wl (Dev.writeDike d off w) := by
  unfold Dev.writeDike
  repeat' (first | with_reducible assumption | (with_reducible intro _) | with_reducible apply Dev.each_good | with_reducible apply Dev.when_good | with_reducible apply Dev.modDike_good | with_reducible apply Dev.modSel_good | with_reducible exact OkR.error | with_reducible apply OkR.ok | with_reducible exact OkE.error | with_reducible apply OkE.ok | with_reducible exact OkO.none | with_reducible apply OkO.some | with_reducible exact OkOR.none | with_reducible apply OkOR.some | with_reducible refine OkR.elim ?_ (by assumption) | with_reducible refine OkE.elim ?_ (by assumption) | with_reducible refine OkO.elim ?_ (by assumption) | with_reducible refine OkOR.elim ?_ (by assumption) | with_reducible refine good_of_pair ?_ (by assumption) | with_reducible refine good_of_pair2 ?_ (by assumption) | with_reducible exact OkR.elim (by assumption) rfl | with_reducible exact OkE.elim (by assumption) rfl | with_reducible apply foldl_good | with_reducible apply foldl_pair_good | with_reducible apply foldl_okR | with_reducible apply foldl_okE | with_reducible apply foldl_okOR | with_reducible apply okOR_map | with_reducible apply okO_map | with_reducible exact OkO.elim (by assumption) rfl | with_reducible exact OkOR.elim (by assumption) rfl | split | (refine Dev.good_iff.mpr ?_; dsimp only; refine Dev.good_iff.mp ?_) | (refine Dev.good_iff.mpr ?_; dsimp only; refine good_clear (Dev.good_iff.mp ?_)) | (refine Dev.good_iff.mpr ?_; dsimp only; refine good_writeAll (Dev.good_iff.mp ?_)) | contradiction | dsimp only)

theorem Dev.writeQtCtrl_good {d : Dev} (h : Dev.Good mm lk wl d) (fn : Nat) (w : W32) : Dev.Good mm lk wl (Dev.writeQtCtrl d fn w) := by
  unfold Dev.writeQtCtrl
  repeat' (first | with_reducible assumption | (with_reducible intro _) | with_reducible apply Dev.modQueue_good | with_reducible apply Dev.enableQueue_good | with_reducible apply Dev.clearEnable_good | with_reducible exact OkR.error | with_reducible apply OkR.ok | with_reducible exact OkE.error | with_reducible apply OkE.ok | with_reducible exact OkO.none | with_reducible apply OkO.some | with_reducible exact OkOR.none | with_reducible apply OkOR.some | with_reducible refine OkR.elim ?_ (by assumption) | with_reducible refine OkE.elim ?_ (by assumption) | with_reducible refine OkO.elim ?_ (by assumption) | with_reducible refine OkOR.elim ?_ (by assumption) | split)

theorem Dev.writeQt_good {d : Dev} (h : Dev.Good mm lk wl d) (fn off : Nat) (w : W32) : Dev.Good mm lk wl (Dev.writeQt d fn off w) := by
  unfold Dev.writeQt
  repeat' (first | with_reducible assumption | (with_reducible intro _) | with_reducible apply Dev.each_good | with_reducible apply Dev.when_good | with_reducible apply Dev.modQueue_good | with_reducible apply Dev.rejectQueue_good | with_reducible apply Dev.modSel_good | with_reducible apply Dev.writeQtCtrl_good | with_reducible exact OkR.error | with_reducible apply OkR.ok | with_reducible exact OkE.error | with_reducible apply OkE.ok | with_reducible exact OkO.none | with_reducible apply OkO.some | with_reducible exact OkOR.none | with_reducible apply OkOR.some | with_reducible refine OkR.elim ?_ (by assumption) | with_reducible refine OkE.elim ?_ (by assumption) | with_reducible refine OkO.elim ?_ (by assumption) | with_reducible refine OkOR.elim ?_ (by assumption) | with_reducible refine good_of_pair ?_ (by assumption) | with_reducible refine good_of_pair2 ?_ (by assumption) | with_reducible exact OkR.elim (by assumption) rfl | with_reducible exact OkE.elim (by assumption) rfl | with_reducible apply foldl_good | with_reducible apply foldl_pair_good | with_reducible apply foldl_okR | with_reducible apply foldl_okE | with_reducible apply foldl_okOR | with_reducible apply okOR_map | with_reducible apply okO_map | with_reducible exact OkO.elim (by assumption) rfl | with_reducible exact OkOR.elim (by assumption) rfl | split | (refine Dev.good_iff.mpr ?_; dsimp only; refine Dev.good_iff.mp ?_) | (refine Dev.good_iff.mpr ?_; dsimp only; refine good_clear (Dev.good_iff.mp ?_)) | (refine Dev.good_iff.mpr ?_; dsimp only; refine good_writeAll (Dev.good_iff.mp ?_)) | contradiction | dsimp only)

theorem Dev.rejectFn_good {d : Dev} (h : Dev.Good mm lk wl d) (n : Nat) : Dev.Good mm lk wl (Dev.rejectFn d n) := by
  unfold Dev.rejectFn
  repeat' (first | with_reducible assumption | (with_reducible intro _) | with_reducible apply Dev.each_good | with_reducible apply Dev.when_good | with_reducible apply Dev.rejectQueue_good)

theorem Dev.writeFnCtrl_good {d : Dev} (h : Dev.Good mm lk wl d) (n : Nat) (w : W32) : Dev.Good mm lk wl (Dev.writeFnCtrl d n w) := by
  unfold Dev.writeFnCtrl
  repeat' (first | with_reducible assumption | (with_reducible intro _) | with_reducible apply Dev.each_good | with_reducible apply Dev.when_good | with_reducible apply Dev.modFn_good | with_reducible apply Dev.tdiError_good | with_reducible apply Dev.rejectFn_good | with_reducible exact OkR.error | with_reducible apply OkR.ok | with_reducible exact OkE.error | with_reducible apply OkE.ok | with_reducible exact OkO.none | with_reducible apply OkO.some | with_reducible exact OkOR.none | with_reducible apply OkOR.some | with_reducible refine OkR.elim ?_ (by assumption) | with_reducible refine OkE.elim ?_ (by assumption) | with_reducible refine OkO.elim ?_ (by assumption) | with_reducible refine OkOR.elim ?_ (by assumption) | with_reducible refine good_of_pair ?_ (by assumption) | with_reducible refine good_of_pair2 ?_ (by assumption) | with_reducible exact OkR.elim (by assumption) rfl | with_reducible exact OkE.elim (by assumption) rfl | with_reducible apply foldl_good | with_reducible apply foldl_pair_good | with_reducible apply foldl_okR | with_reducible apply foldl_okE | with_reducible apply foldl_okOR | with_reducible apply okOR_map | with_reducible apply okO_map | with_reducible exact OkO.elim (by assumption) rfl | with_reducible exact OkOR.elim (by assumption) rfl | split | (refine Dev.good_iff.mpr ?_; dsimp only; refine Dev.good_iff.mp ?_) | (refine Dev.good_iff.mpr ?_; dsimp only; refine good_clear (Dev.good_iff.mp ?_)) | (refine Dev.good_iff.mpr ?_; dsimp only; refine good_writeAll (Dev.good_iff.mp ?_)) | contradiction | dsimp only)

theorem Dev.writeFn_good {d : Dev} (h : Dev.Good mm lk wl d) (fn off : Nat) (w : W32) : Dev.Good mm lk wl (Dev.writeFn d fn off w) := by
  unfold Dev.writeFn
  repeat' (first | with_reducible assumption | (with_reducible intro _) | with_reducible apply Dev.each_good | with_reducible apply Dev.when_good | with_reducible apply Dev.modFn_good | with_reducible apply Dev.modSel_good | with_reducible apply Dev.rejectFn_good | with_reducible apply Dev.writeFnCtrl_good | with_reducible exact OkR.error | with_reducible apply OkR.ok | with_reducible exact OkE.error | with_reducible apply OkE.ok | with_reducible exact OkO.none | with_reducible apply OkO.some | with_reducible exact OkOR.none | with_reducible apply OkOR.some | with_reducible refine OkR.elim ?_ (by assumption) | with_reducible refine OkE.elim ?_ (by assumption) | with_reducible refine OkO.elim ?_ (by assumption) | with_reducible refine OkOR.elim ?_ (by assumption) | with_reducible refine good_of_pair ?_ (by assumption) | with_reducible refine good_of_pair2 ?_ (by assumption) | with_reducible exact OkR.elim (by assumption) rfl | with_reducible exact OkE.elim (by assumption) rfl | with_reducible apply foldl_good | with_reducible apply foldl_pair_good | with_reducible apply foldl_okR | with_reducible apply foldl_okE | with_reducible apply foldl_okOR | with_reducible apply okOR_map | with_reducible apply okO_map | with_reducible exact OkO.elim (by assumption) rfl | with_reducible exact OkOR.elim (by assumption) rfl | split | (refine Dev.good_iff.mpr ?_; dsimp only; refine Dev.good_iff.mp ?_) | (refine Dev.good_iff.mpr ?_; dsimp only; refine good_clear (Dev.good_iff.mp ?_)) | (refine Dev.good_iff.mpr ?_; dsimp only; refine good_writeAll (Dev.good_iff.mp ?_)) | contradiction | dsimp only)

theorem Dev.writeCtx_good {d : Dev} (h : Dev.Good mm lk wl d) (off : Nat) (w : W32) : Dev.Good mm lk wl (Dev.writeCtx d off w) := by
  unfold Dev.writeCtx
  repeat' (first | with_reducible assumption | (with_reducible intro _) | with_reducible apply Dev.modCtx_good | with_reducible apply Dev.openCommand_good | with_reducible apply Dev.closeCommand_good | with_reducible apply Dev.modSel_good | with_reducible exact OkR.error | with_reducible apply OkR.ok | with_reducible exact OkE.error | with_reducible apply OkE.ok | with_reducible exact OkO.none | with_reducible apply OkO.some | with_reducible exact OkOR.none | with_reducible apply OkOR.some | with_reducible refine OkR.elim ?_ (by assumption) | with_reducible refine OkE.elim ?_ (by assumption) | with_reducible refine OkO.elim ?_ (by assumption) | with_reducible refine OkOR.elim ?_ (by assumption) | split)

theorem Dev.writeMsix_good {d : Dev} (h : Dev.Good mm lk wl d) (fn entry word : Nat) (w : W32) : Dev.Good mm lk wl (Dev.writeMsix d fn entry word w) := by
  unfold Dev.writeMsix
  repeat' (first | with_reducible assumption | (with_reducible intro _) | with_reducible apply Dev.each_good | with_reducible apply Dev.when_good | with_reducible apply Dev.modFn_good | with_reducible apply Dev.msix_good | with_reducible exact OkR.error | with_reducible apply OkR.ok | with_reducible exact OkE.error | with_reducible apply OkE.ok | with_reducible exact OkO.none | with_reducible apply OkO.some | with_reducible exact OkOR.none | with_reducible apply OkOR.some | with_reducible refine OkR.elim ?_ (by assumption) | with_reducible refine OkE.elim ?_ (by assumption) | with_reducible refine OkO.elim ?_ (by assumption) | with_reducible refine OkOR.elim ?_ (by assumption) | with_reducible refine good_of_pair ?_ (by assumption) | with_reducible refine good_of_pair2 ?_ (by assumption) | with_reducible exact OkR.elim (by assumption) rfl | with_reducible exact OkE.elim (by assumption) rfl | with_reducible apply foldl_good | with_reducible apply foldl_pair_good | with_reducible apply foldl_okR | with_reducible apply foldl_okE | with_reducible apply foldl_okOR | with_reducible apply okOR_map | with_reducible apply okO_map | with_reducible exact OkO.elim (by assumption) rfl | with_reducible exact OkOR.elim (by assumption) rfl | split | (refine Dev.good_iff.mpr ?_; dsimp only; refine Dev.good_iff.mp ?_) | (refine Dev.good_iff.mpr ?_; dsimp only; refine good_clear (Dev.good_iff.mp ?_)) | (refine Dev.good_iff.mpr ?_; dsimp only; refine good_writeAll (Dev.good_iff.mp ?_)) | contradiction | dsimp only)

theorem Dev.writeTide_good {d : Dev} (h : Dev.Good mm lk wl d) (off : Nat) (w : W32) : Dev.Good mm lk wl (Dev.writeTide d off w) := by
  unfold Dev.writeTide
  repeat' (first | with_reducible assumption | (with_reducible intro _) | with_reducible apply Dev.modTide_good | with_reducible apply Dev.startTimer_good | with_reducible apply Dev.stopTimer_good | with_reducible exact OkR.error | with_reducible apply OkR.ok | with_reducible exact OkE.error | with_reducible apply OkE.ok | with_reducible exact OkO.none | with_reducible apply OkO.some | with_reducible exact OkOR.none | with_reducible apply OkOR.some | with_reducible refine OkR.elim ?_ (by assumption) | with_reducible refine OkE.elim ?_ (by assumption) | with_reducible refine OkO.elim ?_ (by assumption) | with_reducible refine OkOR.elim ?_ (by assumption) | split)

theorem Dev.writeErr_good {d : Dev} (h : Dev.Good mm lk wl d) (off : Nat) (w : W32) : Dev.Good mm lk wl (Dev.writeErr d off w) := by
  unfold Dev.writeErr
  repeat' (first | with_reducible assumption | (with_reducible intro _) | with_reducible apply Dev.modErrors_good | with_reducible exact OkR.error | with_reducible apply OkR.ok | with_reducible exact OkE.error | with_reducible apply OkE.ok | with_reducible exact OkO.none | with_reducible apply OkO.some | with_reducible exact OkOR.none | with_reducible apply OkOR.some | with_reducible refine OkR.elim ?_ (by assumption) | with_reducible refine OkE.elim ?_ (by assumption) | with_reducible refine OkO.elim ?_ (by assumption) | with_reducible refine OkOR.elim ?_ (by assumption) | split)

theorem Dev.writeArb_good {d : Dev} (h : Dev.Good mm lk wl d) (off : Nat) (w : W32) : Dev.Good mm lk wl (Dev.writeArb d off w) := by
  unfold Dev.writeArb
  repeat' (first | exact Mgmt.cancelUpdate_keeps | (exact fun _ h => h) | (exact fun _ => ⟨rfl, rfl, rfl⟩) | (exact fun _ => rfl) | (intro _; (repeat' split) <;> exact ⟨rfl, rfl, rfl⟩) | (intro _ h; (repeat' split) <;> exact h) | with_reducible apply Dev.modFabric_free | with_reducible apply Dev.modMgmt_free | with_reducible apply Dev.modArb_free | with_reducible assumption | (with_reducible intro _) | with_reducible apply Dev.each_good | with_reducible apply Dev.when_good | with_reducible apply Dev.modArb_good | with_reducible apply Dev.modSel_good | with_reducible apply Dev.rwl_good | with_reducible exact OkR.error | with_reducible apply OkR.ok | with_reducible exact OkE.error | with_reducible apply OkE.ok | with_reducible exact OkO.none | with_reducible apply OkO.some | with_reducible exact OkOR.none | with_reducible apply OkOR.some | with_reducible refine OkR.elim ?_ (by assumption) | with_reducible refine OkE.elim ?_ (by assumption) | with_reducible refine OkO.elim ?_ (by assumption) | with_reducible refine OkOR.elim ?_ (by assumption) | with_reducible refine good_of_pair ?_ (by assumption) | with_reducible refine good_of_pair2 ?_ (by assumption) | with_reducible exact OkR.elim (by assumption) rfl | with_reducible exact OkE.elim (by assumption) rfl | with_reducible apply foldl_good | with_reducible apply foldl_pair_good | with_reducible apply foldl_okR | with_reducible apply foldl_okE | with_reducible apply foldl_okOR | with_reducible apply okOR_map | with_reducible apply okO_map | with_reducible exact OkO.elim (by assumption) rfl | with_reducible exact OkOR.elim (by assumption) rfl | split | (refine Dev.good_iff.mpr ?_; dsimp only; refine Dev.good_iff.mp ?_) | (refine Dev.good_iff.mpr ?_; dsimp only; refine good_clear (Dev.good_iff.mp ?_)) | (refine Dev.good_iff.mpr ?_; dsimp only; refine good_writeAll (Dev.good_iff.mp ?_)) | contradiction | dsimp only)

theorem Dev.writeLc_good {d : Dev} (h : Dev.Good mm lk wl d) (off : Nat) (w : W32) : Dev.Good mm lk wl (Dev.writeLc d off w) := by
  unfold Dev.writeLc
  repeat' (first | with_reducible assumption | (with_reducible intro _) | with_reducible apply Dev.modLife_good | with_reducible apply Dev.lcCommand_good | with_reducible exact OkR.error | with_reducible apply OkR.ok | with_reducible exact OkE.error | with_reducible apply OkE.ok | with_reducible exact OkO.none | with_reducible apply OkO.some | with_reducible exact OkOR.none | with_reducible apply OkOR.some | with_reducible refine OkR.elim ?_ (by assumption) | with_reducible refine OkE.elim ?_ (by assumption) | with_reducible refine OkO.elim ?_ (by assumption) | with_reducible refine OkOR.elim ?_ (by assumption) | split)

theorem Dev.writeMg_good {d : Dev} (h : Dev.Good mm lk wl d) (off : Nat) (w : W32) : Dev.Good mm lk wl (Dev.writeMg d off w) := by
  unfold Dev.writeMg
  repeat' (first | exact Mgmt.cancelUpdate_keeps | (exact fun _ h => h) | (exact fun _ => ⟨rfl, rfl, rfl⟩) | (exact fun _ => rfl) | (intro _; (repeat' split) <;> exact ⟨rfl, rfl, rfl⟩) | (intro _ h; (repeat' split) <;> exact h) | with_reducible apply Dev.modFabric_free | with_reducible apply Dev.modMgmt_free | with_reducible apply Dev.modArb_free | with_reducible assumption | (with_reducible intro _) | with_reducible apply Dev.each_good | with_reducible apply Dev.when_good | with_reducible apply Dev.modMgmt_good | with_reducible apply Dev.applyMgmt_good | with_reducible apply Dev.rwl_good | with_reducible exact OkR.error | with_reducible apply OkR.ok | with_reducible exact OkE.error | with_reducible apply OkE.ok | with_reducible exact OkO.none | with_reducible apply OkO.some | with_reducible exact OkOR.none | with_reducible apply OkOR.some | with_reducible refine OkR.elim ?_ (by assumption) | with_reducible refine OkE.elim ?_ (by assumption) | with_reducible refine OkO.elim ?_ (by assumption) | with_reducible refine OkOR.elim ?_ (by assumption) | with_reducible refine good_of_pair ?_ (by assumption) | with_reducible refine good_of_pair2 ?_ (by assumption) | with_reducible exact OkR.elim (by assumption) rfl | with_reducible exact OkE.elim (by assumption) rfl | with_reducible apply foldl_good | with_reducible apply foldl_pair_good | with_reducible apply foldl_okR | with_reducible apply foldl_okE | with_reducible apply foldl_okOR | with_reducible apply okOR_map | with_reducible apply okO_map | with_reducible exact OkO.elim (by assumption) rfl | with_reducible exact OkOR.elim (by assumption) rfl | split | (refine Dev.good_iff.mpr ?_; dsimp only; refine Dev.good_iff.mp ?_) | (refine Dev.good_iff.mpr ?_; dsimp only; refine good_clear (Dev.good_iff.mp ?_)) | (refine Dev.good_iff.mpr ?_; dsimp only; refine good_writeAll (Dev.good_iff.mp ?_)) | contradiction | dsimp only)

theorem Dev.writePf_good {d : Dev} (h : Dev.Good mm lk wl d) (fn off : Nat) (w : W32) : Dev.Good mm lk wl (d.writePf fn off w) := by
  unfold Dev.writePf
  refine ite_good (Dev.writeMsix_good h ..) <| ite_good (Dev.writeQt_good h ..) <| ite_good (Dev.writeFn_good h ..) <|
    ite_good h <| ite_good (Dev.writeGlobal_good h ..) <| ite_good (Dev.writeFabric_good h ..) <|
    ite_good (Dev.writeDike_good h ..) <| ite_good (Dev.writeCtx_good h ..) <| ite_good (Dev.writeTide_good h ..) <|
    ite_good (Dev.writeErr_good h ..) <| ite_good (Dev.writeArb_good h ..) <| ite_good (Dev.writeLc_good h ..) <|
    Dev.writeMg_good h ..

theorem Dev.writeReg_good {d : Dev} (h : Dev.Good mm lk wl d) (fn off : Nat) (w : W32) : Dev.Good mm lk wl (Dev.writeReg d fn off w) := by
  unfold Dev.writeReg
  repeat' (first | with_reducible assumption | (with_reducible intro _) | with_reducible apply Dev.writeMsix_good | with_reducible apply Dev.writeLc_good | with_reducible apply Dev.writePf_good | with_reducible exact OkR.error | with_reducible apply OkR.ok | with_reducible exact OkE.error | with_reducible apply OkE.ok | with_reducible exact OkO.none | with_reducible apply OkO.some | with_reducible exact OkOR.none | with_reducible apply OkOR.some | with_reducible refine OkR.elim ?_ (by assumption) | with_reducible refine OkE.elim ?_ (by assumption) | with_reducible refine OkO.elim ?_ (by assumption) | with_reducible refine OkOR.elim ?_ (by assumption) | split)

/-- A command's next state keeps both. -/
structure OkS (mm : Option (List Host.Cell)) (lk : Bool) (wl : List Nat) (r : Host.Outcome State Fault Refusal) : Prop where
  out : ∀ t, r = .next t → Dev.Good mm lk wl t.dev
theorem OkS.fault {f : Fault} : OkS mm lk wl (.fault f) := ⟨fun _ q => by cases q⟩
theorem OkS.refused {f : Refusal} : OkS mm lk wl (.refused f) := ⟨fun _ q => by cases q⟩
theorem OkS.next {t : State} (h : Dev.Good mm lk wl t.dev) : OkS mm lk wl (.next t) := ⟨fun _ q => by cases q; exact h⟩
theorem State.onDev_good {s : State} {f : Dev → Dev} (h : Dev.Good mm lk wl s.dev)
    (k : ∀ d, Dev.Good mm lk wl d → Dev.Good mm lk wl (f d)) : Dev.Good mm lk wl (s.onDev f).dev := k _ h
theorem State.onDevice_good {s : State} {f : Dev → Dev} (h : Dev.Good mm lk wl s.dev)
    (k : ∀ d, Dev.Good mm lk wl d → Dev.Good mm lk wl (f d)) : Dev.Good mm lk wl (s.onDevice f).dev :=
  Dev.sensorEvents_good _ (k _ h)
theorem State.onLive_good {s : State} {f : Dev → Dev} (h : Dev.Good mm lk wl s.dev)
    (k : ∀ d, Dev.Good mm lk wl d → Dev.Good mm lk wl (f d)) : Dev.Good mm lk wl (s.onLive f).dev :=
  ite_good h (k _ h)
theorem mgmtRequest_good {s : State} (h : Dev.Good mm lk wl s.dev) (t : Nat) (f : Dev → Dev)
    (k : ∀ d, Dev.Good mm lk wl d → Dev.Good mm lk wl (f d)) : OkS mm lk wl (mgmtRequest t s f) := by
  unfold mgmtRequest
  repeat' (first | with_reducible assumption | exact OkS.fault | with_reducible apply OkS.next | with_reducible apply State.onDevice_good | with_reducible apply Dev.onTransport_good | intro _ | split)


end Sys2Proof.Machine
end

