-- ==== Sys2Proof/Laws/PerInstr.lean ====
section
/-! SUPPORT. A fact of every command as syntax: a well-formed command that names a queue names one of the 4,096 (R298). -/

namespace Sys2Proof.Laws

/-- The queue a command stands in, where its row names one. -/
def queueOf : Instr → Option Nat
  | .fenceSignal q => some q
  | .fenceWait q => some q
  | .fenceWaitTimeout q => some q
  | .mapPages q => some q
  | .unmapPages q => some q
  | .quotaSet q => some q
  | .putTensor q => some q
  | .getTensor q => some q
  | .stage q => some q
  | .loadPlan q => some q
  | .unloadPlan q => some q
  | .runPlan q => some q
  | .charterCreate q => some q
  | .charterKey q => some q
  | .charterBind q => some q
  | .charterAdmit q => some q
  | .charterClose q => some q
  | .groupOpen q => some q
  | .groupClose q => some q
  | .restore q _ => some q
  | .havenBind q => some q
  | .havenUnbind q => some q
  | .takeover q => some q
  | .drainTileUnforced q => some q
  | .drainTileForced q => some q
  | .drainTileReturn q => some q
  | .setOppoint q => some q
  | .commandDecode q _ => some q
  | .completionSpaceFreed q _ => some q
  | .classPStepStart q => some q
  | .snapshot (.queue q) => some q
  | _ => none

/-- The queue a well-formed command names exists. -/
def OperandsBounded.Statement (i : Instr) : Prop := i.wf = true → ∀ q, queueOf i = some q → q < 4096

theorem queue_bound {q : Nat} (h : okQueue q = true) : q < 4096 := by simpa [okQueue] using h

theorem OperandsBounded.fenceSignal (q : Nat) : OperandsBounded.Statement (.fenceSignal q) :=
  fun h _ e => by cases e; exact queue_bound h
theorem OperandsBounded.fenceWait (q : Nat) : OperandsBounded.Statement (.fenceWait q) :=
  fun h _ e => by cases e; exact queue_bound h
theorem OperandsBounded.fenceWaitTimeout (q : Nat) : OperandsBounded.Statement (.fenceWaitTimeout q) :=
  fun h _ e => by cases e; exact queue_bound h
theorem OperandsBounded.mapPages (q : Nat) : OperandsBounded.Statement (.mapPages q) :=
  fun h _ e => by cases e; exact queue_bound h
theorem OperandsBounded.unmapPages (q : Nat) : OperandsBounded.Statement (.unmapPages q) :=
  fun h _ e => by cases e; exact queue_bound h
theorem OperandsBounded.pageInvalidate (entry : Nat) : OperandsBounded.Statement (.pageInvalidate entry) :=
  fun _ _ e => nomatch e
theorem OperandsBounded.quotaSet (q : Nat) : OperandsBounded.Statement (.quotaSet q) :=
  fun h _ e => by cases e; exact queue_bound h
theorem OperandsBounded.quotaGraceExpiry (slot : Nat) : OperandsBounded.Statement (.quotaGraceExpiry slot) :=
  fun _ _ e => nomatch e
theorem OperandsBounded.putTensor (q : Nat) : OperandsBounded.Statement (.putTensor q) :=
  fun h _ e => by cases e; exact queue_bound h
theorem OperandsBounded.getTensor (q : Nat) : OperandsBounded.Statement (.getTensor q) :=
  fun h _ e => by cases e; exact queue_bound h
theorem OperandsBounded.stage (q : Nat) : OperandsBounded.Statement (.stage q) :=
  fun h _ e => by cases e; exact queue_bound h
theorem OperandsBounded.loadPlan (q : Nat) : OperandsBounded.Statement (.loadPlan q) :=
  fun h _ e => by cases e; exact queue_bound h
theorem OperandsBounded.loadPlanComplete (core : Nat) : OperandsBounded.Statement (.loadPlanComplete core) :=
  fun _ _ e => nomatch e
theorem OperandsBounded.unloadPlan (q : Nat) : OperandsBounded.Statement (.unloadPlan q) :=
  fun h _ e => by cases e; exact queue_bound h
theorem OperandsBounded.runPlan (q : Nat) : OperandsBounded.Statement (.runPlan q) :=
  fun h _ e => by cases e; exact queue_bound h
theorem OperandsBounded.charterCreate (q : Nat) : OperandsBounded.Statement (.charterCreate q) :=
  fun h _ e => by cases e; exact queue_bound h
theorem OperandsBounded.charterKey (q : Nat) : OperandsBounded.Statement (.charterKey q) :=
  fun h _ e => by cases e; exact queue_bound h
theorem OperandsBounded.charterBind (q : Nat) : OperandsBounded.Statement (.charterBind q) :=
  fun h _ e => by cases e; exact queue_bound h
theorem OperandsBounded.charterAdmit (q : Nat) : OperandsBounded.Statement (.charterAdmit q) :=
  fun h _ e => by cases e; exact queue_bound h
theorem OperandsBounded.charterClose (q : Nat) : OperandsBounded.Statement (.charterClose q) :=
  fun h _ e => by cases e; exact queue_bound h
theorem OperandsBounded.groupOpen (q : Nat) : OperandsBounded.Statement (.groupOpen q) :=
  fun h _ e => by cases e; exact queue_bound h
theorem OperandsBounded.groupOpenTimeout (group : Nat) : OperandsBounded.Statement (.groupOpenTimeout group) :=
  fun _ _ e => nomatch e
theorem OperandsBounded.groupControlReceive (src : Nat) (m : GroupControl) : OperandsBounded.Statement (.groupControlReceive src m) :=
  fun _ _ e => nomatch e
theorem OperandsBounded.groupClose (q : Nat) : OperandsBounded.Statement (.groupClose q) :=
  fun h _ e => by cases e; exact queue_bound h
theorem OperandsBounded.snapshot (w : SnapshotAt) : OperandsBounded.Statement (.snapshot w) := by
  cases w with
  | queue q => exact fun h _ e => by cases e; exact queue_bound h
  | rank _ _ _ _ => exact fun _ _ e => nomatch e
  | reply _ _ _ => exact fun _ _ e => nomatch e
theorem OperandsBounded.secureNowRequest (job rank : Nat) (nsBeforeBoundary : Nat) : OperandsBounded.Statement (.secureNowRequest job rank nsBeforeBoundary) :=
  fun _ _ e => nomatch e
theorem OperandsBounded.snapshotVote (job rank : Nat) (freeze : Bool) : OperandsBounded.Statement (.snapshotVote job rank freeze) :=
  fun _ _ e => nomatch e
theorem OperandsBounded.snapshotDecision (w : DecisionAt) (freeze : Bool) : OperandsBounded.Statement (.snapshotDecision w freeze) :=
  fun _ _ e => nomatch e
theorem OperandsBounded.fillDone (slot : Nat) : OperandsBounded.Statement (.fillDone slot) := fun _ _ e => nomatch e
theorem OperandsBounded.havenUnitReceive (u : HavenUnit) : OperandsBounded.Statement (.havenUnitReceive u) :=
  fun _ _ e => nomatch e
theorem OperandsBounded.drainConfirmed (slot : Nat) : OperandsBounded.Statement (.drainConfirmed slot) :=
  fun _ _ e => nomatch e
theorem OperandsBounded.snapshotComplete (w : CompleteAt) : OperandsBounded.Statement (.snapshotComplete w) :=
  fun _ _ e => nomatch e
theorem OperandsBounded.restore (q : Nat) (r : PullResult) : OperandsBounded.Statement (.restore q r) :=
  fun h _ e => by cases e; exact queue_bound h
theorem OperandsBounded.havenBind (q : Nat) : OperandsBounded.Statement (.havenBind q) :=
  fun h _ e => by cases e; exact queue_bound h
theorem OperandsBounded.havenUnbind (q : Nat) : OperandsBounded.Statement (.havenUnbind q) :=
  fun h _ e => by cases e; exact queue_bound h
theorem OperandsBounded.havenBindTimeout (slot : Nat) : OperandsBounded.Statement (.havenBindTimeout slot) :=
  fun _ _ e => nomatch e
theorem OperandsBounded.takeover (q : Nat) : OperandsBounded.Statement (.takeover q) :=
  fun h _ e => by cases e; exact queue_bound h
theorem OperandsBounded.takeoverSubstitution (m : Substitution) : OperandsBounded.Statement (.takeoverSubstitution m) :=
  fun _ _ e => nomatch e
theorem OperandsBounded.drainTileUnforced (q : Nat) : OperandsBounded.Statement (.drainTileUnforced q) :=
  fun h _ e => by cases e; exact queue_bound h
theorem OperandsBounded.drainTileForced (q : Nat) : OperandsBounded.Statement (.drainTileForced q) :=
  fun h _ e => by cases e; exact queue_bound h
theorem OperandsBounded.drainTileReturn (q : Nat) : OperandsBounded.Statement (.drainTileReturn q) :=
  fun h _ e => by cases e; exact queue_bound h
theorem OperandsBounded.setOppoint (q : Nat) : OperandsBounded.Statement (.setOppoint q) :=
  fun h _ e => by cases e; exact queue_bound h
theorem OperandsBounded.commandDecode (q : Nat) (packet : List W32) : OperandsBounded.Statement (.commandDecode q packet) :=
  fun h _ e => by cases e; exact queue_bound h
theorem OperandsBounded.allQueueSummaryPoll (fn : Nat) (r : SummaryRead) : OperandsBounded.Statement (.allQueueSummaryPoll fn r) :=
  fun _ _ e => nomatch e
theorem OperandsBounded.classPSummaryPoll (fn : Nat) (r : SummaryRead) : OperandsBounded.Statement (.classPSummaryPoll fn r) :=
  fun _ _ e => nomatch e
theorem OperandsBounded.summarySwapFail (fn : Nat) : OperandsBounded.Statement (.summarySwapFail fn) :=
  fun _ _ e => nomatch e
theorem OperandsBounded.completionSpaceFreed (q : Nat) (cplHead : Nat) : OperandsBounded.Statement (.completionSpaceFreed q cplHead) :=
  fun h _ e => by cases e; exact queue_bound h
theorem OperandsBounded.queueEnable (fn : Nat) : OperandsBounded.Statement (.queueEnable fn) := fun _ _ e => nomatch e
theorem OperandsBounded.queueDisable (fn : Nat) : OperandsBounded.Statement (.queueDisable fn) :=
  fun _ _ e => nomatch e
theorem OperandsBounded.contextOpen : OperandsBounded.Statement (.contextOpen) := fun _ _ e => nomatch e
theorem OperandsBounded.contextClose : OperandsBounded.Statement (.contextClose) := fun _ _ e => nomatch e
theorem OperandsBounded.tideStart : OperandsBounded.Statement (.tideStart) := fun _ _ e => nomatch e
theorem OperandsBounded.tideStop : OperandsBounded.Statement (.tideStop) := fun _ _ e => nomatch e
theorem OperandsBounded.tideNumberLoRead : OperandsBounded.Statement (.tideNumberLoRead) := fun _ _ e => nomatch e
theorem OperandsBounded.setupLock : OperandsBounded.Statement (.setupLock) := fun _ _ e => nomatch e
theorem OperandsBounded.fabricTrainEnable (train : Bool) : OperandsBounded.Statement (.fabricTrainEnable train) :=
  fun _ _ e => nomatch e
theorem OperandsBounded.registerWrite (fn : Nat) (offset : Nat) (size : Nat) (value : W64) : OperandsBounded.Statement (.registerWrite fn offset size value) :=
  fun _ _ e => nomatch e
theorem OperandsBounded.lcTransition (target : Nat) : OperandsBounded.Statement (.lcTransition target) :=
  fun _ _ e => nomatch e
theorem OperandsBounded.lcTransitionDone : OperandsBounded.Statement (.lcTransitionDone) := fun _ _ e => nomatch e
theorem OperandsBounded.tokenLockoutExpiry : OperandsBounded.Statement (.tokenLockoutExpiry) := fun _ _ e => nomatch e
theorem OperandsBounded.debugOpen : OperandsBounded.Statement (.debugOpen) := fun _ _ e => nomatch e
theorem OperandsBounded.debugClose : OperandsBounded.Statement (.debugClose) := fun _ _ e => nomatch e
theorem OperandsBounded.tideBoundary : OperandsBounded.Statement (.tideBoundary) := fun _ _ e => nomatch e
theorem OperandsBounded.floodEnd : OperandsBounded.Statement (.floodEnd) := fun _ _ e => nomatch e
theorem OperandsBounded.ebbStart : OperandsBounded.Statement (.ebbStart) := fun _ _ e => nomatch e
theorem OperandsBounded.retirementComplete (key : Nat) : OperandsBounded.Statement (.retirementComplete key) :=
  fun _ _ e => nomatch e
theorem OperandsBounded.quarantineEnd (key : Nat) : OperandsBounded.Statement (.quarantineEnd key) :=
  fun _ _ e => nomatch e
theorem OperandsBounded.fwSelfcheckFail (component : Nat) : OperandsBounded.Statement (.fwSelfcheckFail component) :=
  fun _ _ e => nomatch e
theorem OperandsBounded.stepEnd (run : Nat) (ranNs : Nat) : OperandsBounded.Statement (.stepEnd run ranNs) :=
  fun _ _ e => nomatch e
theorem OperandsBounded.spillLimitAbort (run : Nat) : OperandsBounded.Statement (.spillLimitAbort run) :=
  fun _ _ e => nomatch e
theorem OperandsBounded.classPStepStart (q : Nat) : OperandsBounded.Statement (.classPStepStart q) :=
  fun h _ e => by cases e; exact queue_bound h
theorem OperandsBounded.classPCommit (run : Nat) : OperandsBounded.Statement (.classPCommit run) :=
  fun _ _ e => nomatch e
theorem OperandsBounded.pMeterSpent (tile : Nat) : OperandsBounded.Statement (.pMeterSpent tile) :=
  fun _ _ e => nomatch e
theorem OperandsBounded.mxContract (run op : Nat) (overlap : List Nat) : OperandsBounded.Statement (.mxContract run op overlap) :=
  fun _ _ e => nomatch e
theorem OperandsBounded.vEw (run op : Nat) : OperandsBounded.Statement (.vEw run op) := fun _ _ e => nomatch e
theorem OperandsBounded.vReduce (run op : Nat) : OperandsBounded.Statement (.vReduce run op) := fun _ _ e => nomatch e
theorem OperandsBounded.vScan (run op : Nat) : OperandsBounded.Statement (.vScan run op) := fun _ _ e => nomatch e
theorem OperandsBounded.vSegscan (run op : Nat) : OperandsBounded.Statement (.vSegscan run op) :=
  fun _ _ e => nomatch e
theorem OperandsBounded.vSummary (run op : Nat) : OperandsBounded.Statement (.vSummary run op) :=
  fun _ _ e => nomatch e
theorem OperandsBounded.gGather (run op : Nat) : OperandsBounded.Statement (.gGather run op) := fun _ _ e => nomatch e
theorem OperandsBounded.gScatter (run op : Nat) : OperandsBounded.Statement (.gScatter run op) :=
  fun _ _ e => nomatch e
theorem OperandsBounded.tReshape (run op : Nat) : OperandsBounded.Statement (.tReshape run op) :=
  fun _ _ e => nomatch e
theorem OperandsBounded.tTranspose (run op : Nat) : OperandsBounded.Statement (.tTranspose run op) :=
  fun _ _ e => nomatch e
theorem OperandsBounded.tSlice (run op : Nat) : OperandsBounded.Statement (.tSlice run op) := fun _ _ e => nomatch e
theorem OperandsBounded.sRequant (run op : Nat) : OperandsBounded.Statement (.sRequant run op) :=
  fun _ _ e => nomatch e
theorem OperandsBounded.sSetscale (run op : Nat) : OperandsBounded.Statement (.sSetscale run op) :=
  fun _ _ e => nomatch e
theorem OperandsBounded.sGetscale (run op : Nat) : OperandsBounded.Statement (.sGetscale run op) :=
  fun _ _ e => nomatch e
theorem OperandsBounded.sReset (run op : Nat) : OperandsBounded.Statement (.sReset run op) := fun _ _ e => nomatch e
theorem OperandsBounded.nDraw (run op : Nat) : OperandsBounded.Statement (.nDraw run op) := fun _ _ e => nomatch e
theorem OperandsBounded.nRound (run op : Nat) : OperandsBounded.Statement (.nRound run op) := fun _ _ e => nomatch e
theorem OperandsBounded.mPrefetch (run op : Nat) : OperandsBounded.Statement (.mPrefetch run op) :=
  fun _ _ e => nomatch e
theorem OperandsBounded.mRelease (run op : Nat) : OperandsBounded.Statement (.mRelease run op) :=
  fun _ _ e => nomatch e
theorem OperandsBounded.fReduce (run op : Nat) (r : CollResult) : OperandsBounded.Statement (.fReduce run op r) :=
  fun _ _ e => nomatch e
theorem OperandsBounded.fGather (run op : Nat) (r : CollResult) : OperandsBounded.Statement (.fGather run op r) :=
  fun _ _ e => nomatch e
theorem OperandsBounded.fAlltoall (run op : Nat) (r : CollResult) : OperandsBounded.Statement (.fAlltoall run op r) :=
  fun _ _ e => nomatch e
theorem OperandsBounded.fSend (run op : Nat) (r : CollResult) : OperandsBounded.Statement (.fSend run op r) :=
  fun _ _ e => nomatch e
theorem OperandsBounded.fRecv (run op : Nat) (r : CollResult) : OperandsBounded.Statement (.fRecv run op r) :=
  fun _ _ e => nomatch e
theorem OperandsBounded.cBranch (run : Nat) (c : ConstructAt) : OperandsBounded.Statement (.cBranch run c) :=
  fun _ _ e => nomatch e
theorem OperandsBounded.cLoop (run : Nat) (c : ConstructAt) (rs : List CollResult) : OperandsBounded.Statement (.cLoop run c rs) :=
  fun _ _ e => nomatch e
theorem OperandsBounded.verificationEpoch (reports : List Nat) : OperandsBounded.Statement (.verificationEpoch reports) :=
  fun _ _ e => nomatch e
theorem OperandsBounded.integrityCheckFail (frame granule epoch : Nat) (runs ctxs : List Nat) : OperandsBounded.Statement (.integrityCheckFail frame granule epoch runs ctxs) :=
  fun _ _ e => nomatch e
theorem OperandsBounded.quarantineScanDone (region : Nat) (failed : List (Nat × Nat)) : OperandsBounded.Statement (.quarantineScanDone region failed) :=
  fun _ _ e => nomatch e
theorem OperandsBounded.treeLineLost (region : Nat) (line : LostLine) : OperandsBounded.Statement (.treeLineLost region line) :=
  fun _ _ e => nomatch e
theorem OperandsBounded.eccUncorrectableLine (frame granule : Nat) (runs ctxs : List Nat) : OperandsBounded.Statement (.eccUncorrectableLine frame granule runs ctxs) :=
  fun _ _ e => nomatch e
theorem OperandsBounded.repairLands (frame granule : Nat) (data : List Byte) : OperandsBounded.Statement (.repairLands frame granule data) :=
  fun _ _ e => nomatch e
theorem OperandsBounded.repairDeadline (frame granule : Nat) : OperandsBounded.Statement (.repairDeadline frame granule) :=
  fun _ _ e => nomatch e
theorem OperandsBounded.frameRemapDone (frame : Nat) : OperandsBounded.Statement (.frameRemapDone frame) :=
  fun _ _ e => nomatch e
theorem OperandsBounded.scrubberPass (hub : Nat) (corrected : List (Nat × Nat)) : OperandsBounded.Statement (.scrubberPass hub corrected) :=
  fun _ _ e => nomatch e
theorem OperandsBounded.reencryptSweepDone (region : Nat) : OperandsBounded.Statement (.reencryptSweepDone region) :=
  fun _ _ e => nomatch e
theorem OperandsBounded.arbStarvation (unit req : Nat) : OperandsBounded.Statement (.arbStarvation unit req) :=
  fun _ _ e => nomatch e
theorem OperandsBounded.seamFlitFail (seam : Nat) (dir : Bool) (flit : Nat) (readers : SeamReaders) : OperandsBounded.Statement (.seamFlitFail seam dir flit readers) :=
  fun _ _ e => nomatch e
theorem OperandsBounded.promotionStart (extent plan : Nat) : OperandsBounded.Statement (.promotionStart extent plan) :=
  fun _ _ e => nomatch e
theorem OperandsBounded.promotionDone (extent : Nat) : OperandsBounded.Statement (.promotionDone extent) :=
  fun _ _ e => nomatch e
theorem OperandsBounded.promotionReadFail (extent : Nat) (mirror : Option (List Byte)) : OperandsBounded.Statement (.promotionReadFail extent mirror) :=
  fun _ _ e => nomatch e
theorem OperandsBounded.settlementStart (extent : Nat) : OperandsBounded.Statement (.settlementStart extent) :=
  fun _ _ e => nomatch e
theorem OperandsBounded.settlementDone (extent : Nat) : OperandsBounded.Statement (.settlementDone extent) :=
  fun _ _ e => nomatch e
theorem OperandsBounded.garbageCollection (hub : Nat) : OperandsBounded.Statement (.garbageCollection hub) :=
  fun _ _ e => nomatch e
theorem OperandsBounded.wearLevelRelocate (hub : Nat) : OperandsBounded.Statement (.wearLevelRelocate hub) :=
  fun _ _ e => nomatch e
theorem OperandsBounded.readDisturbRelocate (hub superblock : Nat) : OperandsBounded.Statement (.readDisturbRelocate hub superblock) :=
  fun _ _ e => nomatch e
theorem OperandsBounded.patrolRead (hub superblock ladderStep : Nat) (bitErrorsHigh : Bool) : OperandsBounded.Statement (.patrolRead hub superblock ladderStep bitErrorsHigh) :=
  fun _ _ e => nomatch e
theorem OperandsBounded.retentionRelocate (hub superblock : Nat) : OperandsBounded.Statement (.retentionRelocate hub superblock) :=
  fun _ _ e => nomatch e
theorem OperandsBounded.nandProgramFail (hub plane block : Nat) : OperandsBounded.Statement (.nandProgramFail hub plane block) :=
  fun _ _ e => nomatch e
theorem OperandsBounded.beaconReceive (b : Beacon) : OperandsBounded.Statement (.beaconReceive b) :=
  fun _ _ e => nomatch e
theorem OperandsBounded.tideNumberReport (next : Nat) : OperandsBounded.Statement (.tideNumberReport next) :=
  fun _ _ e => nomatch e
theorem OperandsBounded.tideHoldover : OperandsBounded.Statement (.tideHoldover) := fun _ _ e => nomatch e
theorem OperandsBounded.tideUnlocked : OperandsBounded.Statement (.tideUnlocked) := fun _ _ e => nomatch e
theorem OperandsBounded.backupTakeover : OperandsBounded.Statement (.backupTakeover) := fun _ _ e => nomatch e
theorem OperandsBounded.linkDelayMeasure (port roundTripNs : Nat) : OperandsBounded.Statement (.linkDelayMeasure port roundTripNs) :=
  fun _ _ e => nomatch e
theorem OperandsBounded.linkHandshake (h : Handshake) : OperandsBounded.Statement (.linkHandshake h) :=
  fun _ _ e => nomatch e
theorem OperandsBounded.harbourKeyReceive (port : Nat) (key : List Byte) (authentic : Bool) : OperandsBounded.Statement (.harbourKeyReceive port key authentic) :=
  fun _ _ e => nomatch e
theorem OperandsBounded.laneDegrade (port lane rate : Nat) : OperandsBounded.Statement (.laneDegrade port lane rate) :=
  fun _ _ e => nomatch e
theorem OperandsBounded.portRetrain (port replays : Nat) : OperandsBounded.Statement (.portRetrain port replays) :=
  fun _ _ e => nomatch e
theorem OperandsBounded.packetReceive (p : FabricPacket) : OperandsBounded.Statement (.packetReceive p) :=
  fun _ _ e => nomatch e
theorem OperandsBounded.packetResend (id : Nat) (report : SendReport) : OperandsBounded.Statement (.packetResend id report) :=
  fun _ _ e => nomatch e
theorem OperandsBounded.evacuationStop (slot : Nat) : OperandsBounded.Statement (.evacuationStop slot) :=
  fun _ _ e => nomatch e
theorem OperandsBounded.coreFault (die core : Nat) : OperandsBounded.Statement (.coreFault die core) :=
  fun _ _ e => nomatch e
theorem OperandsBounded.keySlotFreed (engineClass : Nat) : OperandsBounded.Statement (.keySlotFreed engineClass) :=
  fun _ _ e => nomatch e
theorem OperandsBounded.refclkLoss : OperandsBounded.Statement (.refclkLoss) := fun _ _ e => nomatch e
theorem OperandsBounded.forcingTakeover : OperandsBounded.Statement (.forcingTakeover) := fun _ _ e => nomatch e
theorem OperandsBounded.refclkReturn : OperandsBounded.Statement (.refclkReturn) := fun _ _ e => nomatch e
theorem OperandsBounded.powerOnReset : OperandsBounded.Statement (.powerOnReset) := fun _ _ e => nomatch e
theorem OperandsBounded.deviceReset (cause : ResetCause) : OperandsBounded.Statement (.deviceReset cause) :=
  fun _ _ e => nomatch e
theorem OperandsBounded.functionLevelReset (fn : Nat) : OperandsBounded.Statement (.functionLevelReset fn) :=
  fun _ _ e => nomatch e
theorem OperandsBounded.bringup (f : BootFacts) : OperandsBounded.Statement (.bringup f) := fun _ _ e => nomatch e
theorem OperandsBounded.neapServiceReady : OperandsBounded.Statement (.neapServiceReady) := fun _ _ e => nomatch e
theorem OperandsBounded.springServiceEntry (r : Stage5Result) : OperandsBounded.Statement (.springServiceEntry r) :=
  fun _ _ e => nomatch e
theorem OperandsBounded.thermalTrip : OperandsBounded.Statement (.thermalTrip) := fun _ _ e => nomatch e
theorem OperandsBounded.powerSample (p : PowerReading) : OperandsBounded.Statement (.powerSample p) :=
  fun _ _ e => nomatch e
theorem OperandsBounded.thermalSample (t : ThermalReading) : OperandsBounded.Statement (.thermalSample t) :=
  fun _ _ e => nomatch e
theorem OperandsBounded.droopStretch (tile : Nat) : OperandsBounded.Statement (.droopStretch tile) :=
  fun _ _ e => nomatch e
theorem OperandsBounded.tdispLockInterface (fn : Nat) : OperandsBounded.Statement (.tdispLockInterface fn) :=
  fun _ _ e => nomatch e
theorem OperandsBounded.tdispStartInterface (fn : Nat) : OperandsBounded.Statement (.tdispStartInterface fn) :=
  fun _ _ e => nomatch e
theorem OperandsBounded.tdispStopInterface (fn : Nat) : OperandsBounded.Statement (.tdispStopInterface fn) :=
  fun _ _ e => nomatch e
theorem OperandsBounded.ideKmMessage (m : IdeKm) : OperandsBounded.Statement (.ideKmMessage m) :=
  fun _ _ e => nomatch e
theorem OperandsBounded.spdmRequest (transport : Nat) (m : SpdmMsg) : OperandsBounded.Statement (.spdmRequest transport m) :=
  fun _ _ e => nomatch e
theorem OperandsBounded.mctpControl (transport : Nat) (m : MctpControl) : OperandsBounded.Statement (.mctpControl transport m) :=
  fun _ _ e => nomatch e
theorem OperandsBounded.pldmPlatformRequest (transport : Nat) (m : PldmPlatform) : OperandsBounded.Statement (.pldmPlatformRequest transport m) :=
  fun _ _ e => nomatch e
theorem OperandsBounded.requestUpdate (transport component maxTransfer : Nat) : OperandsBounded.Statement (.requestUpdate transport component maxTransfer) :=
  fun _ _ e => nomatch e
theorem OperandsBounded.updateComponentData (d : UpdateData) : OperandsBounded.Statement (.updateComponentData d) :=
  fun _ _ e => nomatch e
theorem OperandsBounded.activateFirmware : OperandsBounded.Statement (.activateFirmware) := fun _ _ e => nomatch e
theorem OperandsBounded.lcRequest (m : LcRequestMsg) : OperandsBounded.Statement (.lcRequest m) :=
  fun _ _ e => nomatch e
theorem OperandsBounded.lcRead (transport : Nat) : OperandsBounded.Statement (.lcRead transport) :=
  fun _ _ e => nomatch e
theorem OperandsBounded.getCounters (transport first count : Nat) : OperandsBounded.Statement (.getCounters transport first count) :=
  fun _ _ e => nomatch e
theorem OperandsBounded.getEvents (transport first count : Nat) : OperandsBounded.Statement (.getEvents transport first count) :=
  fun _ _ e => nomatch e
theorem OperandsBounded.takeoverRequestReceive (m : TakeoverRequest) : OperandsBounded.Statement (.takeoverRequestReceive m) :=
  fun _ _ e => nomatch e
theorem OperandsBounded.takeoverTimeout (slot : Nat) : OperandsBounded.Statement (.takeoverTimeout slot) :=
  fun _ _ e => nomatch e
theorem OperandsBounded.havenBindReceive (slot partner partnerCtx : Nat) : OperandsBounded.Statement (.havenBindReceive slot partner partnerCtx) :=
  fun _ _ e => nomatch e
theorem OperandsBounded.evacuationHold (job rank : Nat) : OperandsBounded.Statement (.evacuationHold job rank) :=
  fun _ _ e => nomatch e
theorem OperandsBounded.d3hotTransition (fn : Nat) (d3hot : Bool) : OperandsBounded.Statement (.d3hotTransition fn d3hot) :=
  fun _ _ e => nomatch e
theorem OperandsBounded.hostLinkRetrain (link : Nat) (mode : LinkMode) (width : Nat) : OperandsBounded.Statement (.hostLinkRetrain link mode width) :=
  fun _ _ e => nomatch e
theorem OperandsBounded.dynamicAddressAssignment (addr : BitVec 7) : OperandsBounded.Statement (.dynamicAddressAssignment addr) :=
  fun _ _ e => nomatch e

end Sys2Proof.Laws
end

