-- ==== Sys2Proof/Machine/ReadReg.lean ====
section
/-! DEFINITION. What a read of BAR0 returns (R627, R629, R632): every register of every block as a function of the state.
The table of commands has no row for a read that changes nothing; TIDE_NUMBER_LO, whose read latches, has one. -/

namespace Sys2Proof.Machine

/-- A word of fields at their lowest bits: each value with its position. -/
def wordOf (fs : List (Nat × Nat)) : W32 := BitVec.ofNat 32 (fs.foldl (fun n f => n + f.2 * 2 ^ f.1) 0)

/-- The word with a bit for each number in `l` from `base` to `base + n − 1`. -/
def flagWord (l : List Nat) (base n : Nat) : W32 :=
  BitVec.ofNat 32 (((List.range n).filter fun i => l.contains (base + i)).foldl (fun w i => w + 2 ^ i) 0)

def loWord (x : W64) : W32 := BitVec.ofNat 32 x.toNat

def hiWord (x : W64) : W32 := BitVec.ofNat 32 (x.toNat / 4294967296)

/-- The identity block (R633). -/
def Dev.readIdentity (d : Dev) (off : Nat) : W32 :=
  match off with
  | 0x0000 => wordOf [(0, 0x2524), (16, boolNat d.sys.binH), (20, d.sys.revision.toNat)]
  | 0x0004 => 0x00000E03
  | 0x0008 => loWord d.sys.serial
  | 0x000C => hiWord d.sys.serial
  | 0x0010 => flagWord ((List.range 16).filter fun t => (d.tile t).inService && !(d.tile t).drained) 0 16
  | 0x0014 =>
    wordOf [(0, d.mgmt.version.toNat), (31, d.mgmt.slotOf 2)]
  | _ => 0

/-- The state code of GC_SERVICE (R609). -/
def Service.code : Service → Nat
  | .reset => 0 | .boot => 1 | .neap => 2 | .spring => 3 | .recovery => 4

/-- GC_SERVICE (R609). -/
def Dev.readService (d : Dev) : W32 := wordOf [(0, d.sys.service.code), (8, d.sys.cause.toNat)]

/-- The service, clock and power registers (R609). -/
def Dev.readGlobal (d : Dev) (off : Nat) : W32 :=
  let t := d.sys.sel0.tile
  match off with
  | 0x1000 => d.readService
  | 0x1004 => wordOf [(0, boolNat d.sys.setupLock)]
  | 0x1008 => wordOf [(0, d.sys.resetCause.toNat)]
  | 0x1010 => wordOf [(0, boolNat d.sys.pllLocked), (1, boolNat d.sys.clkLost), (2, boolNat d.sys.lossSeen), (8, d.sys.lossCount)]
  | 0x1020 => wordOf [(0, d.capW)]
  | 0x1024 => wordOf [(0, d.power.powerW), (16, d.power.tempC), (24, boolNat d.power.capActive), (25, boolNat d.power.thermalActive),
                      (26, boolNat d.power.gating)]
  | 0x1030 => wordOf [(0, t)]
  | 0x1034 => wordOf [(0, (d.tile t).current), (2, (d.tile t).requested), (4, d.tileFloor t), (6, if d.sys.binH then 3 else 2),
                      (8, boolNat (d.tile t).busy)]
  | _ => 0

/-- The fabric registers (R500); a port number from 48 on selects nothing. -/
def Dev.readFabric (d : Dev) (off : Nat) : W32 :=
  let f := d.fabric
  let n := d.sys.sel0.port
  let p := d.port n
  match off with
  | 0x1800 => wordOf [(0, f.address.toNat)]
  | 0x1804 => f.harbour
  | 0x1808 => wordOf [(0, boolNat f.train), (1, boolNat f.cfgReject)]
  | 0x1810 => wordOf [(0, n)]
  | 0x1814 => if 48 ≤ n then 0 else wordOf [(0, boolNat p.enable), (1, p.maxRate.toNat)]
  | 0x1818 =>
    if 48 ≤ n then 0
    else wordOf [(0, p.state), (7, p.rate.toNat), (9, boolNat p.half), (10, min 3 p.spares.length),
                 (12, min 15 (p.retrains.filter fun t => d.tide.number < t + 1024).length), (16, p.farAddr), (26, p.farPort)]
  | 0x1830 => flagWord ((List.range 48).filter fun k => (d.port k).downFlag) 0 32
  | 0x1834 => flagWord ((List.range 48).filter fun k => (d.port k).downFlag) 32 16
  | _ => if 0x1820 ≤ off && off ≤ 0x182C && off % 4 = 0 then f.spareMap.get 0xFFFFFFFF ((off - 0x1820) / 4) else 0

/-- The Dikewatch registers (R505). -/
def Dev.readDike (d : Dev) (off : Nat) : W32 :=
  let x := d.dike
  let i := d.sys.sel0.dwIn
  match off with
  | 0x1900 => wordOf [(0, x.score), (10, x.level), (20, x.topInput), (24, x.topDie)]
  | 0x1904 => wordOf [(0, x.watch.toNat), (10, x.secure.toNat), (20, x.evacuate.toNat)]
  | 0x1908 => wordOf [(0, i)]
  | 0x190C => if i ≤ 9 then wordOf [(0, (x.cfgOf i).2), (10, (x.cfgOf i).1)] else 0
  | 0x1910 => if i ≤ 9 then wordOf [(0, min 4294967295 (d.dwMeasure i))] else 0
  | 0x1914 => wordOf [(0, x.levelUp.toNat), (3, boolNat x.evacuated), (4, boolNat x.systemLost)]
  | 0x1918 => wordOf [(0, d.sys.sel0.dwBlk)]
  | 0x191C => wordOf [(0, x.blocks.get 0 d.sys.sel0.dwBlk)]
  | _ => 0

/-- No fetched command of the queue is outstanding (R328). -/
def Queue.idle (x : Queue) : Bool := x.fetched.isEmpty && x.begun.isEmpty && x.chain.isNone && x.waitCpl.isEmpty

/-- The queue registers (R328); through PF1, those of its own queues (R291, R632). -/
def Dev.readQt (d : Dev) (fn off : Nat) : W32 :=
  let q := (d.sys.sel fn).queue
  let x := d.queue q
  if off = 0x10000 then wordOf [(0, q)]
  else if fn = 1 && x.function.toNat ≠ 1 then 0
  else match off with
  | 0x10008 => loWord x.ring
  | 0x1000C => hiWord x.ring
  | 0x10010 => loWord x.cpl
  | 0x10014 => hiWord x.cpl
  | 0x10018 => loWord x.db
  | 0x1001C => hiWord x.db
  | 0x10020 => wordOf [(0, x.ringLog2.toNat), (4, x.cplLog2.toNat), (8, x.cls.toNat), (10, x.format.toNat), (12, x.function.toNat),
                       (17, x.psumBit.toNat)]
  | 0x10024 => wordOf [(0, x.context.toNat), (16, x.vector.toNat)]
  | 0x10028 => wordOf [(0, boolNat x.enable), (1, boolNat x.cfgReject)]
  | 0x1002C => wordOf [(0, x.code.toNat), (16, boolNat x.halted), (17, boolNat x.idle)]
  | _ => 0

/-- The function registers (R329, R632). -/
def Dev.readFn (d : Dev) (fn off : Nat) : W32 :=
  let n := (d.sys.sel fn).fn
  let f := d.fn n
  if off = 0x10100 then wordOf [(0, n)]
  else if !d.fnExists n || (fn = 1 && n ≠ 1) then 0
  else match off with
  | 0x10108 => loWord f.sum
  | 0x1010C => hiWord f.sum
  | 0x10110 => loWord f.psum
  | 0x10114 => hiWord f.psum
  | 0x10118 => wordOf [(0, boolNat f.pollEnable), (1, boolNat f.atomicFail), (2, if n < 2 then 0 else f.tdi)]
  | _ => 0

/-- The state code of CTX_STATUS (R336). -/
def CtxState.code : CtxState → Nat
  | .closed => 0 | .opened => 1 | .suspended => 2 | .closing => 3

/-- The context registers (R336). -/
def Dev.readCtx (d : Dev) (off : Nat) : W32 :=
  let c := d.sys.sel0.ctx
  let k := d.ctx c
  match off with
  | 0x10200 => wordOf [(0, c)]
  | 0x10204 => wordOf [(0, k.tag.toNat), (16, k.homeFn.toNat)]
  | 0x10208 => wordOf [(0, k.vaGib.toNat)]
  | 0x1020C => wordOf [(0, k.mapBase.toNat), (12, k.mapCount.toNat)]
  | 0x10210 => wordOf [(0, k.fenceBase.toNat), (10, k.fenceCount.toNat)]
  | 0x10218 => loWord k.recBase
  | 0x1021C => hiWord k.recBase
  | 0x10220 => wordOf [(0, k.initT1.toNat)]
  | 0x10224 => wordOf [(0, k.initT2.toNat)]
  | 0x10228 => wordOf [(2, boolNat k.cfgReject)]
  | 0x1022C => wordOf [(0, k.state.code), (2, boolNat k.overQuota), (3, boolNat k.charter.isSome), (4, k.charter.getD 0), (16, k.code.toNat)]
  | 0x10230 => wordOf [(0, k.stale)]
  | 0x10234 => wordOf [(0, k.useT1)]
  | 0x10238 => wordOf [(0, k.useT2)]
  | _ => 0

/-- A word of an MSI-X entry: a vector's mask is bit 0 of its last word (R297). -/
def Dev.readMsix (d : Dev) (fn entry word : Nat) : W32 :=
  let f := d.fn fn
  match word with
  | 0 => loWord (f.msixAddr.get 0 entry)
  | 1 => hiWord (f.msixAddr.get 0 entry)
  | 2 => f.msixData.get 0 entry
  | _ => wordOf [(0, boolNat (!f.unmasked.contains entry))]

/-- The tide registers (R51). -/
def Dev.readTide (d : Dev) (off : Nat) : W32 :=
  let t := d.tide
  match off with
  | 0x30000 => wordOf [(0, boolNat t.run), (1, boolNat t.cfgReject)]
  | 0x30004 => wordOf [(0, t.periodUnits.toNat), (8, t.slackPct.toNat), (16, t.ebbPct.toNat), (24, t.spillLimit.toNat)]
  | 0x30008 => wordOf [(0, t.role.toNat), (2, t.backupRank.toNat)]
  | 0x30010 => wordOf [(0, boolNat d.tideRunning), (2, boolNat t.srcBackup), (3, boolNat t.locked), (4, boolNat t.holdover),
                       (5, boolNat t.unlocked), (6, t.hops.toNat), (8, t.offsetNs.toNat), (16, t.generation.toNat)]
  | 0x30018 => BitVec.ofNat 32 t.number
  | 0x3001C => t.numberHi
  | _ => 0

/-- The error summary registers (R634). -/
def Dev.readErr (d : Dev) (off : Nat) : W32 :=
  let e := d.errors
  match off with
  | 0x40000 => wordOf [(0, e.summary.toNat)]
  | 0x40004 => wordOf [(0, e.mask.toNat)]
  | 0x40008 => wordOf [(0, e.haltQueue), (16, e.haltCode)]
  | 0x4000C => wordOf [(0, e.overTag)]
  | 0x40010 => BitVec.ofNat 32 e.count
  | _ => 0

/-- The arbiter registers (R390): a unit that selects nothing reads 0. -/
def Dev.readArb (d : Dev) (off : Nat) : W32 :=
  let u := d.sys.sel0.arb
  let r := d.sys.sel0.req
  let a := d.arb u
  let unit (w : W32) : W32 := if arbExists u then w else 0
  match off with
  | 0x50000 => wordOf [(0, u)]
  | 0x50004 => wordOf [(0, r)]
  | 0x50008 => let c := (a.cfg.get none r).getD (arbDefault u r); unit (wordOf [(0, c.1), (2, c.2)])
  | 0x5000C => unit (wordOf [(0, a.thresh.toNat)])
  | 0x50010 => unit (wordOf [(0, a.sShare.toNat)])
  | 0x50018 => unit (flagWord a.starve 0 32)
  | 0x5001C => unit (flagWord a.starve 32 32)
  | 0x50020 => unit (flagWord a.starve 64 5)
  | 0x50024 =>
    unit (if u < 4 then wordOf [(0, (flagWord ((List.range 16).filter fun t => (d.tile t).rim) 0 16).toNat), (16, a.agents.toNat)]
      else 0)
  | 0x50028 => unit (wordOf [(0, a.lfsr.toNat)])
  | 0x50040 => wordOf [(0, d.meshThresh.toNat)]
  | 0x50044 => flagWord d.meshStarve 0 32
  | 0x50048 => flagWord d.meshStarve 32 12
  | _ => 0

/-- The life-cycle mailbox (R573). -/
def Dev.readLc (d : Dev) (off : Nat) : W32 :=
  let l := d.life
  match off with
  | 0x60000 => wordOf [(0, l.state), (3, boolNat l.pending), (4, boolNat l.fuseFault), (8, min 8 l.tokenFails)]
  | 0x60008 => wordOf [(0, l.code.toNat), (16, boolNat l.busy)]
  | 0x6000C => l.rights
  | 0x60010 => wordOf [(0, l.boots)]
  | _ =>
    if 0x60020 ≤ off && off ≤ 0x6003C && off % 4 = 0 then
      (wordsOfBytes (Config.random l.challenge)).getD ((off - 0x60020) / 4) 0
    else if 0x60400 ≤ off && off ≤ 0x607FC && off % 4 = 0 then l.data.get 0 ((off - 0x60400) / 4)
    else 0

/-- The management registers (R638). -/
def Dev.readMg (d : Dev) (off : Nat) : W32 :=
  let m := d.mgmt
  match off with
  | 0x60800 => wordOf [(0, boolNat m.i3cEnable), (1, boolNat m.vdmEnable)]
  | 0x60804 => wordOf [(0, m.staticAddr.toNat)]
  | 0x60808 => wordOf [(0, m.eid.toNat), (8, boolNat m.dynAddr.isSome), (9, boolNat m.vdmActive)]
  | _ => 0

/-- One 32-bit read through PF0 or PF1 (R632). -/
def Dev.readPf (d : Dev) (fn off : Nat) : W32 :=
  if off < 0x1000 then d.readIdentity off
  else if 0x20000 ≤ off && off < 0x28000 then d.readMsix fn ((off - 0x20000) / 16) (off % 16 / 4)
  else if 0x28000 ≤ off && off < 0x28100 then flagWord (d.fn fn).pendingBits ((off - 0x28000) * 8) 32
  else if 0x10000 ≤ off && off < 0x10100 then d.readQt fn off
  else if 0x10100 ≤ off && off < 0x10200 then d.readFn fn off
  else if fn ≠ 0 then 0
  else if off < 0x1800 then d.readGlobal off
  else if off < 0x1900 then d.readFabric off
  else if off < 0x1A00 then d.readDike off
  else if off < 0x10300 then d.readCtx off
  else if off < 0x40000 then d.readTide off
  else if off < 0x50000 then d.readErr off
  else if off < 0x60000 then d.readArb off
  else if off < 0x60800 then d.readLc off
  else d.readMg off

/-- One 32-bit read of BAR0 through a function (R291, R627): in recovery only the Identity block and GC_SERVICE answer, or
the Identity and life-cycle registers after a fuse fault or in SCRAP (R608, R572). -/
def Dev.readReg (d : Dev) (fn off : Nat) : W32 :=
  if !d.fnExists fn || off % 4 ≠ 0 then 0
  else if d.regsUp then
    (if fn < 2 then d.readPf fn off
     else if off < 0x400 then d.readMsix fn (off / 16) (off % 16 / 4)
     else if 0x800 ≤ off && off < 0x808 then flagWord (d.fn fn).pendingBits ((off - 0x800) * 8) 32
     else 0)
  else if fn ≠ 0 then 0
  else if d.sys.service = .recovery then
    (if off < 0x1000 then d.readIdentity off
     else if d.sys.locked then (if 0x60000 ≤ off && off < 0x60800 then d.readLc off else 0)
     else if off = 0x1000 then d.readService else 0)
  else 0

end Sys2Proof.Machine
end

