-- ==== Sys2Proof/Tests/Slice0.lean ====
section
/-! SUPPORT. Tests: an ill-formed term for each check of WellFormed; for each statement of the certificates a state and operands
that meet its hypotheses, clause by clause, with what the step answers there; and worked examples of the spec. -/

namespace Sys2Proof.Tests
open Sys2Proof.Machine

-- One theorem after another: a thread for each of these evaluations would exhaust the memory a check may use.
set_option Elab.async false

/-! ### Small states -/

/-- An open context in slot 3 with tag 5: fences 0 to 7, map entries 0 to 511. -/
def tCtx : Context := { state := .opened, tag := 5, fenceCount := 8, mapCount := 1, quotaT1 := 100, quotaT2 := 100 }

/-- A device in spring service, in the flood of tide 10. -/
def tDev : Dev :=
  { sys := { service := .spring }, tide := { run := true, phase := .flood, number := 10, ranAny := true }, ctxs := [(3, tCtx)] }

def tOf (d : Dev) : State := { dev := d, pending := [] }

def tCmd (op : Nat) (ws : List W32 := []) (sig : Option Nat := none) : Cmd :=
  { opcode := op, context := 5, payload := padTo 0 16 ws, payloadUnits := 1, signal := sig, signalSlot := sig.getD 0, signalValue := 1 }

/-- The device with the command at the head of queue 7, which is bound to context 3. -/
def tHead (c : Cmd) (d : Dev := tDev) (cls : BitVec 2 := 0) : State :=
  tOf { d with queues := [(7, { enable := true, context := 5, cls := cls, fetched := [c] })] }

/-- The outcome is a next state with the property. -/
def tDone (o : Host.Outcome State Fault Refusal) (p : State → Bool) : Bool :=
  match o with
  | .next t => p t
  | .fault _ => false
  | .refused _ => false

/-- The outcome is a fault. -/
def tFaults (o : Host.Outcome State Fault Refusal) : Bool :=
  match o with
  | .next _ => false
  | .fault _ => true
  | .refused _ => false

/-- A summary of `n` words that shows the bits of `w` in its first word; the Swap returns the same. -/
def tSwap (n : Nat) (w : BitVec 64) : List SummaryWord := ⟨w, 0⟩ :: List.replicate (n - 1) ⟨0, 0⟩

/-! ### Ill-formed terms -/

theorem test_wf_queue : [Instr.fenceSignal 4096, .fenceWait 4096, .fenceWaitTimeout 4096, .mapPages 4096, .unmapPages 4096,
    .quotaSet 4096, .putTensor 4096, .getTensor 4096, .stage 4096, .loadPlan 4096, .unloadPlan 4096, .runPlan 4096,
    .charterCreate 4096, .charterKey 4096, .charterBind 4096, .charterAdmit 4096, .charterClose 4096, .groupOpen 4096,
    .groupClose 4096, .snapshot (.queue 4096), .restore 4096 .incomplete, .havenBind 4096, .havenUnbind 4096, .takeover 4096,
    .drainTileUnforced 4096, .drainTileForced 4096, .drainTileReturn 4096, .setOppoint 4096, .commandDecode 4096 [],
    .completionSpaceFreed 4096 0, .classPStepStart 4096, .allQueueSummaryPoll 0 ⟨(tSwap 64 0), [⟨4096, 0, 0⟩], []⟩,
    .allQueueSummaryPoll 0 ⟨(tSwap 64 0), [], [⟨4096, 0, 0⟩]⟩, .classPSummaryPoll 0 ⟨(tSwap 8 0), [⟨4096, 0, 0⟩], []⟩].all (fun i => !i.wf) = true := by decide +kernel
theorem test_wf_slot : [Instr.quotaGraceExpiry 4096, .fillDone 4096, .drainConfirmed 4096, .havenBindTimeout 4096,
    .takeoverTimeout 4096, .evacuationStop 4096, .havenBindReceive 4096 0 0, .havenBindReceive 0 1024 0,
    .havenBindReceive 0 0 65536, .groupOpenTimeout 1024, .groupControlReceive 1024 (.nonce 0 0),
    .groupControlReceive 0 (.request 0 [] [] 1024), .groupControlReceive 0 (.refuse 0 65536)].all (fun i => !i.wf) = true := by
  decide +kernel
theorem test_wf_job : [Instr.snapshot (.rank 5120 1 0 false), .snapshot (.rank 0 4294967296 0 false), .snapshot (.reply 5120 0 true),
    .snapshot (.reply 0 1024 true), .secureNowRequest 5120 0 0,
    .secureNowRequest 0 1024 0, .snapshotVote 5120 0 true, .snapshotVote 0 1024 true, .snapshotDecision (.rank 5120) true,
    .snapshotDecision (.keeper 4096 0 0 0) false, .snapshotDecision (.keeper 0 1024 0 0) false,
    .snapshotComplete (.coordinator 5120), .snapshotComplete (.rank 5120), .snapshotComplete (.keeper 4096 0 0 0),
    .snapshotComplete (.keeper 0 1024 0 0), .evacuationHold 5120 0, .evacuationHold 0 1024,
    .havenUnitReceive ⟨0, 0, 0, 0, 1, 1, []⟩, .havenUnitReceive ⟨65536, 0, 0, 0, 0, 1, []⟩,
    .takeoverSubstitution ⟨0, 1024, 0, 0, 0, 0, [], 0, 0, 0, 0, []⟩, .takeoverSubstitution ⟨0, 0, 0, 0, 0, 0, [1024], 0, 0, 0, 0, []⟩,
    .takeoverSubstitution ⟨0, 0, 0, 0, 0, 0, [], 0, 0, 0, 0, [1024]⟩,
    .takeoverRequestReceive ⟨0, 0, 0, 1024, 0, 0, 0, [], true⟩].all (fun i => !i.wf) = true := by decide +kernel
theorem test_wf_step : [Instr.stepEnd 0 0, .spillLimitAbort 0, .classPCommit 0, .pMeterSpent 16, .mxContract 0 0 [],
    .mxContract 1 65535 [], .mxContract 1 0 [65535], .vEw 0 0, .vReduce 0 0, .vScan 0 0, .vSegscan 0 0, .vSummary 0 0,
    .gGather 0 0, .gScatter 0 0, .tReshape 0 0, .tTranspose 0 0, .tSlice 0 0, .sRequant 0 0, .sSetscale 0 0, .sGetscale 0 0,
    .sReset 0 0, .nDraw 0 0, .nRound 0 0, .mPrefetch 0 0, .mRelease 0 0, .fReduce 0 0 (.failed 0), .fGather 0 0 (.failed 0),
    .fAlltoall 0 0 (.failed 0), .fSend 0 0 (.failed 0), .fRecv 0 0 (.failed 0), .cBranch 0 ⟨0, {}⟩, .cLoop 0 ⟨0, {}⟩ []].all
    (fun i => !i.wf) = true := by decide +kernel
theorem test_wf_memory : [Instr.pageInvalidate 2097152, .loadPlanComplete 8, .retirementComplete 0, .quarantineEnd 4096,
    .verificationEpoch [0], .integrityCheckFail 393216 0 0 [] [], .integrityCheckFail 0 16384 0 [] [],
    .quarantineScanDone 2864 [], .treeLineLost 2864 .rootWord, .eccUncorrectableLine 2097152 0 [] [], .repairLands 0 0 [],
    .repairDeadline 0 16384, .frameRemapDone 393216, .scrubberPass 4 [], .reencryptSweepDone 2864, .arbStarvation 4 0,
    .arbStarvation 0 128, .seamFlitFail 108 false 0 {}, .promotionStart 16777216 0, .promotionStart 0 1024,
    .promotionDone 16777216, .promotionReadFail 16777216 none, .settlementStart 16777216, .settlementDone 16777216,
    .garbageCollection 4, .wearLevelRelocate 4, .readDisturbRelocate 4 0, .patrolRead 0 2097152 0 false,
    .retentionRelocate 4 0, .nandProgramFail 0 0 16777216].all (fun i => !i.wf) = true := by decide +kernel
theorem test_wf_outside : [Instr.allQueueSummaryPoll 17 ⟨(tSwap 64 0), [], []⟩, .allQueueSummaryPoll 0 ⟨[], [], []⟩, .classPSummaryPoll 17 ⟨(tSwap 8 0), [], []⟩,
    .classPSummaryPoll 0 ⟨(tSwap 64 0), [], []⟩, .summarySwapFail 17, .queueEnable 2,
    .queueDisable 2, .registerWrite 17 0 4 0, .registerWrite 0 0 2 0, .lcTransition 16, .fwSelfcheckFail 256,
    .beaconReceive { port := 48, tide := 0, generation := 0, srcRank := 0, periodUnits := 0, slackPct := 0, ebbPct := 0
                     hops := 0, residenceNs := 0, offsetNs := 0, authentic := true },
    .tideNumberReport (2 ^ 64), .linkDelayMeasure 48 0, .harbourKeyReceive 0 [] true, .laneDegrade 0 8 300, .portRetrain 48 0,
    .linkHandshake ⟨48, 0, 0, 0, 0, 0, 0, false, true, true, [], []⟩,
    .packetReceive ⟨1024, 0, 0, 0, false, 0, 0, 0, 0, 0, 0, [], true⟩,
    .coreFault 0x10 0, .coreFault 0 8, .keySlotFreed 7, .functionLevelReset 0, .powerSample ⟨[], [], []⟩,
    .thermalSample ⟨[], [(24, 0)], []⟩, .droopStretch 16, .tdispLockInterface 1, .tdispStartInterface 17, .tdispStopInterface 1,
    .ideKmMessage (.query 2), .ideKmMessage (.bindVf 1 1), .spdmRequest 3 .getVersion, .mctpControl 0 .getEid,
    .pldmPlatformRequest 0 .pollForEvent, .requestUpdate 0 1 1, .lcRequest ⟨true, 0, [], 0⟩, .lcRead 0, .getCounters 0 0 0,
    .getEvents 3 0 0, .d3hotTransition 2 true, .hostLinkRetrain 2 ⟨6, true⟩ 8].all (fun i => !i.wf) = true := by decide +kernel
theorem test_wf_accepts : [Instr.fenceSignal 4095, .seamFlitFail 107 true 0 {}, .arbStarvation 56 127, .promotionStart 16777215 1023,
    .integrityCheckFail 393215 16383 0 [] [], .registerWrite 16 0 8 0, .coreFault 0x30 7, .hostLinkRetrain 1 ⟨4, false⟩ 4].all
    (fun i => i.wf) = true := by decide +kernel

/-! ### The queue of commands, reset and the lock -/

theorem witness_StepTakesTheFront : tDone (step { dev := tDev, pending := [.floodEnd, .setupLock] })
    (fun t => t.dev.tide.phase == .slack && t.pending == [.setupLock]) = true := by decide +kernel
theorem witness_StepKeepsMemoryForm : (State.reset).memoryOk ∧ tDone (step State.reset) (fun t => t.dev.sys.service == .reset) = true := by
  unfold State.memoryOk; decide +kernel
theorem witness_ExecKeepsTheQueue : tDone (exec .setupLock { dev := tDev, pending := [.floodEnd] })
    (fun t => t.pending == [.floodEnd]) = true := by decide +kernel

def tLocked : Dev := { tDev with sys := { tDev.sys with setupLock := true } }

theorem witness_LockedFieldsStay : tLocked.sys.setupLock = true ∧ tLocked.regsUp = true ∧
    ([0x1004, 0x1800, 0x1804, 0x1820, 0x1824, 0x1828, 0x182C, 0x50010, 0x60800, 0x60804].all fun off =>
      tDone (exec (.registerWrite 0 off 4 0x15) (tOf tLocked)) fun t => bitOf t.dev.errors.summary.toNat 10 &&
        t.dev.lockedWords == tLocked.lockedWords) = true ∧
    tDone (step { dev := tLocked, pending := [.registerWrite 0 0x1800 4 1] }) (fun t => t.dev.fabric.address == 0) = true := by
  decide +kernel
theorem test_lock_open : tDone (exec (.registerWrite 0 0x1800 4 0x3FF) (tOf tDev)) (fun t => t.dev.fabric.address == 0x3FF) = true := by
  decide +kernel
theorem witness_OnlyTheseWriteMemory : mayWriteMemory (.fenceSignal 7) = false ∧
    tDone (exec (.fenceSignal 7) (tHead (tCmd Op.fenceSignal))) (fun t => t.dev.mem == []) = true := by decide +kernel

/-! ### Endings and fences (R315 to R318, R350 to R356) -/

theorem witness_CompletionIsPosted : let c := tCmd Op.fenceSignal [] (some 2)
    let d := (tHead c).dev
    d.muted c = false ∧ (d.queue 7).waitCpl = [] ∧ 1 ≤ (d.queue 7).freeUnits ∧ d.fnWrites (d.queue 7).function.toNat = true ∧
    d.ctxOfTag c.context = some 3 ∧ (d.ctx 3).overQuota = false ∧ signalRead (d.fence 2).value c.signalValue ≠ .leap ∧
    ((d.succeed 7 c).queue 7).cplUnits = 1 := by decide +kernel

/-- The completion of chapter 10's example. -/
def tWorked : Cmd := { opcode := 0x32, format := 2, context := 0x12, cmdId := 0xA7, signal := some 901, head := 322, signalSlot := 901, signalValue := 7 }

theorem witness_WorkedCompletionHeader : completionHeader 37 160 64
    { cmd := tWorked, broken := false, codes := [], tide := 57104, result := [] } =
      [0x00122232, 0x000000A7, 0x80000025, 0x00000142, 0x00000385, 0x00000007, 0x0000DF10, 0, 0, 0, 0, 0, 0, 0, 0, 0] := by
  decide +kernel

def tFence (v : W32) (st : FenceState) : Dev := { tDev with fences := [(2, { value := v, state := st })] }

/-- The distances 0, 1, 2^31 - 1, 2^31, 3·2^30 - 1, 3·2^30 and 2^32 - 1 (R352). -/
theorem witness_SignalByDistance :
    (((tFence 9 .pending).signalFence 2 9).1.fence 2).state = .signalled ∧
    (((tFence 9 .broken).signalFence 2 9).1.fence 2).state = .broken ∧
    (((tFence 9 .broken).signalFence 2 10).1.fence 2).state = .signalled ∧
    (((tFence 1 .pending).signalFence 2 0x80000000).1.fence 2).value = 0x80000000 ∧
    (((tFence 1 .pending).signalFence 2 0x80000001).1.fence 2).state = .broken ∧
    (((tFence 1 .pending).signalFence 2 0xC0000000).1.fence 2).code = Code.fenceLeap ∧
    (((tFence 1 .pending).signalFence 2 0xC0000001).1.fence 2) = (tFence 1 .pending).fence 2 ∧
    (((tFence 1 .pending).signalFence 2 0).1.ctx 3).stale = 1 := by decide +kernel
theorem witness_FirstBreakStands : ((tFence 4 .broken).fence 2).state = .broken ∧ ((tFence 4 .pending).fence 2).state ≠ .broken ∧
    signalRead ((tFence 4 .broken).fence 2).value 4 ≠ .ahead ∧ signalRead ((tFence 4 .broken).fence 2).value 5 = .ahead ∧
    (((tFence 4 .pending).breakFence 2 { code := 0x207, originSlot := 1, originCode := 0x301 }).fence 2).originCode = 0x301 := by decide +kernel
theorem witness_WaitsBySerialNumber : let d := tFence 4 .signalled
    d.waitState [(0, 2, 4), (1, 2, 3)] = .met ∧ d.waitState [(0, 2, 5)] = .unmet ∧
    (tFence 4 .broken).waitState [(0, 1, 0), (1, 2, 4)] = .broken 2 0 ∧
    ({ value := 0xFFFFFFFF, state := .signalled } : Fence).meets 0x80000000 = true := by decide +kernel
theorem witness_FenceCommandsSignal : let c := tCmd Op.fenceSignal [] (some 2)
    let w := tCmd Op.fenceWait [] (some 2)
    HeadReady (tHead c) 7 Op.fenceSignal (fun _ => true) c 3 ∧ HeadReady (tHead w) 7 Op.fenceWait (fun _ => true) w 3 ∧
    (tHead c).dev.ctxOfTag ((tHead c).dev.queue 7).context.toNat = some 3 ∧ (tHead c).dev.ownsFence 3 2 = true ∧
    signalRead ((tHead c).dev.fence 2).value c.signalValue = .ahead ∧
    tDone (exec (.fenceSignal 7) (tHead c)) (fun t => (t.dev.fence 2).value == 1 && (t.dev.queue 7).fetched == []) = true ∧
    tDone (exec (.fenceWait 7) (tHead w)) (fun t => (t.dev.fence 2).state == .signalled) = true := by decide +kernel

def tLate : Cmd := { tCmd Op.fenceWait [1] (some 2) with boundaries := 1, waits := [(0, 1, 5)] }

theorem witness_FenceWaitTimesOut :
    ((tHead tLate).dev.queue 7).fetched.find? (fun c => c.timedOut && (tHead tLate).dev.cmdWaits c != .met) = some tLate ∧
    (tHead tLate).dev.cmdWaits tLate = .unmet ∧ (tHead tLate).dev.ownsFence 3 2 = true ∧
    tDone (exec (.fenceWaitTimeout 7) (tHead tLate)) (fun t => (t.dev.fence 2).code == Code.fenceTimeout) = true ∧
    (tHead tLate { tDev with fences := [(1, { state := .broken, originCode := 0x301 })] }).dev.cmdWaits tLate = .broken 1 0x301 ∧
    tDone (exec (.fenceWaitTimeout 7) (tHead tLate { tDev with fences := [(1, { state := .broken, originCode := 0x301 })] }))
      (fun t => (t.dev.fence 2).originSlot == 1 && (t.dev.fence 2).originCode == 0x301) = true := by decide +kernel

/-! ### Queues (R300 to R318) -/

def tPoll (cls : BitVec 2) : Dev :=
  { tDev with fns := [(0, { pollEnable := true })], queues := [(9, { enable := true, cls := cls, consumed := 3, tail := 4 })] }

theorem witness_PollTakesTails : (tPoll 0).serving = true ∧ (tPoll 0).fnExists 0 = true ∧ (tPoll 0).inD3hot 0 = false ∧
    summaryBits ((tSwap 64 512).map SummaryWord.plain) = [9] ∧ (tPoll 0).bellQueue 0 false 9 = some 9 ∧ (tPoll 2).bellQueue 0 true 0 = some 9 ∧
    tDone (exec (.allQueueSummaryPoll 0 ⟨(tSwap 64 512), [⟨9, 67, 2⟩], []⟩) (tOf (tPoll 0))) (fun t => (t.dev.queue 9).tail == 67 &&
      t.dev.out == [.hostSwap 0 0]) = true ∧
    tDone (exec (.allQueueSummaryPoll 0 ⟨[⟨512, 512⟩], [⟨9, 5, 0⟩], [⟨9, 6, 1⟩]⟩) (tOf (tPoll 0))) (fun t => (t.dev.queue 9).tail == 6) = true ∧
    tDone (exec (.allQueueSummaryPoll 0 ⟨(tSwap 64 512), [⟨9, 68, 2⟩], []⟩) (tOf (tPoll 0))) (fun t => (t.dev.queue 9).halted) = true ∧
    tDone (exec (.allQueueSummaryPoll 0 ⟨(tSwap 64 512), [⟨9, 3, 2⟩], []⟩) (tOf (tPoll 0))) (fun t => (t.dev.queue 9).halted) = true ∧
    tDone (exec (.classPSummaryPoll 0 ⟨(tSwap 8 1), [⟨9, 4, 2⟩], []⟩) (tOf (tPoll 2))) (fun t => (t.dev.queue 9).cplHead == 2) = true := by
  decide +kernel

def tCpl : Completion := { cmd := tCmd Op.fenceSignal, broken := false, codes := [], tide := 3, result := [] }
def tFull : Dev := { tDev with queues := [(9, { enable := true, cplUnits := 64, waitCpl := [tCpl], reserved := 1 })] }

theorem witness_QueueEventsTakeEffect : tDone (exec (.summarySwapFail 0) (tOf (tPoll 0))) (fun t => !(t.dev.fn 0).pollEnable &&
      (t.dev.fn 0).atomicFail && bitOf t.dev.errors.summary.toNat 1) = true ∧
    (tFull.queue 9).freeUnits = 0 ∧
    tDone (exec (.completionSpaceFreed 9 1) (tOf tFull)) (fun t => (t.dev.queue 9).waitCpl == [] && (t.dev.queue 9).cplUnits == 65) = true ∧
    tDone (exec (.completionSpaceFreed 9 1) (tOf (tPoll 0))) (fun t => (t.dev.queue 9).cplHead == 1) = true ∧
    tDone (exec (.queueDisable 0) (tOf { (tHead (tCmd Op.fenceSignal [] (some 2))).dev with sys := { service := .spring, sel0 := { queue := 7 } } }))
      (fun t => !(t.dev.queue 7).enable && (t.dev.queue 7).fetched == [] && (t.dev.fence 2).state == .broken) = true := by
  decide +kernel

def tSetup (x : Queue) : Dev := { tDev with sys := { service := .spring, sel0 := { queue := 9, ctx := 3 } }, queues := [(9, x)] }
def tEntry : Queue := { context := 5, format := 1, vector := 1, tail := 5, consumed := 5, cplUnits := 2 }

theorem witness_QueueEnableStartsFresh : (tSetup tEntry).enableCheck 9 = none ∧ (tSetup tEntry).entryLocked 0 9 true = false ∧
    tDone (exec (.queueEnable 0) (tOf (tSetup tEntry))) (fun t => (t.dev.queue 9).enable && (t.dev.queue 9).tail == 0) = true ∧
    ((tSetup { tEntry with context := 6 }).enableCheck 9).isSome = true ∧
    tDone (exec (.queueEnable 0) (tOf (tSetup { tEntry with context := 6 }))) (fun t => (t.dev.queue 9).cfgReject && !(t.dev.queue 9).enable) = true := by
  decide +kernel

/-! ### Decode, contexts and mapping (R309 to R361) -/

/-- A format 1 packet of one parameter unit. -/
def tPkt (op : Nat) (w3 w4 : W32 := 0) (pay : List W32 := []) : List W32 :=
  padTo 0 16 [BitVec.ofNat 32 (op + 256), 1, 0, w3, w4] ++ padTo 0 16 pay

def tRing : Dev := { tDev with queues := [(9, { enable := true, context := 5, format := 1, tail := 2 })] }

theorem witness_DecodeQueuesTheCommand :
    let w := tPkt Op.fenceSignal 0x10002 1
    let h : Cmd := { parsePacket w with head := 2, seq := 0, context := 5 }
    headerForm (tRing.queue 9) w (parsePacket w) = none ∧ (parsePacket w).chain = false ∧ w.length = 32 ∧
    ((tRing.closedTo h).or (tRing.decodeChecks (tRing.queue 9) h)) = none ∧
    tDone (exec (.commandDecode 9 w) (tOf tRing)) (fun t => (t.dev.queue 9).fetched == [h] && (t.dev.queue 9).consumed == 2) = true := by
  decide +kernel
/-- The slot it names is outside the context's range: the command ends with FENCE_NOT_OWNED. -/
theorem witness_DecodeQueuesTheCommand_refused :
    let w := tPkt Op.fenceSignal 0x10200 1
    let h : Cmd := { parsePacket w with head := 2, seq := 0, context := 5 }
    headerForm (tRing.queue 9) w (parsePacket w) = none ∧
    ((tRing.closedTo h).or (tRing.decodeChecks (tRing.queue 9) h)) = some Code.fenceNotOwned ∧
    tDone (exec (.commandDecode 9 w) (tOf tRing)) (fun t => (t.dev.queue 9).fetched == [] && (t.dev.queue 9).cplUnits == 1) = true := by
  decide +kernel
/-- Format 2 on a format 1 queue halts it (R310). -/
theorem test_decode_format : tDone (exec (.commandDecode 9 ((tPkt Op.fenceSignal).set 0 0x205)) (tOf tRing))
    (fun t => (t.dev.queue 9).fetched == []) = true := by decide +kernel

def tSlot (x : Context) : Dev := { tDev with sys := { service := .spring, sel0 := { ctx := 4 } }, ctxs := [(3, tCtx), (4, x)]
                                             maps := [(512, { valid := true }), (7, { valid := true })] }
def tNew : Context := { tag := 6, mapBase := 1, mapCount := 1, fenceBase := 8, fenceCount := 1, vaGib := 0x3FFFF }

theorem witness_ContextOpens : (tSlot tNew).openCheck 4 = none ∧
    tDone (exec .contextOpen (tOf (tSlot tNew))) (fun t => (t.dev.ctx 4).state == .opened && t.dev.mapEntry 512 == {} &&
      (t.dev.mapEntry 7).valid && (t.dev.ctx 3) == tCtx) = true ∧
    tDone (exec .contextOpen (tOf (tSlot { tNew with state := .opened }))) (fun t => (t.dev.ctx 4).cfgReject) = true := by
  decide +kernel
/-- The window must not run past the end of the address space (R338). -/
theorem test_open_window : (tSlot { tNew with mapCount := 2 }).openCheck 4 = some Code.descMalformed := by decide +kernel
theorem witness_ContextCloses :
    let d : Dev := { (tHead (tCmd Op.fenceSignal)).dev with sys := { service := .spring, sel0 := { ctx := 3 } } }
    tDone (exec .contextClose (tOf d)) (fun t => (t.dev.ctx 3).state == .closing && !(t.dev.queue 7).enable &&
      (t.dev.queue 7).fetched == []) = true ∧
    tDone (exec .contextClose (tOf (tSlot tNew))) (fun t => (t.dev.ctx 4).cfgReject && (t.dev.ctx 4).state == .closed) = true := by
  decide +kernel

def tMap (va : W32) (n : W32) : Cmd := tCmd Op.mapPages [va, 0, n, 0, 0, 0, 0, 0]

/-- The last page of the window, and one page past it. -/
theorem witness_MappingAllOrNothing :
    HeadReady (tHead (tMap 0x3FE00000 1)) 7 Op.mapPages (fun _ => true) (tMap 0x3FE00000 1) 3 ∧
    tDone (exec (.mapPages 7) (tHead (tMap 0x3FE00000 1))) (fun t => (t.dev.mapEntry 511).valid) = true ∧
    tDone (exec (.mapPages 7) (tHead (tMap 0x3FE00000 2))) (fun t => t.dev.maps == [] && (t.dev.queue 7).cplUnits == 1) = true := by
  decide +kernel
def tUnmap (n : W32) : Cmd := tCmd Op.unmapPages [0x3FE00000, 0, n, 0]
def tMapped : Dev := { tDev with maps := [(511, { valid := true })] }

theorem witness_MappingAllOrNothing_unmap :
    HeadReady (tHead (tUnmap 1) tMapped) 7 Op.unmapPages (fun _ => true) (tUnmap 1) 3 ∧
    tDone (exec (.unmapPages 7) (tHead (tUnmap 1) tMapped)) (fun t => (t.dev.mapEntry 511).dead == some 1 && (t.dev.ctx 3).epoch == 1) = true ∧
    tDone (exec (.unmapPages 7) (tHead (tUnmap 2) tMapped)) (fun t => t.dev.maps == tMapped.maps && (t.dev.ctx 3).epoch == 0) = true := by
  decide +kernel

def tDead : Dev := { tDev with maps := [(5, { valid := true, dead := some 1 })] }
def tGrace (x : Context) : Dev := { tDev with ctxs := [(3, { x with grace := some (4, 6, false) })]
                                              tide := { tDev.tide with phase := .ebb } }

theorem witness_PagesLeaveAndQuotasChange : tDead.ctxOfEntry 5 = some 3 ∧ tDead.epochRetired 3 1 = true ∧
    tDone (exec (.pageInvalidate 5) (tOf tDead)) (fun t => t.dev.maps == [] && t.dev.mapEntry 5 == {}) = true ∧
    (let d : Dev := { tDead with queues := [(7, { enable := true, context := 5, begun := [{ tCmd Op.fenceSignal with epoch := 0 }] })] }
     d.epochRetired 3 1 = false ∧ tDone (exec (.pageInvalidate 5) (tOf d)) (fun t => t.dev.maps == d.maps) = true) ∧
    HeadReady (tHead (tCmd Op.quotaSet [7, 9])) 7 Op.quotaSet (fun _ => true) (tCmd Op.quotaSet [7, 9]) 3 ∧
    tDone (exec (.quotaSet 7) (tHead (tCmd Op.quotaSet [7, 9])))
      (fun t => (t.dev.ctx 3).quotaT1 == 7 && (t.dev.ctx 3).quotaT2 == 9 && !(t.dev.ctx 3).overQuota) = true ∧
    tDone (exec (.quotaSet 7) (tHead (tCmd Op.quotaSet [7, 9]) { tDev with ctxs := [(3, { tCtx with useT1 := 8 })] }))
      (fun t => (t.dev.ctx 3).overQuota) = true ∧
    tDone (exec (.quotaGraceExpiry 3) (tOf (tGrace tCtx))) (fun t => (t.dev.ctx 3).grace == none) = true ∧
    (tGrace { tCtx with useT1 := 101 }).copiesByUse 3 = [] ∧
    tDone (exec (.quotaGraceExpiry 3) (tOf (tGrace { tCtx with useT1 := 101 })))
      (fun t => (t.dev.ctx 3).grace == some (4, 6, true)) = true := by decide +kernel

/-! ### Numbers (chapters 03 to 06) -/

theorem witness_E2M1Values : (7, 12) ∈ [(0, 0), (1, 1), (2, 2), (3, 3), (4, 4), (5, 6), (6, 8), (7, 12)] ∧
    Fmt.decode Fmt.e2m1 7 = .fin { num := 6, den := 1 } := by decide +kernel
/-- A NaN; equal, lower and higher fractions of different denominators; infinities; the two zeros of BF16. -/
theorem witness_ComparePredicates : (Val.nan.isNan || (Val.inf false).isNan) = true ∧
    ([0, 1, 2, 3, 4, 5, 6].map fun p => comparePred p Val.nan (.inf false)) = [false, false, false, false, false, false, true] ∧
    ([0, 1, 2, 3, 4, 5, 6].map fun p => comparePred p (.fin { num := 1, den := 2 }) (.fin { num := 2, den := 4 })) =
      [true, false, false, true, false, true, false] ∧
    ([0, 1, 2, 3, 4, 5, 6].map fun p => comparePred p (.fin { num := -1, den := 2 }) (.fin { num := 1, den := 3 })) =
      [false, true, true, true, false, false, false] ∧
    0x8000 % 2 ^ (Fmt.width Fmt.bf16 - 1) = 0 ∧ comparePred 0 (Fmt.decode Fmt.bf16 0x8000) (Fmt.decode Fmt.bf16 0) = true := by
  decide +kernel
/-- One half and three halves, and the draw at the edge of a quarter. -/
theorem witness_RoundingModes : roundUnits 0 0 { num := 1, den := 2 } 0 = 0 ∧ roundUnits 0 0 { num := 3, den := 2 } 0 = 2 ∧
    roundUnits 1 0 { num := 7, den := 4 } 0 = 1 ∧ roundUnits 2 16383 { num := 5, den := 4 } 0 = 2 ∧
    roundUnits 2 16384 { num := 5, den := 4 } 0 = 1 ∧ roundUnits 2 0 { num := 4, den := 4 } 0 = 1 := by decide +kernel
/-- 127.5 rounds to 128: 127 under saturate, −128 under wrap; −129 saturates at −128 and wraps to 127. -/
theorem witness_IntegerOverflow :
    Fmt.roundInt Fmt.int8 { wrap := false } 0 { num := 255, den := 2 } = 0x7F ∧
    Fmt.roundInt Fmt.int8 { wrap := true } 0 { num := 255, den := 2 } = 0x80 ∧
    Fmt.roundInt Fmt.int8 { wrap := false } 0 { num := -129, den := 1 } = 0x80 ∧
    Fmt.roundInt Fmt.int8 { wrap := true } 0 { num := -129, den := 1 } = 0x7F ∧
    Fmt.roundInt Fmt.int4 { wrap := true } 0 { num := 8, den := 1 } = 8 := by decide +kernel
/-- The edge of the register's range, and a freeze that stays. -/
theorem witness_EsrSumsExactly : let top : Esr := { anchor := 3, sig := BitVec.ofNat 240 (2 ^ 239 - 1) }
    top.isInf = false ∧ top.int = 2 ^ 239 - 1 ∧ (top.addUnits 0).1 = top ∧ (top.addUnits 1).2 = true ∧
    (top.addUnits 1).1.posInf = true ∧ (top.addUnits 1).1.sig = top.sig ∧
    ((top.addUnits 1).1.addUnits (-5)).1 = (top.addUnits 1).1 ∧ (top.addUnits (-5)).1.int = 2 ^ 239 - 6 := by decide +kernel
/-- The function gives the value (or, with no value, a fault of cause 2). -/
def tLane (e : Except Nat Int) (v : Option Int) : Bool :=
  match e with
  | .ok n => v == some n
  | .error n => v == none && n == 2

theorem witness_IntegerLanes : tLane (intFn 0x20 true int32Max 1) (some int32Min) ∧ tLane (intFn 0x20 false int32Max 1) (some int32Max) ∧
    tLane (intFn 0x23 true 7 0) none ∧ tLane (intFn 0x23 true (-7) 2) (some (-3)) ∧ tLane (intFn 0x24 true (-7) 2) (some (-1)) ∧
    tLane (intFn 0x23 true int32Min (-1)) (some int32Min) ∧ tLane (intFn 0x23 false int32Min (-1)) (some int32Max) ∧
    tLane (intFn 0x2A true (-7) 33) (some (-4)) := by decide +kernel

/-! ### Operations of a step (chapters 04 to 07) -/

/-- Little-endian bytes of `n`-byte values at an address, zeros left out. -/
def tCells (a n : Nat) (l : List Nat) : List Host.Cell :=
  (l.zipIdx.flatMap fun v => (List.range n).map fun i => (a + n * v.2 + i, BitVec.ofNat 8 (v.1 / 256 ^ i))).filter fun c => c.2 != 0

def tVec (dims : List Nat) (f : Nat := 7) : TensorDecl := { format := f, dims := dims, rank := dims.length }

/-- Tensors 0 (1, 2, 3, 4), 1 (output), 2 (the indexes 3, 0, 0, 1), 3 ((1 2) (3 4), BF16), 4 (((1 0) (1 1), BF16), 5 (output),
each in its own frame from 100 on; tensor 1 has the fixed policy. -/
def tTensors : List TensorDecl := [tVec [4], tVec [4], tVec [4], tVec [2, 2] 5, tVec [2, 2] 5, tVec [2, 2]]

def tMem : List Host.Cell := tCells (100 * frameBytes) 4 [0x3F800000, 0x40000000, 0x40400000, 0x40800000] ++
  tCells (102 * frameBytes) 4 [0x40400000, 0, 0, 0x3F800000] ++ tCells (103 * frameBytes) 2 [0x3F80, 0x4000, 0x4040, 0x4080] ++
  tCells (104 * frameBytes) 2 [0x3F80, 0, 0x3F80, 0x3F80]

/-- A running step 0 of plan 0, of the operations given. -/
def tStep (ops : List OpRec) (r : Run := {}) : Dev :=
  { tDev with
    plans := [(0, { loaded := true, ctx := 3, tiles := [5], position := 8, keys := [(7, 9)], bindings := [(0, 1)]
                    module := { tensors := tTensors, ops := ops, groups := [2], streams := [⟨0, true, 0⟩]
                                steps := [⟨0, ops.length, 1, 0, 0⟩] }
                    tensors := (List.range 6).map fun t => { firstPage := t, frames := [100 + t], expMax := 2 } })]
    fabric := { groups := [(0, { state := .opened, ranks := [5, 4], rank := 1, ctx := 3 })] }
    mem := tMem, runs := [(1, { r with id := 1, ctx := 3, plan := 0 })], nextRun := 2 }

def tOp (opcode out : Nat) (ws : List W32) (conv : W32 := 0) : OpRec :=
  { opcode := opcode, conv := conv, out := out, mask := 0xFFFF, words := ws, deps := [] }

/-- The operation may issue, all is clear, and run by the row it leaves these patterns in tensor `t`. -/
def tGives (i : Instr) (o : OpRec) (t : Nat) (l : List Nat) : Bool :=
  let d := tStep [o]
  (d.canIssue 1 0 o.opcode == some o) && d.badReads (d.runOf 1) [0] == [] && d.lateExtents (d.runOf 1) [0] == [] &&
  !dependsOnSkipped d 1 0 && o.opcode == ((plainOp i).map fun x => x.2.2.1).getD o.opcode &&
  tDone (exec i (tOf d)) (fun s => (s.dev.tensorIn (s.dev.runOf 1) t).patterns == l && (s.dev.runOf 1).done == [0] &&
    s.dev.mem == d.mem)

/-- a + a; the sum 10; the running sum 1, 3, 6, 10; the sum from each flag (2 has flags at 0 and 3); a copy; the gathers of
a at 3, 0, 0, 1; a transpose; every second element; a copy; three times; a masked draw and a rounding of exact values. -/
theorem witness_OperationsRun_vector :
    tGives (.vEw 1 0) (tOp 0x0200 1 [0, 0, 0]) 1 [0x40000000, 0x40800000, 0x40C00000, 0x41000000] ∧
    tGives (.vScan 1 0) (tOp 0x0211 1 [0, 0]) 1 [0x3F800000, 0x40400000, 0x40C00000, 0x41200000] ∧
    tGives (.vSegscan 1 0) (tOp 0x0212 1 [0, 0, 2]) 1 [0x3F800000, 0x40400000, 0x40C00000, 0x40800000] ∧
    tGives (.gGather 1 0) (tOp 0x0300 1 [0, 0, 2]) 1 [0x40800000, 0x3F800000, 0x3F800000, 0x40000000] ∧
    tGives (.gScatter 1 0) (tOp 0x0301 1 [0, 0, 2]) 1 [0x40400000, 0x40800000, 0, 0x3F800000] := by decide +kernel
theorem witness_OperationsRun_layout :
    tGives (.tReshape 1 0) (tOp 0x0400 5 [0]) 5 [0x3F800000, 0x40000000, 0x40400000, 0x40800000] ∧
    tGives (.tTranspose 1 0) (tOp 0x0401 5 [3, 0x01]) 5 [0x3F800000, 0x40400000, 0x40000000, 0x40800000] ∧
    tGives (.tSlice 1 0) (tOp 0x0402 1 [0, 0, 0, 1]) 1 [0x3F800000, 0x40000000, 0x40400000, 0x40800000] ∧
    tGives (.sRequant 1 0) (tOp 0x0500 1 [0]) 1 [0x3F800000, 0x40000000, 0x40400000, 0x40800000] ∧
    tGives (.nRound 1 0) (tOp 0x0601 1 [0] 0x12) 1 [0x3F800000, 0x40000000, 0x40400000, 0x40800000] ∧
    tGives (.mPrefetch 1 0) (tOp 0x0700 0xFFFF [0, 1, 1]) 1 [0, 0, 0, 0] ∧ tGives (.mRelease 1 0) (tOp 0x0701 0xFFFF [0, 1]) 1 [0, 0, 0, 0] := by
  decide +kernel
/-- (1 2; 3 4) times (1 0; 1 1) is (3 2; 7 4). -/
theorem witness_OperationsRun_matrix :
    tGives (.mxContract 1 0 []) (tOp 0x0100 5 [3, 4, 0x2FF, 0]) 5 [0x40400000, 0x40000000, 0x40E00000, 0x40800000] := by decide +kernel
/-- The sum 10 in the one place of an output of extent 1, kind 7 of v.summary, the coarse scale 1, a scale of 4 and a reset. -/
theorem witness_OperationsRun_scalars :
    tDone (exec (.vReduce 1 0) (tOf (tStep [tOp 0x0210 1 [0, 0]]))) (fun s => ((s.dev.tensorIn (s.dev.runOf 1) 1).patterns.headD 0) == 0x41200000) ∧
    tDone (exec (.vSummary 1 0) (tOf (tStep [tOp 0x0213 2 [7, 0]]))) (fun s => (s.dev.runOf 1).slots.find 2 == some (.f32 0x41200000)) ∧
    tDone (exec (.sGetscale 1 0) (tOf (tStep [tOp 0x0502 2 [3]]))) (fun s => (s.dev.runOf 1).slots.find 2 == some (.f32 0x3F800000)) ∧
    tDone (exec (.sSetscale 1 0) (tOf (tStep [tOp 0x0501 3 [0x20000, 0x40800000]]))) (fun s =>
      (s.dev.tensorIn (s.dev.runOf 1) 3).coarse == 0x40800000 && (s.dev.tensorIn (s.dev.runOf 1) 3).patterns == [0x3E80, 0x3F00, 0x3F40, 0x3F80]) ∧
    tDone (exec (.sReset 1 0) (tOf (tStep [tOp 0x0503 0xFFFF [3]]))) (fun s => (s.dev.runOf 1).resets == [3]) := by decide +kernel
/-- A Bernoulli draw of probability 1 gives 1 everywhere, of 0 gives 0. -/
theorem witness_OperationsRun_draws :
    tGives (.nDraw 1 0) (tOp 0x0600 1 [1, 0x20000, 0x3F800000] 0x10) 1 [0x3F800000, 0x3F800000, 0x3F800000, 0x3F800000] ∧
    tGives (.nDraw 1 0) (tOp 0x0600 1 [1, 0x20000, 0] 0x10) 1 [0, 0, 0, 0] := by decide +kernel
/-- An operation after one that was skipped is skipped; one that has run cannot issue; one on an extent that is not
readable waits. -/
theorem witness_OperationsRun_other :
    let d := tStep [tOp 0x0200 1 [0, 0, 0], tOp 0x0400 5 [1]] { done := [0], skipped := [0] }
    let e := { tStep [tOp 0x0400 5 [0]] with
      plans := (tStep [tOp 0x0400 5 [0]]).plans.map fun p => (p.1, { p.2 with tensors := { extents := [9] } :: p.2.tensors.drop 1 })
      extents := [(9, { state := .promoting, plans := [0], refs := [0] })] }
    (d.canIssue 1 1 0x0400).isSome ∧ dependsOnSkipped d 1 1 = true ∧
    tDone (exec (.tReshape 1 1) (tOf d)) (fun s => (s.dev.runOf 1).skipped == [1, 0] && (s.dev.runOf 1).overlay == []) ∧
    d.canIssue 1 0 0x0200 = none ∧ tDone (exec (.vEw 1 0) (tOf d)) (fun s => s.dev.runs == d.runs) ∧
    (e.canIssue 1 0 0x0400).isSome ∧ e.lateExtents (e.runOf 1) [0] = [(0, 9)] ∧
    tDone (exec (.tReshape 1 0) (tOf e)) (fun s => (s.dev.runOf 1).late == some (0, 9) && (s.dev.runOf 1).done == []) := by decide +kernel

/-! ### Collectives and bounded control -/

/-- Rank 0's input, four FP32 elements. -/
def tIn : CollResult := .delivered [{ rank := 0, elems := [0x3F800000, 0x3F800000, 0, 0], fines := [], coarse := 0x3F800000, amax := 0, outCoarse := 0x3F800000 }]

def tColl (i : Instr) (o : OpRec) (l : List Nat) : Bool :=
  let d := tStep [o] { issued := [0] }
  (d.canIssue 1 0 o.opcode == some o) && d.badReads (d.runOf 1) [0] == [] && d.lateExtents (d.runOf 1) [0] == [] &&
  !dependsOnSkipped d 1 0 &&
  tDone (exec i (tOf d)) (fun s => (s.dev.tensorIn (s.dev.runOf 1) 1).patterns == l && (s.dev.runOf 1).done == [0])

/-- This device is rank 1 of 2 and holds 1, 2, 3, 4. -/
theorem witness_CollectivesRun :
    tColl (.fReduce 1 0 tIn) (tOp 0x0800 1 [0, 0]) [0x40000000, 0x40400000, 0x40400000, 0x40800000] ∧
    tColl (.fAlltoall 1 0 tIn) (tOp 0x0802 1 [0, 0]) [0, 0, 0x40400000, 0x40800000] ∧
    tColl (.fSend 1 0 (.delivered [])) (tOp 0x0803 0xFFFF [0, 1, 0]) [0, 0, 0, 0] ∧
    tColl (.fReduce 1 0 (.failed Code.peerLost)) (tOp 0x0800 1 [0, 0]) [0, 0, 0, 0] ∧
    tDone (exec (.fReduce 1 0 (.failed Code.peerLost)) (tOf (tStep [tOp 0x0800 1 [0, 0]] { issued := [0] }))) (fun s => (s.dev.runOf 1).skipped == [0] &&
      (s.dev.runOf 1).codes.map CodeEntry.code == [Code.peerLost]) := by decide +kernel
/-- Not issued and without a credit from rank 0, it is issued and its input waits; issued and waiting, nothing changes. -/
theorem witness_CollectivesRun_issue :
    let o := tOp 0x0800 1 [0, 0]
    let d := tStep [o]
    let w := tStep [o] { issued := [0], toSend := [(0, 0)] }
    d.collDests (d.runOf 1) o = [0] ∧ d.hasCredit (d.runOf 1) 0 o 0 = false ∧ d.collSources (d.runOf 1) o = [0] ∧
    tDone (exec (.fReduce 1 0 tIn) (tOf d)) (fun s => (s.dev.runOf 1).issued == [0] && (s.dev.runOf 1).done == [] &&
      (s.dev.runOf 1).toSend == [(0, 0)] && s.dev.out == [.fabric 5 (.credit 0 0 0)]) ∧
    w.collWaits (w.runOf 1) 0 o = true ∧ tDone (exec (.fReduce 1 0 tIn) (tOf w)) (fun s => s.dev.runs == w.runs && s.dev.out == []) := by decide +kernel
/-- The gather of two ranks along a tensor of twice the extent, and a receive from the rank that sends with delta 1. -/
theorem witness_CollectivesRun_moves :
    let d (o : OpRec) : Dev := let x := tStep [o] { issued := [0] }
      { x with plans := x.plans.map fun p => (p.1, { p.2 with module := { p.2.module with tensors := [tVec [2], tVec [4]] } }) }
    tDone (exec (.fGather 1 0 tIn) (tOf (d (tOp 0x0801 1 [0, 0])))) (fun s =>
      (s.dev.tensorIn (s.dev.runOf 1) 1).patterns == [0x3F800000, 0x3F800000, 0x3F800000, 0x40000000]) ∧
    tDone (exec (.fRecv 1 0 tIn) (tOf (d (tOp 0x0804 1 [0, 1])))) (fun s =>
      (s.dev.tensorIn (s.dev.runOf 1) 1).patterns == [0x3F800000, 0x3F800000, 0, 0]) := by decide +kernel
/-- The chapter's three ranks with 2^24, 1 and 1: 16,777,216 by the tree, 16,777,218 in the exact form (R250). -/
theorem test_reduce_forms :
    let vs := [16777216, 1, 1].map Val.ofInt
    (reduceElem 0 false vs).1.toF32 = (Val.ofInt 16777216).toF32 ∧ f32Bits (reduceElem 0 true vs).1 = 0x4B800001 ∧
    f32Bits (reduceElem 0 false vs).1 = 0x4B800000 := by decide +kernel

/-- A branch on the immediate 1 between a doubling and a negation, and a loop of three trips of t1 := t1 + t0. -/
def tBranch : Dev := tStep [tOp 0x0900 0xFFFF [0x30000, 1, 1, 1, 1], tOp 0x0200 1 [0, 0, 0], tOp 0x0200 1 [8, 0]]
def tLoop (n : W32) : Dev := tStep [tOp 0x0901 0xFFFF [0, 3, 0x30000, n, 1], tOp 0x0200 1 [0, 1, 0]]

theorem witness_ConstructsRun : (tBranch.canIssue 1 0 0x0900).isSome ∧ tBranch.badReads (tBranch.runOf 1) [0, 1, 2] = [] ∧
    tBranch.lateExtents (tBranch.runOf 1) [0, 1, 2] = [] ∧
    tDone (exec (.cBranch 1 ⟨0, {}⟩) (tOf tBranch)) (fun s => [0, 1, 2].all (s.dev.runOf 1).done.contains &&
      (s.dev.tensorIn (s.dev.runOf 1) 1).patterns == [0xBF800000, 0xC0000000, 0xC0400000, 0xC0800000]) ∧
    ((tLoop 3).canIssue 1 0 0x0901).isSome ∧
    tDone (exec (.cLoop 1 ⟨0, {}⟩ []) (tOf (tLoop 3))) (fun s => [0, 1].all (s.dev.runOf 1).done.contains &&
      (s.dev.tensorIn (s.dev.runOf 1) 1).patterns == [0x40400000, 0x40C00000, 0x41100000, 0x41400000]) := by decide +kernel
/-- A fourth trip would pass max_trips: three trips run and LOOP_BOUND is raised (R208). -/
theorem test_loop_bound : tDone (exec (.cLoop 1 ⟨0, {}⟩ []) (tOf (tLoop 4))) (fun s =>
    (s.dev.runOf 1).codes.map CodeEntry.code == [Code.loopBound] && (s.dev.runOf 1).bounds == [(0, 1)]) := by decide +kernel

/-- Each opcode of the statement, its scales valid, an index inside and one outside. -/
theorem witness_OperationResults :
    let d := tStep []
    let e := d.envOf (d.runOf 1)
    let p := d.plan 0
    let ix (v : Val) : Option Nat := match indexAt v 4 with
      | .error _ => none
      | .ok n => some n
    e.scalesValid [0, 2] = true ∧ e.outputValid [1] = true ∧ e.outputValid [5] = true ∧ (e.tensor 0).exact.map ix = [some 1, some 2, some 3, none] ∧
    ((evalOp p e (tOp 0x0300 1 [0, 0, 0]) 0 [] (.failed 0)).codes.map OpCode.code) = [Code.laneFault] ∧
    ((evalOp p e (tOp 0x0400 5 [0]) 0 [] (.failed 0)).results.map List.length) = some 4 ∧
    (evalOp p e (tOp 0x0800 1 [0, 0]) 0 [] (.failed 7)).skip = true := by decide +kernel

/-! ### Steps (chapter 02) -/

def tEnded : Dev := let x := tStep [tOp 0x0200 1 [0, 0, 0]] { done := [0] }
  { x with tide := { x.tide with holdover := true } }

theorem witness_StepsEnd : tEnded.stepFinished 1 = true ∧ tEnded.serving = true ∧ (tEnded.runOf 1).spilled = false ∧
    tDone (exec (.stepEnd 1 500) (tOf tEnded)) (fun s => (s.dev.runOf 1).state == .ended &&
      (s.dev.runOf 1).codes.map CodeEntry.code == [Code.tideHoldover]) ∧
    (let d := tStep [tOp 0x0200 1 [0, 0, 0]] { done := [0], cls := 2 }
     tDone (exec (.stepEnd 1 500) (tOf d)) (fun s => (s.dev.runOf 1).state == .ended && (s.dev.tile 5).meter == 500)) := by
  decide +kernel
/-- A spill whose limit of 3 tides has passed: last tide 6, now 10, in slack. -/
theorem witness_StepsEnd_abort :
    let x := tStep [tOp 0x0200 1 [0, 0, 0]] { spilled := true, lastTide := 6, overlay := [(0, 1)] }
    let d : Dev := { x with tide := { x.tide with phase := .slack } }
    (d.runs.find 1).isSome ∧ 6 + d.tide.spillLimit.toNat + 1 ≤ d.tide.number ∧
    tDone (exec (.spillLimitAbort 1) (tOf d)) (fun s => (s.dev.runOf 1).aborted && (s.dev.runOf 1).overlay == [] &&
      (s.dev.runOf 1).codes.map CodeEntry.code == [Code.stepTimeout]) ∧
    tDone (exec (.spillLimitAbort 1) (tOf { d with tide := { d.tide with number := 9 } })) (fun s => !(s.dev.runOf 1).aborted) := by
  decide +kernel

/-- A class-P plan on tile 5 with one RUN_PLAN of queue 7 begun. -/
def tP (spent : Bool := false) : Dev :=
  let x := tStep [tOp 0x0200 1 [0, 0, 0]]
  { x with runs := [], tiles := [(5, { inService := true, spent := spent })]
           plans := x.plans.map fun p => (p.1, { p.2 with cls := 2, share := 64 })
           runCmds := [{ queue := 7, ctx := 3, plan := 0, cls := 2, count := 1 }] }

theorem witness_ClassPSteps : ((tP).nextP 7).isSome ∧ ((tP).nextP 7).map (tP).pBusy = some false ∧ (tP).tideRunning = true ∧
    (((tP).nextP 7).any fun r => match (tP).startGate r with | .go => true | _ => false) = true ∧
    (let w : Dev := { tP with runCmds := [{ queue := 7, ctx := 3, plan := 0, cls := 2, count := 1, due := 11 }] }
     (w.nextP 7).map RunCmd.due = some 11 ∧ (w.nextP 7).map w.pBusy = some false ∧
     tDone (exec (.classPStepStart 7) (tOf w)) (fun s => s.dev.runs == [])) ∧
    (let c := tCmd Op.runPlan [0, 0, 1]
     let x : Dev := { tP true with runCmds := [] }
     let d : Dev := { x with plans := x.plans.map fun p => (p.1, { p.2 with bindings := [] }) }
     HeadReady (tHead c d 2) 7 Op.runPlan (fun _ => true) c 3 ∧ d.rngRoom 3 0 = true ∧ (d.plan 0).deadTo (begun (tHead c d 2) 7 3 c).2.epoch = false ∧
     d.groupGone 0 = false ∧ tDone (exec (.runPlan 7) (tHead c d 2)) (fun s =>
       s.dev.runCmds.map (fun r => (r.due, r.codes.map CodeEntry.code)) == [(11, [Code.pReservationSpent])])) ∧
    tDone (exec (.classPStepStart 7) (tOf tP)) (fun s => (s.dev.runOf 2).state == .running && (s.dev.runOf 2).position == 8 &&
      (s.dev.plan 0).position == 9 && s.dev.nextRun == 3) ∧
    tDone (exec (.pMeterSpent 5) (tOf tP)) (fun s => (s.dev.tile 5).spent) := by decide +kernel
theorem witness_ClassPSteps_commit :
    let x := tStep [tOp 0x0200 1 [0, 0, 0]] { cls := 2, state := .ended, overlay := [(101 * frameBytes + 3, 0x3F)] }
    (x.runs.find 1).isSome ∧ x.jobs = [] ∧ (x.ctx 3).withhold = none ∧ (x.runOf 1).horizon = none ∧ x.tide.ebbRest = false ∧
    x.accepted (x.runOf 1).overlay = (x.runOf 1).overlay ∧
    tDone (exec (.classPCommit 1) (tOf x)) (fun s => s.dev.runs.find 1 == none &&
      Mem.read s.dev.mem (101 * frameBytes + 3) == 0x3F && Mem.read s.dev.mem (100 * frameBytes + 3) == 0x3F) := by decide +kernel

/-! ### Transfers, plans and drains -/

/-- The plan's device with no run under way, tensor 0 of 64 stored bytes and the command at the head of queue 7. -/
def tIdle : Dev := { tStep [] with runs := [] }
def tPut : Cmd := tCmd Op.putTensor (padTo 0 16 [0, 1, 0, 0, 0, 64] ++ [0x40A00000])
def tGet : Cmd := tCmd Op.getTensor [0, 0, 0, 0, 0, 64]

/-- A put of 64 bytes into tensor 1 and a get of tensor 0. -/
theorem witness_TransfersMoveData :
    HeadReady (tHead tPut tIdle) 7 Op.putTensor (fun _ => true) tPut 3 ∧ tIdle.stepBusy 3 0 1 true = false ∧
    (begun (tHead tPut tIdle) 7 3 tPut).1.namesDeep tPut = false ∧
    ((begun (tHead tPut tIdle) 7 3 tPut).1.carried (begun (tHead tPut tIdle) 7 3 tPut).2 3 1).isSome ∧
    tDone (exec (.putTensor 7) (tHead tPut tIdle)) (fun t => Mem.read t.dev.mem (101 * frameBytes + 2) == 0xA0 &&
      Mem.read t.dev.mem (100 * frameBytes + 7) == 0x40 && (t.dev.queue 7).cplUnits == 1) ∧
    HeadReady (tHead tGet tIdle) 7 Op.getTensor (fun _ => true) tGet 3 ∧ (tHead tGet tIdle).dev.getBad tGet = [] ∧
    tDone (exec (.getTensor 7) (tHead tGet tIdle)) (fun t => t.dev.mem == tIdle.mem && t.dev.held.any fun h => h.ctx == 3 &&
      (match h.item with
        | .ending e => (e.result.take 20) == padTo 0 16 [0x3F800000, 64] ++ [0x3F800000, 0x40000000, 0x40400000, 0x40800000]
        | .out _ => false)) := by decide +kernel

/-- Tensor 0 in the deep tier: extent 9, FILLING, with frame 110 for its copy. -/
def tDeep : Dev :=
  { tIdle with
    plans := tIdle.plans.map fun p => (p.1, { p.2 with
      module := { p.2.module with tensors := { tVec [4] with tierHint := 3, readOnly := true } :: p.2.module.tensors.drop 1 }
      tensors := { extents := [9] } :: p.2.tensors.drop 1 })
    extents := [(9, { state := .filling, plans := [0], ctx := 3, copy := [110], complete := true })] }
def tStage : Cmd := tCmd Op.stage (padTo 0 16 [0, 0, 0, 0, 0, 64] ++ [0x40A00000])

theorem witness_TransfersMoveData_stage :
    HeadReady (tHead tStage tDeep) 7 Op.stage (fun _ => true) tStage 3 ∧
    (begun (tHead tStage tDeep) 7 3 tStage).1.stageWaits (begun (tHead tStage tDeep) 7 3 tStage).2 = false ∧
    (match stageOpened tDeep (3, 0, true) (tVec [4]) [(9, 0)] with | .ok _ => true | .error _ => false) = true ∧
    tDone (exec (.stage 7) (tHead tStage tDeep)) (fun t => Mem.read t.dev.mem (110 * frameBytes + 2) == 0xA0 &&
      (t.dev.extent 9).covered.contains 0) ∧
    (begun (tHead { tPut with payload := tStage.payload } tDeep) 7 3 { tPut with payload := tStage.payload }).1.namesDeep
      { tPut with payload := tStage.payload } = true ∧
    tDone (exec (.putTensor 7) (tHead { tPut with payload := tStage.payload } tDeep)) (fun t =>
      Mem.read t.dev.mem (110 * frameBytes + 2) == 0xA0) := by decide +kernel

/-- A module of one FP32 tensor of four elements and one step that doubles it, word by word from R217 to R241. -/
def tModule : List W32 :=
  [0x00465054, 2, 112, 0,
   2, 16, 0x00180017, 0, 0xFFFF, 0,
   3, 4, 4, 0,
   7, 16, 0, 1, 0, 0,
   9, 24, 0x00060200, 0, 0xFFFF0000, 0, 0, 0]

/-- Tiles 5 and 6 in service, hub 0 up, page 0 of the context mapped. -/
def tSpring : Dev := { tDev with tiles := [(5, { inService := true, current := 1, requested := 1 }), (6, { inService := true, current := 1, requested := 1 })]
                                 hubs := [(0, { up := true })], maps := [(0, { valid := true, pref := 4 })] }

/-- LOAD_PLAN of the module on tile 5 or 6: class N, a share of 4 of 16. -/
def tLoadCmd (m : List W32) : Cmd := tCmd Op.loadPlan (padTo 0 16 [0, 0, 0x04100060, 50, 112] ++ padTo 0 32 m)
def tLoading (m : List W32) : Dev := { tSpring with loads := [(2, some { queue := 7, cmd := tLoadCmd m, ctx := 3 })] }

theorem witness_PlanCommandsTakeEffect_load :
    HeadReady (tHead (tLoadCmd tModule) tSpring) 7 Op.loadPlan (fun _ => true) (tLoadCmd tModule) 3 ∧
    tSpring.freeCore = some 0 ∧ (tLoading tModule).loadWaits 3 = false ∧
    tDone (exec (.loadPlan 7) (tHead (tLoadCmd tModule) tSpring)) (fun t => (t.dev.load 0).isSome) ∧
    tDone (exec (.loadPlanComplete 2) (tOf (tLoading tModule))) (fun t => (t.dev.plan 0).loaded && (t.dev.plan 0).ctx == 3 &&
      (t.dev.plan 0).tiles == [5, 6]) ∧
    tDone (exec (.loadPlanComplete 2) (tOf (tLoading (tModule.set 1 3)))) (fun t => !(t.dev.plan 0).loaded && (t.dev.load 2).isNone) := by
  decide +kernel
theorem witness_PlanCommandsTakeEffect_run :
    let c := tCmd Op.runPlan [0, 0, 1]
    let u := tCmd Op.unloadPlan [0]
    let d := { tIdle with plans := tIdle.plans.map fun p => (p.1, { p.2 with bindings := [] }) }
    HeadReady (tHead c d) 7 Op.runPlan (fun _ => true) c 3 ∧ d.rngRoom 3 0 = true ∧
    (d.plan 0).deadTo (begun (tHead c d) 7 3 c).2.epoch = false ∧ d.groupGone 0 = false ∧
    tDone (exec (.runPlan 7) (tHead c d)) (fun t => t.dev.runCmds.map RunCmd.due == [11]) ∧
    HeadReady (tHead u d) 7 Op.unloadPlan (fun _ => true) u 3 ∧
    tDone (exec (.unloadPlan 7) (tHead u d)) (fun t => (t.dev.plan 0).unloading.length == 1) ∧
    tDone (exec (.loadPlan 7) (tHead (tLoadCmd tModule) { tSpring with loads := (List.range 8).map fun k => (k, some {}) }))
      (fun t => (t.dev.queue 7).fetched.length == 1) := by decide +kernel

/-- Plan 0 as the load leaves it, on tile 5 alone, with the mask of tiles 5 and 6, or of tile 5. -/
def tPlaced (mask : Nat) : Dev :=
  let x := tIdle
  { tSpring with mem := x.mem, plans := [(0, { (x.plan 0) with
      tiles := [5], mask := mask, share := 4, beta := 50, floor := 1, bindings := []
      module := { ((x.plan 0).module) with steps := [⟨0, 1, 1, 0, 0⟩], ops := [tOp 0x0200 1 [0, 0, 0]], groups := [] } })] }
def tDrain (form : W32) : Cmd := tCmd Op.drainTile [5 + 256 * form]

/-- Unforced onto tile 6; unforced with no other tile; forced with no other tile; the return of a drained tile. -/
theorem witness_DrainsTakeEffect :
    HeadReady (tHead (tDrain 0) (tPlaced 0x60) 3) 7 Op.drainTile (fun c => c.pf 0 8 2 == 0) (tDrain 0) 3 ∧
    ((tPlaced 0x60).replaceAll 5).2 = [] ∧ ((tPlaced 0x20).replaceAll 5).2.isEmpty = false ∧
    tDone (exec (.drainTileUnforced 7) (tHead (tDrain 0) (tPlaced 0x60) 3)) (fun t => (t.dev.plan 0).moving.map Placement.tiles == some [6] &&
      (t.dev.tile 5).draining && t.dev.drains.length == 1) ∧
    tDone (exec (.drainTileUnforced 7) (tHead (tDrain 0) (tPlaced 0x20) 3)) (fun t => !(t.dev.tile 5).draining &&
      (t.dev.queue 7).fetched == []) ∧
    HeadReady (tHead (tDrain 1) (tPlaced 0x20) 3) 7 Op.drainTile (fun c => c.pf 0 8 2 == 1) (tDrain 1) 3 ∧
    tDone (exec (.drainTileForced 7) (tHead (tDrain 1) (tPlaced 0x20) 3)) (fun t => (t.dev.plan 0).suspended && (t.dev.tile 5).draining) ∧
    tDone (exec (.drainTileReturn 7) (tHead (tDrain 2) { tDev with tiles := [(5, { drained := true })] } 3)) (fun t =>
      (t.dev.tile 5).returning) := by decide +kernel

/-! ### Fabric (chapter 14) -/

/-- Ports 3 (state `st`) and 31 (up), harbour 9, basin 0, address 4. -/
def tFab (st : Nat := 3) : Dev :=
  { tDev with fabric := { address := 4, harbour := 9, train := true, harbourKey := some [1]
                          ports := [(3, { enable := true, state := st, farAddr := 5, farPort := 3 }), (31, { enable := true, state := 3, farAddr := 40 })] } }
def tShake : Handshake :=
  { port := 3, harbour := 9, address := 5, farPort := 3, lcState := 0, spareMap := 0x3FFFFFFF, rate := 2, half := false, chainOk := true
    sigOk := true, secret := [] }

theorem witness_PortsTrainAndDegrade : (tFab 0).regsUp = true ∧ (tFab 0).fabric.harbour ≠ 0 ∧
    tDone (exec (.fabricTrainEnable true) (tOf (tFab 0))) (fun t => (t.dev.port 3).state == 1 && (t.dev.port 31).state == 3 && (t.dev.port 5).state == 0) ∧
    tDone (exec (.fabricTrainEnable false) (tOf tFab)) (fun t => t.dev.fabric.dropAtEbb) ∧
    (tFab 1).miswired tShake = false ∧ (tFab 1).miswired { tShake with address := 40 } = true ∧
    tDone (exec (.linkHandshake tShake) (tOf (tFab 1))) (fun t => (t.dev.port 3).state == 3 && (t.dev.port 3).farAddr == 5) ∧
    tDone (exec (.linkHandshake { tShake with sigOk := false }) (tOf (tFab 1))) (fun t => (t.dev.port 3).state == 5 &&
      t.dev.errors.log.map LogEntry.code == [Code.fabricAuth]) ∧
    tDone (exec (.linkHandshake { tShake with address := 40 }) (tOf (tFab 1))) (fun t => (t.dev.port 3).state == 4) ∧
    tDone (exec (.harbourKeyReceive 3 [2] true) (tOf tFab)) (fun t => t.dev.fabric.harbourKey == some [2] &&
      t.dev.out == [.port 31 (.harbourKey [2])]) := by decide +kernel
/-- A spare of both ends; none; none with a lane of the other half bad; 1,024 replays and one more; a round trip. -/
theorem witness_PortsTrainAndDegrade_lanes :
    let spare : Dev := { tFab with fabric := { (tFab).fabric with spareMap := [(0, 0xFFFFFFF3)], ports := [(3, { state := 3, farPort := 3, farSpares := 0x3FFFFFFF })] } }
    let bad : Dev := { tFab with fabric := { (tFab).fabric with ports := [(3, { state := 3, badLanes := [7] })] } }
    spare.freeSpare 3 = some 0 ∧ (tFab).freeSpare 3 = none ∧
    tDone (exec (.laneDegrade 3 0 300) (tOf spare)) (fun t => (t.dev.port 3).spares == [0] && (t.dev.port 3).state == 1) ∧
    tDone (exec (.laneDegrade 3 0 256) (tOf tFab)) (fun t => (t.dev.port 3).state == 3 && t.dev.dike.fecMargin == [(3, 256)]) ∧
    tDone (exec (.laneDegrade 3 0 300) (tOf tFab)) (fun t => (t.dev.port 3).half && (t.dev.port 3).state == 1) ∧
    tDone (exec (.laneDegrade 3 0 300) (tOf bad)) (fun t => (t.dev.port 3).state == 6) ∧
    tDone (exec (.portRetrain 3 1025) (tOf tFab)) (fun t => (t.dev.port 3).state == 1) ∧
    tDone (exec (.portRetrain 3 1024) (tOf tFab)) (fun t => (t.dev.port 3).state == 3) ∧
    tDone (exec (.linkDelayMeasure 3 81) (tOf tFab)) (fun t => (t.dev.port 3).delayNs == 40) := by decide +kernel

def tPacket (seq : Nat) (type : Nat := 0) : FabricPacket :=
  { dst := 4, src := 5, cls := 0, hops := 0, detour := false, type := type, window := 0, offset := 0, length := 4, seq := seq, op := 0
    payload := [1, 2, 3, 4], tagOk := true }

/-- A running step of plan 0, whose tensor 1 is the output of a gather in the open group 0 of addresses 5 and 4. -/
def tRecv : Dev :=
  let x := tStep [tOp 0x0801 0 [0, 1]] { issued := [0] }
  { x with fabric := { (tFab).fabric with groups := [(0, { state := .opened, ranks := [5, 4], rank := 1, ctx := 3 })], seen := [(groupKeyNo 0, 5, 7)]
                                          unacked := [(2, { dst := 5, seq := 3, key := groupKeyNo 0, sends := 4, ctx := 3, msg := some (.ack 4 3) })] } }

theorem witness_PacketsLandOrAreRefused : tRecv.windowUse (tPacket 8) = .plan 0 ∧ tRecv.windowUse { tPacket 8 with window := 16384 } = .refused ∧
    tDone (exec (.packetReceive { tPacket 8 with tagOk := false }) (tOf tRecv)) (fun t => t.dev.fabric.tagFails == 1 && t.dev.out == []) ∧
    tDone (exec (.packetReceive (tPacket 3 5)) (tOf tRecv)) (fun t => t.dev.fabric.unacked == []) ∧
    tDone (exec (.packetReceive (tPacket 7)) (tOf tRecv)) (fun t => t.dev.out == [.fabric 5 (.ack 4 7)] && t.dev.fabric.seen == [(groupKeyNo 0, 5, 7)]) ∧
    tDone (exec (.packetReceive { tPacket 8 with window := 16384 }) (tOf tRecv)) (fun t => t.dev.fabric.refusals == 1) ∧
    tDone (exec (.packetReceive (tPacket 8)) (tOf tRecv)) (fun t => t.dev.fabric.seen.contains (groupKeyNo 0, 5, 8) && (t.dev.runOf 1).overlay ==
      [(100 * frameBytes, 1), (100 * frameBytes + 1, 2), (100 * frameBytes + 2, 3), (100 * frameBytes + 3, 4)]) := by decide +kernel
/-- A packet of class P for address 40: by the minimal port; by the other with that one down; nowhere after four hops. -/
theorem witness_PacketsLandOrAreRefused_forward :
    let on (ports : Tab Port) : Dev := { tFab with fabric := { (tFab).fabric with
      ports := ports, routes := [(40, { minimal := [31], nonMinimal := [3] })] } }
    let p := { tPacket 8 with dst := 40, cls := 2 }
    let half : Dev := on [(3, { state := 3, farAddr := 5 }), (31, { state := 6 })]
    tDone (exec (.packetReceive p) (tOf (on (tFab).fabric.ports))) (fun t => t.dev.out == [.port 31 (.packet { p with hops := 1 })]) ∧
    tDone (exec (.packetReceive p) (tOf half)) (fun t => t.dev.out == [.port 3 (.packet { p with hops := 1, detour := true })]) ∧
    tDone (exec (.packetReceive { p with detour := true }) (tOf half)) (fun t => t.dev.out == []) ∧
    tDone (exec (.packetReceive { p with hops := 4 }) (tOf (on (tFab).fabric.ports))) (fun t => t.dev.out == []) := by decide +kernel
/-- The fifth send, and none after it. -/
theorem witness_PacketsLandOrAreRefused_resend :
    let last : Dev := { tRecv with fabric := { tRecv.fabric with
      unacked := [(2, { dst := 5, seq := 3, sends := 5, ctx := 3, msg := some (.collective { groupId := 0, step := 0, op := 0 }) })] } }
    tDone (exec (.packetResend 2 .silent) (tOf tRecv)) (fun t => t.dev.out == [.fabric 5 (.ack 4 3)] &&
      t.dev.fabric.unacked.map (fun u => u.2.sends) == [5]) ∧
    tDone (exec (.packetResend 2 .silent) (tOf last)) (fun t => t.dev.fabric.unacked == [] &&
      (t.dev.runOf 1).codes.map CodeEntry.code == [Code.peerLost]) ∧
    tDone (exec (.packetResend 2 .tagFails) (tOf last)) (fun t => (t.dev.runOf 1).codes.map CodeEntry.code == [Code.fabricAuth]) ∧
    tDone (exec (.packetResend 2 .refused) (tOf last)) (fun t => t.dev.fabric.unacked == [] &&
      (t.dev.runOf 1).codes.map CodeEntry.code == [Code.remoteFault]) := by
  decide +kernel

/-! ### Groups -/

/-- GROUP_OPEN of group 77 with ranks 5 and 4, or 4 and 5. -/
def tOpen (l : W32) : Cmd := tCmd Op.groupOpen (padTo 0 16 [77, 0, 2] ++ [l])
def tOpening (rank : Nat) : Dev :=
  { tDev with fabric := { (tFab).fabric with groups := [(0, { state := .opening, groupId := 77, ranks := if rank = 0 then [4, 5] else [5, 4]
                                                              rank := rank, ctx := 3, matched := [0] })] } }

theorem witness_GroupsOpenAndClose :
    HeadReady (tHead (tOpen 0x40005) tFab) 7 Op.groupOpen (fun _ => true) (tOpen 0x40005) 3 ∧ noDup [5, 4] = true ∧
    tDone (exec (.groupOpen 7) (tHead (tOpen 0x40005) tFab)) (fun t => (t.dev.group 0).state == .opening && (t.dev.group 0).rank == 1 &&
      t.dev.out.length == 1) ∧
    tDone (exec (.groupOpen 7) (tHead (tOpen 0x50004) tFab)) (fun t => (t.dev.group 0).state == .opening && (t.dev.group 0).matched == [0] &&
      t.dev.out == []) ∧
    tDone (exec (.groupOpenTimeout 0) (tOf (tOpening 0))) (fun t => t.dev.group 0 == { generation := 1 }) ∧
    (tOpening 0).openingGroup 77 = some 0 ∧
    tDone (exec (.groupControlReceive 9 (.request 77 [] [] 1)) (tOf (tOpening 0))) (fun t => t.dev.group 0 == { generation := 1 }) ∧
    tDone (exec (.groupControlReceive 5 (.nonce 77 6)) (tOf (tOpening 1))) (fun t => (t.dev.group 0).state == .opened && (t.dev.group 0).nonce == 6) ∧
    tDone (exec (.groupControlReceive 5 (.refuse 77 6)) (tOf (tOpening 1))) (fun t => t.dev.group 0 == { generation := 1 }) := by
  decide +kernel
/-- A request that matches at rank 0: the digests are those of the list and of the charter. -/
theorem witness_GroupsOpenAndClose_match : (tOpening 0).fabric.harbourKey.isSome = true ∧ (tOpening 0).openingGroup 77 = some 0 ∧
    ((tOpening 0).group 0).rank = 0 ∧ ((tOpening 0).group 0).ranks.getD 1 1024 = 5 ∧
    ∃ l k, l = listDigest ((tOpening 0).group 0).ranks ∧ k = (tOpening 0).charterDigest ((tOpening 0).group 0).ctx :=
  ⟨by decide +kernel, by decide +kernel, by decide +kernel, by decide +kernel, _, _, rfl, rfl⟩
theorem witness_GroupsOpenAndClose_close :
    let c := tCmd Op.groupClose [0]
    let d : Dev := { tDev with fabric := { groups := [(0, { state := .opened, ranks := [5, 4], rank := 1, ctx := 3 })] } }
    HeadReady (tHead c d) 7 Op.groupClose (fun _ => true) c 3 ∧ (d.group 0).handle 0 = 0 ∧
    tDone (exec (.groupClose 7) (tHead c d)) (fun t => (t.dev.group 0).state == .closing) ∧
    tDone (exec (.groupClose 7) (tHead c)) (fun t => (t.dev.group 0).state == .free && (t.dev.queue 7).cplUnits == 1) := by decide +kernel

/-! ### Checks and protection (chapters 11, 12) -/

/-- Region 0 (frames 0 to 547 of hub 0) bound to context 3, mutable or read-only; frame 2 of it in use; a run of the context; one
held message of it. -/
def tBound (ro : Bool) : Dev :=
  { tStep [] with hubs := [(0, { up := true })], regions := [(0, { bound := some (3, 0xFF, ro), key := 1, frames := [2] })]
                  keys := [(1, { state := .active, binding := some (3, 0xFF, ro) })]
                  held := [{ ctx := 3, epoch := 4, item := .out .thermtrip }]
                  tide := { tDev.tide with epoch := 5, verified := [3, 3, 3, 2] } }

/-- Frame 2 is outside the reserve and frame 393,215 inside it. -/
theorem witness_ChecksThatFail : granuleExists 2 16383 = true ∧ frameReserved 2 = false ∧
    tDone (exec (.verificationEpoch [4, 3, 3, 1]) (tOf (tBound false))) (fun t => t.dev.tide.verified == [4, 3, 3, 2] && t.dev.held.length == 1) ∧
    tDone (exec (.verificationEpoch [4, 4, 4, 4]) (tOf (tBound false))) (fun t => t.dev.held == [] && t.dev.tide.epoch == 6) ∧
    tDone (exec (.integrityCheckFail 2 16383 0 [1] []) (tOf (tBound false))) (fun t => (t.dev.ctx 3).withhold == some Code.integrityAlarm &&
      t.dev.held == [] && (t.dev.runOf 1).withhold.isSome && (t.dev.region 0).quarantine) := by decide +kernel
theorem witness_ChecksThatFail_more :
    let q : Dev := { tBound false with regions := (tBound false).regions.map fun r => (r.1, { r.2 with quarantine := true }) }
    let q' : Dev := { tBound true with regions := (tBound true).regions.map fun r => (r.1, { r.2 with quarantine := true }) }
    tDone (exec (.quarantineScanDone 0 [(2, 5)]) (tOf q)) (fun t => !(t.dev.region 0).quarantine &&
      (t.dev.badLine (granuleKey 2 5)).code == Code.integrityAlarm) ∧
    tDone (exec (.quarantineScanDone 0 [(2, 5)]) (tOf q')) (fun t => (t.dev.badLine (granuleKey 2 5)).holding) ∧
    tDone (exec (.treeLineLost 0 (.system true)) (tOf (tBound false))) (fun t => t.dev.lost) ∧
    tDone (exec (.treeLineLost 0 (.system false)) (tOf (tBound false))) (fun t => (t.dev.hub 0).rebuilt == 1 && !t.dev.lost) ∧
    (tBound false).lostFrames 0 (.macLine 2048) = [2] ∧
    tDone (exec (.treeLineLost 0 (.macLine 2048)) (tOf (tBound false))) (fun t => (t.dev.ctx 3).withhold == some Code.treeLost) ∧
    tDone (exec (.eccUncorrectableLine 2 5 [1] []) (tOf (tBound false))) (fun t => (t.dev.hub 0).copying == [2] &&
      (t.dev.badLine (granuleKey 2 5)).code == Code.eccUncorrectable && (t.dev.runOf 1).withhold.isSome) ∧
    tDone (exec (.eccUncorrectableLine 2 5 [1] []) (tOf (tBound true))) (fun t => (t.dev.badLine (granuleKey 2 5)).holding) := by
  decide +kernel
/-- The last frame of a hub lies in its reserve: the failure is of a system structure, and only counted. -/
theorem witness_ChecksThatFail_reserve : granuleExists 393215 0 = true ∧ frameReserved 393215 = true ∧
    tDone (exec (.integrityCheckFail 393215 0 0 [1] []) (tOf (tBound false))) (fun t => (t.dev.hub 0).rebuilt == 1 &&
      (t.dev.ctx 3).withhold == none) := by decide +kernel

def tRepair : Dev := { tBound true with badLines := [(granuleKey 2 5, { code := Code.eccUncorrectable, holding := true, runs := [1] })]
                                        tide := { tDev.tide with phase := .ebb, ebbs := 16 } }

theorem witness_ProtectionUpkeep : tRepair.frameReadOnly 2 = true ∧
    tDone (exec (.repairLands 2 5 (List.replicate 128 7)) (tOf tRepair)) (fun t => Mem.read t.dev.mem (2 * frameBytes + 767) == 7 &&
      Mem.read t.dev.mem (2 * frameBytes + 768) == 0 && t.dev.badLines == []) ∧
    tDone (exec (.repairDeadline 2 5) (tOf tRepair)) (fun t => !(t.dev.badLine (granuleKey 2 5)).holding && (t.dev.runOf 1).withhold.isSome) ∧
    tDone (exec (.repairDeadline 2 5) (tOf { tRepair with tide := tDev.tide })) (fun t => (t.dev.badLine (granuleKey 2 5)).holding) ∧
    tDone (exec (.frameRemapDone 2) (tOf { tRepair with hubs := [(0, { up := true, copying := [2] })] })) (fun t =>
      (t.dev.hub 0).redirect == [2] && (t.dev.hub 0).copying == []) ∧
    tDone (exec (.scrubberPass 0 [(1, 77)]) (tOf tRepair)) (fun t => (t.dev.hub 0).scrubs == 1 && ((t.dev.hub 0).rowErrors.map fun e => (e.1.stack, e.2)) == [(1, 1, 10)]) := by
  decide +kernel
/-- The fifteenth and the sixteenth ebb after the retirement began; the third and the fourth failure of one flit. -/
theorem witness_ProtectionUpkeep_more :
    let k (st : KeyState) (began : Nat) : Dev := { tRepair with keys := [(1, { state := st, began := began })] }
    let f (n : Nat) : Dev := { tDev with seams := [(3, { fails := (n, 0), seqs := (9, 0) })] }
    tDone (exec (.retirementComplete 1) (tOf (k .retiring 0))) (fun t => (t.dev.keyId 1).state == .quarantine) ∧
    tDone (exec (.quarantineEnd 1) (tOf (k .quarantine 0))) (fun t => (t.dev.keyId 1).state == .free) ∧
    tDone (exec (.quarantineEnd 1) (tOf (k .quarantine 1))) (fun t => (t.dev.keyId 1).state == .quarantine) ∧
    tDone (exec (.reencryptSweepDone 0) (tOf { tRepair with regions := [(0, { sweepTo := some 2, key := 1 })], counters := [(5, { key := 1 })] }))
      (fun t => (t.dev.region 0).key == 2 && (t.dev.counters.get {} 5).key == 2) ∧
    tDone (exec (.seamFlitFail 3 false 9 {}) (tOf (f 2))) (fun t => !(t.dev.seam 3).down && (t.dev.seam 3).fails == (3, 0)) ∧
    tDone (exec (.seamFlitFail 3 false 9 {}) (tOf (f 3))) (fun t => (t.dev.seam 3).down) := by decide +kernel
theorem witness_ProtectionUpkeep_starve :
    let d : Dev := { tDev with arbs := [(0, { agents := 1 })] }
    d.reqPresent 0 64 = true ∧ tDone (exec (.arbStarvation 0 64) (tOf d)) (fun t => (t.dev.arb 0).starve == [64] && bitOf t.dev.errors.summary.toNat 3) ∧
    ((List.range 44).find? fun r => d.reqPresent 56 r).isSome ∧
    tDone (exec (.arbStarvation 56 0) (tOf d)) (fun t => t.dev.meshStarve == [0]) := by decide +kernel

/-! ### Snapshots, havens and takeovers (chapter 15) -/

/-- Group 0 of addresses 4 (this device) and 70, this device at `rank`; context 3 bound as a source to the keeper 70; the job. -/
def tJob (rank : Nat) (j : Job := {}) (h : Haven := {}) : Dev :=
  { tDev with
    fabric := { address := 4, groups := [(0, { state := .opened, groupId := 77, ranks := if rank = 0 then [4, 70] else [70, 4], rank := rank, ctx := 3 })] }
    jobs := [(0, j)], havens := [(3, { h with partner := some (70, 9), bound := true })] }
def tEbb (d : Dev) : Dev := { d with tide := { d.tide with phase := .ebb } }

def tSnap : Cmd := tCmd Op.snapshot [0, 8, 20, 0, 0]

theorem witness_SnapshotsAreDecided :
    HeadReady (tHead tSnap (tJob 0)) 7 Op.snapshot (fun _ => true) tSnap 3 ∧ (tJob 0).jobHandleOk 0 3 = true ∧ (tJob 0).coordinates 0 = true ∧
    (tJob 0).isSource 3 = true ∧ (tJob 0).allJobs = [0] ∧ (tJob 1).coordinates 0 = false ∧
    tDone (exec (.snapshot (.queue 7)) (tHead tSnap (tJob 0))) (fun t => (t.dev.job 0).scheduled && (t.dev.job 0).nextTide == 20) ∧
    tDone (exec (.snapshot (.rank 0 8 20 false)) (tOf (tJob 1))) (fun t => (t.dev.job 0).interval == 8) ∧
    tDone (exec (.secureNowRequest 0 1 4000) (tOf (tJob 0))) (fun t => (t.dev.job 0).candidate) ∧
    tDone (exec (.secureNowRequest 0 1 3999) (tOf (tJob 0))) (fun t => !(t.dev.job 0).candidate && (t.dev.job 0).candidateAfter) := by decide +kernel
/-- The first vote, one against as the second, and both for (the drain that a freeze starts sends as many units as the
opaque record of log 8 has, so its outcome is not evaluated here). -/
theorem witness_SnapshotsAreDecided_votes :
    let d := tEbb (tJob 0 { votes := [(1, true)] })
    tDone (exec (.snapshotVote 0 1 true) (tOf (tEbb (tJob 0)))) (fun t => (t.dev.job 0).votes == [(1, true)]) ∧
    tDone (exec (.snapshotVote 0 0 false) (tOf d)) (fun t => (t.dev.job 0).votes == [] && (t.dev.job 0).candidate && (t.dev.ctx 3).skipDue) ∧
    d.jobPRuns 0 = false ∧ d.allJobs.contains 0 = true ∧ (d.jobRanks 0).length = 2 ∧
    (tEbb (tJob 1 { vote := some true })).jobPRuns 0 = false ∧
    tDone (exec (.snapshotDecision (.rank 0) false) (tOf (tEbb (tJob 1 { vote := some true })))) (fun t => (t.dev.job 0).candidate) ∧
    tDone (exec (.snapshotDecision (.rank 0) false) (tOf (tJob 1 { current := some 9 }))) (fun t => (t.dev.job 0).current == none) := by
  decide +kernel

def tKeeping (x : KeeperSlot) : Keeping := { source := 70, sourceCtx := 9, bound := true, slotA := x }

/-- A keeper context 3 for the source 70, context 9, its slot A filling generation 8 with the first of two units. -/
def tKeep : Dev :=
  { tDev with fabric := { address := 4 }, havens := [(3, { keeps := [tKeeping { state := .filling, generation := 8, units := [(0, [1])], frames := [40] }] })] }
def tUnit (n : Nat) : HavenUnit := { keeperCtx := 5, source := 70, sourceCtx := 9, generation := 8, unit := 1, units := n, bytes := [2] }

theorem witness_GenerationsDrainAndComplete :
    tDone (exec (.fillDone 3) (tOf { tDev with maps := [(5, { valid := true, fill := true }), (600, { fill := true })] }))
      (fun t => !(t.dev.mapEntry 5).fill && (t.dev.mapEntry 600).fill) ∧
    tDone (exec (.havenUnitReceive (tUnit 2)) (tOf tKeep)) (fun t => t.dev.out == [.fabric 70 (.confirm 9 8)] &&
      (t.dev.haven 3).keeps.map (fun k => k.slotA.state) == [.drained]) ∧
    tDone (exec (.havenUnitReceive (tUnit 3)) (tOf tKeep)) (fun t => t.dev.out == [] &&
      (t.dev.haven 3).keeps.map (fun k => k.slotA.state) == [.filling]) ∧
    tDone (exec (.drainConfirmed 3) (tOf (tJob 0 { current := some 9 } { draining := some 9 }))) (fun t => (t.dev.job 0).drained &&
      (t.dev.haven 3).draining == none) ∧
    tDone (exec (.snapshotComplete (.rank 0)) (tOf (tJob 1 { current := some 9, drained := true }))) (fun t => (t.dev.job 0).restore == some 9) ∧
    tDone (exec (.snapshotComplete (.keeper 3 70 9 8)) (tOf { tKeep with havens := [(3, { keeps := [tKeeping { state := .drained, generation := 8 }] })] })) (fun t => (t.dev.haven 3).keeps.map (fun k => k.slotA.state) == [.complete]) := by
  decide +kernel
/-- At the coordinator the progress fence 2, named by queue 7, takes the generation. -/
theorem witness_GenerationsDrainAndComplete_progress :
    let d : Dev := { tJob 0 { current := some 9, drained := true, progress := some (7, 2) } with queues := [(7, { enable := true, context := 5 })] }
    d.ctxOfTag (d.queue 7).context.toNat = some 3 ∧ d.ownsFence 3 2 = true ∧ signalRead (d.fence 2).value 9 = .ahead ∧
    tDone (exec (.snapshotComplete (.coordinator 0)) (tOf d)) (fun t => (t.dev.job 0).restore == some 9 && (t.dev.job 0).current == none &&
      (t.dev.fence 2).value == 9) := by decide +kernel

/-- HAVEN_BIND of partner 70, context 9, as source (0), keeper (1) or to unbind (4). -/
def tBind (role : W32) : Cmd := tCmd Op.havenBind [role, 70, 9]
def tAlone (h : Haven := {}) : Dev := { tDev with fabric := { address := 4 }, havens := [(3, h)] }

theorem witness_HavensBindAndRestore :
    HeadReady (tHead (tBind 0) (tAlone)) 7 Op.havenBind (fun c => c.pf 0 2 1 == 0) (tBind 0) 3 ∧ basinOf 70 ≠ basinOf 4 ∧
    (match (begun (tHead (tBind 0) (tAlone)) 7 3 (tBind 0)).1.chargeTwins 3 with | .ok _ => true | .error _ => false) = true ∧
    tDone (exec (.havenBind 7) (tHead (tBind 0) (tAlone))) (fun t => (t.dev.haven 3).partner == some (70, 9) && !(t.dev.haven 3).bound) ∧
    tDone (exec (.havenBind 7) (tHead (tBind 0) (tAlone { offers := [(70, 9)] }))) (fun t => (t.dev.haven 3).bound) ∧
    tDone (exec (.havenBind 7) (tHead (tBind 0) { tAlone with havens := (List.range 64).map fun c => (100 + c, { partner := some (70, c) }) }))
      (fun t => t.dev.trust.keyWaits == [(5, 7)]) ∧
    tDone (exec (.havenBind 7) (tHead (tBind 1) (tAlone))) (fun t => (t.dev.haven 3).keeps.map (fun k => (k.source, k.bound)) == [(70, false)]) ∧
    tDone (exec (.havenBindReceive 3 70 9) (tOf (tAlone { partner := some (70, 9) }))) (fun t => (t.dev.haven 3).bound) ∧
    tDone (exec (.havenBindReceive 3 70 9) (tOf (tAlone))) (fun t => (t.dev.haven 3).offers == [(70, 9)]) := by decide +kernel
def tRestore : Cmd := { tCmd Op.restore [0xFFFFFFFF, 0, 0] with resultUnits := 1 }
def tShard : Shard := { generation := 9, tensors := [], scales := [], plans := [], bytes := 0 }

theorem witness_HavensBindAndRestore_more :
    let bound : Dev := { tAlone { partner := some (70, 9), bound := true } with jobs := [(1027, { restore := some 9 })] }
    tDone (exec (.havenBindTimeout 3) (tOf (tAlone { partner := some (70, 9), cmd := some (7, tBind 0) }))) (fun t => (t.dev.haven 3).partner == none) ∧
    tDone (exec (.havenBindTimeout 3) (tOf (tAlone { keeps := [{ source := 70, sourceCtx := 9, bound := false }], cmd := some (7, tBind 1) })))
      (fun t => (t.dev.haven 3).keeps.isEmpty) ∧
    HeadReady (tHead (tBind 4) bound) 7 Op.havenBind (fun c => c.pf 0 2 1 == 1) (tBind 4) 3 ∧ bound.drainInFlight (tBind 4) 3 = false ∧
    tDone (exec (.havenUnbind 7) (tHead (tBind 4) bound)) (fun t => (t.dev.haven 3).partner == none) ∧
    tDone (exec (.havenUnbind 7) (tHead (tBind 4) (tAlone))) (fun t => (t.dev.queue 7).cplUnits == 1) ∧
    HeadReady (tHead tRestore bound) 7 Op.restore (fun _ => true) tRestore 3 ∧ bound.wanted (jobOf 1027 3) 0 tShard.generation = true ∧
    tDone (exec (.restore 7 (.shard tShard)) (tHead tRestore bound)) (fun t => (t.dev.haven 3).restoring.isSome) ∧
    tDone (exec (.restore 7 .incomplete) (tHead tRestore bound)) (fun t => (t.dev.haven 3).restoring.isNone) := by decide +kernel

/-- TAKEOVER of rank 1 (failed address 36) of group 77 with the keeper 70, contact 70. -/
def tTake : Cmd := tCmd Op.takeover [77, 0, 1, 0x460024, 70, 9]

def tReq (m : Nat) : TakeoverRequest :=
  { groupId := 77, rank := 1, failed := m, spare := 36, keeper := 70, keeperCtx := 9, spareCtx := 5, charterDigest := List.replicate 64 0, chainOk := true }
def tSub (code spare : Nat) : Substitution :=
  { groupId := 77, rank := 1, failed := 70, spare := spare, nonce := 3, restore := 9, ranks := [4, 36], spareCtx := 5, keeper := 70, keeperCtx := 9, code := code }

theorem witness_TakeoversReplaceARank :
    HeadReady (tHead tTake (tAlone)) 7 Op.takeover (fun _ => true) tTake 3 ∧
    tDone (exec (.takeover 7) (tHead tTake (tAlone))) (fun t => (t.dev.haven 3).takeover.isSome && t.dev.out.length == 1) ∧
    tDone (exec (.takeoverTimeout 3) (tOf (tAlone { takeover := some (7, tTake) }))) (fun t => (t.dev.haven 3).takeover.isNone) ∧
    (tAlone).openGroup 77 = none ∧ tDone (exec (.takeoverRequestReceive (tReq 70)) (tOf (tAlone))) (fun t => t.dev.out.length == 1) ∧
    (tJob 0 { restore := some 9 }).requestCode 0 (tReq 71) = some Code.havenMismatch ∧ (tJob 0 { restore := some 9 }).requestCode 0 (tReq 70) = none ∧
    tDone (exec (.takeoverRequestReceive (tReq 70)) (tOf (tJob 0 { restore := some 9 }))) (fun t => (t.dev.group 0).ranks == [4, 36] &&
      (t.dev.job 0).substituted == some 9) ∧
    tDone (exec (.takeoverSubstitution (tSub 0 36)) (tOf (tJob 0))) (fun t => (t.dev.group 0).ranks == [4, 36] && (t.dev.job 0).restore == some 9) ∧
    tDone (exec (.takeoverSubstitution (tSub 0 4)) (tOf (tAlone { takeover := some (7, tTake) }))) (fun t => (t.dev.group 0).state == .opened &&
      (t.dev.haven 3).partner == some (70, 9)) ∧
    tDone (exec (.takeoverSubstitution (tSub Code.fabricAuth 4)) (tOf (tAlone { takeover := some (7, tTake) }))) (fun t =>
      (t.dev.haven 3).takeover.isNone && (t.dev.group 0).state == .free) := by decide +kernel

theorem witness_HoldsEvacuationsAndCores :
    let e : Dev := { tJob 0 with dike := { evacSince := some 0 }, tide := { tDev.tide with number := 1024 }
                                 queues := [(7, { context := 5, fetched := [tBind 0] })] }
    tDone (exec (.evacuationHold 0 1) (tOf (tJob 0))) (fun t => (t.dev.job 0).held && (t.dev.ctx 3).held) ∧ e.evacDue 3 = true ∧
    ({ e with tide := { e.tide with number := 1023 } } : Dev).evacDue 3 = false ∧
    tDone (exec (.evacuationStop 3) (tOf e)) (fun t => (t.dev.ctx 3).evacuated && (t.dev.queue 7).fetched == [] && bitOf t.dev.errors.summary.toNat 5) ∧
    tDone (exec (.coreFault 5 0) (tOf (tStep []))) (fun t => (t.dev.ctx 3).withhold == some Code.coreFault) ∧
    tDone (exec (.coreFault 0x30 2) (tOf tDev)) (fun t => t.dev.spareCores == 1 && t.dev.coresDown == []) ∧
    tDone (exec (.coreFault 0x30 2) (tOf { tDev with spareCores := 0 })) (fun t => t.dev.coresDown == [2]) := by decide +kernel

/-! ### Charters, sessions, life cycle, power (chapters 16 to 18) -/

/-- A charter body of one owner and one module digest, of 224 bytes, and its signature: the words of R541 and R542. -/
def tCharter : List W32 :=
  padTo 0 32 [0x00524843, 0x101, 1, 0, 1, 0, 224] ++ List.replicate 8 0x11111111 ++ List.replicate 16 0x22222222 ++ List.replicate 16 0x33333333
def tCreate : Cmd := tCmd Op.charterOpen (padTo 0 16 [0] ++ tCharter)
def tField : Dev := { tDev with life := { state := 3 } }

theorem readCharter_of_valid {d : Dev} {b : List Byte} {x : Charter} (h : d.validCharter b = some x) :
    (readCharter b).map Prod.fst = some x := by
  unfold Dev.validCharter at h
  split at h
  · cases h
  · rename_i y sigs e
    split at h
    · simp only [e, Option.map_some]; simpa using h
    · cases h

/-- The form of a good charter, and where the opaque signature check (log 6) accepts it, all the clause asks. -/
theorem witness_ChartersLiveAndClose_create :
    HeadReady (tHead tCreate tField) 7 Op.charterOpen (fun c => c.pf 0 0 3 == 0) tCreate 3 ∧ tField.life.state = 3 ∧
    (List.range 256).find? (fun k => (tField.charter k).state == .empty) = some 0 ∧
    ((readCharter (tCreate.bytesFrom 1)).map fun p => (p.1.minMeasure, p.1.owners.length, p.2.length)) = some (none, 1, 1) ∧
    ((∀ x, tField.validCharter (tCreate.bytesFrom 1) = some x → x.minMeasure = none) ∧
      (tField.validCharter (tCreate.bytesFrom 1) = none ∨ ∃ x, tField.validCharter (tCreate.bytesFrom 1) = some x)) ∧
    tDone (exec (.charterCreate 7) (tHead tCreate)) (fun t => (t.dev.charter 0).state == .empty && (t.dev.queue 7).fetched == []) := by
  have form : ((readCharter (tCreate.bytesFrom 1)).map fun p => (p.1.minMeasure, p.1.owners.length, p.2.length)) = some (none, 1, 1) := by
    decide +kernel
  refine ⟨by decide +kernel, by decide +kernel, by decide +kernel, form, ⟨?_, ?_⟩, by decide +kernel⟩
  · intro x h
    have r := readCharter_of_valid h
    cases e : readCharter (tCreate.bytesFrom 1) with
    | none => simp [e] at r
    | some p => simp only [e, Option.map_some, Option.some.injEq, Prod.mk.injEq] at r form; rw [← r]; exact form.1
  · cases tField.validCharter (tCreate.bytesFrom 1) with
    | none => exact .inl rfl
    | some x => exact .inr ⟨x, rfl⟩

/-- Charter 4 in state `st`, of one owner. -/
def tHas (st : CharterState) (d : Dev := tField) : Dev := { d with trust := { charters := [(4, { state := st, owners := [[1]] })] } }
def tKey : Cmd := tCmd Op.charterOpen (padTo 0 16 [1, 4, 0] ++ List.replicate 36 7)
def tTie : Cmd := tCmd Op.charterOpen [2, 4]
def tAdmit : Cmd := tCmd Op.charterOpen (padTo 0 16 [3, 4, 0] ++ List.replicate 16 7)
def tEnd : Cmd := tCmd Op.charterClose [4]

theorem witness_ChartersLiveAndClose :
    HeadReady (tHead tKey (tHas .keying)) 7 Op.charterOpen (fun c => c.pf 0 0 3 == 1) tKey 3 ∧ (tHas .keying).sluiceSlots = 0 ∧
    ((tHas .keying).unwrap ((tHas .keying).charter 4) 4 0 ((tKey.bytesFrom 1).take 144) = none ∨
      ∃ key, (tHas .keying).unwrap ((tHas .keying).charter 4) 4 0 ((tKey.bytesFrom 1).take 144) = some key) ∧
    (let d : Dev := { tField with trust := { charters := (4, { state := .keying, owners := [[1]] }) :: (List.range 32).map fun k => (100 + k, { keys := [(0, [])] }) } }
     d.sluiceSlots = 32 ∧ tDone (exec (.charterKey 7) (tHead tKey d)) (fun t => t.dev.trust.keyWaits == [(4, 7)])) ∧
    HeadReady (tHead tTie (tHas .active)) 7 Op.charterOpen (fun c => c.pf 0 0 3 == 2) tTie 3 ∧
    tDone (exec (.charterBind 7) (tHead tTie (tHas .active))) (fun t => (t.dev.ctx 3).charter == some 4) ∧
    tDone (exec (.charterBind 7) (tHead tTie (tHas .keying))) (fun t => (t.dev.ctx 3).charter == none) := by
  refine ⟨by decide +kernel, by decide +kernel, ?_, by decide +kernel, by decide +kernel, by decide +kernel, by decide +kernel⟩
  cases (tHas .keying).unwrap ((tHas .keying).charter 4) 4 0 ((tKey.bytesFrom 1).take 144) with
  | none => exact .inl rfl
  | some x => exact .inr ⟨x, rfl⟩
/-- A running interface with a stream, and a context bound to the charter; the signature check may go either way. -/
theorem witness_ChartersLiveAndClose_admit :
    let d : Dev := { tHas .active with fns := [(2, { tdi := 2, ideStream := some 1, tdiNonce := some 9 })]
                                       ctxs := [(3, { tCtx with charter := some 4 })] }
    let s : State := tOf { d with queues := [(7, { enable := true, context := 5, function := 2, fetched := [{ tAdmit with charter := some 4 }] })] }
    s.dev.atHead 7 Op.charterOpen (fun c => c.pf 0 0 3 == 3) = .ready { tAdmit with charter := some 4 } 3 ∧ s.dev.admittedFn 2 = true ∧
    (s.dev.charter 4).owners[0]? = some [1] ∧ ∀ m, Config.ed25519Verify [1] m ((tAdmit.bytesFrom 1).take 64) = true ∨
      Config.ed25519Verify [1] m ((tAdmit.bytesFrom 1).take 64) = false :=
  ⟨by decide +kernel, by decide +kernel, by decide +kernel, fun _ => (Bool.eq_false_or_eq_true _).symm.symm⟩
theorem witness_ChartersLiveAndClose_close :
    let bound : Dev := { tHas .active with ctxs := [(3, tCtx), (9, { state := .closing, charter := some 4 })] }
    let waits (n : Nat) : Dev := { tHas .keying with trust := { (tHas .keying).trust with keyWaits := [(n, 7)] } }
    HeadReady (tHead tEnd (tHas .active)) 7 Op.charterClose (fun _ => true) tEnd 3 ∧
    tDone (exec (.charterClose 7) (tHead tEnd (tHas .active))) (fun t => (t.dev.charter 4).state == .empty) ∧
    tDone (exec (.charterClose 7) (tHead tEnd bound)) (fun t => (t.dev.charter 4).state == .closing) ∧
    tDone (exec (.charterClose 7) (tHead tEnd)) (fun t => (t.dev.queue 7).cplUnits == 1) ∧
    tDone (exec (.keySlotFreed 4) (tHead tKey (waits 3))) (fun t => t.dev.trust.keyWaits == [(3, 7)]) ∧
    tDone (exec (.keySlotFreed 5) (tHead (tBind 0) (waits 5))) (fun t => t.dev.trust.keyWaits == []) := by decide +kernel

def tVf (tdi : Nat) : Dev := { tHead (tCmd Op.fenceSignal) |>.dev with
  fns := [(2, { tdi := tdi, ideStream := some 1 })], queues := [(7, { enable := true, function := 2, fetched := [tCmd Op.fenceSignal] })]
  trust := { sessions := [6], ide := [(0, 1, 0)], ideLive := [(0, 1, 0)] } }

theorem witness_InterfacesAndSessions :
    tDone (exec (.tdispLockInterface 2) (tOf (tVf 0))) (fun t => (t.dev.fn 2).tdi == 1 && t.dev.out == [.tdisp 2 0]) ∧
    tDone (exec (.tdispLockInterface 2) (tOf (tVf 1))) (fun t => t.dev.out == []) ∧
    tDone (exec (.tdispStartInterface 2) (tOf (tVf 1))) (fun t => (t.dev.fn 2).tdi == 2) ∧
    tDone (exec (.tdispStartInterface 2) (tOf (tVf 0))) (fun t => (t.dev.fn 2).tdi == 0) ∧
    tDone (exec (.tdispStopInterface 2) (tOf (tVf 3))) (fun t => (t.dev.fn 2).tdi == 0 && (t.dev.queue 7).enable) ∧
    tDone (exec (.tdispStopInterface 2) (tOf (tVf 2))) (fun t => (t.dev.fn 2).silent && !(t.dev.queue 7).enable) ∧
    tDone (exec (.ideKmMessage (.query 0)) (tOf tDev)) (fun t => t.dev.out == []) ∧ 0 < (tVf 0).links ∧
    tDone (exec (.ideKmMessage (.keyProg 0 16 1)) (tOf (tVf 0))) (fun t => t.dev.trust.ide.contains (0, 16, 1)) ∧
    tDone (exec (.ideKmMessage (.keySetGo 0 1 0)) (tOf (tVf 0))) (fun t => t.dev.trust.ideLive == [(0, 1, 0)]) ∧
    tDone (exec (.ideKmMessage (.keySetStop 0 1)) (tOf (tVf 0))) (fun t => t.dev.trust.ide == [] && (t.dev.fn 2).ideStream == none) ∧
    tDone (exec (.ideKmMessage (.query 0)) (tOf (tVf 0))) (fun t => t.dev.out.length == 1) ∧
    tDone (exec (.ideKmMessage (.bindVf 3 1)) (tOf (tVf 0))) (fun t => (t.dev.fn 3).ideStream == some 1) := by decide +kernel
theorem witness_InterfacesAndSessions_spdm :
    let d (l : List Nat) (ready : Bool) : Dev := { tDev with trust := { spdmReady := ready, sessions := l } }
    tDev.transportUp 1 = true ∧
    tDone (exec (.spdmRequest 1 .negotiateAlgorithms) (tOf tDev)) (fun t => t.dev.trust.spdmReady && t.dev.out.length == 1) ∧
    tDone (exec (.spdmRequest 1 (.keyExchange false 8)) (tOf (d [1, 2, 3, 4, 5, 6, 7] true))) (fun t => t.dev.trust.sessions.length == 8) ∧
    tDone (exec (.spdmRequest 1 (.keyExchange false 8)) (tOf tDev)) (fun t => t.dev.out == [.mgmt 1 (.spdmError 4)]) ∧
    tDone (exec (.spdmRequest 1 (.endSession 3)) (tOf (d [3] true))) (fun t => t.dev.trust.sessions == []) := by decide +kernel

/-- BLANK with the timer stopped: a TRANSITION to WAFER_TEST passes or fails on its token alone. -/
def tStopped : Dev := { sys := { service := .spring } }

theorem witness_LifeCycleMoves_check :
    tStopped.transitionCheck 1 = .ok 1 ∨ tStopped.transitionCheck 1 = .error (Code.lifecycleToken, true) := by
  have q : (!tStopped.life.ready 1 || !tStopped.quietForLife) = false := by decide +kernel
  have t : transitionOf tStopped.life.state 1 = some 1 := by decide +kernel
  have f : ¬ 8 ≤ tStopped.life.tokenFails := by decide +kernel
  by_cases h : Config.sha512 (tStopped.life.bytes 8) = tokenOf 1
  · left; simp only [Dev.transitionCheck, f, t, q, h, if_true, if_false, Bool.false_eq_true]
  · right; simp only [Dev.transitionCheck, f, t, q, h, if_false, Bool.false_eq_true]
theorem witness_LifeCycleMoves :
    (match tDev.transitionCheck 1 with | .error x => some x | .ok _ => none) = some (Code.lifecycleRefused, false) ∧
    (match ({ tStopped with life := { tokenFails := 8 } } : Dev).transitionCheck 1 with | .error x => some x | .ok _ => none) = some (Code.lifecycleToken, false) ∧
    (programFlag tStopped.life.intents 1).isSome ∧
    tDone (exec (.lcTransition 1) (tOf tDev)) (fun t => t.dev.life.code == BitVec.ofNat 16 Code.lifecycleRefused && bitOf t.dev.errors.summary.toNat 13) ∧
    tDone (exec (.lcTransition 1) (tOf { tDev with life := { lockout := true } })) (fun t => t.dev.life.lockout && t.dev.life.code == 0) ∧
    tDone (exec .lcTransitionDone (tOf { tStopped with life := { transition := some 4, busy := true } })) (fun t => t.dev.life.pending &&
      t.dev.life.banks.get 0 2 == 2 && t.dev.life.banks.get 0 0 == 3) ∧
    tDone (exec .tokenLockoutExpiry (tOf { tStopped with life := { lockout := true } })) (fun t => !t.dev.life.lockout) ∧
    tDone (exec .debugClose (tOf { tStopped with life := { certs := [⟨true, 1, [], []⟩] } })) (fun t => t.dev.life.certs.isEmpty) := by decide +kernel
/-- DEBUG_OPEN's certificate is accepted or not by opaque checks (log 6): each answer has its clause. -/
theorem witness_LifeCycleMoves_debug : tStopped.life.busy = false ∧ tStopped.lifeUp = true ∧
    (tStopped.debugCert = none ∨ ∃ x n m, tStopped.debugCert = some (x, n, m)) := by
  refine ⟨by decide +kernel, by decide +kernel, ?_⟩
  cases tStopped.debugCert with
  | none => exact .inl rfl
  | some p => exact .inr ⟨p.1, p.2.1, p.2.2, rfl⟩

def tPoint (mask target : Nat) : Cmd := tCmd Op.setOppoint [BitVec.ofNat 32 (mask + 65536 * target)]

theorem witness_PowerAndHeat :
    let d : Dev := { tDev with tiles := [(5, { inService := true, current := 1, requested := 1 })] }
    HeadReady (tHead (tPoint 0x20 1) d) 7 Op.setOppoint (fun _ => true) (tPoint 0x20 1) 3 ∧ d.oppointCheck 0x20 1 = none ∧
    d.oppointCheck 0x20 0 = some Code.neapOnly ∧
    tDone (exec (.setOppoint 7) (tHead (tPoint 0x20 1) d)) (fun t => (t.dev.tile 5).requested == 1 && (t.dev.tile 6).requested == 0) ∧
    tDone (exec (.setOppoint 7) (tHead (tPoint 0x20 0) d)) (fun t => (t.dev.tile 5).requested == 1 && (t.dev.queue 7).cplUnits == 1) ∧
    tDone (exec (.droopStretch 5) (tOf d)) (fun t => t.dev.dike.events.length == 1) ∧
    tDone (exec .thermalTrip (tOf { d with sys := { d.sys with pllLocked := true } })) (fun t => t.dev.sys.tripped && (t.dev.tile 5).millivolts == 0) ∧
    tDone (exec .thermalTrip (tOf d)) (fun t => t.dev.sys.forced && (t.dev.tile 5).millivolts == 550) := by decide +kernel
theorem witness_PowerAndHeat_readings :
    let p : PowerReading := ⟨List.replicate 16 1000, List.replicate 12 500, []⟩
    p.tileMw.length = 16 ∧ p.railMw.length = 12 ∧
    tDone (exec (.powerSample p) (tOf tDev)) (fun t => t.dev.power.powerMw == 22000 && (t.dev.tile 5).window == [1000]) ∧
    tDone (exec (.thermalSample ⟨[(5, 100)], [(7, 96)], []⟩) (tOf tDev)) (fun t => t.dev.power.thermalActive && (t.dev.hub 1).refresh2x == [7]) ∧
    tDone (exec (.thermalSample ⟨[(5, 99)], [(7, 95)], [(6, 9)]⟩) (tOf tDev)) (fun t => !t.dev.power.thermalActive && (t.dev.hub 1).refresh2x == [] &&
      (t.dev.tile 6).bankReads.map Prod.fst == [9] && t.dev.dwMeasure 1 == 1) := by
  decide +kernel

/-! ### Extents and flash (chapter 13) -/

/-- Hub 0 with one plane of ten blocks of 2,048 slots, superblock 0 open and empty. -/
def tFlash : Flash := { geom := { channels := [0], slotsPerPage := 16, pagesPerBlock := 128, blocks := 10, endurance := 1000 }
                        openStage := some 0, nextSuper := 1, supers := [(0, { written := true, blocks := [0] })], inUse := [0] }
def tExt (st : ExtState) (x : Extent := {}) : Dev :=
  { tDeep with extents := [(9, { x with state := st, plans := [0], ctx := 3 })], flash := [(0, tFlash)], hubs := [(0, { up := true })] }

/-- Queued behind another promotion of the hub; taken up with the frames of its two pages. -/
theorem witness_ExtentsPromoteAndSettle :
    let busy : Dev := { tExt .resting with extents := (tExt .resting).extents ++ [(8, { state := .promoting, copy := [120] })] }
    let d1 := (tExt .resting).requestPromotion 9 0 10
    ((tExt .resting).extent 9).plans.contains 0 = true ∧ ((tExt .resting).flashOf 0).sluice = [] ∧ (d1.extentTensor 9).isSome ∧
    tDone (exec (.promotionStart 9 0) (tOf busy)) (fun t => (t.dev.extent 9).state == .promoting && (t.dev.extent 9).copy == [] && (t.dev.flashOf 0).sluice == [(9, 10)]) ∧
    tDone (exec (.promotionStart 9 0) (tOf (tExt .resting))) (fun t => (t.dev.extent 9).state == .promoting && (t.dev.extent 9).copy.length == 1) ∧
    tDone (exec (.promotionDone 9) (tOf (tExt .promoting { copy := [110], refs := [0], contents := [(5, 7)] }))) (fun t =>
      (t.dev.extent 9).state == .resident && Mem.read t.dev.mem (110 * frameBytes + 5) == 7) := by decide +kernel
theorem witness_ExtentsPromoteAndSettle_fail :
    let m : Dev := { tExt .promoting { copy := [110] } with havens := [(3, { partner := some (70, 9), bound := true, mirrorRo := true })] }
    let r : Dev := { tExt .promoting { copy := [110] } with runs := [(1, { id := 1, ctx := 3, late := some (0, 9) })] }
    tDone (exec (.promotionReadFail 9 (some [0, 7])) (tOf m)) (fun t => (t.dev.extent 9).contents == [(1, 7)]) ∧
    tDone (exec (.promotionReadFail 9 none) (tOf r)) (fun t => (t.dev.extent 9).state == .lost && (t.dev.runOf 1).aborted &&
      (t.dev.runOf 1).codes.map CodeEntry.code == [Code.deepReadFail]) ∧
    (match ({ tExt .filling { complete := true } with flash := [(0, { tFlash with worn := true })] } : Dev).noSpace 0 1 with
      | some c => c == Code.deepWorn
      | none => false) = true := by decide +kernel

/-- Whatever the contents compress to (log 8), the extent has a place in the open superblock, and the hub has room. -/
theorem witness_ExtentsPromoteAndSettle_settle (c : List Host.Cell) :
    ((tExt .filling { complete := true }).flashOf 0).room = 18022 ∧ (tExt .filling { complete := true }).noSpace 0 (storedUnits c) = none ∧
    ∃ f, tFlash.place false 9 (storedUnits c) = some (f, 0, 0) := by
  have up : storedUnits c ≤ 1024 := by unfold storedUnits; omega
  have slots : tFlash.superSlots = 2048 := by decide +kernel
  have here : (tExt .filling { complete := true }).flashOf 0 = tFlash := rfl
  have room : tFlash.room = 18022 := by decide +kernel
  have zero : (tFlash.supers.get {} 0).slots = 0 := by decide +kernel
  have place (e : Nat) : ∃ f, tFlash.place false e (storedUnits c) = some (f, 0, 0) := by
    have op : tFlash.openStage = some 0 := rfl
    have le : 0 + storedUnits c ≤ 2048 := by omega
    simp only [Flash.place, op, slots, zero, Option.any_some, le, decide_true, if_true, Option.map_some, Bool.false_eq_true, if_false]
    exact ⟨_, rfl⟩
  refine ⟨by rw [here]; exact room, ?_, place 9⟩
  obtain ⟨f, e⟩ := place 0
  have worn : tFlash.worn = false := rfl
  have lt : ¬ 18022 < storedUnits c := by omega
  simp [Dev.noSpace, here, worn, room, e, lt]
/-- What SETTLEMENT_DONE's clauses ask beside the place: a reference, one waiting STAGE of queue 7 with fence 2, or none and no pin. -/
theorem witness_ExtentsPromoteAndSettle_done :
    let c := { tStage with seq := 4, signal := some 2, signalValue := 1 }
    let d : Dev := { tExt .settling { copy := [110], refs := [0], stagers := [(7, 4)] } with queues := [(7, { enable := true, context := 5, begun := [c] })] }
    d.begunCmd 7 4 = some c ∧ d.ctxOfTag (d.queue 7).context.toNat = some 3 ∧ d.ownsFence 3 2 = true ∧
    signalRead (d.fence 2).value c.signalValue = .ahead ∧ d.stageQueue.isEmpty ∧
    (tExt .settling { copy := [110] }).stepReads 9 = false ∧ (tExt .settling { copy := [110] }).stageQueue = [] := by decide +kernel

/-- Superblock 2 of block 3 holds extent 9 in 5 slots. -/
def tFull2 (f : Flash := tFlash) (reads : Nat := 0) (x : Extent := {}) : Dev :=
  { tExt .resting { x with stored := 5, superblock := 2 } with
    flash := [(0, { f with supers := (2, { written := true, blocks := [3], slots := 9, valid := 5, extents := [9], reads := reads }) :: f.supers
                           inUse := [0, 3], nextSuper := 3 })] }

theorem witness_FlashRelocates :
    let f := (tFull2).flashOf 0
    (f.supers.get {} 2).written = true ∧ (f.supers.get {} 2).extents = [9] ∧ ((tFull2).extent 9).state ≠ .promoting ∧
    (f.place true 9 5).isSome ∧ 8 ≤ f.freeSupers ∧ f.victim = some 2 ∧ f.coldest = some (2, 0) ∧
    tDone (exec (.retentionRelocate 0 2) (tOf tFull2)) (fun t => (t.dev.flashOf 0).supers.get {} 2 == {} &&
      (t.dev.flashOf 0).erases.get 0 3 == 1 && (t.dev.extent 9).superblock == 3) ∧
    tDone (exec (.garbageCollection 0) (tOf tFull2)) (fun t => (t.dev.extent 9).superblock == 2) ∧
    tDone (exec (.garbageCollection 0) (tOf (tFull2 { tFlash with bad := [9] }))) (fun t => (t.dev.extent 9).superblock == 3) ∧
    tDone (exec (.wearLevelRelocate 0) (tOf (tFull2 { tFlash with erases := [(5, 100)] }))) (fun t => (t.dev.extent 9).superblock == 2) ∧
    tDone (exec (.wearLevelRelocate 0) (tOf (tFull2 { tFlash with erases := [(5, 101)] }))) (fun t => (t.dev.extent 9).superblock == 3) ∧
    tDone (exec (.readDisturbRelocate 0 2) (tOf (tFull2 tFlash 99999))) (fun t => (t.dev.extent 9).superblock == 2) ∧
    tDone (exec (.readDisturbRelocate 0 2) (tOf (tFull2 tFlash 100000))) (fun t => (t.dev.extent 9).superblock == 3) := by decide +kernel
theorem witness_FlashRelocates_reads :
    let d := { tFull2 with extents := [(9, { state := .resident, copy := [110], ctx := 3, refs := [0], superblock := 2, stored := 5 })] }
    tDone (exec (.patrolRead 0 2 3 false) (tOf tFull2)) (fun t => ((t.dev.flashOf 0).supers.get {} 2).reads == 1 && t.dev.dike.events.isEmpty) ∧
    tDone (exec (.patrolRead 0 2 3 true) (tOf tFull2)) (fun t => (t.dev.extent 9).superblock == 3) ∧
    tDone (exec (.patrolRead 0 2 4 false) (tOf tFull2)) (fun t => (t.dev.extent 9).superblock == 3 && t.dev.dike.events.length == 1) ∧
    tDone (exec (.patrolRead 0 2 16 false) (tOf d)) (fun t => (t.dev.extent 9).state == .filling && (t.dev.extent 9).complete) ∧
    tDone (exec (.nandProgramFail 0 0 9) (tOf tFull2)) (fun t => (t.dev.flashOf 0).bad == [9] && (t.dev.extent 9).superblock == 2) ∧
    tDone (exec (.nandProgramFail 0 0 3) (tOf tFull2)) (fun t => (t.dev.flashOf 0).bad == [3] && (t.dev.extent 9).superblock == 3) := by
  decide +kernel

/-! ### Tide (chapter 02) -/

def tPhase (p : Phase) : Dev := { tDev with tide := { tDev.tide with phase := p, reported := 40 } }

theorem witness_TideTurns :
    tDone (exec .tideBoundary (tOf (tPhase .ebb))) (fun t => t.dev.tide.number == 40 && t.dev.tide.phase == .flood && t.dev.tide.reported == 0) ∧
    tDone (exec .tideBoundary (tOf (tPhase .slack))) (fun t => t.dev.tide.number == 10) ∧
    tDone (exec .floodEnd (tOf (tPhase .flood))) (fun t => t.dev.tide.phase == .slack) ∧
    tDone (exec .floodEnd (tOf (tPhase .ebb))) (fun t => t.dev.tide.phase == .ebb) ∧
    tDone (exec .ebbStart (tOf (tPhase .slack))) (fun t => t.dev.tide.phase == .ebb && t.dev.tide.ebbs == 1 && t.dev.tide.verified == [0, 0, 0, 0]) ∧
    tDone (exec .ebbStart (tOf (tPhase .flood))) (fun t => t.dev.tide.phase == .flood) := by decide +kernel
/-- One run due, clean, withheld, or of a tide to come. -/
theorem witness_TideTurns_commit :
    let r : Run := { state := .ended, lastTide := 10, overlay := [(101 * frameBytes, 5)] }
    let d := tStep [] r
    d.withholdCode 3 = none ∧ (d.runs.filter fun x => x.2.ctx == 3 && d.commitsNow x.2).length = 1 ∧
    Mem.read (d.settleCtx 3).1.mem (101 * frameBytes) = 5 ∧ (d.settleCtx 3).1.runs.find 1 = none ∧
    (tStep [] { r with withhold := some Code.treeLost }).withholdCode 3 = some Code.treeLost ∧
    ((tStep [] { r with withhold := some Code.treeLost }).settleCtx 3).1.mem = tMem ∧
    (d.commitsNow { r with lastTide := 11 }) = false := by decide +kernel
theorem witness_TideTurns_start :
    let d (role : BitVec 2) : Dev := { tDev with tide := { role := role, number := 9, ranAny := true } }
    tDone (exec .tideStart (tOf (d 0))) (fun t => t.dev.tide.phase == .flood && t.dev.tide.number == 10 && !t.dev.tide.source) ∧
    tDone (exec .tideStart (tOf { d 0 with tide := {} })) (fun t => t.dev.tide.number == 0 && t.dev.tide.ranAny) ∧
    tDone (exec .tideStart (tOf (d 1))) (fun t => t.dev.tide.source && t.dev.fabric.harbourKey.isSome) ∧
    tDone (exec .tideStart (tOf (d 2))) (fun t => t.dev.tide.waiting && t.dev.tide.phase == .stopped) ∧
    tDone (exec .tideStop (tOf tDev)) (fun t => !t.dev.tide.run && t.dev.tide.phase == .stopped) ∧
    tDone (exec .tideStop (tOf { tDev with plans := [(0, { loaded := true })] })) (fun t => t.dev.tide.run && t.dev.tide.cfgReject) ∧
    tDone (exec .tideNumberLoRead (tOf { tDev with tide := { tDev.tide with number := 0x500000007 } })) (fun t => t.dev.tide.numberHi == 5) := by
  decide +kernel

/-- A follower with ports 3 and 31 up, its source of generation 2 and rank 1 on port 3. -/
def tFollow (t : Tide := {}) : Dev :=
  { tFab with tide := { t with run := true, role := 3, number := 10, generation := 2, srcRank := 1, srcPort := some 3 } }
def tBeacon : Beacon :=
  { port := 3, tide := 10, generation := 2, srcRank := 1, periodUnits := 3, slackPct := 8, ebbPct := 6, hops := 0, residenceNs := 0, offsetNs := 125
    authentic := true }

theorem witness_BeaconsGuideTheTide :
    let d := tFollow { phase := .flood, unlocked := true }
    tDone (exec (.beaconReceive tBeacon) (tOf d)) (fun t => t.dev.tide.locked && !t.dev.tide.unlocked && t.dev.tide.hops == 1 &&
      t.dev.tide.offsetNs == 125 && t.dev.out.length == 1) ∧
    tDone (exec (.beaconReceive { tBeacon with offsetNs := -126, hops := 2 }) (tOf d)) (fun t => t.dev.tide.unlocked && t.dev.tide.hops == 3 && t.dev.out == []) ∧
    ([{ tBeacon with authentic := false }, { tBeacon with port := 4 }, { tBeacon with ebbPct := 7 }, { tBeacon with srcRank := 2 },
      { tBeacon with hops := 3 }, { tBeacon with tide := 11 }].all fun b =>
        tDone (exec (.beaconReceive b) (tOf d)) (fun t => !t.dev.tide.locked && t.dev.out.length == (if b.authentic && b.port == 3 && b.hops == 0 then 1 else 0))) = true ∧
    tDone (exec (.beaconReceive { tBeacon with tide := 11 }) (tOf (tFollow { waiting := true, ranAny := true }))) (fun t =>
      t.dev.tide.phase == .flood && t.dev.tide.number == 11) ∧
    tDone (exec (.beaconReceive tBeacon) (tOf (tFollow { waiting := true, ranAny := true }))) (fun t => t.dev.tide.waiting &&
      t.dev.out.contains (.port 3 (.tideReport 11))) := by decide +kernel
theorem witness_BeaconsGuideTheTide_more :
    let d := tFollow { phase := .flood }
    let b (rank : BitVec 2) (m : Nat) : Dev := { tFollow { phase := .flood } with tide := { d.tide with role := 2, backupRank := rank, missed := m } }
    tDone (exec (.tideNumberReport 40) (tOf { d with tide := { d.tide with source := true } })) (fun t => t.dev.tide.reported == 40) ∧
    tDone (exec (.tideNumberReport 40) (tOf d)) (fun t => t.dev.out == [.port 3 (.tideReport 40)]) ∧
    tDone (exec .tideHoldover (tOf d)) (fun t => t.dev.tide.holdover && !t.dev.tide.unlocked) ∧
    tDone (exec .tideUnlocked (tOf d)) (fun t => t.dev.tide.holdover && t.dev.tide.unlocked) ∧
    tDone (exec .backupTakeover (tOf (b 1 1))) (fun t => t.dev.tide.source && t.dev.tide.generation == 3) ∧
    tDone (exec .backupTakeover (tOf (b 2 2))) (fun t => t.dev.tide.source && t.dev.tide.srcRank == 2) ∧
    tDone (exec .backupTakeover (tOf (b 2 1))) (fun t => !t.dev.tide.source) ∧
    tDone (exec .tideHoldover (tOf { d with tide := { d.tide with gotBeacon := true } })) (fun t => !t.dev.tide.holdover) := by decide +kernel

/-! ### Resets, clocks, management and links (chapters 09, 17, 18, 20, 21) -/

def tFacts : BootFacts := { bifur := false, refclkHz := 100000000, slotAOk := true, slotBOk := true }

theorem witness_ResetsAndService :
    let used : Dev := { tStep [] with sys := { service := .spring, tripped := true, forced := true, setupLock := true } }
    tDone (exec .powerOnReset (tOf used)) (fun t => t.dev.mem == [] && t.dev.sys.resetCause == 17 && !t.dev.sys.setupLock && t.dev.plans.isEmpty) ∧
    tDone (exec (.deviceReset .perst) (tOf used)) (fun t => t.dev.mem == [] && t.dev.sys.tripped && !t.dev.sys.setupLock) ∧
    tDone (exec (.functionLevelReset 2) (tOf (tVf 2))) (fun t => (t.dev.fn 2).tdi == 0 && !(t.dev.queue 7).enable) ∧
    tDone (exec (.bringup tFacts) (tOf {})) (fun t => t.dev.sys.service == .boot && t.dev.life.state == 0) ∧
    tDone (exec (.bringup { tFacts with refclkHz := 0 }) (tOf {})) (fun t => t.dev.sys.service == .reset) ∧
    tDone (exec (.bringup { tFacts with slotAOk := false, slotBOk := false }) (tOf {})) (fun t => t.dev.sys.service == .recovery && t.dev.sys.cause == 0xFE) ∧
    tDone (exec (.bringup tFacts) (tOf { life := { commits := [(5, [64, 0, 0])] } })) (fun t => t.dev.sys.service == .recovery && t.dev.sys.locked &&
      t.dev.sys.cause == 0) ∧
    tDone (exec (.bringup tFacts) (tOf { life := { intents := [(1, [64, 0, 0])], commits := [(1, [20, 20, 20])] } })) (fun t =>
      t.dev.sys.service == .recovery && t.dev.sys.cause == 0xFF) := by decide +kernel
theorem witness_ResetsAndService_up :
    let boot : Dev := { sys := { service := .boot } }
    let neap : Dev := { sys := { service := .neap } }
    tDone (exec .neapServiceReady (tOf boot)) (fun t => t.dev.sys.service == .neap && (t.dev.tile 5).inService && !(t.dev.tile 4).inService &&
      (t.dev.hub 0).up && !(t.dev.hub 1).up) ∧
    tDone (exec (.springServiceEntry (.trained [tFlash.geom] [(3, 2)] [4])) (tOf neap)) (fun t => t.dev.sys.service == .spring && (t.dev.tile 15).current == 1 && (t.dev.tile 3).clusters == [0, 1, 8, 3, 4, 5, 6, 7] && (t.dev.tile 4).spareBanks == 1 &&
      (t.dev.flashOf 0).geom == tFlash.geom) ∧
    tDone (exec (.springServiceEntry (.failed 0x20)) (tOf neap)) (fun t => t.dev.sys.held && t.dev.sys.cause == 0x20) := by decide +kernel

/-- REFCLK lost with the timer running (number 10) or stopped, one port up, one interface running, one step under way. -/
def tLost (run : Bool) : Dev :=
  { tFab with sys := { service := .spring, clkLost := true, forced := true }, fns := [(2, { tdi := 2 })]
              tide := if run then tDev.tide else {}, runs := [(1, { id := 1, ctx := 3 })], trust := { ide := [(0, 1, 0)] } }

/-- Its clauses on the tide and on service have their states in witness_TideTurns, witness_TideTurns_start, witness_ResetsAndService
and witness_ResetsAndService_up. -/
theorem witness_ClockLossAndReturn :
    tDone (exec .refclkLoss (tOf { tDev with sys := { service := .spring, lossCount := 255 } })) (fun t => t.dev.sys.clkLost && t.dev.sys.lossCount == 255) ∧
    tDone (exec .refclkLoss (tOf (tLost true))) (fun t => t.dev.sys.lossCount == 0) ∧
    tDone (exec .forcingTakeover (tOf (tLost true))) (fun t => t.dev.sys.forced) ∧
    tDone (exec .forcingTakeover (tOf tDev)) (fun t => !t.dev.sys.forced) ∧ tDone (exec .refclkReturn (tOf tDev)) (fun t => !t.dev.sys.lossSeen) ∧
    tDone (exec .refclkReturn (tOf (tLost true))) (fun t => t.dev.sys.lossSeen && t.dev.tide.number == 11 && (t.dev.fn 2).tdi == 3 &&
      (t.dev.port 31).state == 1 && t.dev.trust.ide == []) ∧
    tDone (exec .refclkReturn (tOf (tLost false))) (fun t => t.dev.runs.all fun r => r.2.state == .ended) ∧
    tDone (exec .refclkReturn (tOf { tLost true with tide := { tDev.tide with role := 3 } })) (fun t => t.dev.tide.waiting) := by decide +kernel

theorem witness_ManagementAnswers :
    let m : Dev := { tDev with mgmt := { counters := [{ number := 5, tide := 1, tag := 5, tiles := 1, uses := [] }], counterNo := 6 }
                               errors := { count := 3, log := [{ number := 2, code := 7, kind := 1 }] } }
    tDev.transportUp 1 = true ∧ tDev.vendorBusy 1 = false ∧
    tDone (exec (.mctpControl 1 (.setEid 9)) (tOf tDev)) (fun t => t.dev.mgmt.eid == 9) ∧
    sensorExists 1 = true ∧ sensorIsState 1 = false ∧
    tDone (exec (.pldmPlatformRequest 1 (.getSensorReading 1)) (tOf tDev)) (fun t => t.dev.out.length == 1) ∧
    tDone (exec (.pldmPlatformRequest 1 (.setEventReceiver 8)) (tOf tDev)) (fun t => t.dev.mgmt.receiver == some (1, 8)) ∧
    tDone (exec (.lcRead 1) (tOf tDev)) (fun t => t.dev.out.length == 1) ∧
    tDone (exec (.getCounters 1 5 200) (tOf m)) (fun t => t.dev.out.length == 1) ∧
    tDone (exec (.getEvents 1 1 200) (tOf m)) (fun t => t.dev.out.any fun o => match o with | .mgmt 1 (.vendor 0x11 4 _) => true | _ => false) ∧
    tDone (exec (.getEvents 1 2 200) (tOf m)) (fun t => t.dev.out.any fun o => match o with | .mgmt 1 (.vendor 0x11 0 _) => true | _ => false) := by
  decide +kernel
theorem witness_ManagementAnswers_lc :
    let d : Dev := { tDev with life := { certs := [⟨true, 1, [], []⟩] } }
    tDone (exec (.lcRequest ⟨false, 3, [], 1⟩) (tOf d)) (fun t => t.dev.out == [.mgmt 1 (.vendor 1 2 [])]) ∧
    tDone (exec (.lcRequest ⟨true, 3, List.replicate 63 0, 1⟩) (tOf d)) (fun t => t.dev.out == [.mgmt 1 (.vendor 1 3 [])]) ∧
    tDone (exec (.lcRequest ⟨true, 3, List.replicate 64 0, 1⟩) (tOf d)) (fun t => t.dev.life.certs == [] && t.dev.out == [.mgmt 1 (.vendor 1 0 [0])]) := by
  decide +kernel
/-- Component 2 (the control-die runtime) and component 1 (L1). -/
theorem witness_ManagementAnswers_update :
    let d (m : Mgmt) : Dev := { tDev with mgmt := m }
    let got (c : Nat) : Dev := d { update := .verified, component := c }
    let load : Dev := d { update := .downloading, component := 2, transport := 1, maxXfer := 4096, received := 1024 }
    tDone (exec (.requestUpdate 1 2 4096) (tOf tDev)) (fun t => t.dev.mgmt.update == .downloading && t.dev.out.contains (.mgmt 1 (.requestData 0 1024))) ∧
    tDone (exec (.requestUpdate 1 2 4096) (tOf load)) (fun t => t.dev.mgmt.received == 1024) ∧
    tDone (exec (.updateComponentData (.chunk 1024 [1, 2])) (tOf load)) (fun t => t.dev.mgmt.received == 1026) ∧
    tDone (exec (.updateComponentData (.complete true true [5] 7)) (tOf load)) (fun t => t.dev.mgmt.update == .verified) ∧
    tDone (exec (.updateComponentData (.complete true false [5] 7)) (tOf load)) (fun t => t.dev.mgmt.update == .idle && t.dev.mgmt.invalid == [2]) ∧
    tDone (exec .activateFirmware (tOf (got 1))) (fun t => t.dev.mgmt.atReset == [1]) ∧
    tDone (exec .activateFirmware (tOf (got 2))) (fun t => t.dev.mgmt.swaps == [2]) ∧
    tDone (exec .activateFirmware (tOf { got 2 with tide := {} })) (fun t => t.dev.mgmt.slotB == [2]) ∧
    tDone (exec .activateFirmware (tOf { got 2 with sys := { service := .recovery } })) (fun t => t.dev.sys.service == .reset) ∧
    tDone (exec (.fwSelfcheckFail 2) (tOf (d { trials := [(2, 10)] }))) (fun t => t.dev.mgmt.returns == [2]) ∧
    tDone (exec (.fwSelfcheckFail 2) (tOf { d { trials := [(2, 10)], slotB := [2] } with tide := { number := 10 } })) (fun t => t.dev.mgmt.slotB == []) := by
  decide +kernel

/-- Its clauses on management have their states in witness_ManagementAnswers and the two theorems after it. -/
theorem witness_LinksAndRegisters :
    let d : Dev := { tVf 2 with sys := { service := .spring, retryStatus := false, bifur := true, sel0 := { queue := 9 } } }
    let q (e : Bool) : Dev := { tDev with sys := { service := .spring, sel0 := { queue := 9 } }, queues := [(9, { enable := e })]
                                          errors := { summary := 0x0FFF } }
    tDone (exec (.d3hotTransition 0 true) (tOf d)) (fun t => t.dev.sys.d3hot == (true, false)) ∧
    tDone (exec (.d3hotTransition 1 true) (tOf d)) (fun t => t.dev.sys.d3hot == (false, true)) ∧
    tDone (exec (.hostLinkRetrain 0 ⟨6, false⟩ 8) (tOf d)) (fun t => t.dev.sys.link0 == (6, 8) && t.dev.sys.flit0) ∧
    tDone (exec (.hostLinkRetrain 1 ⟨4, false⟩ 4) (tOf d)) (fun t => t.dev.sys.link1 == (4, 4) && !t.dev.sys.flit1) ∧
    tDone (exec (.hostLinkRetrain 0 ⟨3, true⟩ 8) (tOf d)) (fun t => t.dev.sys.link0 == (0, 0) && t.dev.trust.ideLive == [] && (t.dev.fn 2).tdi == 3) ∧
    tDone (exec (.hostLinkRetrain 1 ⟨4, true⟩ 16) (tOf d)) (fun t => t.dev.sys.link1 == (0, 0) && t.dev.trust.ideLive == [(0, 1, 0)]) ∧
    tDone (exec (.dynamicAddressAssignment 0x11) (tOf tDev)) (fun t => t.dev.mgmt.dynAddr == some 0x11) ∧
    tDone (exec .setupLock (tOf tDev)) (fun t => t.dev.sys.setupLock) ∧ tDone (exec .setupLock (tOf tLocked)) (fun t => bitOf t.dev.errors.summary.toNat 10) ∧
    tDone (exec (.registerWrite 0 0x10008 8 0x123456789ABCDEF0) (tOf (q false))) (fun t => (t.dev.queue 9).ring == 0x123456789ABCD000) ∧
    (q true).entryLocked 0 9 false = true ∧
    tDone (exec (.registerWrite 0 0x10008 8 0x123456789ABCDEF0) (tOf (q true))) (fun t => (t.dev.queue 9).cfgReject && (t.dev.queue 9).ring == 0) ∧
    tDone (exec (.registerWrite 0 0x40000 4 0x0F0) (tOf (q false))) (fun t => t.dev.errors.summary == 0xF0F) ∧
    tDone (exec (.registerWrite 0 0x40004 4 0x0F0) (tOf (q false))) (fun t => t.dev.errors.mask == 0x0F0) ∧
    tDone (exec (.registerWrite 0 0x40002 4 1) (tOf (q false))) (fun t => t.dev.errors.summary == 0xFFF) ∧
    tDone (exec (.registerWrite 16 0x10008 8 1) (tOf {})) (fun t => t.dev.queues.isEmpty) := by decide +kernel

/-! ### Stacks, mesh, arbiters and the debug port (chapters 01, 11, 17) -/

/-- R367's example; R472's example; the routes of R22 from the row to the column, and to a hub at the first tile. -/
theorem test_stack_and_wiring : localUnit 7 100 = 613 ∧ stackOf 7 100 = 5 ∧ refGlobal 3 4 38 = some (17, 4, 42) ∧ refIntra 3 5 = (9, 25) ∧
    unitsIn 0 0 = 86 ∧ localUnit 6 0 = 512 := by decide +kernel
theorem test_mesh_routes : tDev.route 0 15 = [0, 1, 2, 3, 7, 11, 15] ∧ tDev.route 13 0x12 = [13, 0x12] ∧
    ({ tDev with seams := [(64, { rerouted := true })] } : Dev).route 0 5 = [0, 4, 5] := by decide +kernel
/-- MH0 draws for the requesters of class 3 once its service meter holds a granule; class 2 is served before them. -/
theorem test_arbiter_cycle :
    let d : Dev := { tDev with hubs := [(0, { up := true })], arbs := [(0, { agents := 1 })] }
    let p : Dev := { tStep [] with hubs := [(0, { up := true })], arbs := [(0, { agents := 1, service := 300000 })] }
    (d.arbTick.arb 0).granted = some 64 ∧ (d.arbTick.arb 0).grants = 1 ∧ (p.arbTick.arb 0).grants = 1 := by decide +kernel
theorem test_debug_port :
    let d (st : Nat) (right : W32) : Dev := { tDev with life := { state := st, certs := [⟨false, right, [], []⟩] }, ctxs := [] }
    (d 2 2).jtagOpen .fwDebug = true ∧ (d 2 0).jtagOpen .fwDebug = false ∧ ((d 2 0).jtagSelect .trace).life.jtag = .bypass ∧
    (d 5 255).jtagOpen .trace = false ∧ (d 5 255).jtagOpen .idcode = true ∧ (d 2 16).jtagOpen .memTest = true := by decide +kernel

end Sys2Proof.Tests
end

section
/-! SUPPORT. What management requests, the host link and REGISTER_WRITE do to the device (chapters 09, 18, 20, 21), and the
statement on them. -/

namespace Sys2Proof.Machine

/-! ### Commands that move no sensor (R648, R649) -/

/-- Two devices agree on everything a watched sensor reads (R648). -/
structure Dev.SameReadings (d e : Dev) : Prop where
  sys   : e.sys = d.sys
  tide  : e.tide = d.tide
  dike  : e.dike = d.dike
  power : e.power = d.power

@[refl] theorem Dev.SameReadings.refl (d : Dev) : d.SameReadings d := ⟨rfl, rfl, rfl, rfl⟩
theorem Dev.SameReadings.emit {d e : Dev} (h : d.SameReadings e) (o : Out) : d.SameReadings (e.emit o) :=
  ⟨h.sys, h.tide, h.dike, h.power⟩
theorem Dev.SameReadings.modMgmt {d e : Dev} (h : d.SameReadings e) (f : Mgmt → Mgmt) : d.SameReadings (e.modMgmt f) :=
  ⟨h.sys, h.tide, h.dike, h.power⟩
theorem Dev.SameReadings.modErrors {d e : Dev} (h : d.SameReadings e) (f : Errors → Errors) :
    d.SameReadings (e.modErrors f) := ⟨h.sys, h.tide, h.dike, h.power⟩
theorem Dev.SameReadings.modQueue {d e : Dev} (h : d.SameReadings e) (n : Nat) (f : Queue → Queue) :
    d.SameReadings (e.modQueue n f) := ⟨h.sys, h.tide, h.dike, h.power⟩

/-- A sensor from 97 on, but for 128 to 130, has no threshold: its level is 0 whatever it reads (R648). -/
theorem Dev.sensorLevel_unwatched (d : Dev) {n : Nat} (h : 97 ≤ n) (hn : n < 128 ∨ 130 < n) : d.sensorLevel n = 0 := by
  simp only [Dev.sensorLevel, Bool.and_eq_true, decide_eq_true_eq]
  rw [if_neg, if_neg, if_neg, if_neg, if_neg] <;> omega

theorem Dev.SameReadings.sensorLevel_eq {d e : Dev} (h : d.SameReadings e) (n : Nat) :
    d.sensorLevel n = e.sensorLevel n := by
  by_cases hn : 97 ≤ n ∧ (n < 128 ∨ 130 < n)
  · rw [d.sensorLevel_unwatched hn.1 hn.2, e.sensorLevel_unwatched hn.1 hn.2]
  · obtain ⟨hs, ht, hd, hp⟩ := h
    have hr : d.sensor n = e.sensor n := by
      simp only [Dev.sensor, hs, ht, hd, hp]
      iterate 6 (split; · rfl)
      omega
    have hc : d.capW = e.capW := by simp only [Dev.capW, hs, hp]
    simp only [Dev.sensorLevel, hr, hc, hd]

theorem Dev.SameReadings.sensorEvents_eq {d e : Dev} (h : d.SameReadings e) : d.sensorEvents e = e :=
  Dev.sensorEvents_same h.sensorLevel_eq

theorem State.onDevice_quiet {s : State} {f : Dev → Dev} (h : s.dev.SameReadings (f s.dev)) :
    s.onDevice f = s.onDev f := by
  simp only [State.onDevice, State.onDev, h.sensorEvents_eq]

theorem answers_onDevice_quiet {i : Instr} {s : State} {f : Dev → Dev} {P : State → Prop}
    (e : exec i s = .next (s.onDevice f)) (q : s.dev.SameReadings (f s.dev)) (h : P (s.onDev f)) : Answers i s P :=
  ⟨_, e.trans (congrArg _ (State.onDevice_quiet q)), h⟩

/-- The sensors' messages leave the management endpoint as the command left it. -/
@[simp] theorem State.onDevice_mgmt (s : State) (f : Dev → Dev) : (s.onDevice f).dev.mgmt = (f s.dev).mgmt := by
  simp only [State.onDevice, State.onDev]
  rw [Dev.sensorEvents_eq]

theorem answersDev_onDev {i : Instr} {s : State} {f : Dev → Dev} {d : Dev} (e : exec i s = .next (s.onDev f))
    (h : f s.dev = d) : AnswersDev i s d := by
  rw [AnswersDev, e, State.onDev, h]

/-! ### Bits of a register -/

theorem bitOf_toNat {w : Nat} (x : BitVec w) (n : Nat) : bitOf x.toNat n = x.getLsbD n := by
  rw [bitOf, ← BitVec.testBit_toNat, Nat.testBit_eq_decide_div_mod_eq]
  rfl

/-- The low word of a register write, cut to 15 bits, holds the value's bits. -/
theorem getLsbD_low (v : W64) {n : Nat} (hn : n < 15) :
    (BitVec.ofNat 15 (BitVec.ofNat 32 v.toNat).toNat).getLsbD n = v.getLsbD n := by
  have h32 : n < 32 := by omega
  simp only [BitVec.getLsbD_ofNat, BitVec.testBit_toNat, hn, h32, decide_true, Bool.true_and]

/-! ### Requests of management (R642) -/

/-- The device once the PCIe transport's flag of having carried a message reads `b` (R638). -/
def Dev.setVdm (d : Dev) (b : Bool) : Dev := d.modMgmt fun m => { m with vdmActive := b }

@[simp] theorem Dev.setVdm_update (d : Dev) (b : Bool) : (d.setVdm b).mgmt.update = d.mgmt.update := rfl
@[simp] theorem Dev.setVdm_counters (d : Dev) (b : Bool) : (d.setVdm b).mgmt.counters = d.mgmt.counters := rfl
@[simp] theorem Dev.setVdm_counterNo (d : Dev) (b : Bool) : (d.setVdm b).mgmt.counterNo = d.mgmt.counterNo := rfl
@[simp] theorem Dev.vendorBusy_setVdm (d : Dev) (b : Bool) (n : Nat) : (d.setVdm b).vendorBusy n = d.vendorBusy n := rfl

theorem Dev.sameReadings_setVdm (d : Dev) (b : Bool) : d.SameReadings (d.setVdm b) := (Dev.SameReadings.refl d).modMgmt _

/-- A message over a transport is handled on the device as it was, but for that flag. -/
theorem Dev.onTransport_eq (d : Dev) (n : Nat) (f : Dev → Dev) : ∃ b, d.onTransport n f = f (d.setVdm b) := by
  unfold Dev.onTransport
  split
  · exact ⟨true, rfl⟩
  · exact ⟨d.mgmt.vdmActive, rfl⟩

/-- Whether a transport is up depends on the service state and the endpoint's settings in effect alone. -/
theorem Dev.transportUp_congr {d e : Dev} (hs : e.sys = d.sys) (he : e.mgmt.effective = d.mgmt.effective) (n : Nat) :
    e.transportUp n = d.transportUp n := by
  simp only [Dev.transportUp, Dev.endpointUp, hs, he]

/-- A request over a transport that is up answers what its meaning makes of the device. -/
theorem answers_mgmtRequest {i : Instr} {s : State} {n : Nat} {f : Dev → Dev} {P : State → Prop}
    (e : exec i s = mgmtRequest n s f) (hn : n = 1 ∨ n = 2) (up : s.dev.transportUp n = true)
    (h : ∀ b, s.dev.SameReadings (f (s.dev.setVdm b)) ∧ P { s with dev := f (s.dev.setVdm b) }) : Answers i s P := by
  obtain ⟨b, hb⟩ := s.dev.onTransport_eq n f
  obtain ⟨hq, hP⟩ := h b
  have ht : (decide (n ≠ 1) && decide (n ≠ 2)) = false := by
    rcases hn with rfl | rfl <;> rfl
  have hf : (if s.dev.transportUp n then s.dev.onTransport n f else s.dev) = f (s.dev.setVdm b) := by rw [if_pos up, hb]
  refine answers_onDevice_quiet (e.trans (if_neg (ht ▸ Bool.false_ne_true))) (hf.symm ▸ hq) ?_
  simpa only [State.onDev, hf] using hP

/-- One message answers the request, and beside it only the endpoint's own state changes. -/
def Dev.Replies (d : Dev) (n : Nat) (e : Dev) : Prop := ∃ g x, e = (d.modMgmt g).emit (.mgmt n x)

theorem Dev.replies_emit (d : Dev) (n : Nat) (x : MgmtMsg) : d.Replies n (d.emit (.mgmt n x)) := ⟨id, x, rfl⟩

theorem Dev.mctpControl_replies (d : Dev) (n : Nat) (m : MctpControl) : d.Replies n (d.mctpControl n m) := by
  cases m with
  | setEid e =>
    by_cases h : (e = 0 || e = 0xFF) = true
    · exact ⟨id, _, if_pos h⟩
    · exact ⟨_, _, if_neg h⟩
  | _ => exact d.replies_emit n _

theorem Dev.pldmPlatform_replies (d : Dev) (n : Nat) (m : PldmPlatform) : d.Replies n (d.pldmPlatform n m) := by
  cases m with
  | setEventReceiver e => exact ⟨_, _, rfl⟩
  | getPdr k | getSensorReading k | getStateSensorReadings k =>
    unfold Dev.pldmPlatform
    dsimp only
    split <;> exact d.replies_emit n _
  | _ => exact d.replies_emit n _

theorem answers_of_replies {i : Instr} {s : State} {n : Nat} {f : Dev → Dev} (e : exec i s = mgmtRequest n s f)
    (hn : n = 1 ∨ n = 2) (up : s.dev.transportUp n = true) (h : ∀ d : Dev, d.Replies n (f d)) :
    Answers i s fun t => ∃ x, t.dev.out = s.dev.out ++ [.mgmt n x] := by
  refine answers_mgmtRequest e hn up fun b => ?_
  obtain ⟨g, x, hx⟩ := h (s.dev.setVdm b)
  rw [hx]
  exact ⟨((s.dev.sameReadings_setVdm b).modMgmt g).emit _, x, rfl⟩

/-- A request that starts at an entry the ring still holds has status 0 (R646, R655). -/
theorem ringAnswer_held {held written first : Nat} (h : written - held ≤ first) (count : Nat) :
    ∃ next skip k, ringAnswer held written first count = (0, next, skip, k) :=
  ⟨_, _, _, Prod.ext (if_neg (by omega)) rfl⟩

/-- The device asks for the next chunk over a transport that is up. -/
theorem Dev.requestChunk_up {d : Dev} (h : d.transportUp d.mgmt.transport = true) :
    d.requestChunk = d.emit (.mgmt d.mgmt.transport (.requestData d.mgmt.received d.mgmt.chunk)) := if_pos h

section
variable {s : State} {n : Nat} (hn : n = 1 ∨ n = 2) (up : s.dev.transportUp n = true)
include hn up

theorem lcRead_answers (free : s.dev.vendorBusy n = false) :
    Answers (.lcRead n) s fun t => ∃ l, t.dev.out = s.dev.out ++ [.mgmt n (.vendor 0x02 0 l)] := by
  refine answers_mgmtRequest rfl hn up fun b => ?_
  rw [Dev.vendorBusy_setVdm, free]
  exact ⟨(s.dev.sameReadings_setVdm b).emit _, _, rfl⟩

theorem getEvents_answers (first count : Nat) (free : s.dev.vendorBusy n = false) :
    Answers (.getEvents n first count) s fun t => ∃ st l, t.dev.out = s.dev.out ++ [.mgmt n (.vendor 0x11 st l)] := by
  refine answers_mgmtRequest rfl hn up fun b => ?_
  rw [Dev.vendorBusy_setVdm, free]
  exact ⟨(s.dev.sameReadings_setVdm b).emit _, _, _, rfl⟩

theorem getCounters_answers (first count : Nat) (free : s.dev.vendorBusy n = false)
    (held : s.dev.mgmt.counterNo - s.dev.mgmt.counters.length ≤ first) :
    Answers (.getCounters n first count) s fun t => ∃ l, t.dev.out = s.dev.out ++ [.mgmt n (.vendor 0x10 0 l)] := by
  refine answers_mgmtRequest rfl hn up fun b => ?_
  obtain ⟨next, skip, k, hr⟩ := ringAnswer_held held count
  rw [Dev.vendorBusy_setVdm, free, Dev.setVdm_counters, Dev.setVdm_counterNo, hr]
  exact ⟨(s.dev.sameReadings_setVdm b).emit _, _, rfl⟩

theorem requestUpdate_answers (c k : Nat) (idle : s.dev.mgmt.update = .idle) (hc : componentBlocks c ≠ []) (hk : k ≠ 0) :
    Answers (.requestUpdate n c k) s fun t => t.dev.mgmt.update = .downloading ∧ t.dev.mgmt.component = c := by
  refine answers_mgmtRequest rfl hn up fun b => ?_
  dsimp only
  rw [if_neg (by simp [idle]), if_neg (by simp [hc, hk]), Dev.requestChunk_up]
  · exact ⟨(((s.dev.sameReadings_setVdm b).modMgmt _).emit _).emit _, rfl, rfl⟩
  · exact (Dev.transportUp_congr rfl rfl n).trans up
end

/-- LC_REQUEST over an unsecured message only gives status 2 (R644, R645). -/
theorem lcRequest_unsecured {s : State} {m : LcRequestMsg} (hn : m.transport = 1 ∨ m.transport = 2)
    (up : s.dev.transportUp m.transport = true) (h : m.secured = false) :
    Answers (.lcRequest m) s fun t => t.dev.life = s.dev.life ∧
      t.dev.out = s.dev.out ++ [.mgmt m.transport (.vendor 0x01 2 [])] := by
  refine answers_mgmtRequest rfl hn up fun b => ?_
  rw [h]
  exact ⟨(s.dev.sameReadings_setVdm b).emit _, rfl, rfl⟩

/-! ### Firmware update (R653) -/

@[simp] theorem Dev.tideRunning_modMgmt (d : Dev) (f : Mgmt → Mgmt) : (d.modMgmt f).tideRunning = d.tideRunning := rfl
@[simp] theorem Dev.tideRunning_emit (d : Dev) (o : Out) : (d.emit o).tideRunning = d.tideRunning := rfl

theorem nextChunk_answers {s : State} {bytes : List Byte} (up : s.dev.endpointUp = true)
    (load : s.dev.mgmt.update = .downloading) (fits : bytes.length ≤ s.dev.mgmt.chunk)
    (tup : s.dev.transportUp s.dev.mgmt.transport = true) :
    Answers (.updateComponentData (.chunk s.dev.mgmt.received bytes)) s fun t =>
      t.dev.mgmt.received = s.dev.mgmt.received + bytes.length := by
  refine answers_onDev rfl ?_
  dsimp only
  rw [if_neg (by simp [load, up]), if_neg (by simp [fits]), Dev.requestChunk_up]
  · rfl
  · exact (Dev.transportUp_congr rfl rfl _).trans tup

theorem mem_ite_contains_append (a : Nat) (l : List Nat) : a ∈ if l.contains a then l else l ++ [a] := by
  split
  · next h => exact List.contains_iff_mem.mp h
  · exact List.mem_append_right l (List.mem_singleton_self a)

/-- While the timer runs, the component of a verified image waits for the ebb to swap (R653). -/
theorem Dev.activate_schedules {d : Dev} (serv : d.sys.service ≠ .recovery) (hc : d.mgmt.component ≠ 1)
    (run : d.tideRunning = true) : d.mgmt.component ∈ d.activate.mgmt.swaps ∧ d.activate.mgmt.update = .idle := by
  unfold Dev.activate
  simp only [Dev.modMgmt_sys, Dev.emit_sys, Dev.tideRunning_modMgmt, Dev.tideRunning_emit, serv, hc, run, if_true, if_false]
  exact ⟨mem_ite_contains_append .., rfl⟩

theorem activateFirmware_schedules {s : State} (up : s.dev.endpointUp = true) (done : s.dev.mgmt.update = .verified)
    (serv : s.dev.sys.service ≠ .recovery) (hc : s.dev.mgmt.component ≠ 1) (run : s.dev.tideRunning = true) :
    Answers .activateFirmware s fun t => s.dev.mgmt.component ∈ t.dev.mgmt.swaps ∧ t.dev.mgmt.update = .idle := by
  refine ⟨_, rfl, ?_⟩
  dsimp only
  rw [State.onDevice_mgmt, if_neg (by simp [up, done]), if_neg (by simp [done])]
  exact Dev.activate_schedules serv hc run

theorem fwSelfcheckFail_returns {s : State} {c n : Nat} (trial : (c, n) ∈ s.dev.mgmt.trials) (due : s.dev.tide.number ≤ n)
    (run : s.dev.tideRunning = true) : Answers (.fwSelfcheckFail c) s fun t => c ∈ t.dev.mgmt.returns := by
  refine answers_onDev rfl ?_
  dsimp only
  rw [if_pos (List.any_eq_true.mpr ⟨(c, n), trial, by simp [due]⟩), Dev.tideRunning_modMgmt, if_pos run]
  exact mem_ite_contains_append c _

/-! ### Host links (R290 to R295, R332) -/

theorem d3hotTransition_pf0 {s : State} (b : Bool) (conf : s.dev.sys.retryStatus = false) :
    AnswersDev (.d3hotTransition 0 b) s (s.dev.modSys fun x => { x with d3hot := (b, x.d3hot.2) }) :=
  answersDev_onDev rfl (if_neg (by simp [Dev.fnExists, conf]))

theorem d3hotTransition_pf1 {s : State} (b : Bool) (conf : s.dev.sys.retryStatus = false) (two : s.dev.sys.bifur = true) :
    AnswersDev (.d3hotTransition 1 b) s (s.dev.modSys fun x => { x with d3hot := (x.d3hot.1, b) }) :=
  answersDev_onDev rfl (if_neg (by simp [Dev.fnExists, conf, two]))

theorem dynamicAddressAssignment_answers {s : State} (a : BitVec 7) (up : s.dev.transportUp 1 = true) :
    AnswersDev (.dynamicAddressAssignment a) s (s.dev.modMgmt fun m => { m with dynAddr := some a }) :=
  answersDev_onDev rfl (if_pos up)

/-- A change of a function that keeps its interface's state keeps every interface's state. -/
theorem Dev.modFn_tdi (d : Dev) {m : Nat} {f : Function → Function} (h : ∀ x, (f x).tdi = x.tdi) (n : Nat) :
    ((d.modFn m f).fn n).tdi = (d.fn n).tdi := by
  rw [Dev.fn_modFn]
  split
  · next hn => rw [h, hn]
  · rfl

theorem Dev.msix_tdi (d : Dev) (fn v n : Nat) : ((d.msix fn v).fn n).tdi = (d.fn n).tdi := by
  unfold Dev.msix
  split
  · rfl
  · split
    · rfl
    · exact d.modFn_tdi (by intro f; split <;> rfl) n

theorem Dev.logEvent_fns (d : Dev) (kind code die ctx queue step op fence detail : Nat) :
    (d.logEvent kind code die ctx queue step op fence detail).fns = d.fns := by
  obtain ⟨x, o, h⟩ := d.logEvent_eq kind code die ctx queue step op fence detail
  rw [h]

@[simp] theorem Dev.msix_errors (d : Dev) (fn v : Nat) : (d.msix fn v).errors = d.errors := by
  obtain ⟨f, o, h⟩ := d.msix_eq fn v
  rw [h]

@[simp] theorem Dev.logEvent_summary (d : Dev) (kind code die ctx queue step op fence detail : Nat) :
    (d.logEvent kind code die ctx queue step op fence detail).errors.summary = d.errors.summary := by
  unfold Dev.logEvent
  dsimp only
  split <;> rfl

/-- A summary event sets its bit of ERR_SUMMARY (R635). -/
theorem Dev.errEvent_sets (d : Dev) (b : ErrBit) : bitOf (d.errEvent b).errors.summary.toNat b.num = true := by
  have hs : (d.errEvent b).errors.summary = d.errors.summary ||| BitVec.ofNat 15 (2 ^ b.num) := by
    unfold Dev.errEvent
    dsimp only
    split <;> simp [Dev.modErrors]
  rw [hs, bitOf_toNat]
  cases b <;> simp [ErrBit.num]

theorem Dev.errEvent_tdi (d : Dev) (b : ErrBit) (n : Nat) : ((d.errEvent b).fn n).tdi = (d.fn n).tdi := by
  have hl (e : Dev) (kind code die ctx queue step op fence detail : Nat) :
      (e.logEvent kind code die ctx queue step op fence detail).fn n = e.fn n := by
    simp only [Dev.fn, Dev.logEvent_fns]
  unfold Dev.errEvent
  extract_lets rise d1 d2
  have h2 : d2.fn n = d.fn n := hl ..
  split
  · rw [Dev.msix_tdi, h2]
  · rw [h2]

theorem Dev.silenceFn_eq (d : Dev) (n : Nat) :
    ∃ q, d.silenceFn n = Dev.modFn { d with queues := q } n fun f => { f with silent := true, era := f.era + 1 } := by
  have h (l : List Nat) (g : Dev → Nat → Queue → Queue) :
      ∃ q, d.each l (fun d q => d.modQueue q (g d q)) = { d with queues := q } :=
    Dev.each_keeps (fun e => ∃ q, e = { d with queues := q }) ⟨d.queues, rfl⟩ (by rintro _ a ⟨q, rfl⟩; exact ⟨_, rfl⟩)
  obtain ⟨q, hq⟩ := h (d.queuesOf n) _
  exact ⟨q, congrArg (fun e => Dev.modFn e n _) hq⟩

theorem Dev.silenceFn_tdi (d : Dev) (m n : Nat) : ((d.silenceFn m).fn n).tdi = (d.fn n).tdi := by
  obtain ⟨q, h⟩ := d.silenceFn_eq m
  rw [h]
  exact Dev.modFn_tdi { d with queues := q } (by intro; rfl) n

/-- An interface that moves to ERROR stands there; no other moves (R294). -/
theorem Dev.tdiError_tdi (d : Dev) (m n : Nat) : ((d.tdiError m).fn n).tdi = if n = m then 3 else (d.fn n).tdi := by
  rw [Dev.tdiError, Dev.errEvent_tdi, Dev.fn_modFn]
  split
  · rfl
  · cases (d.fn m).tdi == 2
    · rfl
    · exact d.silenceFn_tdi m n

/-- Beside interfaces, queues, the error state and outputs, nothing changes when an interface moves to ERROR. -/
theorem Dev.tdiError_eq (d : Dev) (m : Nat) :
    ∃ f q x o, d.tdiError m = { d with fns := f, queues := q, errors := x, out := o } := by
  have hw : ∃ f q, d.when ((d.fn m).tdi == 2) (fun d => d.silenceFn m) = { d with fns := f, queues := q } := by
    cases (d.fn m).tdi == 2
    · exact ⟨d.fns, d.queues, rfl⟩
    · obtain ⟨q, h⟩ := d.silenceFn_eq m
      exact ⟨_, q, h⟩
  obtain ⟨f, q, hw⟩ := hw
  rw [Dev.tdiError, hw]
  obtain ⟨x, f', o, he⟩ := Dev.errEvent_eq _ .tdisp 0 0xFF 0 0xFFFF
  exact ⟨f', q, x, o, he⟩

theorem Dev.each_tdiError_tdi {n : Nat} {l : List Nat} {d : Dev} (h : n ∈ l ∨ (d.fn n).tdi = 3) :
    ((d.each l Dev.tdiError).fn n).tdi = 3 := by
  induction l generalizing d with
  | nil => exact h.resolve_left List.not_mem_nil
  | cons m l ih =>
    refine ih ?_
    rw [Dev.tdiError_tdi]
    rcases h with h | h
    · rcases List.mem_cons.mp h with h | h
      · exact .inr (if_pos h)
      · exact .inl h
    · exact .inr (by rw [h, ite_self])

/-- A key at which a table does not read its default is listed. -/
theorem Tab.mem_keys_of_get_ne {α : Type} {d : α} {t : Tab α} {k : Nat} (h : Tab.get d t k ≠ d) : k ∈ t.keys := by
  induction t with
  | nil => exact absurd rfl h
  | cons p t ih =>
    obtain ⟨k', v⟩ := p
    by_cases hk : k' = k
    · exact List.mem_cons.mpr (.inl hk.symm)
    · rw [Tab.get, if_neg hk] at h
      exact List.mem_cons_of_mem _ (ih h)

theorem Dev.mem_keys_of_tdi {d : Dev} {n : Nat} (h : (d.fn n).tdi ≠ 0) : n ∈ d.fns.keys :=
  Tab.mem_keys_of_get_ne fun e => h (congrArg Function.tdi e)

/-- What a link that goes down loses: its IDE streams (R591). -/
def Trust.dropLink (x : Trust) (l : Nat) : Trust :=
  { x with ide := x.ide.filter fun i => i.1 != l, ideLive := x.ideLive.filter fun i => i.1 != l }

theorem Dev.linkDown_other (d : Dev) {l : Nat} (h : l ≠ 0) : d.linkDown l = d.modTrust fun x => x.dropLink l := if_pos h

/-- The functions whose interface is locked or running. -/
def Dev.lockedFns (d : Dev) : List Nat := d.fns.keys.filter fun f => (d.fn f).tdi == 1 || (d.fn f).tdi == 2

theorem Dev.mem_lockedFns {d : Dev} {n : Nat} (h : (d.fn n).tdi = 1 ∨ (d.fn n).tdi = 2) : n ∈ d.lockedFns :=
  List.mem_filter.mpr ⟨Dev.mem_keys_of_tdi (by omega), by simpa using h⟩

/-- With link 0 down its streams are dropped, locked interfaces move to ERROR, and no function keeps a stream. -/
theorem Dev.linkDown_zero (d : Dev) : ∃ l, d.linkDown 0 =
    ((d.modTrust fun x => x.dropLink 0).each d.lockedFns Dev.tdiError).each l
      (fun d n => d.modFn n fun x => { x with ideStream := none }) := ⟨_, rfl⟩

theorem Dev.each_tdiError_eq (d : Dev) (l : List Nat) :
    ∃ f q x o, d.each l Dev.tdiError = { d with fns := f, queues := q, errors := x, out := o } := by
  induction l generalizing d with
  | nil => exact ⟨d.fns, d.queues, d.errors, d.out, rfl⟩
  | cons m l ih =>
    obtain ⟨f, q, x, o, h⟩ := d.tdiError_eq m
    obtain ⟨f', q', x', o', h'⟩ := ih (d.tdiError m)
    exact ⟨f', q', x', o', h'.trans (by rw [h])⟩

theorem Dev.each_modFn_eq (d : Dev) (l : List Nat) (g : Function → Function) :
    ∃ f, d.each l (fun d n => d.modFn n g) = { d with fns := f } := by
  induction l generalizing d with
  | nil => exact ⟨d.fns, rfl⟩
  | cons m l ih => exact ih (d.modFn m g)

/-- Beside its streams, a link that goes down changes interfaces, queues, the error state and outputs alone. -/
theorem Dev.linkDown_eq (d : Dev) (l : Nat) : ∃ f q x o,
    d.linkDown l = { d with trust := d.trust.dropLink l, fns := f, queues := q, errors := x, out := o } := by
  by_cases h : l = 0
  · subst h
    obtain ⟨l, hd⟩ := d.linkDown_zero
    obtain ⟨f, q, x, o, h1⟩ := (d.modTrust fun x => x.dropLink 0).each_tdiError_eq d.lockedFns
    rw [h1] at hd
    obtain ⟨f', h2⟩ := Dev.each_modFn_eq _ l fun x => { x with ideStream := none }
    exact ⟨f', q, x, o, hd.trans h2⟩
  · exact ⟨d.fns, d.queues, d.errors, d.out, d.linkDown_other h⟩

/-- With link 0 down each locked or running interface stands in ERROR (R295). -/
theorem Dev.linkDown_tdi {d : Dev} {n : Nat} (h : (d.fn n).tdi = 1 ∨ (d.fn n).tdi = 2) : ((d.linkDown 0).fn n).tdi = 3 := by
  obtain ⟨l, hd⟩ := d.linkDown_zero
  rw [hd]
  refine Dev.each_keeps (fun e => (e.fn n).tdi = 3) (Dev.each_tdiError_tdi (.inl (Dev.mem_lockedFns h))) fun e m he => ?_
  exact (e.modFn_tdi (by intro; rfl) n).trans he

/-- A generation and a width at which a link trains (R290, R332). -/
def Dev.linkFits (d : Dev) (gen width : Nat) : Prop :=
  4 ≤ gen ∧ gen ≤ 6 ∧ (width = 4 ∨ width = 8 ∨ (width = 16 ∧ d.sys.bifur = false))

theorem Dev.linkFits_iff (d : Dev) (gen width : Nat) : (decide (4 ≤ gen) && decide (gen ≤ 6) &&
    (decide (width = 4) || decide (width = 8) || (decide (width = 16) && !d.sys.bifur))) = true ↔ d.linkFits gen width := by
  simp [Dev.linkFits, and_assoc, or_assoc]

/-- What a link reads once it has trained, or is down. -/
def Sys.setLink (x : Sys) (l : Nat) (v : Nat × Nat) (flit : Bool) : Sys :=
  if l = 0 then { x with link0 := v, flit0 := flit } else { x with link1 := v, flit1 := flit }

section
variable {s : State} {l gen width : Nat} {flit : Bool} (hl : l < 2) (two : l = 1 → s.dev.sys.bifur = true)
include hl two

theorem hostLinkRetrain_trains (fits : s.dev.linkFits gen width) :
    AnswersDev (.hostLinkRetrain l ⟨gen, flit⟩ width) s
      (s.dev.modSys fun x => x.setLink l (gen, width) (decide (gen = 6) || flit)) := by
  refine answersDev_onDev (if_neg (by omega)) ?_
  dsimp only
  rw [(s.dev.linkFits_iff gen width).mpr fits, if_neg (by simpa using two)]
  rfl

theorem hostLinkRetrain_down (fits : ¬ s.dev.linkFits gen width) :
    AnswersDev (.hostLinkRetrain l ⟨gen, flit⟩ width) s
      ((s.dev.modSys fun x => x.setLink l (0, 0) false).linkDown l) := by
  refine answersDev_onDev (if_neg (by omega)) ?_
  dsimp only
  rw [Bool.eq_false_iff.mpr (mt (s.dev.linkFits_iff gen width).mp fits), if_neg (by simpa using two)]
  rfl
end

/-- What a link that does not train leaves (R295, R332, R591). -/
theorem linkDown_effect (s : State) (l : Nat) :
    let t : State := { s with dev := (s.dev.modSys fun x => x.setLink l (0, 0) false).linkDown l }
    (l = 0 → t.dev.sys.link0 = (0, 0)) ∧
    (l = 1 → t.dev.sys.link1 = (0, 0) ∧ t.dev.fns = s.dev.fns) ∧
    (∀ x, x ∈ t.dev.trust.ideLive ↔ x ∈ s.dev.trust.ideLive ∧ x.1 ≠ l) ∧
    (l = 0 → ∀ n, (s.dev.fn n).tdi = 1 ∨ (s.dev.fn n).tdi = 2 → (t.dev.fn n).tdi = 3) ∧ SameMemory s t := by
  obtain ⟨f, q, x, o, h⟩ := (s.dev.modSys fun x => x.setLink l (0, 0) false).linkDown_eq l
  refine ⟨?_, ?_, ?_, ?_, ?_⟩
  · rintro rfl
    rw [h]; rfl
  · rintro rfl
    rw [Dev.linkDown_other _ Nat.one_ne_zero]
    exact ⟨rfl, rfl⟩
  · intro i
    rw [h]
    simp [Trust.dropLink]
  · rintro rfl n hn
    exact Dev.linkDown_tdi hn
  · intro a
    rw [h]; rfl

/-! ### Registers (R11, R627 to R634) -/

@[simp] theorem Dev.regsUp_modQueue (d : Dev) (n : Nat) (f : Queue → Queue) : (d.modQueue n f).regsUp = d.regsUp := rfl

/-- A write through PF0 while the registers answer reaches the block map (R627, R632). -/
theorem Dev.writeReg_pf0 {d : Dev} (h : d.regsUp = true) (off : Nat) (w : W32) : d.writeReg 0 off w = d.writePf 0 off w := by
  rw [Dev.writeReg, if_neg (by simp [Dev.fnExists]), if_pos h, if_pos Nat.two_pos]

/-- A function that does not exist, or registers that do not answer, take no write (R292, R605). -/
theorem Dev.writeReg_silent {d : Dev} {n : Nat} (h : d.fnExists n = false ∨ (d.regsUp = false ∧ d.sys.locked = false))
    (off : Nat) (w : W32) : d.writeReg n off w = d := by
  rcases h with h | ⟨hr, hk⟩
  · exact if_pos (by simp [h])
  · have hl : d.lifeUp = false := by rw [Dev.lifeUp, hr, hk]; rfl
    simp only [Dev.writeReg, hr, hl, Bool.false_and, Bool.false_eq_true, if_false, ite_self]

theorem Dev.entryLocked_modQueue {d : Dev} {q : Nat} {f : Queue → Queue} (he : (f (d.queue q)).enable = (d.queue q).enable)
    (hf : (f (d.queue q)).function = (d.queue q).function) (fn : Nat) (c : Bool) :
    (d.modQueue q f).entryLocked fn q c = d.entryLocked fn q c := by
  simp only [Dev.entryLocked, Dev.frozenFn, Dev.queue_modQueue_self, Dev.fn_modQueue, he, hf]

/-- The two words of a 64-bit write, low first, give its value with the low 12 bits zero (R627). -/
theorem setHi_setLo (x v : W64) : setHi (setLo x (BitVec.ofNat 32 v.toNat) 12) (BitVec.ofNat 32 (v.toNat / 4294967296)) =
    BitVec.ofNat 64 (v.toNat / 4096 * 4096) := by
  refine BitVec.eq_of_toNat_eq ?_
  simp only [setHi, setLo, BitVec.toNat_ofNat]
  have hv := v.isLt
  omega

/-- A queue entry with its ring base changed (R328). -/
def Queue.modRing (f : W64 → W64) (x : Queue) : Queue := { x with ring := f x.ring }

theorem Queue.modRing_modRing (x : Queue) (f g : W64 → W64) :
    (x.modRing f).modRing g = { x with ring := g (f x.ring) } := rfl

theorem Dev.entryLocked_modRing (d : Dev) (q : Nat) (f : W64 → W64) (fn : Nat) (c : Bool) :
    (d.modQueue q (Queue.modRing f)).entryLocked fn q c = d.entryLocked fn q c := Dev.entryLocked_modQueue rfl rfl fn c

/-- QT_RING takes a word where the selected entry takes writes; a locked entry is rejected (R300, R328). -/
theorem Dev.writePf_ringLo (d : Dev) (w : W32) : d.writePf 0 0x10008 w =
    if d.entryLocked 0 d.sys.sel0.queue false then d.rejectQueue d.sys.sel0.queue
    else d.modQueue d.sys.sel0.queue (Queue.modRing fun r => setLo r w 12) := rfl
theorem Dev.writePf_ringHi (d : Dev) (w : W32) : d.writePf 0 0x1000C w =
    if d.entryLocked 0 d.sys.sel0.queue false then d.rejectQueue d.sys.sel0.queue
    else d.modQueue d.sys.sel0.queue (Queue.modRing fun r => setHi r w) := rfl

theorem Dev.writePf_errSummary (d : Dev) (w : W32) : d.writePf 0 0x40000 w =
    d.modErrors fun x => { x with summary := x.summary &&& ~~~(BitVec.ofNat 15 w.toNat) } := rfl

theorem Dev.writePf_errMask (d : Dev) (w : W32) : d.writePf 0 0x40004 w =
    d.modErrors fun x => { x with mask := BitVec.ofNat 15 w.toNat } := rfl

/-- The device a REGISTER_WRITE makes (R627): an aligned 64-bit write is two words, low first. -/
def Dev.writeBar (d : Dev) (n off size : Nat) (v : W64) : Dev :=
  if size = 4 && off % 4 = 0 then d.writeReg n off (BitVec.ofNat 32 v.toNat)
  else if size = 8 && off % 8 = 0 then
    (d.writeReg n off (BitVec.ofNat 32 v.toNat)).writeReg n (off + 4) (BitVec.ofNat 32 (v.toNat / 4294967296))
  else d

theorem exec_registerWrite {n : Nat} (hn : n ≤ 16) (off size : Nat) (v : W64) (s : State) :
    exec (.registerWrite n off size v) s = .next (s.onDevice fun d => d.writeBar n off size v) := if_neg (by omega)

theorem Dev.writeBar_word (d : Dev) {off : Nat} (h : off % 4 = 0) (n : Nat) (v : W64) :
    d.writeBar n off 4 v = d.writeReg n off (BitVec.ofNat 32 v.toNat) := if_pos (by simp [h])

theorem Dev.writeBar_dword (d : Dev) {off : Nat} (h : off % 8 = 0) (n : Nat) (v : W64) : d.writeBar n off 8 v =
    (d.writeReg n off (BitVec.ofNat 32 v.toNat)).writeReg n (off + 4) (BitVec.ofNat 32 (v.toNat / 4294967296)) := by
  rw [Dev.writeBar, if_neg (by simp), if_pos (by simp [h])]

/-- What no register takes changes nothing: another size, not aligned, no such function, or nothing answers (R605, R627). -/
theorem Dev.writeBar_ignored {d : Dev} {n off size : Nat} (v : W64)
    (h : size ≠ 4 ∧ size ≠ 8 ∨ off % size ≠ 0 ∨ d.fnExists n = false ∨ (d.regsUp = false ∧ d.sys.locked = false)) :
    d.writeBar n off size v = d := by
  rcases h with ⟨h4, h8⟩ | h | h
  · simp [Dev.writeBar, h4, h8]
  · have h4 : ¬ (size = 4 ∧ off % 4 = 0) := by rintro ⟨rfl, e⟩; exact h e
    have h8 : ¬ (size = 8 ∧ off % 8 = 0) := by rintro ⟨rfl, e⟩; exact h e
    rw [Dev.writeBar, if_neg (by simpa using h4), if_neg (by simpa using h8)]
  · simp only [Dev.writeBar, Dev.writeReg_silent h, ite_self]

theorem registerWrite_ignored {s : State} {n off size : Nat} (v : W64) (hn : n ≤ 16)
    (h : size ≠ 4 ∧ size ≠ 8 ∨ off % size ≠ 0 ∨ s.dev.fnExists n = false ∨ (s.dev.regsUp = false ∧ s.dev.sys.locked = false)) :
    AnswersDev (.registerWrite n off size v) s s.dev := by
  have hw : s.dev.writeBar n off size v = s.dev := Dev.writeBar_ignored v h
  refine answersDev_onDev ((exec_registerWrite hn ..).trans (congrArg _ (State.onDevice_quiet ?_))) hw
  rw [hw]

/-- A write that moves no sensor answers the device it makes. -/
theorem registerWrite_answers {s : State} {n off size : Nat} {v : W64} {e : Dev} {P : State → Prop} (hn : n ≤ 16)
    (he : s.dev.writeBar n off size v = e) (q : s.dev.SameReadings e) (h : P { s with dev := e }) :
    Answers (.registerWrite n off size v) s P := by
  subst he
  exact answers_onDevice_quiet (exec_registerWrite hn ..) q h

section
variable {d : Dev} (up : d.regsUp = true) (lo hi : W32)
include up

theorem Dev.writeReg_ring (free : d.entryLocked 0 d.sys.sel0.queue false = false) :
    (d.writeReg 0 0x10008 lo).writeReg 0 0x1000C hi =
      (d.modQueue d.sys.sel0.queue (Queue.modRing fun r => setLo r lo 12)).modQueue d.sys.sel0.queue
        (Queue.modRing fun r => setHi r hi) := by
  have hl : d.writeReg 0 0x10008 lo = d.modQueue d.sys.sel0.queue (Queue.modRing fun r => setLo r lo 12) := by
    rw [Dev.writeReg_pf0 up, Dev.writePf_ringLo, free, if_neg Bool.false_ne_true]
  rw [hl, Dev.writeReg_pf0 (by rwa [Dev.regsUp_modQueue]), Dev.writePf_ringHi, Dev.modQueue_sys,
    Dev.entryLocked_modRing, free, if_neg Bool.false_ne_true]

theorem Dev.writeReg_ring_rejected (locked : d.entryLocked 0 d.sys.sel0.queue false = true) :
    (d.writeReg 0 0x10008 lo).writeReg 0 0x1000C hi =
      (d.rejectQueue d.sys.sel0.queue).rejectQueue d.sys.sel0.queue := by
  have hl : d.writeReg 0 0x10008 lo = d.rejectQueue d.sys.sel0.queue := by
    rw [Dev.writeReg_pf0 up, Dev.writePf_ringLo, if_pos locked]
  have hq : (d.rejectQueue d.sys.sel0.queue).sys = d.sys := rfl
  have hr : (d.rejectQueue d.sys.sel0.queue).entryLocked 0 d.sys.sel0.queue false = true :=
    (Dev.entryLocked_modQueue rfl rfl 0 false).trans locked
  rw [hl, Dev.writeReg_pf0 (by rwa [Dev.rejectQueue, Dev.regsUp_modQueue]), Dev.writePf_ringHi, hq, if_pos hr]

end

/-- Two updates of an entry leave every other entry and table alone. -/
theorem registerWrite_entry {s : State} {off size q : Nat} {v : W64} {f g : Queue → Queue}
    (hw : s.dev.writeBar 0 off size v = (s.dev.modQueue q f).modQueue q g) :
    Answers (.registerWrite 0 off size v) s fun t => t.dev.queue q = g (f (s.dev.queue q)) ∧
      (∀ n, n ≠ q → t.dev.queue n = s.dev.queue n) ∧ t.dev = { s.dev with queues := t.dev.queues } := by
  refine registerWrite_answers (Nat.zero_le _) hw (((Dev.SameReadings.refl _).modQueue q f).modQueue q g) ⟨?_, ?_, rfl⟩
  · simp only [Dev.queue_modQueue_self]
  · intro n hn
    simp only [Dev.queue_modQueue, if_neg hn]

section
variable {s : State} (v : W64) (up : s.dev.regsUp = true)
include up

theorem registerWrite_ring (free : s.dev.entryLocked 0 s.dev.sys.sel0.queue false = false) :
    Answers (.registerWrite 0 0x10008 8 v) s fun t =>
      t.dev.queue s.dev.sys.sel0.queue =
        { s.dev.queue s.dev.sys.sel0.queue with ring := BitVec.ofNat 64 (v.toNat / 4096 * 4096) } ∧
      (∀ n, n ≠ s.dev.sys.sel0.queue → t.dev.queue n = s.dev.queue n) ∧ t.dev = { s.dev with queues := t.dev.queues } := by
  have h := registerWrite_entry ((Dev.writeBar_dword s.dev rfl 0 v).trans (Dev.writeReg_ring up _ _ free))
  rwa [Queue.modRing_modRing, setHi_setLo] at h

theorem registerWrite_ring_rejected (locked : s.dev.entryLocked 0 s.dev.sys.sel0.queue false = true) :
    Answers (.registerWrite 0 0x10008 8 v) s fun t =>
      t.dev.queue s.dev.sys.sel0.queue = { s.dev.queue s.dev.sys.sel0.queue with cfgReject := true } ∧
      (∀ n, n ≠ s.dev.sys.sel0.queue → t.dev.queue n = s.dev.queue n) ∧ t.dev = { s.dev with queues := t.dev.queues } :=
  registerWrite_entry ((Dev.writeBar_dword _ rfl 0 v).trans (Dev.writeReg_ring_rejected up _ _ locked))

theorem registerWrite_errSummary : Answers (.registerWrite 0 0x40000 4 v) s fun t =>
    (∀ n < 15, bitOf t.dev.errors.summary.toNat n = (bitOf s.dev.errors.summary.toNat n && !bitOf v.toNat n)) ∧
    t.dev = { s.dev with errors := { s.dev.errors with summary := t.dev.errors.summary } } := by
  have hw := (s.dev.writeBar_word rfl 0 v).trans ((Dev.writeReg_pf0 up 0x40000 _).trans (Dev.writePf_errSummary ..))
  refine registerWrite_answers (Nat.zero_le _) hw ((Dev.SameReadings.refl _).modErrors _) ⟨fun n hn => ?_, rfl⟩
  simp only [Dev.modErrors, bitOf_toNat, BitVec.getLsbD_and, BitVec.getLsbD_not, getLsbD_low v hn, hn, decide_true,
    Bool.true_and]

theorem registerWrite_errMask : Answers (.registerWrite 0 0x40004 4 v) s fun t =>
    (∀ n < 15, bitOf t.dev.errors.mask.toNat n = bitOf v.toNat n) ∧
    t.dev = { s.dev with errors := { s.dev.errors with mask := t.dev.errors.mask } } := by
  have hw := (s.dev.writeBar_word rfl 0 v).trans ((Dev.writeReg_pf0 up 0x40004 _).trans (Dev.writePf_errMask ..))
  refine registerWrite_answers (Nat.zero_le _) hw ((Dev.SameReadings.refl _).modErrors _) ⟨fun n hn => ?_, rfl⟩
  simp only [Dev.modErrors, bitOf_toNat, getLsbD_low v hn]

theorem setupLock_sets (free : s.dev.sys.setupLock = false) :
    AnswersDev .setupLock s (s.dev.modSys fun x => { x with setupLock := true }) := by
  refine answersDev_onDev rfl ?_
  rw [if_pos up, Dev.writeGcCtrl, Dev.rwl, if_neg (by simp [free])]
  rfl

/-- A second SETUP_LOCK is a write to a locked field, and only reports itself (R11, R630). -/
theorem setupLock_locked (locked : s.dev.sys.setupLock = true) :
    Answers .setupLock s fun t => bitOf t.dev.errors.summary.toNat 10 = true ∧
      t.dev = { s.dev with errors := t.dev.errors, fns := t.dev.fns, out := t.dev.out } := by
  refine answers_onDev rfl ?_
  rw [if_pos up, Dev.writeGcCtrl, Dev.rwl, if_pos locked]
  refine ⟨s.dev.errEvent_sets .lockWrite, ?_⟩
  obtain ⟨x, f, o, h⟩ := s.dev.errEvent_eq .lockWrite 0 0xFF 0 0xFFFF
  rw [h]

end

/-- Settles O60: one rule above for each command; where sensors could report, none of these commands moves one. -/
theorem linksAndRegisters : Obligations.LinksAndRegisters := by
  unfold Obligations.LinksAndRegisters
  refine ⟨?_, ?_, ?_, ?_, ?_, ?_, ?_, ?_, ?_⟩
  · exact fun s b conf => ⟨d3hotTransition_pf0 b conf, d3hotTransition_pf1 b conf⟩
  · exact fun s l gen width flit hl two => ⟨hostLinkRetrain_trains hl two, fun fits =>
      ⟨_, hostLinkRetrain_down hl two fits, linkDown_effect s l⟩⟩
  · exact fun s a up => dynamicAddressAssignment_answers a up
  · exact fun s up => ⟨setupLock_sets up, setupLock_locked up⟩
  · exact fun s v up => ⟨registerWrite_ring v up, registerWrite_ring_rejected v up, registerWrite_errSummary v up,
      registerWrite_errMask v up⟩
  · exact fun s n off size v hn h => registerWrite_ignored v hn h
  · exact fun s n hn up => ⟨fun m => answers_of_replies rfl hn up fun d => d.mctpControl_replies n m,
      fun m => answers_of_replies rfl hn up fun d => d.pldmPlatform_replies n m, requestUpdate_answers hn up,
      fun m ht sec => by subst ht; exact lcRequest_unsecured hn up sec, lcRead_answers hn up, getEvents_answers hn up,
      getCounters_answers hn up⟩
  · exact fun s up => ⟨fun bytes => nextChunk_answers up, activateFirmware_schedules up⟩
  · exact fun s c n => fwSelfcheckFail_returns

end Sys2Proof.Machine
end

section
/-! SUPPORT. Comparison, rounding and conversion of exact values (chapter 03), and the statements on number formats. -/

namespace Sys2Proof.Machine

/-! ### Comparison (R117) -/

/-- The rational that a fraction stands for. -/
def Frac.toRat (a : Frac) : Rat := (a.num : Rat) / (a.den : Rat)

section
variable {a b : Frac} (ha : 0 < a.den) (hb : 0 < b.den)
include ha hb

/-- Comparing across the denominators is comparing the rationals, as both denominators are positive. -/
theorem Frac.lt_eq_decide : a.lt b = decide (a.toRat < b.toRat) := by
  have pa : (0 : Rat) < (a.den : Rat) := Rat.natCast_pos.mpr ha
  have pb : (0 : Rat) < (b.den : Rat) := Rat.natCast_pos.mpr hb
  have comm : (b.num : Rat) / b.den * a.den = b.num * a.den / b.den := by grind
  rw [Frac.lt, decide_eq_decide, Frac.toRat, Frac.toRat, Rat.div_lt_iff pa, comm, Rat.lt_div_iff pb]
  norm_cast

theorem Frac.eq_eq_decide : a.eq b = decide (a.toRat = b.toRat) := by
  rw [Frac.eq, decide_eq_decide, Frac.toRat, Frac.toRat, ← Rat.mkRat_eq_div, ← Rat.mkRat_eq_div,
    Rat.mkRat_eq_iff (Nat.ne_of_gt ha) (Nat.ne_of_gt hb)]

/-- The predicates beside eq and lt are the negation of eq, the exchange of lt, and their disjunctions (R117). -/
theorem comparePred_fin :
    comparePred 0 (.fin a) (.fin b) = decide (a.toRat = b.toRat) ∧
    comparePred 1 (.fin a) (.fin b) = decide (a.toRat ≠ b.toRat) ∧
    comparePred 2 (.fin a) (.fin b) = decide (a.toRat < b.toRat) ∧
    comparePred 3 (.fin a) (.fin b) = decide (a.toRat ≤ b.toRat) ∧
    comparePred 4 (.fin a) (.fin b) = decide (b.toRat < a.toRat) ∧
    comparePred 5 (.fin a) (.fin b) = decide (b.toRat ≤ a.toRat) ∧
    comparePred 6 (.fin a) (.fin b) = false := by
  have heq := Frac.eq_eq_decide ha hb
  have hlt := Frac.lt_eq_decide ha hb
  have hgt := Frac.lt_eq_decide hb ha
  refine ⟨heq, ?ne, hlt, ?le, hgt, ?ge, rfl⟩
  case ne => exact (congrArg not heq).trans (decide_not ..).symm
  case le =>
    have h : comparePred 3 (.fin a) (.fin b) = (a.lt b || a.eq b) := rfl
    rw [h, hlt, heq, ← Bool.decide_or, decide_eq_decide, Rat.le_iff_lt_or_eq]
  case ge =>
    have h : comparePred 5 (.fin a) (.fin b) = (b.lt a || a.eq b) := rfl
    rw [h, hgt, heq, ← Bool.decide_or, decide_eq_decide, Rat.le_iff_lt_or_eq, eq_comm]

end

theorem comparePred_nan (p : Nat) {a b : Val} (h : a.isNan || b.isNan) : comparePred p a b = (p == 6) := if_pos h

theorem Frac.eq_of_num_zero {a b : Frac} (ha : a.num = 0) (hb : b.num = 0) : a.eq b = true := by
  simp [Frac.eq, ha, hb]

/-- A float pattern whose bits below the sign are clear reads a zero: it is no infinity and no NaN, and its mantissa is 0
(R87). -/
theorem Fmt.decode_zero {f p : Nat} (hf : f < 8) (hp : p % 2 ^ (Fmt.width f - 1) = 0) :
    ∃ x, Fmt.decode f p = .fin x ∧ x.num = 0 := by
  have float : Fmt.isInt f = false := by simp [Fmt.isInt]; omega
  have finite : ∀ g < 8, 0 ≠ 2 ^ (Fmt.emb g).1 - 1 := by decide
  obtain ⟨y, hy, read⟩ : ∃ y : Frac, y.num = 0 ∧
      Fmt.decode f p = .fin (if bitOf p (Fmt.width f - 1) then y.neg else y) :=
    ⟨(Frac.ofNat (Fmt.magnitude f 0).1).mul (Frac.pow2 (Fmt.magnitude f 0).2),
      by simp [Fmt.magnitude, Frac.mul, Frac.ofNat], by simp [Fmt.decode, float, hp, finite f hf]⟩
  exact ⟨_, read, by split <;> simp [Frac.neg, hy]⟩

theorem comparePred_zeros {f p q : Nat} (hf : f < 8) (hp : p % 2 ^ (Fmt.width f - 1) = 0)
    (hq : q % 2 ^ (Fmt.width f - 1) = 0) : comparePred 0 (Fmt.decode f p) (Fmt.decode f q) = true := by
  obtain ⟨x, hx, hx0⟩ := Fmt.decode_zero hf hp
  obtain ⟨y, hy, hy0⟩ := Fmt.decode_zero hf hq
  rw [hx, hy]
  exact Frac.eq_of_num_zero hx0 hy0

/-- Settles O24: on fractions the model's order is that of the rationals; on infinities each predicate computes. -/
theorem comparePredicates : Obligations.ComparePredicates := by
  unfold Obligations.ComparePredicates
  refine ⟨fun p a b h => comparePred_nan p h, fun a b ha hb => comparePred_fin ha hb, ?below, fun a => ⟨rfl, rfl⟩, ?same,
    fun f p q hf hp hq => comparePred_zeros hf hp hq⟩
  case below => rintro a v (rfl | rfl) <;> exact ⟨rfl, rfl⟩
  case same => rintro (_ | _) <;> rfl

/-! ### Rounding a magnitude (R104 to R106) -/

theorem divRem_snd_eq_one_iff {a b : Nat} (hb : 0 < b) : (divRem a b).2 = 1 ↔ 2 * (a % b) = b := by
  simp only [divRem]
  repeat' split
  all_goals omega

theorem divRem_snd_eq_two_iff {a b : Nat} (hb : 0 < b) : (divRem a b).2 = 2 ↔ b < 2 * (a % b) := by
  simp only [divRem]
  repeat' split
  all_goals omega

section
variable (u : Nat) (x : Frac)

/-- Scaling by 2^0 changes no fraction. -/
theorem Frac.mul_pow2_zero : x.mul (Frac.pow2 (-0)) = x := by
  simp [Frac.mul, Frac.pow2]

theorem roundUnits_nearest (hd : 0 < x.den) : roundUnits 0 u x 0 =
    let q := x.num.natAbs / x.den
    let r := x.num.natAbs % x.den
    if x.den < 2 * r ∨ 2 * r = x.den ∧ q % 2 = 1 then q + 1 else q := by
  simp only [← divRem_snd_eq_one_iff hd, ← divRem_snd_eq_two_iff hd, roundUnits, Frac.mul_pow2_zero,
    Bool.or_eq_true, Bool.and_eq_true, decide_eq_true_eq]
  rfl

theorem roundUnits_towardZero : roundUnits 1 u x 0 = x.num.natAbs / x.den := by
  simp only [roundUnits, Frac.mul_pow2_zero, divRem]

theorem roundUnits_stochastic : roundUnits 2 u x 0 = x.num.natAbs / x.den +
    if u < x.num.natAbs % x.den * 65536 / x.den then 1 else 0 := by
  simp only [roundUnits, Frac.mul_pow2_zero, divRem]
  split <;> rfl

/-- Rounding down errs by the remainder and rounding up by the rest of the denominator; at a half the two
are equal (R104). -/
theorem roundUnits_nearest_error (hd : 0 < x.den) :
    let n := x.num.natAbs
    let near := roundUnits 0 u x 0
    2 * n ≤ 2 * near * x.den + x.den ∧ 2 * near * x.den ≤ 2 * n + x.den ∧
      (2 * n = 2 * near * x.den + x.den ∨ 2 * near * x.den = 2 * n + x.den → near % 2 = 0) := by
  simp only [roundUnits_nearest u x hd, Nat.mul_assoc]
  have hn := Nat.div_add_mod' x.num.natAbs x.den
  have hr := Nat.mod_lt x.num.natAbs hd
  split
  · rw [Nat.add_mul]
    omega
  · omega

end

/-- Settles O25: the quotient and remainder of the numerator by the denominator decide each mode. -/
theorem roundingModes : Obligations.RoundingModes := by
  unfold Obligations.RoundingModes
  intro x u h0 hd
  have hn : x.num.toNat = x.num.natAbs := by omega
  simp only [hn]
  refine ⟨roundUnits_nearest_error u x hd, ?zero, ?draw, ?exact⟩
  case zero =>
    rw [roundUnits_towardZero]
    exact ⟨Nat.div_mul_le_self .., Nat.lt_mul_of_div_lt (Nat.lt_succ_self _) hd⟩
  case draw => rw [roundUnits_stochastic, roundUnits_towardZero]
  case exact =>
    intro h
    rw [roundUnits_stochastic, h, Nat.zero_mul, Nat.zero_div, if_neg (Nat.not_lt_zero u), Nat.add_zero]
    exact Nat.div_mul_cancel (Nat.dvd_of_mod_eq_zero h)

/-! ### Integer outputs (R110) -/

/-- Two's complement reads back every integer of its range. -/
theorem signed_wrap {w : Nat} (hw : 0 < w) {n : Int} (lo : -((2 ^ (w - 1) : Nat) : Int) ≤ n)
    (hi : n ≤ ((2 ^ (w - 1) : Nat) : Int) - 1) : signed w (n % ((2 ^ w : Nat) : Int)).toNat = n := by
  obtain ⟨k, rfl⟩ := Nat.exists_eq_add_one.mpr hw
  simp only [signed, Nat.add_sub_cancel, Nat.pow_succ] at *
  generalize 2 ^ k = m at *
  rcases Int.lt_or_le n 0 with neg | pos
  · have hmod : n % ((m * 2 : Nat) : Int) = n + (m * 2 : Nat) := by
      rw [← Int.add_emod_right, Int.emod_eq_of_lt] <;> omega
    rw [hmod, Nat.mod_eq_of_lt (by omega), if_neg (by omega)]
    omega
  · rw [Int.emod_eq_of_lt pos (by omega), Nat.mod_eq_of_lt (by omega), if_pos (by omega)]
    omega

/-- The integer that the magnitude of `x` rounds to, with the sign of `x`. -/
def roundedInt (mode u : Nat) (x : Frac) : Int :=
  let q := roundUnits mode u x.abs 0
  if x.isNeg then -(q : Int) else (q : Int)

section
variable {mode : Nat} (f u : Nat) (x : Frac) (hm : mode ≠ 1)
include hm

theorem Fmt.roundInt_wrap : (Fmt.roundInt f { mode := mode, wrap := true } u x : Int) =
    roundedInt mode u x % ((2 ^ Fmt.width f : Nat) : Int) := by
  simp only [Fmt.roundInt, if_neg hm, if_true]
  exact Int.toNat_of_nonneg (Int.emod_nonneg _ (Int.natCast_ne_zero.mpr (Nat.ne_of_gt (Nat.two_pow_pos _))))

theorem Fmt.decode_roundInt_saturate (hf : Fmt.isInt f = true) (hw : 0 < Fmt.width f) :
    Fmt.decode f (Fmt.roundInt f { mode := mode, wrap := false } u x) =
      .ofInt (max (-((2 ^ (Fmt.width f - 1) : Nat) : Int))
        (min (((2 ^ (Fmt.width f - 1) : Nat) : Int) - 1) (roundedInt mode u x))) := by
  have pos := Nat.two_pow_pos (Fmt.width f - 1)
  rw [Fmt.decode, if_pos hf]
  simp only [Fmt.roundInt, if_neg hm, Bool.false_eq_true, if_false]
  exact congrArg Val.ofInt (signed_wrap hw (Int.le_max_left ..) (Int.max_le.mpr ⟨by omega, Int.min_le_left ..⟩))

end

/-- Settles O26: the clamp's ends are those of the format's width. -/
theorem integerOverflow : Obligations.IntegerOverflow := by
  unfold Obligations.IntegerOverflow
  rintro f u mode x (rfl | rfl) hm
  · exact ⟨Fmt.decode_roundInt_saturate Fmt.int8 u x hm rfl (by decide), Fmt.roundInt_wrap Fmt.int8 u x hm⟩
  · exact ⟨Fmt.decode_roundInt_saturate Fmt.int4 u x hm rfl (by decide), Fmt.roundInt_wrap Fmt.int4 u x hm⟩

/-! ### Worked values (R88, R103, R106, R113, R136) -/

theorem Val.eqOrd_fin_iff (v : Val) (y : Frac) : v.eqOrd (.fin y) = true ↔ ∃ x, v = .fin x ∧ x.eq y = true := by
  cases v <;> simp [Val.eqOrd]

/-- Settles O23: each row of R88's table is a comparison of the decoded value, of either sign. -/
theorem e2M1Values : Obligations.E2M1Values := by
  unfold Obligations.E2M1Values
  have table : ∀ e ∈ [(0, 0), (1, 1), (2, 2), (3, 3), (4, 4), (5, 6), (6, 8), (7, 12)],
      (Fmt.decode Fmt.e2m1 e.1).eqOrd (.fin { num := (e.2 : Nat), den := 2 }) = true ∧
      (Fmt.decode Fmt.e2m1 (e.1 + 8)).eqOrd (.fin { num := -(e.2 : Nat), den := 2 }) = true := by decide
  intro p m h
  simpa only [Val.eqOrd_fin_iff] using table (p, m) h

/-- Every finite pattern of a narrow format but a negative zero survives its decoding and conversion (R87, R113). -/
theorem Fmt.encode_decode_narrow : ∀ f ∈ [Fmt.e2m1, Fmt.e3m2, Fmt.e2m3, Fmt.e4m3, Fmt.e5m2, Fmt.int8, Fmt.int4],
    ∀ p < 2 ^ Fmt.width f, (Fmt.decode f p).isFin = true → (Fmt.isInt f = true ∨ p ≠ 2 ^ (Fmt.width f - 1)) →
    Fmt.encode f {} 0 (Fmt.decode f p) = (p, false) := by
  decide +kernel

/-- Settles O27: the patterns of the narrow formats, then the chapters' worked values, are computed. -/
theorem workedNumbers : Obligations.WorkedNumbers := by
  unfold Obligations.WorkedNumbers
  exact ⟨Fmt.encode_decode_narrow, by decide +kernel, by decide +kernel, by decide +kernel, by decide +kernel,
    by decide +kernel⟩

end Sys2Proof.Machine
end

section
/-! SUPPORT. The Exact Sum Register's additions (chapter 04), and the statement on them. -/

namespace Sys2Proof.Machine

/-! ### Additions to the Exact Sum Register (R129, R135, R136) -/

/-- The significand ranges over the 240-bit two's complement integers (R129). -/
theorem Esr.int_bounds (e : Esr) : -(2 : Int) ^ 239 ≤ e.int ∧ e.int < (2 : Int) ^ 239 :=
  ⟨BitVec.le_toInt e.sig, BitVec.toInt_lt⟩

theorem esrTop_eq : esrTop = (2 : Int) ^ 239 := Int.natCast_pow 2 239

/-- A register whose significand is written with an integer in range holds that integer. -/
theorem Esr.int_of_range {v : Int} (lo : -(2 : Int) ^ 239 ≤ v) (hi : v < (2 : Int) ^ 239) (e : Esr) :
    ({ e with sig := BitVec.ofInt 240 v } : Esr).int = v :=
  BitVec.toInt_ofInt_eq_self (by decide) lo hi

theorem Esr.addUnits_inf {e : Esr} (h : e.isInf = true) (t : Int) : e.addUnits t = (e, false) := if_pos h

section
variable {e : Esr} {t : Int} (h : e.isInf = false)
include h

/-- A sum in range is the new significand (R135). -/
theorem Esr.addUnits_inRange (lo : -(2 : Int) ^ 239 ≤ e.int + t) (hi : e.int + t < (2 : Int) ^ 239) :
    e.addUnits t = ({ e with sig := BitVec.ofInt 240 (e.int + t) }, false) := by
  rw [← esrTop_eq] at lo hi
  rw [Esr.addUnits, if_neg (by simp [h]), if_neg (by omega), if_neg (by omega)]

/-- A sum above the range leaves +infinity (R135). -/
theorem Esr.addUnits_above (hi : (2 : Int) ^ 239 ≤ e.int + t) : e.addUnits t = ({ e with posInf := true }, true) := by
  rw [← esrTop_eq] at hi
  rw [Esr.addUnits, if_neg (by simp [h]), if_pos hi]

/-- A sum below the range leaves -infinity (R135). -/
theorem Esr.addUnits_below (lo : e.int + t < -(2 : Int) ^ 239) : e.addUnits t = ({ e with negInf := true }, true) := by
  rw [← esrTop_eq] at lo
  have top : (0 : Int) ≤ esrTop := Int.natCast_nonneg _
  rw [Esr.addUnits, if_neg (by simp [h]), if_neg (by omega), if_pos lo]

end

/-- While every running sum is in range, a list of additions adds up exactly (R136). -/
theorem Esr.foldl_addUnits {l : List Int} {e : Esr} (h : e.isInf = false)
    (range : ∀ k ≤ l.length, -(2 : Int) ^ 239 ≤ e.int + (l.take k).sum ∧ e.int + (l.take k).sum < (2 : Int) ^ 239) :
    l.foldl (fun x t => (x.addUnits t).1) e = { e with sig := BitVec.ofInt 240 (e.int + l.sum) } := by
  induction l generalizing e with
  | nil => simp [Esr.int]
  | cons t l ih =>
    obtain ⟨lo, hi⟩ : -(2 : Int) ^ 239 ≤ e.int + t ∧ e.int + t < (2 : Int) ^ 239 := by simpa using range 1 (by simp)
    have first : ({ e with sig := BitVec.ofInt 240 (e.int + t) } : Esr).int = e.int + t := Esr.int_of_range lo hi e
    have rest := ih (e := { e with sig := BitVec.ofInt 240 (e.int + t) }) h fun k hk => by
      simpa [first, Int.add_assoc] using range (k + 1) (by simpa using hk)
    rw [first, Int.add_assoc] at rest
    simpa only [List.foldl_cons, Esr.addUnits_inRange h lo hi, List.sum_cons] using rest

/-- A sum out of range freezes the significand and sets the infinity of the addend's sign (R135). -/
theorem Esr.addUnits_overflow {e : Esr} {t : Int} (h : e.isInf = false)
    (out : e.int + t < -(2 : Int) ^ 239 ∨ (2 : Int) ^ 239 ≤ e.int + t) :
    (e.addUnits t).2 = true ∧ (e.addUnits t).1.sig = e.sig ∧ (e.addUnits t).1.isInf = true ∧
      ((e.addUnits t).1.posInf = true ∧ e.posInf = false ↔ 0 < t) := by
  obtain ⟨lo, hi⟩ := e.int_bounds
  obtain ⟨noPos, -⟩ : e.posInf = false ∧ e.negInf = false := Bool.or_eq_false_iff.mp h
  rcases out with below | above
  · have neg : ¬ 0 < t := by omega
    simp [Esr.addUnits_below h below, Esr.isInf, noPos, neg]
  · have pos : 0 < t := by omega
    simp [Esr.addUnits_above h above, Esr.isInf, noPos, pos]

/-- Settles O28: induction on the list of additions, each running sum being in range; a sum outside sets its infinity. -/
theorem esrSumsExactly : Obligations.EsrSumsExactly := by
  unfold Obligations.EsrSumsExactly
  refine ⟨fun e l h range => ?_, fun e t => Esr.addUnits_overflow, fun e t h => Esr.addUnits_inf h t⟩
  obtain ⟨lo, hi⟩ := range l.length (Nat.le_refl _)
  rw [List.take_length] at lo hi
  rw [Esr.foldl_addUnits h range]
  exact ⟨rfl, Esr.int_of_range lo hi e⟩

end Sys2Proof.Machine
end

section
/-! SUPPORT. What one row of a plain operation does to its run (R213, R214, R238), and the statement on it. -/

namespace Sys2Proof.Machine

/-! ### A run in the table of runs -/

theorem Tab.get_of_find {α : Type} {t : Tab α} {k : Nat} {v d : α} (h : t.find k = some v) : t.get d k = v := by
  induction t with
  | nil => cases h
  | cons p t ih =>
    obtain ⟨k', w⟩ := p
    by_cases hk : k' = k
    · rw [Tab.find, if_pos hk] at h
      rw [Tab.get, if_pos hk, Option.some.inj h]
    · rw [Tab.find, if_neg hk] at h
      rw [Tab.get, if_neg hk, ih h]

/-- An entry put at a key that a filter passes over does not change what the filter leaves. -/
theorem Tab.filter_put {α : Type} {f : Nat × α → Bool} {k : Nat} (h : ∀ v, f (k, v) = false) (t : Tab α) (v : α) :
    (t.put k v).filter f = t.filter f := by
  have erased (t : Tab α) : (t.erase k).filter f = t.filter f := by
    induction t with
    | nil => rfl
    | cons p t ih =>
      obtain ⟨k', w⟩ := p
      by_cases hk : k' = k
      · subst hk; simp [Tab.erase, ih, h]
      · simp [Tab.erase, hk, List.filter_cons, ih]
  have inserted (t : Tab α) : (t.insert k v).filter f = t.filter f := by
    induction t with
    | nil => simp [Tab.insert, h]
    | cons p t ih =>
      by_cases hk : k < p.1
      · simp [Tab.insert, hk, List.filter_cons, h]
      · simp [Tab.insert, hk, List.filter_cons, ih]
  rw [Tab.put, inserted, erased]

/-- What a run that does not read run `n` sees of other runs does not depend on what run `n` is. -/
theorem Dev.runOverlay_put {r : Run} {n : Nat} (h : n ∉ r.reads) (d : Dev) (r' : Run) :
    ({ d with runs := d.runs.put n r' } : Dev).runOverlay r = d.runOverlay r := by
  have other : (d.runs.put n r').filter (fun p => r.reads.contains p.1 && p.2.state == .ended) =
      d.runs.filter fun p => r.reads.contains p.1 && p.2.state == .ended := Tab.filter_put (by simp [h]) ..
  simp only [Dev.runOverlay, Dev.chain, other]

/-! ### Draws and failed reads (R176, R381) -/

/-- A run's draws are recorded in its plan alone, and there change neither the module nor where its tensors lie. -/
theorem Dev.noteDraws_plan (d : Dev) (r : Run) (n : Nat) :
    ((d.noteDraws r).plan n).module = (d.plan n).module ∧ ((d.noteDraws r).plan n).tensors = (d.plan n).tensors := by
  unfold Dev.noteDraws
  split
  · exact ⟨rfl, rfl⟩
  · rw [Dev.plan_modPlan]
    split
    · next h => exact h ▸ ⟨rfl, rfl⟩
    · exact ⟨rfl, rfl⟩

theorem Dev.noteDraws_eq (d : Dev) (r : Run) : d.noteDraws r = { d with plans := (d.noteDraws r).plans } := by
  unfold Dev.noteDraws
  split <;> rfl

/-- Recording draws does not change which granules a run's reads meet. -/
theorem Dev.badReads_noteDraws (d : Dev) (r r' : Run) (ks : List Nat) : (d.noteDraws r').badReads r ks = d.badReads r ks := by
  obtain ⟨hm, ht⟩ := d.noteDraws_plan r' r.plan
  rw [Dev.noteDraws_eq] at hm ht ⊢
  unfold Dev.badReads
  simp only [hm, ht]
  rfl

/-- Nor does what becomes of a run whose results it does not read. -/
theorem Dev.badReads_put {r : Run} {n : Nat} (h : n ∉ r.reads) (d : Dev) (r' : Run) (ks : List Nat) :
    ({ d with runs := d.runs.put n r' } : Dev).badReads r ks = d.badReads r ks := by
  unfold Dev.badReads
  simp only [Dev.runOverlay_put h]
  rfl

theorem Dev.failChecks_of_clear {d : Dev} {run : Nat} {r : Run} {ks : List Nat} (h : d.badReads r ks = []) :
    d.failChecks run r ks = d := by
  simp [Dev.failChecks, h]

theorem Dev.badReads_nil (d : Dev) (r : Run) : d.badReads r [] = [] := by
  simp [Dev.badReads]

theorem Dev.readStall_clear {d : Dev} {run : Nat} {r : Run} {ks : List Nat} (late : d.lateExtents r ks = [])
    (bad : d.badReads r ks = []) : d.readStall run r ks = none := by
  simp [Dev.readStall, late, bad]

theorem Dev.readStall_late {d : Dev} {run : Nat} {r : Run} {ks : List Nat} (late : d.lateExtents r ks ≠ []) :
    d.readStall run r ks = some { d with runs := d.runs.put run { r with late := (d.lateExtents r ks).getLast? } } := by
  simp [Dev.readStall, late]

/-! ### One plain operation (R213, R238) -/

/-- An operation that may issue is the record of its index, with the opcode its row names. -/
theorem Dev.canIssue_some {d : Dev} {run op opcode : Nat} {o : OpRec} (h : d.canIssue run op opcode = some o) :
    (opsOf d run)[op]? = some o ∧ o.opcode = opcode := by
  unfold Dev.canIssue at h
  split at h
  · cases h
  next r found =>
  split at h
  · cases h
  dsimp only at h
  split at h
  · cases h
  next q hq =>
  split at h
  · next hc =>
    cases h
    simp only [Bool.and_eq_true, decide_eq_true_eq] at hc
    rw [opsOf, Dev.runOf, Tab.get_of_find found]
    exact ⟨hq, hc.1.1⟩
  · cases h

/-- The timing that a row gives: the operations of its region still in flight, and no order (R657). -/
def schedOf (op : Nat) (l : List Nat) : Sched := { overlap := l.map fun j => (op, j) }

/-- What the operations of a row of run `run` share. -/
def Dev.rowCtx (d : Dev) (run op : Nat) (l : List Nat) : StepCtx :=
  { ops := opsOf d run, closure := dependencyClosure (opsOf d run), sched := schedOf op l }

theorem Dev.rowCtx_inFlight (d : Dev) (run op : Nat) (l : List Nat) :
    (d.rowCtx run op l).inFlight op = overlapping d run op l := by
  simp [StepCtx.inFlight, Dev.rowCtx, schedOf, overlapping, List.filter_map, Function.comp_def]

theorem eraseDups_singleton (k : Nat) : [k].eraseDups = [k] := by
  simp [List.eraseDups_cons]

/-- A record whose dependences were skipped is skipped and done, and nothing has run. -/
theorem Dev.runOne_skipped {d : Dev} {run op : Nat} (o : OpRec) (l : List Nat) (skip : dependsOnSkipped d run op = true) :
    d.runOne (d.rowCtx run op l) [] { run := d.runOf run } op o = { run := ((d.runOf run).mark op).end op } :=
  if_pos skip

section
variable {d : Dev} {run op opcode : Nat} {o : OpRec} (l : List Nat) (may : d.canIssue run op opcode = some o)
  (plain : opcode < 0x0800)
include may plain

/-- A row of a plain operation runs that one record. -/
theorem Dev.runItems_row : d.runItems (d.rowCtx run op l) (sumNat o.lengths + 2) [] [(op, sumNat o.lengths)]
    { run := d.runOf run } = d.runOne (d.rowCtx run op l) [] { run := d.runOf run } op o := by
  obtain ⟨record, code⟩ := Dev.canIssue_some may
  have branch : o.isBranch = false := by simp [OpRec.isBranch, code]; omega
  have loop : o.isLoop = false := by simp [OpRec.isLoop, code]; omega
  simp [Dev.runItems, nextItem, Dev.rowCtx, schedOf, record, branch, loop]

/-- Any other plain record is evaluated. -/
theorem Dev.runOne_runs (skip : dependsOnSkipped d run op = false) :
    d.runOne (d.rowCtx run op l) [] { run := d.runOf run } op o =
      { run := d.applyOut (d.runOf run) op o (evalOp (d.plan (d.runOf run).plan) (d.envOf (d.runOf run)) o op
          (overlapping d run op l) (.failed 0)) none
        ran := [op] } := by
  obtain ⟨-, code⟩ := Dev.canIssue_some may
  have single : o.isCollective = false := by simp [OpRec.isCollective, code]; omega
  rw [dependsOnSkipped] at skip
  rw [Dev.runOne, if_neg (by simp [Dev.rowCtx, skip])]
  simp [single, Dev.rowCtx_inFlight]

/-- What the row leaves: the device that waits where its reads are held, else the run as the record left it, its draws
recorded and its reads checked (R176, R381, R448). -/
theorem Dev.runOp_row {x : Exec} (row : d.runOne (d.rowCtx run op l) [] { run := d.runOf run } op o = x) :
    d.runOp run op opcode (schedOf op l) = (d.readStall run (d.runOf run) x.ran.eraseDups).getD
      (((({ d with runs := d.runs.put run x.run } : Dev).noteDraws x.run).failChecks run (d.runOf run) x.ran.eraseDups).sendNested
        (d.runOf run) x.sent) := by
  have items := (Dev.runItems_row l may plain).trans row
  simp only [Dev.rowCtx, opsOf] at items
  simp only [Dev.runOp, may, items]
  cases d.readStall run (d.runOf run) x.ran.eraseDups <;> rfl

/-- A row whose operation is skipped marks it in its run, and reads nothing (R145, R214). -/
theorem Dev.runOp_skipped (skip : dependsOnSkipped d run op = true) : d.runOp run op opcode (schedOf op l) =
    ({ d with runs := d.runs.put run (((d.runOf run).mark op).end op) } : Dev).noteDraws (((d.runOf run).mark op).end op) := by
  rw [Dev.runOp_row l may plain (Dev.runOne_skipped o l skip), List.eraseDups_nil,
    Dev.readStall_clear rfl (d.badReads_nil _), Option.getD_none, Dev.failChecks_of_clear (Dev.badReads_nil ..)]
  rfl

/-- Where an extent is not yet readable the run notes the last one, and the operation waits (R448). -/
theorem Dev.runOp_late (skip : dependsOnSkipped d run op = false) (late : d.lateExtents (d.runOf run) [op] ≠ []) :
    d.runOp run op opcode (schedOf op l) =
      { d with runs := d.runs.put run { d.runOf run with late := (d.lateExtents (d.runOf run) [op]).getLast? } } := by
  rw [Dev.runOp_row l may plain (Dev.runOne_runs l may plain skip), eraseDups_singleton, Dev.readStall_late late]
  rfl

/-- Where its reads are clear and its run does not read itself, the operation's output is applied to its run (R176, R238). -/
theorem Dev.runOp_clear (skip : dependsOnSkipped d run op = false) (clear : ReadsClear d run op)
    (apart : run ∉ (d.runOf run).reads) :
    let r' := d.applyOut (d.runOf run) op o (evalOp (d.plan (d.runOf run).plan) (d.envOf (d.runOf run)) o op
      (overlapping d run op l) (.failed 0)) none
    d.runOp run op opcode (schedOf op l) = ({ d with runs := d.runs.put run r' } : Dev).noteDraws r' := by
  intro r'
  obtain ⟨bad, late⟩ := clear
  rw [Dev.runOp_row l may plain (Dev.runOne_runs l may plain skip), eraseDups_singleton, Dev.readStall_clear late bad,
    Option.getD_none, Dev.failChecks_of_clear (by rw [Dev.badReads_noteDraws, Dev.badReads_put apart, bad])]
  rfl

end

theorem Dev.runOp_idle {d : Dev} {run op opcode : Nat} (h : d.canIssue run op opcode = none) (sched : Sched) :
    d.runOp run op opcode sched = d := by
  rw [Dev.runOp, h]

/-! ### The rows (R213, R238) -/

/-- Each plain row names its opcode, which is neither a collective's nor a construct's, and runs that operation alone. -/
theorem exec_plainOp {i : Instr} {run op opcode : Nat} {l : List Nat} (h : plainOp i = some (run, op, opcode, l)) (s : State) :
    opcode < 0x0800 ∧ exec i s = .next (s.onDev fun d => d.runOp run op opcode (schedOf op l)) := by
  unfold plainOp at h
  split at h <;> cases h <;> exact ⟨by decide, rfl⟩

/-- What O30 states, of a run that does not read itself: one that a step starts takes a new number, and reads runs that
have ended by then (R215). -/
theorem plainOp_answers {i : Instr} {s : State} {run op opcode : Nat} {l : List Nat} (h : plainOp i = some (run, op, opcode, l))
    (apart : run ∉ (s.dev.runOf run).reads) :
    let r := s.dev.runOf run
    let becomes (r' : Run) : Dev := ({ s.dev with runs := s.dev.runs.put run r' } : Dev).noteDraws r'
    (∀ o, s.dev.canIssue run op opcode = some o → ReadsClear s.dev run op → dependsOnSkipped s.dev run op = false →
      AnswersDev i s (becomes (s.dev.applyOut r op o
        (evalOp (s.dev.plan r.plan) (s.dev.envOf r) o op (overlapping s.dev run op l) (.failed 0)) none))) ∧
    (∀ o, s.dev.canIssue run op opcode = some o → dependsOnSkipped s.dev run op = true →
      AnswersDev i s (becomes ((r.mark op).end op))) ∧
    (∀ o, s.dev.canIssue run op opcode = some o → dependsOnSkipped s.dev run op = false → s.dev.lateExtents r [op] ≠ [] →
      AnswersDev i s { s.dev with runs := s.dev.runs.put run { r with late := (s.dev.lateExtents r [op]).getLast? } }) ∧
    (s.dev.canIssue run op opcode = none → AnswersDev i s s.dev) := by
  obtain ⟨plain, e⟩ := exec_plainOp h s
  exact ⟨fun o may clear skip => answersDev_onDev e (Dev.runOp_clear l may plain skip clear apart),
    fun o may skip => answersDev_onDev e (Dev.runOp_skipped l may plain skip),
    fun o may skip late => answersDev_onDev e (Dev.runOp_late l may plain skip late),
    fun idle => answersDev_onDev e (Dev.runOp_idle idle _)⟩

/-! ### A run that reads itself -/

/-- A prefetch of tensor 0. -/
def prefetchZero : OpRec := { opcode := 0x0700, conv := 0, out := 0xFFFF, mask := 0xFFFF, words := [0, 0, 1], deps := [] }

/-- A run table that holds two runs of number 1: the one under way reads the other, which has ended and has written all of
the failed granule under tensor 0. -/
def selfReader : State :=
  { dev := {
      plans := [(0, { module := { tensors := [{ dims := [1], rank := 1 }], ops := [prefetchZero], steps := [⟨0, 1, 1, 0, 0⟩] }
                      tensors := [{ frames := [5] }] })]
      runs := [(1, { id := 1, reads := [1] }),
               (1, { id := 1, state := .ended, overlay := (List.range 128).map fun i => (5 * frameBytes + i, 0) })]
      badLines := [(granuleKey 5 0, { code := Code.eccUncorrectable })] } }

/-- The prefetch may issue, its reads are clear as the ended run covers the granule, and nothing before it was skipped. -/
theorem selfReader_clear : selfReader.dev.canIssue 1 0 0x0700 = some prefetchZero ∧ ReadsClear selfReader.dev 1 0 ∧
    dependsOnSkipped selfReader.dev 1 0 = false := by decide +kernel

/-- The command's outcome withholds run 1 at its ebb. -/
def withholdsRun : Host.Outcome State Fault Refusal → Bool
  | .next t => (t.dev.runOf 1).withhold.isSome
  | _ => false

/-- Written, the run takes the place of both entries, the granule is no longer covered, and the run is withheld (R381). -/
theorem selfReader_withheld : withholdsRun (exec (.mPrefetch 1 0) selfReader) = true := by decide +kernel

/-- Refutes O30: a row tests its reads again once its run is written. Where the table holds an older, ended run of the same
number and the run reads that number (which no hypothesis excludes), the bytes that covered a failed granule are gone by
then, and the run is withheld though its reads were clear. `plainOp_answers` has all the rest. -/
theorem not_operationsRun : ¬ Obligations.OperationsRun := by
  unfold Obligations.OperationsRun
  intro h
  obtain ⟨may, clear, skip⟩ := selfReader_clear
  obtain ⟨runs, -⟩ := h (.mPrefetch 1 0) selfReader 1 0 0x0700 [] rfl
  have withheld := selfReader_withheld
  rw [runs prefetchZero may clear skip] at withheld
  exact absurd withheld (by decide +kernel)

end Sys2Proof.Machine
end

section
/-! SUPPORT. The overflow field, division and shift of the integer lanes (chapter 06), and the statement on them. -/

namespace Sys2Proof.Machine

/-! ### The overflow field (R189) -/

theorem overflow32_inRange {n : Int} (lo : int32Min ≤ n) (hi : n ≤ int32Max) (wrap : Bool) : overflow32 wrap n = n := by
  simp [overflow32, lo, hi]

theorem wrap32_range (n : Int) : int32Min ≤ wrap32 n ∧ wrap32 n ≤ int32Max := by
  simp only [wrap32, int32Min, int32Max]
  omega

theorem wrap32_low (n : Int) : (n - wrap32 n) % 4294967296 = 0 := by
  simp only [wrap32]
  omega

/-- Outside the range the field keeps the low 32 bits, or goes to the nearer end. -/
theorem overflow32_outside {n : Int} (out : n < int32Min ∨ int32Max < n) (wrap : Bool) :
    overflow32 wrap n = if wrap then wrap32 n else if n < int32Min then int32Min else int32Max := by
  have outside : (decide (int32Min ≤ n) && decide (n ≤ int32Max)) = false := by simp; omega
  rw [overflow32, outside]
  simp only [Bool.false_eq_true, if_false, int32Min, int32Max] at out ⊢
  split <;> omega

/-- What O29 states of each of add, subtract and multiply, of the exact result `n`. -/
theorem overflow32_spec (wrap : Bool) (n : Int) :
    int32Min ≤ overflow32 wrap n ∧ overflow32 wrap n ≤ int32Max ∧
    (int32Min ≤ n → n ≤ int32Max → overflow32 wrap n = n) ∧ (wrap = true → (n - overflow32 wrap n) % 4294967296 = 0) ∧
    (wrap = false → n < int32Min → overflow32 wrap n = int32Min) ∧
    (wrap = false → int32Max < n → overflow32 wrap n = int32Max) := by
  have ends : int32Min < int32Max := by decide
  by_cases range : int32Min ≤ n ∧ n ≤ int32Max
  · obtain ⟨lo, hi⟩ := range
    rw [overflow32_inRange lo hi]
    exact ⟨lo, hi, fun _ _ => rfl, by simp, by omega, by omega⟩
  · rw [overflow32_outside (by omega)]
    cases wrap with
    | true => simpa [wrap32_range, wrap32_low] using fun lo hi => absurd ⟨lo, hi⟩ range
    | false =>
      simp only [Bool.false_eq_true, if_false, false_implies]
      split <;> simp <;> omega

/-! ### Division truncating toward zero (R189) -/

theorem quotTrunc_eq_tdiv (a b : Int) : quotTrunc a b = a.tdiv b := by
  cases a <;> cases b <;> simp [quotTrunc, Int.tdiv, Int.negSucc_lt_zero, Int.natAbs_negSucc, Int.not_lt.mpr]

theorem sub_mul_quotTrunc (a b : Int) : a - b * quotTrunc a b = a.tmod b := by
  rw [quotTrunc_eq_tdiv, Int.tmod_def]

/-- Only the least integer divided by -1 leaves the range: any other divisor but 1 at least halves the magnitude. -/
theorem tdiv_inRange {a b : Int} (lo : int32Min ≤ a) (hi : a ≤ int32Max) (nz : b ≠ 0) (fits : ¬ (a = int32Min ∧ b = -1)) :
    int32Min ≤ a.tdiv b ∧ a.tdiv b ≤ int32Max := by
  simp only [int32Min, int32Max] at *
  by_cases one : b = 1
  · simpa [one] using ⟨lo, hi⟩
  by_cases neg : b = -1
  · simp only [neg, Int.tdiv_neg, Int.tdiv_one]
    omega
  · have half : a.natAbs / b.natAbs ≤ a.natAbs / 2 := Nat.div_le_div_left (by omega) (by omega)
    have whole : (a.tdiv b).natAbs = a.natAbs / b.natAbs := Int.natAbs_tdiv a b
    omega

theorem tmod_zero_or_sign (a b : Int) : a.tmod b = 0 ∨ (a.tmod b < 0 ↔ a < 0) := by
  rcases Int.lt_or_le a 0 with h | h
  · have := Int.neg_tmod a b ▸ Int.tmod_nonneg b (a := -a) (by omega)
    omega
  · have := Int.tmod_nonneg b h
    omega

/-- Settles O29, through the field's one lemma for the three sums and products, and `Int.tdiv` and `Int.tmod` for division. -/
theorem integerLanes : Obligations.IntegerLanes := by
  intro wrap a b alo ahi blo bhi
  refine ⟨?_, ?_, ?_, ?_, ?_⟩
  · simp only [List.forall_mem_cons, List.not_mem_nil, false_implies, implies_true, and_true]
    exact ⟨⟨_, rfl, overflow32_spec wrap _⟩, ⟨_, rfl, overflow32_spec wrap _⟩, ⟨_, rfl, overflow32_spec wrap _⟩⟩
  · rintro rfl
    exact ⟨rfl, rfl⟩
  · intro nz fits
    obtain ⟨lo, hi⟩ := tdiv_inRange alo ahi nz fits
    exact ⟨a.tdiv b, a.tmod b, by simp [intFn, nz, quotTrunc_eq_tdiv, overflow32_inRange lo hi],
      by simp [intFn, nz, sub_mul_quotTrunc], (Int.mul_tdiv_add_tmod a b).symm,
      Int.natAbs_tmod a b ▸ Nat.mod_lt _ (by omega), tmod_zero_or_sign a b⟩
  · rintro rfl rfl
    cases wrap <;> exact ⟨rfl, rfl⟩
  · have shift : intFn 0x2A wrap a b = .ok (a / ((2 ^ (b % 32).toNat : Nat) : Int)) := rfl
    rw [shift, ← Int.fdiv_eq_ediv_of_nonneg a (Int.natCast_nonneg _), Int.natCast_pow]
    rfl

end Sys2Proof.Machine
end

section
/-! SUPPORT. What a construct does to its run and to the device (R206 to R208, R213), and the statement on it. -/

namespace Sys2Proof.Machine

/-! ### What the records of a step keep of their run -/

/-- Run `r'` is in run `r`'s state and step, and every record done in `r` is done in it. -/
structure Run.Kept (r r' : Run) : Prop where
  state : r'.state = r.state
  step : r'.step = r.step
  done : ∀ k ∈ r.done, k ∈ r'.done

section
variable {r r' r'' : Run}

theorem Run.Kept.refl (r : Run) : r.Kept r := ⟨rfl, rfl, fun _ h => h⟩

theorem Run.Kept.trans (h : r.Kept r') (h' : r'.Kept r'') : r.Kept r'' :=
  ⟨h'.state.trans h.state, h'.step.trans h.step, fun k hk => h'.done k (h.done k hk)⟩

/-- A run that agrees with a kept one in these three fields is kept. -/
theorem Run.Kept.of_eq (h : r.Kept r') (state : r''.state = r'.state) (step : r''.step = r'.step)
    (done : r''.done = r'.done) : r.Kept r'' :=
  ⟨state.trans h.state, step.trans h.step, done ▸ h.done⟩

/-- A code raised changes the run's codes alone. -/
theorem Run.raise_eq (r : Run) (op : Nat) (c : OpCode) : r.raise op c = { r with codes := (r.raise op c).codes } := by
  unfold Run.raise
  split <;> rfl

theorem Run.Kept.raise (h : r.Kept r') (op : Nat) (c : OpCode) : r.Kept (r'.raise op c) :=
  Run.raise_eq r' op c ▸ h.of_eq rfl rfl rfl

theorem Run.Kept.raiseAll (h : r.Kept r') (op : Nat) (cs : List OpCode) : r.Kept (r'.raiseAll op cs) := by
  unfold Run.raiseAll
  induction cs generalizing r' with
  | nil => exact h
  | cons c cs ih => exact ih (h.raise op c)

theorem Run.Kept.mark (h : r.Kept r') (op : Nat) : r.Kept (r'.mark op) := by
  unfold Run.mark
  split
  · exact h
  · exact h.of_eq rfl rfl rfl

theorem Run.Kept.markWhen (h : r.Kept r') (c : Bool) (op : Nat) : r.Kept (if c then r'.mark op else r') := by
  split
  · exact h.mark op
  · exact h

theorem Run.Kept.end (h : r.Kept r') (op : Nat) : r.Kept (r'.end op) := by
  refine ⟨h.state, h.step, fun k hk => ?_⟩
  by_cases same : k = op <;> simp [Run.end, same, h.done k hk]

theorem Run.mem_done_passOver {r : Run} {i n k : Nat} : k ∈ (r.passOver i n).done ↔
    (i ≤ k ∧ k < i + n) ∨ k ∈ r.done := by
  have inside : k ∈ (List.range n).map (i + ·) ↔ i ≤ k ∧ k < i + n := by
    simp only [List.mem_map, List.mem_range]
    exact ⟨by rintro ⟨a, ha, rfl⟩; omega, fun ⟨lo, hi⟩ => ⟨k - i, by omega, by omega⟩⟩
  by_cases h : i ≤ k ∧ k < i + n
  · exact iff_of_true (List.mem_append_left _ (inside.mpr h)) (.inl h)
  · simp only [Run.passOver, List.mem_append, List.mem_filter, Bool.not_eq_true', List.contains_eq_mem,
      decide_eq_false_iff_not, inside, h, false_or, not_false_eq_true, and_true]

theorem Run.Kept.passOver (h : r.Kept r') (i n : Nat) : r.Kept (r'.passOver i n) :=
  ⟨h.state, h.step, fun k hk => Run.mem_done_passOver.mpr (.inr (h.done k hk))⟩

theorem Run.kept_newTrip (r : Run) (i n : Nat) : r.Kept (r.newTrip i n) := (Run.Kept.refl r).of_eq rfl rfl rfl

theorem Run.passOver_kept_markAll (r : Run) (i n : Nat) : (r.passOver i n).Kept (r.markAll i n) := by
  unfold Run.markAll
  exact List.foldlRecOn _ _ (Run.Kept.refl _) fun _ h k _ => h.mark (i + k)

theorem Run.Kept.stopLoop (h : r.Kept r') (i n : Nat) : r.Kept (r'.stopLoop i n) := by
  unfold Run.stopLoop
  dsimp only
  split
  · exact h.passOver ..
  · exact (h.passOver ..).of_eq rfl rfl rfl

theorem Dev.writeOutput_kept (d : Dev) (r : Run) (k : Nat) (o : OpRec) (out : OpOut) (coll : Option CollResult)
    (rs : List Result) : r.Kept (d.writeOutput r k o out coll rs) := by
  unfold Dev.writeOutput
  dsimp only
  split
  · exact ((Run.Kept.refl r).raise ..).mark ..
  · split
    · rw [Run.raise_eq]
      exact (Run.Kept.refl r).of_eq rfl rfl rfl
    · exact (Run.Kept.refl r).of_eq rfl rfl rfl

theorem Dev.applyOut_kept (h : r.Kept r') (d : Dev) (k : Nat) (o : OpRec) (out : OpOut) (coll : Option CollResult) :
    r.Kept (d.applyOut r' k o out coll) := by
  have raised := h.raiseAll k out.codes
  unfold Dev.applyOut
  dsimp only
  refine Run.Kept.of_eq (Run.Kept.end (Run.Kept.markWhen ?_ out.skip k) k) rfl rfl rfl
  split
  · exact raised.trans (d.writeOutput_kept ..)
  · exact raised

end

/-! ### Records of a step, one after another (R206 to R208, R213) -/

section
variable (d : Dev) (c : StepCtx)

theorem Dev.runOne_kept (cross : List Nat) (x : Exec) (k : Nat) (o : OpRec) : x.run.Kept (d.runOne c cross x k o).run := by
  unfold Dev.runOne
  dsimp only
  split
  · exact ((Run.Kept.refl _).mark k).end k
  · split
    · refine Dev.applyOut_kept ?_ ..
      exact (Run.Kept.refl _).of_eq rfl rfl rfl
    · exact Dev.applyOut_kept (Run.Kept.refl _) ..

section
variable {body : Exec → Exec} (each : ∀ y : Exec, y.run.Kept (body y).run) {r : Run} {x : Exec} (h : r.Kept x.run) (n : Nat)
include each h

theorem trips_kept : r.Kept (trips body n x).run := by
  induction n generalizing x with
  | zero => exact h
  | succ n ih => exact ih (h.trans (each x))

theorem tripsWhile_kept (test : Exec → Bool) : r.Kept (tripsWhile body test n x).1.run := by
  induction n generalizing x with
  | zero => exact h
  | succ n ih =>
    rw [tripsWhile]
    split
    · exact ih (h.trans (each x))
    · exact h.trans (each x)

end

/-- A construct whose turn it is passes over all its records, and whatever its arms or trips do keeps that. -/
theorem Dev.runItems_construct {fuel : Nat} {cross : List Nat} {items : List (Nat × Nat)} {x : Exec} {i len : Nat} {o : OpRec}
    (inner : ∀ cross items (x : Exec), x.run.Kept (d.runItems c fuel cross items x).run)
    (turn : nextItem c.ops c.sched.order items = some (i, len)) (record : c.ops[i]? = some o)
    (construct : (o.isBranch || o.isLoop) = true) :
    (x.run.passOver i (len + 1)).Kept (d.runItems c (fuel + 1) cross items x).run := by
  simp only [Dev.runItems, turn, record, construct, Bool.not_true, Bool.false_eq_true, if_false]
  have passed : (x.run.passOver i (len + 1)).Kept
      ({ x with run := x.run.passOver i (len + 1), ran := x.ran ++ [i] } : Exec).run := .refl _
  have trip (cross : List Nat) (items : List (Nat × Nat)) (y : Exec) :
      y.run.Kept (d.runItems c fuel cross items { y with run := y.run.newTrip (i + 1) o.loop.2.2.2 }).run :=
    (y.run.kept_newTrip ..).trans (inner cross items { y with run := y.run.newTrip (i + 1) o.loop.2.2.2 })
  refine Run.Kept.trans ?_ (inner ..)
  split
  · exact x.run.passOver_kept_markAll ..
  · split
    · exact passed.trans (inner ..)
    · split
      · split
        · refine (Run.Kept.raise ?_ ..).stopLoop ..
          exact tripsWhile_kept (fun y => trip _ _ y) passed ..
        · exact tripsWhile_kept (fun y => trip _ _ y) passed ..
      · split
        · exact ((Run.Kept.refl _).raise ..).stopLoop ..
        · split
          · refine (Run.Kept.raise ?_ ..).stopLoop ..
            exact trips_kept (fun y => trip _ _ y) passed ..
          · exact trips_kept (fun y => trip _ _ y) passed ..

/-- The records of a step keep the run's state and step, and what is done. -/
theorem Dev.runItems_kept (fuel : Nat) (cross : List Nat) (items : List (Nat × Nat)) (x : Exec) :
    x.run.Kept (d.runItems c fuel cross items x).run := by
  induction fuel generalizing cross items x with
  | zero => exact .refl _
  | succ fuel ih =>
    cases turn : nextItem c.ops c.sched.order items with
    | none => simpa only [Dev.runItems, turn] using .refl _
    | some item =>
      obtain ⟨i, len⟩ := item
      cases record : c.ops[i]? with
      | none => simpa only [Dev.runItems, turn, record] using ih ..
      | some o =>
        by_cases construct : (o.isBranch || o.isLoop) = true
        · exact ((Run.Kept.refl _).passOver ..).trans (Dev.runItems_construct d c ih turn record construct)
        · simpa only [Dev.runItems, turn, record, (Bool.not_eq_true _).mp construct, Bool.not_false, if_true] using
            (Dev.runOne_kept ..).trans (ih ..)

end

/-! ### Reads of all records, and the table of runs -/

theorem Dev.badReads_cons (d : Dev) (r : Run) (k : Nat) (ks : List Nat) :
    d.badReads r (k :: ks) = d.badReads r [k] ++ d.badReads r ks := by
  unfold Dev.badReads
  split
  · rfl
  · simp only [List.flatMap_cons, List.flatMap_nil, List.append_nil]

theorem Dev.lateExtents_cons (d : Dev) (r : Run) (k : Nat) (ks : List Nat) :
    d.lateExtents r (k :: ks) = d.lateExtents r [k] ++ d.lateExtents r ks := by
  simp only [Dev.lateExtents, List.flatMap_cons, List.flatMap_nil, List.append_nil]

/-- An index past a step's records reads nothing. -/
theorem Dev.readsClear_past {d : Dev} {run k : Nat} (h : (opsOf d run).length ≤ k) : ReadsClear d run k := by
  have none : ((d.plan (d.runOf run).plan).module.stepOps (d.runOf run).step)[k]? = none := List.getElem?_eq_none h
  simp [ReadsClear, Dev.badReads, Dev.lateExtents, none]

/-- Where the reads of each record of a step are clear, so are those of any of them together. -/
theorem Dev.reads_clear {d : Dev} {run : Nat} (clear : ∀ k < (opsOf d run).length, ReadsClear d run k) (ks : List Nat) :
    d.badReads (d.runOf run) ks = [] ∧ d.lateExtents (d.runOf run) ks = [] := by
  induction ks with
  | nil => exact ⟨d.badReads_nil _, rfl⟩
  | cons k ks ih =>
    obtain ⟨bads, lates⟩ := ih
    obtain ⟨bad, late⟩ : ReadsClear d run k := (Nat.lt_or_ge k _).elim (clear k) Dev.readsClear_past
    rw [Dev.badReads_cons, Dev.lateExtents_cons, bad, late, bads, lates]
    exact ⟨rfl, rfl⟩

theorem Tab.get_put {α : Type} (d : α) (t : Tab α) (k m : Nat) (v : α) : (t.put k v).get d m =
    if m = k then v else t.get d m := by
  unfold Tab.put
  split
  · next h => exact h ▸ Tab.get_insert_self d m v _ (Tab.erase_keys m t)
  · next h => rw [Tab.get_insert_other d k m v h, Tab.get_erase_other d k m h]

theorem Dev.canIssue_running {d : Dev} {run op opcode : Nat} {o : OpRec} (h : d.canIssue run op opcode = some o) :
    (d.runOf run).state = .running := by
  unfold Dev.canIssue at h
  split at h
  · cases h
  next r found =>
  split at h
  · cases h
  next free =>
  rw [Dev.runOf, Tab.get_of_find found]
  exact Decidable.of_not_not fun other => free (by simp [other])

/-! ### What leaves the device (R39, R490) -/

/-- Device `e` is device `d` but for held egress, outputs, packets sent and the contexts' counts. -/
def Dev.SentFrom (d e : Dev) : Prop :=
  ∃ held out fabric ctxs, e = { d with held := held, out := out, fabric := fabric, ctxs := ctxs }

theorem Dev.SentFrom.refl (d : Dev) : d.SentFrom d := ⟨_, _, _, _, rfl⟩

theorem Dev.SentFrom.holdEgress {d e : Dev} (h : d.SentFrom e) (c dst : Nat) (m : CollMsg) :
    d.SentFrom (e.holdEgress c (.out (.fabric dst (.collective m)))) := by
  obtain ⟨held, out, fabric, ctxs, rfl⟩ := h
  unfold Dev.holdEgress
  split <;> exact ⟨_, _, _, _, rfl⟩

theorem Dev.SentFrom.sendInput {d e : Dev} (h : d.SentFrom e) (r : Run) (k : Nat) (o : OpRec) (v : TensorVal) (i : Nat) :
    d.SentFrom (e.sendInput r k o v i) := h.holdEgress ..

/-- The inputs of a construct's collectives change only what leaves. -/
theorem Dev.sendNested_sentFrom (d : Dev) (r : Run) (sent : List (Nat × TensorVal)) : d.SentFrom (d.sendNested r sent) := by
  refine Dev.each_keeps d.SentFrom (.refl d) fun e x h => ?_
  split
  · exact Dev.each_keeps d.SentFrom h fun e i h => h.sendInput ..
  · exact h

/-! ### The rows (R206 to R208) -/

/-- Each row of bounded control names its construct's opcode and runs it whole. -/
theorem exec_constructOp {i : Instr} {run op opcode : Nat} (h : constructOp i = some (run, op, opcode)) (s : State) :
    (opcode = 0x0900 ∨ opcode = 0x0901) ∧
      ∃ sched coll, exec i s = .next (s.onDev fun d => d.runOp run op opcode sched coll) := by
  unfold constructOp at h
  split at h <;> cases h
  · exact ⟨.inl rfl, _, _, rfl⟩
  · exact ⟨.inr rfl, _, _, rfl⟩

theorem nextItem_singleton (ops : List OpRec) (order : List Nat) (x : Nat × Nat) : nextItem ops order [x] = some x := by
  cases h : (order.filterMap fun k => [x].find? fun y => y.1 == k).find? (itemReady ops [x]) with
  | none => rw [nextItem, h]; rfl
  | some y =>
    obtain ⟨k, -, found⟩ := List.mem_filterMap.mp (List.mem_of_find?_eq_some h)
    rw [nextItem, h, List.mem_singleton.mp (List.mem_of_find?_eq_some found)]
    rfl

/-- The step's records and the timing as a row of run `run` sees them. -/
def Dev.stepCtx (d : Dev) (run : Nat) (sched : Sched) : StepCtx :=
  { ops := opsOf d run, closure := dependencyClosure (opsOf d run), sched := sched }

/-- What running record `op` and the records in it makes of run `run`. -/
def Dev.rowExec (d : Dev) (run op : Nat) (o : OpRec) (sched : Sched) (coll : List CollResult) : Exec :=
  d.runItems (d.stepCtx run sched) (sumNat o.lengths + 2) [] [(op, sumNat o.lengths)] { run := d.runOf run, coll := coll }

section
variable {d : Dev} {run op opcode : Nat} {o : OpRec} (may : d.canIssue run op opcode = some o) (sched : Sched)
  (coll : List CollResult)
include may

/-- A row that may issue waits where its reads are held; else it leaves its run as its records did, the draws recorded,
the reads checked and the inputs of its collectives sent. -/
theorem Dev.runOp_eq {x : Exec} (row : d.rowExec run op o sched coll = x) : d.runOp run op opcode sched coll =
    (d.readStall run (d.runOf run) x.ran.eraseDups).getD
      (((({ d with runs := d.runs.put run x.run } : Dev).noteDraws x.run).failChecks run (d.runOf run)
        x.ran.eraseDups).sendNested (d.runOf run) x.sent) := by
  subst row
  simp only [Dev.runOp, may, Dev.rowExec, Dev.stepCtx, opsOf]
  split <;> next stall => rw [stall]; rfl

/-- A construct passes over all its records. -/
theorem Dev.rowExec_construct (construct : opcode = 0x0900 ∨ opcode = 0x0901) :
    ((d.runOf run).passOver op (sumNat o.lengths + 1)).Kept (d.rowExec run op o sched coll).run := by
  obtain ⟨record, code⟩ := Dev.canIssue_some may
  exact Dev.runItems_construct d (d.stepCtx run sched) (x := { run := d.runOf run, coll := coll })
    (Dev.runItems_kept d _ _) (nextItem_singleton ..) record (by simpa [OpRec.isBranch, OpRec.isLoop, code] using construct)

/-- Where the step's reads are clear and its run does not read itself, no check fails: beside the run and the draws, a
construct changes only what leaves. -/
theorem Dev.runOp_sentFrom (clear : ∀ k < (opsOf d run).length, ReadsClear d run k) (apart : run ∉ (d.runOf run).reads) :
    let r' := (d.rowExec run op o sched coll).run
    (({ d with runs := d.runs.put run r' } : Dev).noteDraws r').SentFrom (d.runOp run op opcode sched coll) := by
  intro r'
  obtain ⟨bad, late⟩ := Dev.reads_clear clear (d.rowExec run op o sched coll).ran.eraseDups
  rw [Dev.runOp_eq may sched coll rfl, Dev.readStall_clear late bad, Option.getD_none,
    Dev.failChecks_of_clear (by rw [Dev.badReads_noteDraws, Dev.badReads_put apart, bad])]
  exact Dev.sendNested_sentFrom ..

end

/-- What O32 states, of a run that does not read itself: one that a step starts takes a new number, and reads runs that
have ended by then (R215). -/
theorem constructOp_answers {i : Instr} {s : State} {run op opcode : Nat} {o : OpRec}
    (h : constructOp i = some (run, op, opcode)) (may : s.dev.canIssue run op opcode = some o)
    (clear : ∀ k < (opsOf s.dev run).length, ReadsClear s.dev run k) (apart : run ∉ (s.dev.runOf run).reads) :
    Answers i s fun t => (∀ k, op ≤ k → k ≤ op + sumNat o.lengths → k ∈ (t.dev.runOf run).done) ∧
      (t.dev.runOf run).state = .running ∧ (t.dev.runOf run).step = (s.dev.runOf run).step ∧
      (∀ n, n ≠ run → t.dev.runOf n = s.dev.runOf n) ∧
      t.dev = { s.dev with runs := t.dev.runs, plans := t.dev.plans, held := t.dev.held, out := t.dev.out
                           fabric := t.dev.fabric, ctxs := t.dev.ctxs } := by
  obtain ⟨construct, sched, coll, e⟩ := exec_constructOp h s
  obtain ⟨held, out, fabric, ctxs, left⟩ := Dev.runOp_sentFrom may sched coll clear apart
  have kept := Dev.rowExec_construct may sched coll construct
  rw [Dev.noteDraws_eq] at left
  refine answers_onDev e ?_
  have runs (n : Nat) : (s.dev.runOp run op opcode sched coll).runOf n =
      if n = run then (s.dev.rowExec run op o sched coll).run else s.dev.runOf n := by
    rw [left]
    exact Tab.get_put ..
  refine ⟨fun k lo hi => ?_, ?_, ?_, fun n hn => (runs n).trans (if_neg hn), ?_⟩
  · rw [runs, if_pos rfl]
    exact kept.done k (Run.mem_done_passOver.mpr (.inl ⟨lo, by omega⟩))
  · rw [runs, if_pos rfl]
    exact kept.state.trans (Dev.canIssue_running may)
  · rw [runs, if_pos rfl]
    exact kept.step
  · rw [left]

/-! ### A run that reads itself -/

/-- A branch of one arm, which holds the record after it, on the immediate 0. -/
def oneArm : OpRec := { opcode := 0x0900, conv := 0, out := 0xFFFF, mask := 0xFFFF, words := [0x30000, 0, 0, 1], deps := [] }

/-- `selfReader` with its prefetch in a branch, and an extent of its context whose write waits at the sluice's gate. -/
def selfReaderBranch : State :=
  { dev := { selfReader.dev with
      plans := [(0, { module := { tensors := [{ dims := [1], rank := 1 }], ops := [oneArm, prefetchZero]
                                  steps := [⟨0, 2, 1, 0, 0⟩] }
                      tensors := [{ frames := [5] }] })]
      extents := [(9, { state := .settling, gate := some 0 })] } }

/-- The branch may issue, and the reads of both records are clear as the ended run covers the granule. -/
theorem selfReaderBranch_clear : selfReaderBranch.dev.canIssue 1 0 0x0900 = some oneArm ∧
    ∀ k < (opsOf selfReaderBranch.dev 1).length, ReadsClear selfReaderBranch.dev 1 k := by decide +kernel

/-- The command's outcome has other extents than the state. -/
def movesExtents (s : State) : Host.Outcome State Fault Refusal → Bool
  | .next t => t.dev.extents != s.dev.extents
  | _ => false

/-- Written, the run takes the place of both entries, the granule is no longer covered, its check fails, and the
settlement that waited is discarded (R40, R381). -/
theorem selfReaderBranch_moves : movesExtents selfReaderBranch (exec (.cBranch 1 ⟨0, {}⟩) selfReaderBranch) = true := by
  decide +kernel

/-- Refutes O32: a construct tests its reads again once its run is written. Where the table holds an older, ended run of
the same number and the run reads that number (which no hypothesis excludes), the bytes that covered a failed granule
are gone by then, and the failed check changes more than the statement lists: here an extent that was settling.
`constructOp_answers` has all the rest. -/
theorem not_constructsRun : ¬ Obligations.ConstructsRun := by
  unfold Obligations.ConstructsRun
  intro h
  obtain ⟨may, clear⟩ := selfReaderBranch_clear
  obtain ⟨t, next, -, -, -, -, beside⟩ := h (.cBranch 1 ⟨0, {}⟩) selfReaderBranch 1 0 0x0900 oneArm rfl may clear
  have extents : t.dev.extents = selfReaderBranch.dev.extents := by rw [beside]
  have moved := selfReaderBranch_moves
  simp [next, movesExtents, extents] at moved

end Sys2Proof.Machine
end

section
/-! SUPPORT. What layout, gather, scale and tier operations and failed collectives give (R243 to R252), and the statement
on them. -/

namespace Sys2Proof.Machine

/-! ### Codes an operation collects (R194) -/

/-- A code added stands among the codes, and drops none. -/
theorem mem_codes_addCode {l : List OpCode} {c : OpCode} {k : Nat} :
    k ∈ (addCode l c).map OpCode.code ↔ k ∈ l.map OpCode.code ∨ k = c.code := by
  unfold addCode
  split
  · simp
  · next o found =>
    have same : o.code = c.code := by simpa using List.find?_some found
    have there : c.code ∈ l.map OpCode.code := same ▸ List.mem_map_of_mem (List.mem_of_find?_eq_some found)
    have codes : (l.map fun x => if x.code == c.code then c else x).map OpCode.code = l.map OpCode.code := by
      rw [List.map_map]
      refine List.map_congr_left fun x _ => ?_
      by_cases h : x.code = c.code <;> simp [h]
    have either : k ∈ l.map OpCode.code ↔ k ∈ l.map OpCode.code ∨ k = c.code :=
      ⟨.inl, fun h => h.elim id (· ▸ there)⟩
    split
    · rwa [codes]
    · exact either

/-- The codes with the one an element raises, if it does. -/
def noteCode (l : List OpCode) (c : Option OpCode) : List OpCode :=
  match c with
  | some k => addCode l k
  | none => l

theorem mem_codes_noteCode {l : List OpCode} {k : Nat} (h : k ∈ l.map OpCode.code) (c : Option OpCode) :
    k ∈ (noteCode l c).map OpCode.code := by
  cases c with
  | none => exact h
  | some c => exact mem_codes_addCode.mpr (.inl h)

/-- What one element of a list brings about, and every element keeps, holds after folding over the list. -/
theorem foldl_attains {α β : Type} {P : β → Prop} {f : β → α → β} (keeps : ∀ b a, P b → P (f b a)) {l : List α} {a : α}
    (mem : a ∈ l) (sets : ∀ b, P (f b a)) (b : β) : P (l.foldl f b) := by
  obtain ⟨s, t, rfl⟩ := List.append_of_mem mem
  rw [List.foldl_append, List.foldl_cons]
  exact List.foldlRecOn t f (sets _) fun b h a _ => keeps b a h

/-! ### g.gather, one output element at a time (R243) -/

/-- The source position along the axis that output element `i` names, or the cause of its lane fault. -/
def gatherIndex (e : OpEnv) (o : OpRec) (i : Nat) : Except Nat Nat :=
  ((e.tensor (o.tensorAt 5)).exact.map fun v => indexAt v ((e.tensor (o.tensorAt 4)).dims.getD (o.f 3 0 3) 1)).getD
    ((unravel (e.decl o.out).dims i).getD (o.f 3 0 3) 0) (.error 3)

/-- The value of output element `i`, and its lane fault. -/
def gatherCell (e : OpEnv) (o : OpRec) (i : Nat) : Val × Option OpCode :=
  let x := e.tensor (o.tensorAt 4)
  match gatherIndex e o i with
  | .ok k => (x.exact.getD (ravel x.dims ((unravel (e.decl o.out).dims i).set (o.f 3 0 3) k)) .zero, none)
  | .error c => (.zero, some { code := Code.laneFault, index := some i, cause := some c })

section
variable {e : OpEnv} {o : OpRec} {i : Nat}

/-- With valid scales a gather gives its cells' values and the lane faults among them. -/
theorem evalGather_valid (valid : e.scalesValid [o.tensorAt 4, o.tensorAt 5] = true) :
    let cells := (List.range (countOf (e.decl o.out).dims)).map (gatherCell e o)
    evalGather e o = { results := some (cells.map fun c => { val := c.1 })
                       codes := cells.foldl (fun l c => noteCode l c.2) [] } := by
  rw [evalGather, valid]
  rfl

theorem evalGather_results (valid : e.scalesValid [o.tensorAt 4, o.tensorAt 5] = true) :
    ∃ rs, (evalGather e o).results = some rs ∧
      ∀ i < countOf (e.decl o.out).dims, (rs.getD i { val := .zero }).val = (gatherCell e o i).1 := by
  rw [evalGather_valid valid]
  exact ⟨_, rfl, fun i hi => by simp [List.getD, hi]⟩

/-- Where the index vector has an element, it alone decides. -/
theorem gatherIndex_of_getElem? {v : Val}
    (h : (e.tensor (o.tensorAt 5)).exact[(unravel (e.decl o.out).dims i).getD (o.f 3 0 3) 0]? = some v) :
    gatherIndex e o i = indexAt v ((e.tensor (o.tensorAt 4)).dims.getD (o.f 3 0 3) 1) := by
  rw [gatherIndex, List.getD_eq_getElem?_getD, List.getElem?_map, h]
  rfl

theorem gatherCell_ok {n : Nat} (h : gatherIndex e o i = .ok n) :
    gatherCell e o i = ((e.tensor (o.tensorAt 4)).exact.getD (ravel (e.tensor (o.tensorAt 4)).dims
      ((unravel (e.decl o.out).dims i).set (o.f 3 0 3) n)) .zero, none) := by
  rw [gatherCell, h]

theorem gatherCell_error {n : Nat} (h : gatherIndex e o i = .error n) :
    gatherCell e o i = (.zero, some { code := Code.laneFault, index := some i, cause := some n }) := by
  rw [gatherCell, h]

/-- A lane fault of any output element stands among the operation's codes. -/
theorem evalGather_laneFault (valid : e.scalesValid [o.tensorAt 4, o.tensorAt 5] = true)
    (hi : i < countOf (e.decl o.out).dims) {n : Nat} (h : gatherIndex e o i = .error n) :
    ∃ y ∈ (evalGather e o).codes, y.code = Code.laneFault := by
  rw [evalGather_valid valid, ← List.mem_map]
  refine foldl_attains (P := fun l => Code.laneFault ∈ l.map OpCode.code) (fun _ _ had => mem_codes_noteCode had _)
    (List.mem_map_of_mem (List.mem_range.mpr hi)) (fun l => ?_) []
  rw [gatherCell_error h]
  exact mem_codes_addCode.mpr (.inr rfl)

/-! ### Layout and conversion (R245 to R247) -/

/-- t.reshape takes the elements in linear order. -/
theorem evalLayout_reshape (reshape : o.opcode = 0x0400) (valid : e.scalesValid [o.tensorAt 3] = true) :
    (evalLayout e o).results = some ((List.range (countOf (e.decl o.out).dims)).map fun i =>
      { val := (e.tensor (o.tensorAt 3)).exact.getD i .zero }) := by
  simp [evalLayout, valid, layoutSource, reshape]

theorem evalRequant_valid (valid : e.scalesValid [o.tensorAt 3] = true) :
    (evalRequant e o).results = some ((e.tensor (o.tensorAt 3)).exact.map fun v => { val := v }) := by
  simp [evalRequant, valid]

/-! ### Failed collectives (R252) -/

/-- An operation that gives no result and whose dependents are skipped. -/
def OpOut.Fails (x : OpOut) : Prop := x.results = none ∧ x.skip = true

theorem OpOut.scaleInvalid_fails : OpOut.scaleInvalid.Fails := ⟨rfl, rfl⟩

theorem OpOut.collFail_fails (n : Nat) (a : Option Nat) : (OpOut.collFail n a).Fails := ⟨rfl, rfl⟩

/-- A failed collective fails, whether or not its input's scale is valid. -/
theorem OpOut.ite_fails {p : Prop} [Decidable p] (n : Nat) (a : Option Nat) :
    (if p then OpOut.scaleInvalid else OpOut.collFail n a).Fails := by
  split
  · exact OpOut.scaleInvalid_fails
  · exact OpOut.collFail_fails n a

theorem OpRec.isCollective_cases (h : o.isCollective = true) :
    o.opcode = 0x0800 ∨ o.opcode = 0x0801 ∨ o.opcode = 0x0802 ∨ o.opcode = 0x0803 ∨ o.opcode = 0x0804 := by
  simp only [OpRec.isCollective, Bool.and_eq_true, decide_eq_true_eq] at h
  omega

end

/-! ### Which meaning an opcode has (R238) -/

section
variable {p : Plan} {e : OpEnv} {o : OpRec} {k : Nat} {l : List Nat} {c : CollResult}
  (writes : e.outputValid o.writes = true)
include writes

theorem evalOp_gather (h : o.opcode = 0x0300) : evalOp p e o k l c = evalGather e o := by
  simp [evalOp, writes, h]

theorem evalOp_reshape (h : o.opcode = 0x0400) : evalOp p e o k l c = evalLayout e o := by
  simp [evalOp, writes, h]

theorem evalOp_requant (h : o.opcode = 0x0500 ∨ o.opcode = 0x0601) : evalOp p e o k l c = evalRequant e o := by
  obtain h | h := h <;> simp [evalOp, writes, h]

theorem evalOp_getscale (h : o.opcode = 0x0502) : evalOp p e o k l c = evalGetscale e o := by
  simp [evalOp, writes, h]

theorem evalOp_intent (h : o.opcode = 0x0700 ∨ o.opcode = 0x0701) : evalOp p e o k l c = evalIntent e o := by
  obtain h | h := h <;> simp [evalOp, writes, h]

/-- A collective that failed, on the fabric or before, gives no result and is skipped. -/
theorem evalOp_failed (n : Nat) (a : Option Nat) (h : o.isCollective = true) :
    (evalOp p e o k l (.failed n a)).Fails := by
  obtain h | h | h | h | h := OpRec.isCollective_cases h
  · simpa [evalOp, writes, h, checkDigest, evalFReduce] using OpOut.ite_fails n a
  · simpa [evalOp, writes, h, checkDigest, evalFGather] using OpOut.ite_fails n a
  · simpa [evalOp, writes, h, checkDigest, evalFAlltoall] using OpOut.ite_fails n a
  · simpa [evalOp, writes, h, checkDigest, evalFSend] using OpOut.ite_fails n a
  · simpa [evalOp, writes, h, checkDigest, evalFRecv] using OpOut.collFail_fails n a

end

/-- Settles O33: the opcode selects the operation's meaning, and each meaning is read element by element. -/
theorem operationResults : Obligations.OperationResults := by
  unfold Obligations.OperationResults
  intro p e o k l c writes
  refine ⟨fun reshape valid => ?_, fun requant valid => ?_, fun gather valid => ?_, evalOp_intent writes,
    evalOp_getscale writes, fun n a coll failed => failed ▸ evalOp_failed writes n a coll⟩
  · rw [evalOp_reshape writes reshape, evalLayout_reshape reshape valid]
    refine ⟨_, rfl, by rw [List.length_map, List.length_range], fun i hi => ?_⟩
    rw [List.getD_eq_getElem?_getD, List.getElem?_eq_getElem hi, Option.getD_some, List.getElem_map, List.getElem_range]
  · rw [evalOp_requant writes requant, evalRequant_valid valid]
  · rw [evalOp_gather writes gather]
    obtain ⟨rs, results, value⟩ := evalGather_results valid
    refine ⟨rs, results, fun i hi => ?_⟩
    intro pos x axis v hv
    have index := gatherIndex_of_getElem? hv
    refine ⟨fun n inside => ?_, fun n outside => ⟨?_, ?_⟩⟩
    · rw [value i hi, gatherCell_ok (index.trans inside)]
    · rw [value i hi, gatherCell_error (index.trans outside)]
    · exact evalGather_laneFault valid hi (index.trans outside)

end Sys2Proof.Machine
end

section
/-! SUPPORT. What ending one command changes (R315, R353, R354, R356): one lemma for each operation of an ending, and
the whole ending assembled from them. -/

namespace Sys2Proof.Machine

/-- A table mapped entry by entry reads as the map relates its entries. -/
theorem Tab.get_map_related {α : Type} {R : α → α → Prop} {a : α} {g : Nat × α → Nat × α} (default : R a a)
    (key : ∀ p, (g p).1 = p.1) (value : ∀ p, R p.2 (g p).2) (t : Tab α) (k : Nat) :
    R (Tab.get a t k) (Tab.get a (t.map g) k) := by
  induction t with
  | nil => exact default
  | cons p t ih =>
    rw [List.map_cons]
    unfold Tab.get
    rw [key p]
    split
    · exact value p
    · exact ih

/-! ### Endings compose -/

theorem EndsOnly.refl {q : Nat} {f : Option Nat} (d : Dev) : EndsOnly q f d d where
  rest := rfl
  queues _ _ := ⟨rfl, rfl⟩
  runs := rfl
  fences _ _ := rfl
  ctxs n := ⟨(d.ctx n).stale, rfl⟩
  fns n := ⟨(d.fn n).pendingBits, rfl⟩

theorem EndsOnly.trans {q : Nat} {f : Option Nat} {d e g : Dev} (h : EndsOnly q f d e) (k : EndsOnly q f e g) :
    EndsOnly q f d g where
  rest := k.rest.trans (congrArg (fun x : Dev => { x with fns := g.fns, queues := g.queues, ctxs := g.ctxs, fences := g.fences
                                                          errors := g.errors, out := g.out, runCmds := g.runCmds }) h.rest)
  queues n other := by
    obtain ⟨same, waits⟩ := h.queues n other
    obtain ⟨same', waits'⟩ := k.queues n other
    exact ⟨same'.trans (congrArg (fun x : Queue => { x with fetched := (g.queue n).fetched }) same), waits'.trans waits⟩
  runs := k.runs.trans h.runs
  fences n other := (k.fences n other).trans (h.fences n other)
  ctxs n := by
    obtain ⟨i, same⟩ := h.ctxs n
    obtain ⟨j, same'⟩ := k.ctxs n
    exact ⟨j, by rw [same', same]⟩
  fns n := by
    obtain ⟨l, same⟩ := h.fns n
    obtain ⟨m, same'⟩ := k.fns n
    exact ⟨m, by rw [same', same]⟩

theorem EndsOnly.each {α : Type} {q : Nat} {f : Option Nat} {g : Dev → α → Dev} {l : List α}
    (h : ∀ a ∈ l, ∀ d, EndsOnly q f d (g d a)) (d : Dev) : EndsOnly q f d (d.each l g) := by
  induction l generalizing d with
  | nil => exact .refl d
  | cons a l ih => exact (h a (List.mem_cons_self ..) d).trans (ih (fun b hb => h b (List.mem_cons_of_mem _ hb)) _)

section
variable {q : Nat} {f : Option Nat} {d e : Dev}

/-- What an ending leaves alone reads as before. -/
theorem EndsOnly.plans_eq (h : EndsOnly q f d e) : e.plans = d.plans := by rw [h.rest]
theorem EndsOnly.tiles_eq (h : EndsOnly q f d e) : e.tiles = d.tiles := by rw [h.rest]
theorem EndsOnly.tile_eq (h : EndsOnly q f d e) (n : Nat) : e.tile n = d.tile n := by
  rw [Dev.tile, h.tiles_eq, Dev.tile]
theorem EndsOnly.drains_eq (h : EndsOnly q f d e) : e.drains = d.drains := by rw [h.rest]
theorem EndsOnly.mem_eq (h : EndsOnly q f d e) : e.mem = d.mem := by rw [h.rest]

end

/-! ### Outputs, the log and the ending queue -/

section
variable {q : Nat} {f : Option Nat} (d : Dev)

/-- Outputs and the error state lie outside every table of an ending. -/
theorem EndsOnly.logged (x : Errors) (o : List Out) : EndsOnly q f d { d with errors := x, out := o } :=
  { EndsOnly.refl (q := q) (f := f) d with rest := rfl }

theorem Dev.logEvent_endsOnly (kind code die ctx queue step op fence detail : Nat) :
    EndsOnly q f d (d.logEvent kind code die ctx queue step op fence detail) := by
  obtain ⟨x, o, h⟩ := Dev.logEvent_eq d kind code die ctx queue step op fence detail
  exact h ▸ .logged d x o

theorem Dev.emit_endsOnly (o : Out) : EndsOnly q f d (d.emit o) := .logged d d.errors _

theorem Dev.hostWrite_endsOnly (fn addr : Nat) (ws : List W32) : EndsOnly q f d (d.hostWrite fn addr ws) := by
  unfold Dev.hostWrite
  split
  · exact .each (fun _ _ d => d.emit_endsOnly _) d
  · exact .refl d

theorem Dev.msix_endsOnly (fn v : Nat) : EndsOnly q f d (d.msix fn v) := by
  unfold Dev.msix
  split
  · exact .refl d
  split
  · exact d.emit_endsOnly _
  · refine { EndsOnly.refl (q := q) (f := f) d with rest := rfl, fns := fun n => ?_ }
    rw [Dev.fn_modFn]
    split
    · next h =>
      subst h
      split
      · exact ⟨_, rfl⟩
      · exact ⟨_, rfl⟩
    · exact ⟨_, rfl⟩

theorem Dev.modQueue_endsOnly (g : Queue → Queue) : EndsOnly q f d (d.modQueue q g) := by
  refine { EndsOnly.refl (q := q) (f := f) d with rest := rfl, queues := fun n other => ?_ }
  rw [Dev.queue_modQueue, if_neg other]
  exact ⟨rfl, rfl⟩

theorem Dev.noteLeaps_endsOnly (l : List (Nat × Nat)) : EndsOnly q f d (d.noteLeaps l) := by
  refine { EndsOnly.refl (q := q) (f := f) d with rest := rfl, runs := ?_ }
  simp only [Dev.noteLeaps, List.map_map]
  refine List.map_congr_left fun r _ => ?_
  simp only [Function.comp]
  split <;> rfl

/-! ### The fence (R352 to R356) -/

theorem Dev.modFence_endsOnly {n : Nat} (h : f = some n) (g : Fence → Fence) : EndsOnly q f d (d.modFence n g) := by
  refine { EndsOnly.refl (q := q) (f := f) d with rest := rfl, fences := fun m other => ?_ }
  rw [Dev.fence_modFence, if_neg fun e => other (h.trans (congrArg some e.symm))]

theorem Dev.countStale_endsOnly (n : Nat) : EndsOnly q f d (d.countStale n) := by
  unfold Dev.countStale
  split
  · exact .refl d
  · refine { EndsOnly.refl (q := q) (f := f) d with rest := rfl, ctxs := fun m => ?_ }
    rw [Dev.ctx_modCtx]
    split
    · next h => exact h ▸ ⟨_, rfl⟩
    · exact ⟨_, rfl⟩

/-- Two queues agree but for the evaluated waits of the commands fetched. -/
def Queue.SameButWaits (x y : Queue) : Prop :=
  y = { x with fetched := y.fetched } ∧ y.fetched.map Cmd.noWaits = x.fetched.map Cmd.noWaits

theorem Dev.evalWaits_noWaits (c : Cmd) : (d.evalWaits c).noWaits = c.noWaits := by
  unfold Dev.evalWaits
  split <;> rfl

theorem Dev.evalHeads_endsOnly : EndsOnly q f d d.evalHeads := by
  refine { EndsOnly.refl (q := q) (f := f) d with rest := rfl, queues := fun n _ => ?_ }
  refine Tab.get_map_related (R := Queue.SameButWaits) ⟨rfl, rfl⟩ (fun p => ?_) (fun p => ?_) d.queues n
  · split <;> rfl
  · split
    · next c cs h => exact ⟨rfl, by rw [h, List.map_cons, List.map_cons, d.evalWaits_noWaits]⟩
    · exact ⟨rfl, rfl⟩

theorem Dev.changeFence_endsOnly {n : Nat} (h : f = some n) (g : Fence → Fence) : EndsOnly q f d (d.changeFence n g) :=
  (d.evalHeads_endsOnly.trans (Dev.modFence_endsOnly _ h g)).trans (Dev.evalHeads_endsOnly _)

theorem Dev.breakFence_endsOnly {n : Nat} (h : f = some n) (b : FenceBreak) (ctx queue : Nat) :
    EndsOnly q f d (d.breakFence n b ctx queue) := by
  unfold Dev.breakFence
  split
  · exact .refl d
  · extract_lets d1 d2
    have broken : EndsOnly q f d d2 := (d.changeFence_endsOnly h _).trans (d1.logEvent_endsOnly ..)
    split
    · exact broken.trans (d2.logEvent_endsOnly ..)
    · exact broken

theorem Dev.signalFence_endsOnly {n : Nat} (h : f = some n) (s : W32) (ctx queue : Nat) :
    EndsOnly q f d (d.signalFence n s ctx queue).1 := by
  unfold Dev.signalFence
  dsimp only
  split
  case h_1 =>
    split
    · exact d.changeFence_endsOnly h _
    · exact .refl d
  case h_2 => exact d.changeFence_endsOnly h _
  case h_3 =>
    dsimp only
    exact d.breakFence_endsOnly h ..
  case h_4 => exact d.countStale_endsOnly n

theorem Dev.applyFenceOp_endsOnly (broken : List Nat) {o : FenceOp} (h : f = some o.slot) :
    EndsOnly q f d (d.applyFenceOp broken o).1 := by
  unfold Dev.applyFenceOp
  split
  · exact d.breakFence_endsOnly h ..
  split
  · exact d.countStale_endsOnly _
  · exact d.signalFence_endsOnly h ..

theorem Dev.writeRecord_endsOnly {n : Nat} (h : f = some n) : EndsOnly q f d (d.writeRecord n) := by
  unfold Dev.writeRecord
  split
  · exact .refl d
  dsimp only
  split
  · exact .refl d
  · exact (d.modFence_endsOnly h _).trans (Dev.hostWrite_endsOnly ..)

/-! ### The completion packet (R315 to R318) -/

theorem Dev.logCodes_endsOnly (n : Nat) (c : Completion) : EndsOnly q f d (d.logCodes n c) :=
  .each (fun _ _ d => d.logEvent_endsOnly ..) d

theorem Dev.writeCompletion_endsOnly (c : Completion) : EndsOnly q f d (d.writeCompletion q c) :=
  ((EndsOnly.each (fun _ _ d => d.hostWrite_endsOnly ..) d).trans (Dev.hostWrite_endsOnly ..)).trans (Dev.modQueue_endsOnly ..)

theorem Dev.postCompletion_endsOnly (c : Completion) : EndsOnly q f d (d.postCompletion q c).1 := by
  unfold Dev.postCompletion
  dsimp only
  split
  · exact .refl d
  split
  · exact d.writeCompletion_endsOnly c
  · exact d.modQueue_endsOnly _

end

/-! ### One ending (R354, R364) -/

theorem mem_insertOp {o p : FenceOp} {l : List FenceOp} : o ∈ insertOp p l ↔ o = p ∨ o ∈ l := by
  induction l with
  | nil => simp [insertOp]
  | cons a l ih =>
    unfold insertOp
    split
    · simp
    · simp only [List.mem_cons, ih]
      exact or_left_comm

theorem mem_of_mem_sortOps {o : FenceOp} {l : List FenceOp} (h : o ∈ sortOps l) : o ∈ l := by
  refine List.foldlRecOn l _ (motive := fun acc => o ∈ acc → o ∈ l) (fun h => absurd h List.not_mem_nil)
    (fun acc ih p hp h => ?_) h
  obtain rfl | h := mem_insertOp.mp h
  · exact hp
  · exact ih h

/-- Changes of one fence, in whatever order they apply, change no other, and only that fence's record is due. -/
theorem Dev.applyFenceOps_endsOnly {q : Nat} {f : Option Nat} {ops : List FenceOp} (h : ∀ o ∈ ops, f = some o.slot)
    (d : Dev) : EndsOnly q f d (d.applyFenceOps ops).1 ∧ ∀ n ∈ (d.applyFenceOps ops).2.2, f = some n := by
  have sorted : ∀ o ∈ sortOps ops, f = some o.slot := fun o ho => h o (mem_of_mem_sortOps ho)
  constructor
  · refine List.foldlRecOn (sortOps ops) _ (motive := fun acc : Dev × List (Nat × Nat) => EndsOnly q f d acc.1) (.refl d)
      fun acc ih o ho => ?_
    exact ih.trans (Dev.applyFenceOp_endsOnly _ _ (sorted o ho))
  · intro n hn
    obtain ⟨o, ho, rfl⟩ := List.mem_map.mp (List.mem_eraseDups.mp (List.mem_filter.mp hn).1)
    exact sorted o ho

/-- The change of an ending is of the fence its command signals. -/
theorem Ending.slot_of_mem_fenceOp {e : Ending} {o : FenceOp} (h : o ∈ e.fenceOp) : e.cmd.signal = some o.slot := by
  unfold Ending.fenceOp at h
  split at h
  · cases h
  · next f signal =>
    rw [signal]
    dsimp only at h
    split at h <;> rw [List.mem_singleton.mp h]

theorem Dev.finish_endsOnly (d : Dev) (e : Ending) : EndsOnly e.queue e.cmd.signal d (d.finish e) := by
  have ops : ∀ o ∈ ([e].flatMap Ending.fenceOp ++ []).filter d.fenceAllowed, e.cmd.signal = some o.slot := fun o ho => by
    simp only [List.flatMap_singleton, List.append_nil] at ho
    exact Ending.slot_of_mem_fenceOp (List.mem_filter.mp ho).1
  obtain ⟨fences, changed⟩ := Dev.applyFenceOps_endsOnly (q := e.queue) ops d
  unfold Dev.finish Dev.endAll
  generalize d.applyFenceOps _ = applied at fences changed
  obtain ⟨d1, leaps, slots⟩ := applied
  refine ((fences.trans (Dev.noteLeaps_endsOnly d1 leaps)).trans ?_).trans
    ((EndsOnly.each (fun n hn d => d.writeRecord_endsOnly (changed n hn)) _).trans (.each (fun v _ d => d.msix_endsOnly ..) _))
  exact ((Dev.modQueue_endsOnly ..).trans (Dev.logCodes_endsOnly ..)).trans (Dev.postCompletion_endsOnly ..)

theorem Dev.succeed_endsOnly (d : Dev) (q : Nat) (c : Cmd) (ws : List W32) (es : List CodeEntry) :
    EndsOnly q c.signal d (d.succeed q c ws es) :=
  d.finish_endsOnly { queue := q, cmd := c, result := ws, codes := es }

/-- What a command that began and ended changed (R301). -/
theorem EndsOnly.of_begun {s : State} {q ctx : Nat} {c : Cmd} {f : Option Nat} {e : Dev}
    (h : EndsOnly q f (begun s q ctx c).1 e) : EndsOnly q f s.dev e :=
  (Dev.modQueue_endsOnly s.dev _).trans h

end Sys2Proof.Machine
end

section
/-! SUPPORT. What LOAD_PLAN and its completion, RUN_PLAN and UNLOAD_PLAN do (R261 to R266, R284, R321 to R323), and the
statement on them. -/

namespace Sys2Proof.Machine

/-! ### LOAD_PLAN (R264, R266) -/

section
variable {s : State} {q ctx : Nat} {c : Cmd} (h : HeadReady s q Op.loadPlan (fun _ => true) c ctx)
include h

theorem loadPlan_takesCore {k : Nat} (free : s.dev.freeCore = some k) :
    AnswersDev (.loadPlan q) s ((begun s q ctx c).1.setLoad k
      (some { queue := q, cmd := (begun s q ctx c).2, ctx := ctx, neap := s.dev.sys.service == .neap })) := by
  have core : (s.dev.beginCmd q ctx c).1.freeCore = some k := free
  refine answersDev_onDev rfl ?_
  rw [Dev.onHead_ready _ h (by rw [free]; rfl)]
  rw [core]
  rfl

theorem loadPlan_waitsForCore (taken : s.dev.freeCore = none) : AnswersDev (.loadPlan q) s s.dev :=
  answersDev_onDev rfl (Dev.onHead_waits _ h (by rw [taken]; rfl))

end

/-! ### LOAD_PLAN_COMPLETE (R265, R266, R323) -/

section
variable {s : State} {k : Nat} {l : Load}

theorem Dev.completeLoad_ok {d e : Dev} {slot : Nat} (stays : (d.ctx l.ctx).evacuated = false)
    (h : d.loadModule (reqOf l) (moduleBytes l.cmd) (l.cmd.p 4) = .ok (e, slot)) :
    d.completeLoad l = e.succeed l.queue l.cmd [BitVec.ofNat 32 ((e.plan slot).handle slot)] := by
  simp [Dev.completeLoad, stays, h]

theorem Dev.completeLoad_error_endsOnly {d : Dev} {r : Refuse} (stays : (d.ctx l.ctx).evacuated = false)
    (h : d.loadModule (reqOf l) (moduleBytes l.cmd) (l.cmd.p 4) = .error r) :
    EndsOnly l.queue l.cmd.signal d (d.completeLoad l) := by
  simp only [Dev.completeLoad, stays, h]
  exact d.finish_endsOnly { queue := l.queue, cmd := l.cmd, result := r.words, error := some _ }

theorem answers_loadPlanComplete {P : State → Prop} (core : k < 8) (load : s.dev.load k = some l)
    (goes : s.dev.loadWaits l.ctx = false) (h : P { s with dev := (s.dev.setLoad k none).completeLoad l }) :
    Answers (.loadPlanComplete k) s P := by
  refine ⟨_, ?_, h⟩
  change execLoadPlanComplete k s = _
  simp [execLoadPlanComplete, State.onDev, Nat.not_le.mpr core, load, goes]

end

/-! ### RUN_PLAN (R321, R322) -/

/-- Device `e` is device `d` but for extents and the sluices' queues. -/
def Dev.PromotedFrom (d e : Dev) : Prop := ∃ extents flash, e = { d with extents := extents, flash := flash }

theorem Dev.PromotedFrom.refl (d : Dev) : d.PromotedFrom d := ⟨_, _, rfl⟩

theorem Dev.PromotedFrom.modExtent {d e : Dev} (h : d.PromotedFrom e) (n : Nat) (f : Extent → Extent) :
    d.PromotedFrom (e.modExtent n f) := by
  obtain ⟨extents, flash, rfl⟩ := h
  exact ⟨_, _, rfl⟩

theorem Dev.PromotedFrom.modFlash {d e : Dev} (h : d.PromotedFrom e) (n : Nat) (f : Flash → Flash) :
    d.PromotedFrom (e.modFlash n f) := by
  obtain ⟨extents, flash, rfl⟩ := h
  exact ⟨_, _, rfl⟩

theorem Dev.PromotedFrom.requestPromotion {d e : Dev} (h : d.PromotedFrom e) (x plan need : Nat) :
    d.PromotedFrom (e.requestPromotion x plan need) := by
  unfold Dev.requestPromotion
  extract_lets extent referred
  have refs : d.PromotedFrom referred := by
    dsimp only [referred]
    split
    · exact h
    · exact h.modExtent ..
  split
  · exact (refs.modExtent ..).modFlash ..
  · exact refs

theorem Dev.PromotedFrom.promoteFor {d e : Dev} (h : d.PromotedFrom e) (plan first count start : Nat) :
    d.PromotedFrom (e.promoteFor plan first count start) := by
  unfold Dev.promoteFor
  dsimp only
  split
  · exact h
  · refine Dev.each_keeps d.PromotedFrom h fun e step h => ?_
    refine Dev.each_keeps d.PromotedFrom h fun e lead h => ?_
    exact Dev.each_keeps d.PromotedFrom h fun e x h => h.requestPromotion ..

theorem Dev.promoteDue_promotedFrom (d : Dev) : d.PromotedFrom d.promoteDue := by
  refine Dev.each_keeps d.PromotedFrom ?_ fun e r h => h.promoteFor ..
  exact Dev.each_keeps d.PromotedFrom (.refl d) fun e r h => h.promoteFor ..

theorem Dev.giveRng_eq (d : Dev) (ctx slot : Nat) : ∃ ctxs, d.giveRng ctx slot = { d with ctxs := ctxs } := by
  unfold Dev.giveRng
  split <;> exact ⟨_, rfl⟩

/-- The record of a RUN_PLAN that begins, its steps found due from tide `due` on (R322). -/
def Dev.beginsAs (d : Dev) (q : Nat) (c : Cmd) (ctx due : Nat) : RunCmd :=
  { queue := q, cmd := c, ctx := ctx, plan := c.planSlot, cls := (d.plan c.planSlot).cls, first := c.p 1, count := c.p 2
    due := (d.foundDue (d.plan c.planSlot) (c.p 1) due).1, codes := (d.foundDue (d.plan c.planSlot) (c.p 1) due).2
    progress := if c.pf 3 16 1 = 1 then some (c.pf 3 0 16, BitVec.ofNat 32 (c.p 4)) else none }

theorem Dev.beginRun_eq {d : Dev} {c : Cmd} (q ctx due : Nat) (live : (d.plan c.planSlot).deadTo c.epoch = false)
    (stands : d.groupGone c.planSlot = false) : ∃ ctxs extents flash, d.beginRun q c ctx due =
      { d with ctxs := ctxs, runCmds := d.runCmds ++ [d.beginsAs q c ctx due], extents := extents, flash := flash } := by
  obtain ⟨ctxs, keyed⟩ := d.giveRng_eq ctx c.planSlot
  obtain ⟨extents, flash, promoted⟩ :=
    Dev.promoteDue_promotedFrom { d with ctxs := ctxs, runCmds := d.runCmds ++ [d.beginsAs q c ctx due] }
  refine ⟨ctxs, extents, flash, Eq.trans ?_ promoted⟩
  simp only [Dev.beginRun, live, stands, keyed]
  rfl

theorem Dev.foundDue_next (d : Dev) (p : Plan) (first : Nat) : (d.foundDue p first (d.tide.number + 1)).1 =
    if p.cls = 2 ∧ p.tiles.any (fun t => (d.tile t).spent) = false then d.tide.number else d.tide.number + 1 := by
  unfold Dev.foundDue
  by_cases p2 : p.cls = 2
  · cases spent : p.tiles.any fun t => (d.tile t).spent <;> simp [p2]
  · simp [p2]

theorem HeadReady.runPlanHead {s : State} {q ctx : Nat} {c : Cmd} (h : HeadReady s q Op.runPlan (fun _ => true) c ctx)
    (room : s.dev.rngRoom ctx c.planSlot = true) :
    s.dev.runPlanHead q = (begun s q ctx c).1.beginRun q (begun s q ctx c).2 ctx (s.dev.tide.number + 1) := by
  have ready : s.dev.atHead q Op.runPlan = .ready c ctx := h
  unfold Dev.runPlanHead
  rw [ready]
  dsimp only
  rw [if_pos room, h.onHead]
  rfl

/-- Settles O37: each row runs at the head of its queue, a load's refusal and success end one command, and beginning a
run touches only extents and sluices beside its record. -/
theorem planCommandsTakeEffect : Obligations.PlanCommandsTakeEffect := by
  unfold Obligations.PlanCommandsTakeEffect
  refine ⟨fun s q ctx c h => ⟨fun k => loadPlan_takesCore h, loadPlan_waitsForCore h⟩, fun s k l core load goes stays => ?_,
    fun s q ctx c h room live stands => ?_, fun s q ctx c h => answersDev_onDev rfl (h.onHead _)⟩
  · constructor
    · intro d slot ok
      refine answers_loadPlanComplete core load goes ?_
      rw [Dev.completeLoad_ok (d := s.dev.setLoad k none) stays ok]
      exact ⟨d.succeed_endsOnly .., rfl⟩
    · intro r error
      refine answers_loadPlanComplete core load goes ?_
      exact Dev.completeLoad_error_endsOnly (d := s.dev.setLoad k none) stays error
  · obtain ⟨ctxs, extents, flash, run⟩ := Dev.beginRun_eq (d := (begun s q ctx c).1) (c := (begun s q ctx c).2) q ctx
      (s.dev.tide.number + 1) live stands
    refine answers_onDev rfl ?_
    rw [h.runPlanHead room, run]
    exact ⟨rfl, s.dev.foundDue_next .., rfl, fun _ => rfl⟩

end Sys2Proof.Machine
end

section
/-! SUPPORT. What DRAIN_TILE does to its tile and to the plans on it (R286 to R288, R327), and the statement on it. -/

namespace Sys2Proof.Machine

/-! ### Plans placed elsewhere (R286) -/

theorem Dev.replace_ok_moving {d : Dev} {slot t : Nat} {p : Plan} (h : d.replace slot t = .ok p) : p.moving.isSome = true := by
  unfold Dev.replace at h
  dsimp only at h
  split at h
  · cases h
  split at h
  · cases h
  · cases h
    rfl

/-- One plan placed off tile `t`, or noted with its refusal. -/
def Dev.replaceOne (t : Nat) (acc : Dev × List (Nat × Refuse)) (slot : Nat) : Dev × List (Nat × Refuse) :=
  match acc.1.replace slot t with
  | .ok p => (acc.1.modPlan slot fun _ => p, acc.2)
  | .error f => (acc.1, acc.2 ++ [(slot, f)])

theorem Dev.replaceAll_eq (d : Dev) (t : Nat) : d.replaceAll t =
    (d.plansOnTile t).foldl (Dev.replaceOne t) (d.modTile t fun x => { x with draining := true }, []) := rfl

/-- A plan has a move, or stands among those that did not fit. -/
def PlacedOrRefused (acc : Dev × List (Nat × Refuse)) (p : Nat) : Prop :=
  (acc.1.plan p).moving.isSome = true ∨ p ∈ acc.2.map Prod.fst

theorem Dev.replaceOne_eq (t : Nat) (acc : Dev × List (Nat × Refuse)) (slot : Nat) :
    ∃ plans, (Dev.replaceOne t acc slot).1 = { acc.1 with plans := plans } := by
  unfold Dev.replaceOne
  split <;> exact ⟨_, rfl⟩

theorem Dev.replaceOne_placedOrRefused (t : Nat) (acc : Dev × List (Nat × Refuse)) (slot : Nat) :
    PlacedOrRefused (Dev.replaceOne t acc slot) slot := by
  unfold Dev.replaceOne
  split
  · next p placed => exact .inl (by rw [Dev.plan_modPlan_self]; exact Dev.replace_ok_moving placed)
  · exact .inr (by simp)

theorem PlacedOrRefused.replaceOne {acc : Dev × List (Nat × Refuse)} {p : Nat} (h : PlacedOrRefused acc p) (t slot : Nat) :
    PlacedOrRefused (Dev.replaceOne t acc slot) p := by
  by_cases same : p = slot
  · exact same ▸ Dev.replaceOne_placedOrRefused t acc slot
  · unfold Dev.replaceOne
    split
    · exact h.imp (by rw [Dev.plan_modPlan, if_neg same]; exact id) id
    · exact h.imp id fun refused => by simp only [List.map_append, List.mem_append, refused, true_or]

/-- Placing plans one after another changes the table of plans alone, and each gets a move or a refusal. -/
theorem foldl_replaceOne_spec (t : Nat) (l : List Nat) (acc : Dev × List (Nat × Refuse)) :
    (∃ plans, (l.foldl (Dev.replaceOne t) acc).1 = { acc.1 with plans := plans }) ∧
    (∀ p, p ∈ l ∨ PlacedOrRefused acc p → PlacedOrRefused (l.foldl (Dev.replaceOne t) acc) p) := by
  induction l generalizing acc with
  | nil => exact ⟨⟨_, rfl⟩, fun p h => h.resolve_left List.not_mem_nil⟩
  | cons slot l ih =>
    obtain ⟨⟨plans, rest⟩, answered⟩ := ih (Dev.replaceOne t acc slot)
    obtain ⟨plans', first⟩ := Dev.replaceOne_eq t acc slot
    refine ⟨⟨plans, by rw [List.foldl_cons, rest, first]⟩, fun p h => answered p ?_⟩
    rw [List.mem_cons, or_assoc] at h
    obtain rfl | later | before := h
    · exact .inr (Dev.replaceOne_placedOrRefused t acc p)
    · exact .inl later
    · exact .inr (before.replaceOne t slot)

/-- The tile is draining, its plans each have a move or a refusal, and only the table of plans changed beside it. -/
theorem Dev.replaceAll_spec (d : Dev) (t : Nat) :
    (∃ plans, (d.replaceAll t).1 = { d.modTile t (fun x => { x with draining := true }) with plans := plans }) ∧
    ∀ p ∈ d.plansOnTile t, PlacedOrRefused (d.replaceAll t) p := by
  rw [Dev.replaceAll_eq]
  obtain ⟨rest, answered⟩ := foldl_replaceOne_spec t (d.plansOnTile t) (d.modTile t fun x => { x with draining := true }, [])
  exact ⟨rest, fun p h => answered p (.inl h)⟩

/-! ### Plans suspended (R288) -/

/-- A plan is to leave its tiles: it has a move, or is suspended. -/
def Dev.Leaves (d : Dev) (p : Nat) : Prop := (d.plan p).moving.isSome = true ∨ (d.plan p).suspended = true

/-- Device `e` is device `d` once some plans were suspended, as far as a drain is concerned: tiles, drains and memory
are the same, and a plan that was to leave still is. -/
structure Dev.SuspendedFrom (d e : Dev) : Prop where
  tiles  : e.tiles = d.tiles
  drains : e.drains = d.drains
  mem    : e.mem = d.mem
  leaves : ∀ p, d.Leaves p → e.Leaves p

theorem Dev.SuspendedFrom.trans {d e g : Dev} (h : d.SuspendedFrom e) (k : e.SuspendedFrom g) : d.SuspendedFrom g :=
  ⟨k.tiles.trans h.tiles, k.drains.trans h.drains, k.mem.trans h.mem, fun p hp => k.leaves p (h.leaves p hp)⟩

theorem Dev.SuspendedFrom.of_plans {d e : Dev} (tiles : e.tiles = d.tiles) (drains : e.drains = d.drains)
    (mem : e.mem = d.mem) (plans : e.plans = d.plans) : d.SuspendedFrom e :=
  ⟨tiles, drains, mem, fun p h => by rwa [Dev.Leaves, Dev.plan, plans]⟩

theorem Dev.SuspendedFrom.refl (d : Dev) : d.SuspendedFrom d := .of_plans rfl rfl rfl rfl

theorem EndsOnly.suspendedFrom {q : Nat} {f : Option Nat} {d e : Dev} (h : EndsOnly q f d e) : d.SuspendedFrom e :=
  .of_plans h.tiles_eq h.drains_eq h.mem_eq h.plans_eq

theorem Dev.breakCmd_suspendedFrom (d : Dev) (r : RunCmd) (e : CodeEntry) : d.SuspendedFrom (d.breakCmd r e) :=
  .of_plans rfl rfl rfl rfl

theorem Dev.finishDone_suspendedFrom (d : Dev) : d.SuspendedFrom d.finishDone :=
  Dev.each_keeps d.SuspendedFrom (.of_plans rfl rfl rfl rfl) fun e x h => h.trans (e.finish_endsOnly x).suspendedFrom

/-- A plan once it is suspended (R288). -/
def Plan.suspend (p : Plan) : Plan := { p with suspended := true }

theorem Dev.modPlan_suspends (d : Dev) (slot : Nat) :
    d.SuspendedFrom (d.modPlan slot Plan.suspend) ∧ (d.modPlan slot Plan.suspend).Leaves slot := by
  have suspended : (d.modPlan slot Plan.suspend).Leaves slot := .inr (by rw [Dev.plan_modPlan_self]; rfl)
  refine ⟨⟨rfl, rfl, rfl, fun p h => ?_⟩, suspended⟩
  by_cases same : p = slot
  · exact same ▸ suspended
  · rwa [Dev.Leaves, Dev.plan_modPlan, if_neg same]

theorem Dev.suspendPlan_suspends (d : Dev) (slot : Nat) :
    d.SuspendedFrom (d.suspendPlan slot) ∧ (d.suspendPlan slot).Leaves slot := by
  obtain ⟨marked, leaves⟩ := d.modPlan_suspends slot
  have broken : (d.modPlan slot Plan.suspend).SuspendedFrom (d.suspendPlan slot) :=
    (Dev.each_keeps (Dev.SuspendedFrom (d.modPlan slot Plan.suspend)) (.refl _) fun e r h =>
      h.trans (e.breakCmd_suspendedFrom ..)).trans (Dev.finishDone_suspendedFrom _)
  exact ⟨marked.trans broken, broken.leaves slot leaves⟩

theorem Dev.each_suspendPlan (l : List (Nat × Refuse)) (d : Dev) :
    d.SuspendedFrom (d.each l fun d x => d.suspendPlan x.1) ∧
    ∀ p ∈ l.map Prod.fst, (d.each l fun d x => d.suspendPlan x.1).Leaves p := by
  induction l generalizing d with
  | nil => exact ⟨.refl d, fun p h => absurd h List.not_mem_nil⟩
  | cons x l ih =>
    obtain ⟨first, leaves⟩ := d.suspendPlan_suspends x.1
    obtain ⟨rest, others⟩ := ih (d.suspendPlan x.1)
    refine ⟨first.trans rest, fun p h => ?_⟩
    obtain rfl | h := List.mem_cons.mp h
    · exact rest.leaves _ leaves
    · exact others p h

/-! ### DRAIN_TILE (R286, R288, R327) -/

/-- The device once the drain of tile `t` for a command has been noted. -/
def Dev.noteDrain (d : Dev) (q : Nat) (c : Cmd) (t : Nat) : Dev := { d with drains := d.drains ++ [(q, c, t)] }

/-- A drain that starts: the tile is draining, the drain waits for its end, and memory is as it was. -/
structure Dev.DrainStarts (d : Dev) (t q : Nat) (c : Cmd) (e : Dev) : Prop where
  draining : (e.tile t).draining = true
  noted    : (q, c, t) ∈ e.drains
  mem      : e.mem = d.mem

section
variable {d : Dev} {t q : Nat} {c : Cmd}

theorem Dev.startDrain_placed (fits : (d.replaceAll t).2 = []) :
    d.startDrain t false (some (q, c)) = (d.replaceAll t).1.noteDrain q c t := by
  unfold Dev.startDrain
  generalize d.replaceAll t = placed at fits
  obtain ⟨e, fails⟩ := placed
  cases fits
  rfl

theorem Dev.startDrain_refused (fails : (d.replaceAll t).2 ≠ []) :
    EndsOnly q c.signal d (d.startDrain t false (some (q, c))) := by
  unfold Dev.startDrain
  generalize d.replaceAll t = placed at fails
  obtain ⟨e, l⟩ := placed
  cases l with
  | nil => exact absurd rfl fails
  | cons x l => exact d.finish_endsOnly { queue := q, cmd := c, result := x.2.words, error := some _ }

theorem Dev.startDrain_forced : d.startDrain t true (some (q, c)) =
    ((d.replaceAll t).1.each (d.replaceAll t).2 fun d x => d.suspendPlan x.1).noteDrain q c t := by
  unfold Dev.startDrain
  generalize d.replaceAll t = placed
  obtain ⟨e, fails⟩ := placed
  cases fails <;> rfl

theorem Dev.replaceAll_drainStarts {e : Dev} (h : (d.replaceAll t).1.SuspendedFrom e) :
    d.DrainStarts t q c (e.noteDrain q c t) := by
  obtain ⟨⟨plans, placed⟩, -⟩ := d.replaceAll_spec t
  rw [placed] at h
  refine ⟨?_, List.mem_append_right _ (List.mem_singleton_self _), h.mem⟩
  have drained : e.tile t = (d.modTile t fun x => { x with draining := true }).tile t := by rw [Dev.tile, h.tiles]; rfl
  exact congrArg Tile.draining (drained.trans (d.tile_modTile_self ..))

theorem Dev.startDrain_moves (fits : (d.replaceAll t).2 = []) :
    d.DrainStarts t q c (d.startDrain t false (some (q, c))) ∧
    ∀ p ∈ d.plansOnTile t, ((d.startDrain t false (some (q, c))).plan p).moving.isSome = true := by
  rw [Dev.startDrain_placed fits]
  refine ⟨Dev.replaceAll_drainStarts (.refl _), fun p h => ?_⟩
  exact ((d.replaceAll_spec t).2 p h).resolve_right (by rw [fits]; exact List.not_mem_nil)

theorem Dev.startDrain_suspends :
    d.DrainStarts t q c (d.startDrain t true (some (q, c))) ∧
    ∀ p ∈ d.plansOnTile t, (d.startDrain t true (some (q, c))).Leaves p := by
  rw [Dev.startDrain_forced]
  obtain ⟨kept, suspended⟩ := Dev.each_suspendPlan (d.replaceAll t).2 (d.replaceAll t).1
  refine ⟨Dev.replaceAll_drainStarts kept, fun p h => ?_⟩
  obtain moves | fails := (d.replaceAll_spec t).2 p h
  · exact kept.leaves p (.inl moves)
  · exact suspended p fails

end

/-- A command that marks a tile and ends changes the tile and what its ending writes. -/
theorem begun_modTile_succeed_endsOnly (s : State) (q ctx n : Nat) (c : Cmd) (g : Tile → Tile) :
    EndsOnly q c.signal (s.dev.modTile n g) (((begun s q ctx c).1.modTile n g).succeed q (begun s q ctx c).2) := by
  have begins : (begun s q ctx c).1.modTile n g = (s.dev.modTile n g).modQueue q fun x =>
    { x with fetched := x.fetched.drop 1, begun := x.begun ++ [(begun s q ctx c).2] } := rfl
  rw [begins]
  exact (Dev.modQueue_endsOnly ..).trans (Dev.succeed_endsOnly _ q (begun s q ctx c).2 [] [])

/-- Settles O38: every plan of the tile has a move or a refusal; a refusal ends an unforced drain and suspends the plan of
a forced one; the return form marks the tile and ends the command. -/
theorem drainsTakeEffect : Obligations.DrainsTakeEffect := by
  unfold Obligations.DrainsTakeEffect
  intro s q ctx n c tile
  subst tile
  refine ⟨fun h => ⟨fun fits => answers_onDev rfl ?_, fun fails => answers_onDev rfl ?_⟩,
    fun h => answers_onDev rfl ?_, fun h => answers_onDev rfl ?_⟩ <;> rw [h.onHead]
  · obtain ⟨⟨draining, noted, mem⟩, moves⟩ := Dev.startDrain_moves (q := q) (c := (begun s q ctx c).2) fits
    exact ⟨draining, noted, moves, fun a => congrArg (Mem.read · a) mem⟩
  · exact (Dev.startDrain_refused (c := (begun s q ctx c).2) fails).of_begun
  · obtain ⟨⟨draining, noted, mem⟩, leave⟩ :=
      Dev.startDrain_suspends (d := (begun s q ctx c).1) (t := c.pf 0 0 8) (q := q) (c := (begun s q ctx c).2)
    exact ⟨draining, noted, leave, fun a => congrArg (Mem.read · a) mem⟩
  · have ends := begun_modTile_succeed_endsOnly s q ctx (c.pf 0 0 8) c fun x => { x with returning := x.drained }
    exact ⟨congrArg Tile.returning ((ends.tile_eq _).trans (Dev.tile_modTile_self ..)), ends⟩

end Sys2Proof.Machine
end

section
/-! SUPPORT. Every command keeps the canonical form of T1 memory, the bytes of it unless it is one of those that may write,
and the locked registers unless it resets the device; and the statement on the canonical form (R406, R412). -/

namespace Sys2Proof.Machine

variable {mm : Option (List Host.Cell)} {lk : Bool} {wl : List Nat}

/-! ### The shapes of a command -/

theorem OkS.guard {c : Prop} [Decidable c] {x : Fault} {r : Host.Outcome State Fault Refusal} (h : OkS mm lk wl r) :
    OkS mm lk wl (if c then .fault x else r) := by
  split
  · exact .fault
  · exact h

section
variable {s : State} {f : Dev → Dev}

theorem OkS.onDev (h : Dev.Good mm lk wl s.dev) (k : ∀ d, Dev.Good mm lk wl d → Dev.Good mm lk wl (f d)) :
    OkS mm lk wl (.next (s.onDev f)) := .next (State.onDev_good h k)

theorem OkS.onDevice (h : Dev.Good mm lk wl s.dev) (k : ∀ d, Dev.Good mm lk wl d → Dev.Good mm lk wl (f d)) :
    OkS mm lk wl (.next (s.onDevice f)) := .next (State.onDevice_good h k)

theorem OkS.onLive (h : Dev.Good mm lk wl s.dev) (k : ∀ d, Dev.Good mm lk wl d → Dev.Good mm lk wl (f d)) :
    OkS mm lk wl (.next (s.onLive f)) := .next (State.onLive_good h k)

/-- A command that runs at the head of a queue keeps what its effect keeps (R301, R311). -/
theorem OkS.onHead {q op : Nat} {effect : Dev → Cmd → Nat → Dev} {want : Cmd → Bool} {go : Dev → Cmd → Nat → Bool}
    (h : Dev.Good mm lk wl s.dev) (k : ∀ d c x, Dev.Good mm lk wl d → Dev.Good mm lk wl (effect d c x)) :
    OkS mm lk wl (.next (s.onDev fun d => d.onHead q op effect want go)) := .onDev h fun _ h => Dev.onHead_good h _ _ _ _ _ k

end

section
variable {d : Dev} (h : Dev.Good mm lk wl d)
include h

theorem Dev.withGroups_good (x : Tab (Option (Nat × Nat))) : Dev.Good mm lk wl { d with groups := x } :=
  ⟨h.mem, h.same, h.lock⟩

theorem Dev.withMeshStarve_good (x : List Nat) : Dev.Good mm lk wl { d with meshStarve := x } := ⟨h.mem, h.same, h.lock⟩

theorem Dev.withLost_good (x : Bool) : Dev.Good mm lk wl { d with lost := x } := ⟨h.mem, h.same, h.lock⟩

end

section
variable {s : State} (h : Dev.Good mm lk wl s.dev)
include h

/-! ### The host interface and transfers (chapters 09 to 11) -/

theorem execSummarySwapFail_good (fn : Nat) : OkS mm lk wl (execSummarySwapFail fn s) :=
  .onDev h fun _ h => ite_good h (Dev.errEvent_good (Dev.modFn_good h ..) ..)

theorem execFenceWaitTimeout_good (q : Nat) : OkS mm lk wl (execFenceWaitTimeout q s) := by
  refine .onDev h fun _ h => ?_
  split
  · exact h
  · split
    · exact Dev.failUpstream_good h ..
    · exact Dev.failCmd_good h ..

theorem execPageInvalidate_good (entry : Nat) : OkS mm lk wl (execPageInvalidate entry s) := by
  refine .guard (.onDev h fun _ h => ?_)
  split
  · exact ite_good (Dev.invalidateEntry_good h _) h
  · exact h

theorem execQuotaGraceExpiry_good (slot : Nat) : OkS mm lk wl (execQuotaGraceExpiry slot s) := by
  refine .guard (.onDev h fun _ h => ?_)
  split
  · exact ite_good h (ite_good (Dev.modCtx_good h ..) (Dev.dropForQuota_good (Dev.modCtx_good h ..) _))
  · exact h

theorem execGetTensor_good (q : Nat) : OkS mm lk wl (execGetTensor q s) := by
  have plain {d : Dev} (h : Dev.Good mm lk wl d) :
      Dev.Good mm lk wl (d.onHead q Op.getTensor fun d c ctx => d.getNow q c ctx) :=
    Dev.onHead_good h _ _ _ _ _ fun _ _ _ h => Dev.getNow_good h ..
  refine .onDev h fun _ h => ?_
  split
  · refine ite_good h ?_
    split
    · exact plain h
    · exact Dev.each_good h fun _ _ h => Dev.holdCtxRead_good h ..
  · exact plain h

/-! ### Plans and steps (chapters 02, 07 and 08) -/

theorem execLoadPlan_good (q : Nat) : OkS mm lk wl (execLoadPlan q s) := by
  refine .onHead h fun _ _ _ h => ?_
  split
  · exact Dev.setLoad_good h ..
  · exact h

theorem execSpillLimitAbort_good (run : Nat) : OkS mm lk wl (execSpillLimitAbort run s) := by
  refine .onDev h fun _ h => ?_
  split
  · exact ite_good (Dev.abortSpill_good h _) h
  · exact h

theorem execClassPStepStart_good (q : Nat) : OkS mm lk wl (execClassPStepStart q s) := by
  refine .onDev h fun _ h => ?_
  split
  · exact h
  · refine ite_good h ?_
    split
    · exact h
    · exact Dev.finishDone_good (Dev.breakCmd_good h ..)
    · exact Dev.startStep_good h _

theorem execBackupTakeover_good : OkS mm lk wl (execBackupTakeover s) :=
  .onDevice h fun _ h => ite_good (Dev.sendBeacon_good (Dev.modTide_good h _)) h

theorem execTideNumberReport_good (next : Nat) : OkS mm lk wl (execTideNumberReport next s) := by
  refine .onDev h fun _ h => ?_
  refine ite_good (Dev.modTide_good h _) ?_
  split
  · exact Dev.emit_good h _
  · exact h

/-! ### Memory protection (chapters 11 and 12) -/

theorem execIntegrityCheckFail_good (frame granule epoch : Nat) (runs ctxs : List Nat) :
    OkS mm lk wl (execIntegrityCheckFail frame granule epoch runs ctxs s) :=
  .guard (.onDev h fun _ h => ite_good (Dev.modHub_good h ..) (Dev.integrityAlarm_good h ..))

theorem execQuarantineScanDone_good (region : Nat) (failed : List (Nat × Nat)) :
    OkS mm lk wl (execQuarantineScanDone region failed s) :=
  .guard (.onDev h fun _ h => ite_good h (Dev.each_good (Dev.modRegion_good h ..) fun _ _ h => Dev.scanFailed_good h ..))

theorem execTreeLineLost_good (region : Nat) (line : LostLine) : OkS mm lk wl (execTreeLineLost region line s) := by
  refine .guard (.onDev h fun _ h => ?_)
  dsimp only
  split
  · exact Dev.withLost_good h _
  · exact Dev.modHub_good h ..
  · split
    · exact h
    · exact ite_good h (Dev.dwEvent_good (Dev.each_good h fun _ _ h => Dev.askRepair_good h ..) ..)
    · exact Dev.dwEvent_good (Dev.loseRange_good h ..) ..

theorem execEccUncorrectableLine_good (frame granule : Nat) (runs ctxs : List Nat) :
    OkS mm lk wl (execEccUncorrectableLine frame granule runs ctxs s) := by
  refine .guard (.onDev h fun _ h => ite_good (Dev.modHub_good h ..) ?_)
  have remapped := Dev.dwEvent_good (Dev.remapFrame_good h frame) .integrity (dieOfFrame frame) 1
  exact ite_good (Dev.askRepair_good remapped ..)
    (Dev.each_good (Dev.each_good (Dev.markBad_good remapped ..) fun _ _ h => Dev.failRun_good h ..)
      fun _ _ h => Dev.checkFailed_good h ..)

theorem execScrubberPass_good (hub : Nat) (corrected : List (Nat × Nat)) :
    OkS mm lk wl (execScrubberPass hub corrected s) :=
  .guard (.onDev h fun _ h => ite_good h (Dev.each_good (Dev.modHub_good h ..) fun _ _ h => Dev.dwEvent_good h ..))

theorem execRetirementComplete_good (key : Nat) : OkS mm lk wl (execRetirementComplete key s) := by
  refine .guard (.onDev h fun _ h => ite_good h ?_)
  have flushed {l : List Nat} := Dev.each_good (l := l) h fun _ r h => Dev.flushRegion_good h r
  dsimp only
  split
  · exact Dev.endClose_good (Dev.withGroups_good (Dev.modKey_good flushed ..) _) _
  · exact Dev.withGroups_good (Dev.modKey_good flushed ..) _

theorem execArbStarvation_good (unit req : Nat) : OkS mm lk wl (execArbStarvation unit req s) :=
  .guard (.onDev h fun _ h => ite_good h (ite_good (Dev.errEvent_good h ..) (ite_good
    (Dev.errEvent_good (Dev.withMeshStarve_good h _) ..) (Dev.errEvent_good (Dev.modArb_good h fun _ => by rfl) ..))))

/-! ### The deep tier (chapter 13) -/

theorem execGarbageCollection_good (hub : Nat) : OkS mm lk wl (execGarbageCollection hub s) := by
  refine .guard (.onDev h fun _ h => ite_good h ?_)
  split
  · exact Dev.relocate_good h ..
  · exact h

theorem execWearLevelRelocate_good (hub : Nat) : OkS mm lk wl (execWearLevelRelocate hub s) := by
  refine .guard (.onDev h fun _ h => ?_)
  dsimp only
  split
  · exact ite_good (Dev.relocate_good h ..) h
  · exact h

theorem execPatrolRead_good (hub superblock ladderStep : Nat) (high : Bool) :
    OkS mm lk wl (execPatrolRead hub superblock ladderStep high s) := by
  refine .guard (.onDev h fun _ h => ite_good h ?_)
  have counted := Dev.modFlash_good h hub fun f =>
    { f with supers := f.supers.upd {} superblock fun y => { y with reads := y.reads + 1 } }
  have reported := Dev.when_good (c := decide (4 ≤ ladderStep)) (f := fun d => d.dwEvent .flash (dieOfHub hub)) counted
    fun h => Dev.dwEvent_good h ..
  exact ite_good (Dev.each_good reported fun _ _ h => ite_good (Dev.modExtent_good h ..) h)
    (ite_good (Dev.relocate_good reported ..) reported)

theorem execNandProgramFail_good (hub plane block : Nat) : OkS mm lk wl (execNandProgramFail hub plane block s) := by
  refine .guard (.onDev h fun _ h => ite_good h ?_)
  dsimp only
  split
  · exact Dev.relocate_good (Dev.modFlash_good h ..) ..
  · exact Dev.modFlash_good h ..

/-! ### Fabric and resilience (chapters 14 and 15) -/

theorem execHarbourKeyReceive_good (port : Nat) (key : List Byte) (authentic : Bool) :
    OkS mm lk wl (execHarbourKeyReceive port key authentic s) :=
  .guard (.onDev h fun _ h => ite_good h (Dev.each_good (Dev.modFabric_good h fun _ => by exact ⟨rfl, rfl, rfl⟩)
    fun _ _ h => Dev.emit_good h _))

theorem execLaneDegrade_good (port lane rate : Nat) : OkS mm lk wl (execLaneDegrade port lane rate s) :=
  .guard (.onDev h fun _ h => ite_good (Dev.when_good (Dev.modDike_good h _) fun h => Dev.degrade_good h ..) h)

theorem execSnapshot_good (w : SnapshotAt) : OkS mm lk wl (execSnapshot w s) := by
  refine .onDev h fun _ h => ?_
  cases w with
  | queue q => exact Dev.onHead_good h _ _ _ _ _ fun _ _ _ h => Dev.snapshot_good h ..
  | rank => exact ite_good (Dev.takeSchedule_good h ..) h
  | reply => exact ite_good (Dev.scheduleReply_good h ..) h

theorem execDrainConfirmed_good (slot : Nat) : OkS mm lk wl (execDrainConfirmed slot s) := by
  refine .guard (.onDev h fun _ h => ?_)
  dsimp only
  split
  · exact h
  · exact Dev.each_good (Dev.modHaven_good h ..) fun _ _ h => Dev.tellCoordinator_good (Dev.modJob_good h ..) ..

theorem execSnapshotComplete_good (w : CompleteAt) : OkS mm lk wl (execSnapshotComplete w s) := by
  refine .onLive h fun _ h => ?_
  cases w with
  | coordinator j =>
    dsimp only
    split
    · exact ite_good (Dev.completeGeneration_good h ..) h
    · exact h
  | rank => exact ite_good (Dev.generationDone_good h _) h
  | keeper => exact Dev.modKeep_good h ..

theorem execHavenBindTimeout_good (slot : Nat) : OkS mm lk wl (execHavenBindTimeout slot s) := by
  refine .guard (.onDev h fun _ h => ?_)
  dsimp only
  split
  · exact h
  · have unasked {f : Haven → Haven} := Dev.modHaven_good h slot f
    exact Dev.failCmd_good (ite_good (Dev.dropKeep_good unasked ..) (Dev.dropSource_good unasked _)) ..

theorem execTakeoverTimeout_good (slot : Nat) : OkS mm lk wl (execTakeoverTimeout slot s) := by
  refine .guard (.onDev h fun _ h => ?_)
  split
  · exact Dev.failCmd_good (Dev.modHaven_good h ..) ..
  · exact h

theorem execEvacuationHold_good (job rank : Nat) : OkS mm lk wl (execEvacuationHold job rank s) :=
  .onLive h fun _ h => ite_good h (Dev.holdJob_good (Dev.when_good h fun h => Dev.tellJob_good h ..) _)

theorem execEvacuationStop_good (slot : Nat) : OkS mm lk wl (execEvacuationStop slot s) := by
  refine .guard (.onDev h fun _ h => ite_good h ?_)
  have told {l : List Nat} := Dev.each_good (l := l) (Dev.stopContext_good h slot) fun d j h =>
    ite_good (c := d.coordinates j = true) (Dev.holdJob_good (Dev.tellJob_good h j (.hold (d.jobName j))) j)
      (Dev.tellCoordinator_good h j (.evacuated (d.jobName j) (d.jobRank j)))
  exact Dev.logEvent_good (Dev.errEvent_good (Dev.modDike_good told _) ..) ..

theorem execCoreFault_good (die core : Nat) : OkS mm lk wl (execCoreFault die core s) := by
  refine .guard (.guard (.onDev h fun _ h => ite_good h ?_))
  have reported {ctx queue : Nat} := Dev.errEvent_good h .coreFault Code.coreFault die ctx queue
  exact ite_good (ite_good reported (Dev.loaderFault_good reported _))
    (Dev.each_good (Dev.modDike_good reported _) fun _ _ h => Dev.withholdCtx_good h ..)

/-! ### Trust, life cycle and power (chapters 16 to 18) -/

theorem execCharterClose_good (q : Nat) : OkS mm lk wl (execCharterClose q s) :=
  .onHead h fun _ _ _ h => ite_good (Dev.failCmd_good h ..)
    (Dev.succeed_good (Dev.settleCharter_good (Dev.modCharter_good h ..) _) ..)

theorem execTdispLockInterface_good (fn : Nat) : OkS mm lk wl (execTdispLockInterface fn s) :=
  .guard (.onDev h fun _ h => ite_good h (Dev.emit_good (Dev.modFn_good (Dev.draw_good h) ..) _))

theorem execLcTransitionDone_good : OkS mm lk wl (execLcTransitionDone s) := by
  refine .onDev h fun d h => ?_
  have drawn (t : Nat) : Dev.Good mm lk wl (if t = 3 || t = 4 then d.drawRoot (rootBank t) else d) :=
    ite_good (Dev.drawRoot_good h _) h
  dsimp only
  split
  · exact h
  · refine ite_good h ?_
    split
    · exact Dev.endLife_good (drawn _) ..
    · exact Dev.endLife_good (Dev.modMgmt_good (drawn _) Mgmt.cancelUpdate_keeps) ..

theorem execThermalTrip_good : OkS mm lk wl (execThermalTrip s) := by
  refine .onDev h fun _ h => ite_good h ?_
  have tripped := Dev.emit_good (Dev.modSys_good (f := fun x => { x with tripped := true, forced := true }) h
    fun _ => id) .thermtrip
  exact ite_good (Dev.each_good tripped fun _ _ h => Dev.emit_good (Dev.modTile_good h ..) _) tripped

theorem execThermalSample_good (r : ThermalReading) : OkS mm lk wl (execThermalSample r s) := by
  unfold execThermalSample
  split
  · exact .fault
  · exact .fault
  · exact .fault
  · exact .onDevice h fun _ h => ite_good (Dev.thermalReading_good h _) h

theorem execRefclkLoss_good : OkS mm lk wl (execRefclkLoss s) :=
  .onDev h fun _ h => ite_good h (Dev.each_good (Dev.modSys_good h fun _ => by exact id) fun _ _ h =>
    ite_good h (Dev.modFlash_good h ..))

theorem execFunctionLevelReset_good (fn : Nat) : OkS mm lk wl (execFunctionLevelReset fn s) := by
  refine .guard (.onDev h fun _ h => ite_good h ?_)
  have silenced {f : Function → Function} := Dev.modFn_good (Dev.silenceFn_good h fn) fn f
  exact ite_good (Dev.modSys_good silenced fun _ => by exact id) silenced

theorem execNeapServiceReady_good : OkS mm lk wl (execNeapServiceReady s) :=
  .onDevice h fun _ h => ite_good h (Dev.hubIn_good (Dev.each_good (Dev.modSys_good h fun _ => by exact id)
    fun _ _ h => Dev.modTile_good h ..) ..)

theorem execSpringServiceEntry_good (r : Stage5Result) : OkS mm lk wl (execSpringServiceEntry r s) := by
  refine .onDevice h fun _ h => ite_good h ?_
  cases r with
  | failed => exact Dev.modSys_good h fun _ => by exact id
  | trained => exact ite_good h (Dev.coverFailures_good (Dev.springEntry_good h _) ..)

theorem execHostLinkRetrain_good (link : Nat) (mode : LinkMode) (width : Nat) :
    OkS mm lk wl (execHostLinkRetrain link mode width s) := by
  refine .guard (.onDev h fun _ h => ite_good h ?_)
  have trained {v : Nat × Nat} {flit : Bool} := Dev.modSys_good h
    (f := fun x => if link = 0 then { x with link0 := v, flit0 := flit } else { x with link1 := v, flit1 := flit })
    fun x locked => by split <;> exact locked
  exact ite_good trained (Dev.linkDown_good trained _)

/-! ### Management and registers (chapters 20 and 21) -/

theorem execFwSelfcheckFail_good (component : Nat) : OkS mm lk wl (execFwSelfcheckFail component s) := by
  refine .onDev h fun _ h => ite_good ?_ h
  have returned {l : List Nat} := Dev.modMgmt_good (f := fun m => { m with returns := l }) h fun _ => ⟨rfl, rfl, rfl⟩
  exact ite_good returned (Dev.swapFirmware_good returned)

theorem execRequestUpdate_good (transport component maxTransfer : Nat) :
    OkS mm lk wl (execRequestUpdate transport component maxTransfer s) :=
  mgmtRequest_good h _ _ fun _ h => ite_good (Dev.emit_good h _) (ite_good (Dev.emit_good h _)
    (Dev.requestChunk_good (Dev.emit_good (Dev.modMgmt_good h fun _ => by exact ⟨rfl, rfl, rfl⟩) _)))

theorem execUpdateComponentData_good (u : UpdateData) : OkS mm lk wl (execUpdateComponentData u s) := by
  refine .onDev h fun _ h => ite_good h ?_
  cases u with
  | chunk => exact ite_good h (Dev.requestChunk_good (Dev.modMgmt_good h fun _ => ⟨rfl, rfl, rfl⟩))
  | complete => exact Dev.verifyUpdate_good h ..

theorem execLcRequest_good (m : LcRequestMsg) : OkS mm lk wl (execLcRequest m s) := by
  refine mgmtRequest_good h _ _ fun _ h => ite_good (Dev.emit_good h _) (ite_good (Dev.emit_good h _)
    (ite_good (Dev.emit_good h _) ?_))
  have given {f : LifeCycle → LifeCycle} := Dev.modLife_good h f
  exact ite_good (Dev.lcCommand_good (Dev.modMgmt_good given fun _ => by exact ⟨rfl, rfl, rfl⟩) _)
    (Dev.emit_good given _)

theorem execRegisterWrite_good (fn offset size : Nat) (v : W64) : OkS mm lk wl (execRegisterWrite fn offset size v s) :=
  .guard (.onDevice h fun _ h => ite_good (Dev.writeReg_good h ..)
    (ite_good (Dev.writeReg_good (Dev.writeReg_good h ..) ..) h))

end

/-! ### Commands that may write memory -/

section
variable {s : State} (h : Dev.Good none lk wl s.dev)
include h

theorem execLoadPlanComplete_good (core : Nat) : OkS none lk wl (execLoadPlanComplete core s) := by
  refine .guard (.onDev h fun _ h => ?_)
  split
  · exact h
  · exact ite_good h (Dev.completeLoad_good (Dev.setLoad_good h ..) _)

theorem execClassPCommit_good (run : Nat) : OkS none lk wl (execClassPCommit run s) := by
  refine .onDev h fun _ h => ?_
  dsimp only
  split
  · exact h
  · refine ite_good h ?_
    have settled := Dev.afterFreezes_good (Dev.waitingFreezes_good h)
    split
    · exact Dev.finishDone_good (Dev.withholdRun_good (Dev.taintReaders_good settled ..) ..)
    · exact Dev.endAll_good (Dev.takeDone_good (Dev.commitRun_good settled _)) ..

theorem execRepairLands_good (frame granule : Nat) (data : List Byte) :
    OkS none lk wl (execRepairLands frame granule data s) :=
  .guard (.onDev h fun _ h => ite_good h (Dev.writeMem_good h _))

theorem execSnapshotVote_good (job rank : Nat) (freeze : Bool) : OkS none lk wl (execSnapshotVote job rank freeze s) :=
  .onLive h fun _ h => ite_good h (Dev.afterFreezes_good (Dev.decideIfVoted_good (Dev.modJob_good h ..) _))

theorem execSnapshotDecision_good (w : DecisionAt) (freeze : Bool) : OkS none lk wl (execSnapshotDecision w freeze s) := by
  refine .onLive h fun _ h => ?_
  cases w with
  | rank => exact Dev.takeDecision_good h ..
  | keeper => exact ite_good h (Dev.emptySlots_good h ..)

theorem execHavenUnitReceive_good (u : HavenUnit) : OkS none lk wl (execHavenUnitReceive u s) := by
  refine .onLive h fun _ h => ?_
  split
  · exact h
  · split
    · exact h
    · exact Dev.keepUnit_good h ..

theorem execKeySlotFreed_good (engineClass : Nat) : OkS none lk wl (execKeySlotFreed engineClass s) := by
  refine .guard (.onDev h fun _ h => ?_)
  have unwaited {f : Trust → Trust} := Dev.modTrust_good h f
  exact ite_good (Dev.each_good unwaited fun _ _ h => Dev.runPlanHead_good h _)
    (ite_good (Dev.each_good unwaited fun _ _ h => Dev.putHead_good (Dev.putHead_good h ..) ..)
    (ite_good (Dev.each_good unwaited fun _ _ h => Dev.charterKeyHead_good h _)
    (ite_good (Dev.each_good unwaited fun _ _ h => Dev.havenBindHead_good h _) unwaited)))

theorem execPromotionReadFail_good (extent : Nat) (mirror : Option (List Byte)) :
    OkS none lk wl (execPromotionReadFail extent mirror s) := by
  refine .guard (.onDev h fun _ h => ite_good h ?_)
  have reported := Dev.dwEvent_good h .flash (dieOfHub (extentHub extent)) 1
  cases mirror with
  | some => exact ite_good (Dev.modExtent_good reported ..) (Dev.loseExtent_good reported _)
  | none => exact Dev.loseExtent_good reported _

end

/-! ### Every command -/

/-- The commands that reset the device, its set-up lock with it (R583, R653). -/
def resetsDevice : Instr → Bool
  | .powerOnReset | .deviceReset _ | .activateFirmware => true
  | _ => false

/-- Every command keeps the canonical form of memory; one that may not write it keeps its bytes, and one that does not reset
the device keeps the locked registers. -/
theorem exec_good {s : State} (h : Dev.Good mm lk wl s.dev) {i : Instr} (writes : mayWriteMemory i = true → mm = none)
    (resets : resetsDevice i = true → lk = false) : OkS mm lk wl (exec i s) := by
  cases i with
  -- commands at the head of their queue
  | fenceSignal | fenceWait => exact .onHead h fun _ _ _ h => Dev.succeed_good h ..
  | mapPages => exact .onHead h fun _ _ _ h => Dev.mapPages_good h ..
  | unmapPages => exact .onHead h fun _ _ _ h => Dev.unmapPages_good h ..
  | quotaSet => exact .onHead h fun _ _ _ h => Dev.quotaSet_good h ..
  | putTensor | stage => obtain rfl := writes rfl; exact .onDev h fun _ h => Dev.putHead_good h ..
  | getTensor => exact execGetTensor_good h _
  | loadPlan => exact execLoadPlan_good h _
  | unloadPlan => exact .onHead h fun _ _ _ h => Dev.modPlan_good h ..
  | runPlan => exact .onDev h fun _ h => Dev.runPlanHead_good h _
  | charterCreate => exact .onHead h fun _ _ _ h => Dev.charterCreate_good h ..
  | charterKey => exact .onDev h fun _ h => Dev.charterKeyHead_good h _
  | charterBind => exact .onHead h fun _ _ _ h => Dev.charterBind_good h ..
  | charterAdmit => exact .onHead h fun _ _ _ h => Dev.charterAdmit_good h ..
  | charterClose => exact execCharterClose_good h _
  | groupOpen => exact .onHead h fun _ _ _ h => Dev.groupOpen_good h ..
  | groupClose => exact .onHead h fun _ _ _ h => ite_good (Dev.failCmd_good h ..) (Dev.modGroup_good h ..)
  | snapshot => exact execSnapshot_good h _
  | restore => exact .onHead h fun _ _ _ h => Dev.beginRestore_good h ..
  | havenBind => obtain rfl := writes rfl; exact .onDev h fun _ h => Dev.havenBindHead_good h _
  | havenUnbind => exact .onHead h fun _ _ _ h => Dev.havenUnbind_good h ..
  | takeover => exact .onHead h fun _ _ _ h => Dev.takeover_good h ..
  | drainTileUnforced | drainTileForced => exact .onHead h fun _ _ _ h => Dev.startDrain_good h ..
  | drainTileReturn => exact .onHead h fun _ _ _ h => Dev.succeed_good (Dev.modTile_good h ..) ..
  | setOppoint => exact .onHead h fun _ _ _ h => Dev.setOppoint_good h ..
  -- queues, fences, contexts and pages
  | fenceWaitTimeout => exact execFenceWaitTimeout_good h _
  | pageInvalidate => exact execPageInvalidate_good h _
  | quotaGraceExpiry => exact execQuotaGraceExpiry_good h _
  | commandDecode => exact .guard (.onDev h fun _ h => Dev.promoteDue_good (Dev.decodePacket_good h ..))
  | allQueueSummaryPoll | classPSummaryPoll => exact .onDev h fun _ h => Dev.poll_good h ..
  | summarySwapFail => exact execSummarySwapFail_good h _
  | completionSpaceFreed => exact .guard (.onDev h fun _ h => ite_good h (Dev.readCplHead_good h ..))
  | queueEnable => exact .guard (.onDev h fun _ h => ite_good (Dev.enableQueue_good h _) h)
  | queueDisable => exact .guard (.onDev h fun _ h => ite_good (Dev.clearEnable_good h _) h)
  | contextOpen => exact .onDev h fun _ h => Dev.openCommand_good h _
  | contextClose => exact .onDev h fun _ h => Dev.closeCommand_good h _
  -- plans, runs and the operations of a step
  | loadPlanComplete => obtain rfl := writes rfl; exact execLoadPlanComplete_good h _
  | stepEnd => exact .onDev h fun _ h => ite_good (Dev.endStep_good h ..) h
  | spillLimitAbort => exact execSpillLimitAbort_good h _
  | classPStepStart => exact execClassPStepStart_good h _
  | classPCommit => obtain rfl := writes rfl; exact execClassPCommit_good h _
  | pMeterSpent => exact .guard (.onDev h fun _ h => ite_good h (Dev.modTile_good h ..))
  | mxContract | vEw | vReduce | vScan | vSegscan | vSummary | gGather | gScatter | tReshape | tTranspose | tSlice | sRequant
  | sSetscale | sGetscale | sReset | nDraw | nRound | mPrefetch | mRelease | cBranch | cLoop =>
    exact .onDev h fun _ h => Dev.runOp_good h ..
  | fReduce | fGather | fAlltoall | fSend | fRecv => exact .onDev h fun _ h => Dev.runColl_good h ..
  -- the tide
  | tideStart => exact .onDevice h fun _ h => ite_good (Dev.startTimer_good h) h
  | tideStop => exact .onDevice h fun _ h => ite_good (Dev.stopTimer_good h) h
  | tideNumberLoRead => exact .onDev h fun _ h => ite_good (Dev.modTide_good h _) h
  | tideBoundary =>
    obtain rfl := writes rfl
    exact .onDevice h fun _ h => ite_good h (Dev.beginTide_good (Dev.restOfEbb_good (Dev.missedFreezes_good h)) _)
  | floodEnd => exact .onDev h fun _ h => ite_good h (Dev.modTide_good h _)
  | ebbStart => obtain rfl := writes rfl; exact .onDevice h fun _ h => ite_good h (Dev.ebbActions_good h)
  | beaconReceive =>
    exact .guard (.onDevice h fun _ h => ite_good h
      (ite_good (Dev.relayBeacon_good (Dev.takeBeacon_good h _) _) (Dev.relayBeacon_good h _)))
  | tideNumberReport => exact execTideNumberReport_good h _
  | tideHoldover => exact .onDevice h fun _ h => ite_good (Dev.modTide_good h _) h
  | tideUnlocked => exact .onDevice h fun _ h => ite_good (Dev.markUnlocked_good (Dev.modTide_good h _)) h
  | backupTakeover => exact execBackupTakeover_good h
  -- memory and its protection
  | verificationEpoch => exact .onDev h fun _ h => Dev.openGates_good (Dev.closeHorizons_good (Dev.modTide_good h _) _) _
  | integrityCheckFail _ _ epoch => exact execIntegrityCheckFail_good h _ _ epoch ..
  | quarantineScanDone => exact execQuarantineScanDone_good h ..
  | treeLineLost => exact execTreeLineLost_good h ..
  | eccUncorrectableLine => exact execEccUncorrectableLine_good h ..
  | repairLands => obtain rfl := writes rfl; exact execRepairLands_good h ..
  | repairDeadline => exact .guard (.onDev h fun _ h => ite_good (Dev.passDeadline_good h _) h)
  | frameRemapDone => exact .guard (.onDev h fun _ h => Dev.modHub_good h ..)
  | scrubberPass => exact execScrubberPass_good h ..
  | reencryptSweepDone => exact .guard (.onDev h fun _ h => ite_good h (Dev.endSweep_good h _))
  | retirementComplete => exact execRetirementComplete_good h _
  | quarantineEnd => exact .guard (.onDev h fun _ h => ite_good (Dev.modKey_good h ..) h)
  | arbStarvation => exact execArbStarvation_good h ..
  | seamFlitFail => exact .guard (.onDev h fun _ h => ite_good h (Dev.flitFails_good h ..))
  -- the deep tier
  | promotionStart =>
    obtain rfl := writes rfl
    exact .guard (.onDev h fun _ h => ite_good h (Dev.startPromotion_good (Dev.requestPromotion_good h ..) _))
  | promotionDone => obtain rfl := writes rfl; exact .guard (.onDev h fun _ h => ite_good (Dev.endPromotion_good h _) h)
  | promotionReadFail => obtain rfl := writes rfl; exact execPromotionReadFail_good h ..
  | settlementStart => exact .guard (.onDev h fun _ h => ite_good (Dev.startSettlement_good h _) h)
  | settlementDone => obtain rfl := writes rfl; exact .guard (.onDev h fun _ h => ite_good (Dev.endSettlement_good h _) h)
  | garbageCollection => exact execGarbageCollection_good h _
  | wearLevelRelocate => exact execWearLevelRelocate_good h _
  | readDisturbRelocate => exact .guard (.onDev h fun _ h => ite_good (Dev.relocate_good h ..) h)
  | patrolRead => exact execPatrolRead_good h ..
  | retentionRelocate => exact .guard (.onDev h fun _ h => Dev.relocate_good h ..)
  | nandProgramFail => exact execNandProgramFail_good h ..
  -- the fabric
  | fabricTrainEnable => exact .onDev h fun _ h => ite_good (Dev.setTrain_good h _) h
  | linkDelayMeasure => exact .guard (.onDev h fun _ h => ite_good (Dev.modPort_good h ..) h)
  | linkHandshake =>
    exact .guard (.onDev h fun _ h => ite_good h (ite_good (Dev.setPort_good h ..) (Dev.handshake_good h _)))
  | harbourKeyReceive => exact execHarbourKeyReceive_good h ..
  | laneDegrade => exact execLaneDegrade_good h ..
  | portRetrain => exact .guard (.onDev h fun _ h => ite_good (Dev.retrain_good h _) h)
  | packetReceive => exact .onDev h fun _ h => Dev.receivePacket_good h _
  | packetResend => exact .onDev h fun _ h => Dev.resend_good h ..
  | groupOpenTimeout => exact .guard (.onDev h fun _ h => ite_good (Dev.failGroup_good h ..) h)
  | groupControlReceive => exact .onLive h fun _ h => ite_good (Dev.groupControl_good h ..) h
  -- resilience
  | secureNowRequest =>
    exact .onLive h fun _ h => ite_good h (ite_good (Dev.modJob_good h ..) (Dev.secureNow_good h ..))
  | snapshotVote => obtain rfl := writes rfl; exact execSnapshotVote_good h ..
  | snapshotDecision => obtain rfl := writes rfl; exact execSnapshotDecision_good h ..
  | fillDone => exact .guard (.onDev h fun _ h => Dev.each_good h fun _ _ h => Dev.modMap_good h ..)
  | havenUnitReceive => obtain rfl := writes rfl; exact execHavenUnitReceive_good h _
  | drainConfirmed => exact execDrainConfirmed_good h _
  | snapshotComplete => exact execSnapshotComplete_good h _
  | havenBindReceive => exact .guard (.onLive h fun _ h => ite_good (Dev.meetBind_good h ..) h)
  | havenBindTimeout => exact execHavenBindTimeout_good h _
  | takeoverTimeout => exact execTakeoverTimeout_good h _
  | takeoverSubstitution => obtain rfl := writes rfl; exact .onLive h fun _ h => Dev.takeSub_good h _
  | takeoverRequestReceive => obtain rfl := writes rfl; exact .onLive h fun _ h => Dev.takeRequest_good h _
  | evacuationHold => exact execEvacuationHold_good h ..
  | evacuationStop => exact execEvacuationStop_good h _
  | coreFault => exact execCoreFault_good h ..
  -- trust, life cycle and debug
  | keySlotFreed => obtain rfl := writes rfl; exact execKeySlotFreed_good h _
  | tdispLockInterface => exact execTdispLockInterface_good h _
  | tdispStartInterface => exact .guard (.onDev h fun _ h => ite_good (Dev.modFn_good h ..) h)
  | tdispStopInterface => exact .guard (.onDev h fun _ h => ite_good (Dev.stopInterface_good h _) h)
  | ideKmMessage => exact .onDev h fun _ h => ite_good (Dev.ideKm_good h _) h
  | spdmRequest =>
    exact .guard (.onDev h fun _ h => ite_good (Dev.onTransport_good h _ _ fun _ h => Dev.spdm_good h ..) h)
  | lcTransition => exact .onDev h fun _ h => Dev.requestTransition_good h _
  | lcTransitionDone => exact execLcTransitionDone_good h
  | tokenLockoutExpiry => exact .onDev h fun _ h => Dev.modLife_good h _
  | debugOpen => exact .onDev h fun _ h => Dev.debugOpen_good h
  | debugClose => exact .onDev h fun _ h => Dev.debugClose_good h
  -- clocks, power, resets and bring-up
  | refclkLoss => exact execRefclkLoss_good h
  | forcingTakeover => exact .onDev h fun _ h => ite_good (Dev.modSys_good h fun _ => by exact id) h
  | refclkReturn => obtain rfl := writes rfl; exact .onDevice h fun _ h => ite_good h (Dev.recoverClock_good h)
  | powerOnReset => obtain rfl := writes rfl; obtain rfl := resets rfl; exact .onDev h fun _ _ => Dev.resetTo_good ..
  | deviceReset => obtain rfl := writes rfl; obtain rfl := resets rfl; exact .onDev h fun _ _ => Dev.deviceReset_good ..
  | functionLevelReset => exact execFunctionLevelReset_good h _
  | bringup => exact .onDev h fun _ h => ite_good h (Dev.bringUp_good h _)
  | neapServiceReady => exact execNeapServiceReady_good h
  | springServiceEntry => exact execSpringServiceEntry_good h _
  | thermalTrip => exact execThermalTrip_good h
  | powerSample => exact .onDevice h fun _ h => ite_good (Dev.powerReading_good h _) h
  | thermalSample => exact execThermalSample_good h _
  | droopStretch => exact .guard (.onDev h fun _ h => Dev.dwEvent_good h ..)
  -- registers, links and management
  | setupLock => exact .onDev h fun _ h => ite_good (Dev.writeGcCtrl_good h _) h
  | registerWrite => exact execRegisterWrite_good h ..
  | d3hotTransition => exact .guard (.onDev h fun _ h => ite_good h (Dev.modSys_good h fun _ => by exact id))
  | hostLinkRetrain => exact execHostLinkRetrain_good h ..
  | dynamicAddressAssignment =>
    exact .onDev h fun _ h => ite_good (Dev.modMgmt_good h fun _ => by exact ⟨rfl, rfl, rfl⟩) h
  | fwSelfcheckFail => exact execFwSelfcheckFail_good h _
  | mctpControl => exact mgmtRequest_good h _ _ fun _ h => Dev.mctpControl_good h ..
  | pldmPlatformRequest => exact mgmtRequest_good h _ _ fun _ h => Dev.pldmPlatform_good h ..
  | requestUpdate => exact execRequestUpdate_good h ..
  | updateComponentData => exact execUpdateComponentData_good h _
  | activateFirmware =>
    obtain rfl := writes rfl
    obtain rfl := resets rfl
    exact .onDevice h fun _ h => ite_good h (ite_good (Dev.emit_good h _) (Dev.activate_good h))
  | lcRequest => exact execLcRequest_good h _
  | lcRead | getCounters | getEvents =>
    exact mgmtRequest_good h _ _ fun _ h => ite_good (Dev.emit_good h _) (Dev.emit_good h _)

/-- Every step keeps the canonical form: the command at the front, or on an empty queue one cycle of the arbiters. -/
theorem step_good {s : State} (h : Dev.Good none false wl s.dev) : OkS none false wl (step s) := by
  unfold step
  split
  · exact .onDev h fun _ h => Dev.arbTick_good h
  · next rest _ => exact exec_good (s := { s with pending := rest }) h (fun _ => rfl) fun _ => rfl

/-- Settles O3: the layer of what every operation keeps, read off for the memory alone. -/
theorem stepKeepsMemoryForm : Obligations.StepKeepsMemoryForm := by
  unfold Obligations.StepKeepsMemoryForm
  intro s t canonical steps
  have good : Dev.Good none false [] s.dev :=
    ⟨canonical, fun _ names => (by cases names), fun locked => (by cases locked)⟩
  exact ((step_good good).out t steps).mem

end Sys2Proof.Machine
end

section
/-! SUPPORT. Entries of a table, what the ending of a command leaves alone, and what a lone ending does to its fence. -/

namespace Sys2Proof.Machine

/-! ### Entries of a table -/

section
variable {α : Type} {t : Tab α} {p : Nat × α} {k : Nat}

theorem Tab.mem_erase : p ∈ t.erase k ↔ p ∈ t ∧ p.1 ≠ k := by
  induction t with
  | nil => simp [Tab.erase]
  | cons a t ih =>
    by_cases h : a.1 = k
    · simp only [Tab.erase, if_pos h, ih, List.mem_cons]
      exact ⟨fun ⟨mem, ne⟩ => ⟨.inr mem, ne⟩, fun ⟨mem, ne⟩ => ⟨mem.resolve_left fun e => ne (e ▸ h), ne⟩⟩
    · simp only [Tab.erase, if_neg h, List.mem_cons, ih]
      exact ⟨fun h' => h'.elim (fun e => ⟨.inl e, e ▸ h⟩) fun ⟨mem, ne⟩ => ⟨.inr mem, ne⟩,
        fun ⟨mem, ne⟩ => mem.imp_right fun mem => ⟨mem, ne⟩⟩

theorem Tab.mem_insert {v : α} : p ∈ t.insert k v ↔ p = (k, v) ∨ p ∈ t := by
  induction t with
  | nil => simp [Tab.insert]
  | cons a t ih =>
    unfold Tab.insert
    split
    · exact List.mem_cons
    · simp only [List.mem_cons, ih]
      exact or_left_comm

variable [DecidableEq α] {d : α} {f : α → α}

theorem Tab.mem_upd (h : p ∈ t.upd d k f) : p = (k, f (t.get d k)) ∨ p ∈ t ∧ p.1 ≠ k := by
  unfold Tab.upd Tab.set at h
  split at h
  · exact .inr (Tab.mem_erase.mp h)
  · exact (Tab.mem_insert.mp h).imp_right Tab.mem_erase.mp

end

/-! ### What an ending leaves alone -/

theorem EndsOnly.extent {q : Nat} {f : Option Nat} {d e : Dev} (h : EndsOnly q f d e) (n : Nat) : e.extent n = d.extent n := by
  rw [h.rest]
  rfl

theorem EndsOnly.stageQueue {q : Nat} {f : Option Nat} {d e : Dev} (h : EndsOnly q f d e) : e.stageQueue = d.stageQueue := by
  rw [h.rest]

/-! ### A lone ending and its fence (R350, R352, R354) -/

section
variable {d : Dev} {e : Ending}

/-- Fence `n` has the same value and state on both devices. -/
structure Dev.SameSignal (n : Nat) (d e : Dev) : Prop where
  value : (e.fence n).value = (d.fence n).value
  state : (e.fence n).state = (d.fence n).state

theorem Dev.SameSignal.trans {n : Nat} {d e g : Dev} (h : Dev.SameSignal n d e) (k : Dev.SameSignal n e g) :
    Dev.SameSignal n d g := ⟨k.value.trans h.value, k.state.trans h.state⟩

theorem Dev.SameSignal.of_eq {n : Nat} {d e : Dev} (h : e.fence n = d.fence n) : Dev.SameSignal n d e :=
  ⟨congrArg Fence.value h, congrArg Fence.state h⟩

theorem EndsOnly.sameSignal {q : Nat} {d e : Dev} (h : EndsOnly q none d e) (n : Nat) : Dev.SameSignal n d e :=
  .of_eq (h.fences n (Option.some_ne_none n).symm)

theorem Dev.writeRecord_sameSignal (d : Dev) (g n : Nat) : Dev.SameSignal n d (d.writeRecord g) := by
  unfold Dev.writeRecord
  split
  · exact .of_eq rfl
  dsimp only
  split
  · exact .of_eq rfl
  · refine .trans ?_ ((Dev.hostWrite_endsOnly (q := 0) ..).sameSignal n)
    by_cases h : n = g
    · subst h
      constructor <;> rw [Dev.fence_modFence_self]
    · exact .of_eq ((d.fence_modFence ..).trans (if_neg h))

/-- An ending applies the changes of its fence that its context allows; what follows leaves values and states. -/
theorem Dev.finish_sameSignal (n : Nat) :
    Dev.SameSignal n (d.applyFenceOps (e.fenceOp.filter d.fenceAllowed)).1 (d.finish e) := by
  have ops : [e].flatMap Ending.fenceOp ++ [] = e.fenceOp := by simp
  unfold Dev.finish Dev.endAll
  rw [ops]
  generalize d.applyFenceOps _ = applied
  obtain ⟨d1, leaps, slots⟩ := applied
  refine .trans ?_ ((EndsOnly.each (q := e.queue) (fun v _ d => d.msix_endsOnly ..) _).sameSignal n)
  refine Dev.each_keeps (Dev.SameSignal n _) ?_ fun d g h => h.trans (d.writeRecord_sameSignal g n)
  exact (((Dev.noteLeaps_endsOnly d1 leaps).trans (Dev.modQueue_endsOnly ..)).trans
    ((Dev.logCodes_endsOnly ..).trans (Dev.postCompletion_endsOnly ..))).sameSignal n

/-- A fence change outside its queue's context is not made (R350). -/
theorem Dev.finish_barred (barred : ∀ o ∈ e.fenceOp, d.fenceAllowed o = false) (n : Nat) : Dev.SameSignal n d (d.finish e) := by
  have none : e.fenceOp.filter d.fenceAllowed = [] := List.filter_eq_nil_iff.mpr fun o h => by simp [barred o h]
  have same := Dev.finish_sameSignal (d := d) (e := e) n
  rw [none] at same
  exact same

theorem Ending.queue_of_mem_fenceOp {o : FenceOp} (h : o ∈ e.fenceOp) : o.queue = e.queue := by
  unfold Ending.fenceOp at h
  split at h
  · cases h
  · dsimp only at h
    split at h <;> rw [List.mem_singleton.mp h]

/-- A command of a queue whose tag no open context has signals nothing (R350). -/
theorem Dev.succeed_barred {q : Nat} {c : Cmd} (nobody : d.ctxOfTag (d.queue q).context.toNat = none) (n : Nat) :
    Dev.SameSignal n d (d.succeed q c) :=
  Dev.finish_barred (fun o mem => by
    have queue : o.queue = q := Ending.queue_of_mem_fenceOp mem
    simp only [Dev.fenceAllowed, queue, nobody]) n

end

end Sys2Proof.Machine
end

section
/-! SUPPORT. What the end of a settlement does to its extent, its context and the command that waited (R444, R451), and the
statement on promotions and settlements. -/

namespace Sys2Proof.Machine

/-! ### Releases and queued stages (R444) -/

def Extent.cleared (x : Extent) : Extent := { x with releases := [] }

section
variable {d : Dev} {e : Nat}

theorem Dev.retryStages_idle (idle : d.stageQueue = []) : d.retryStages = d := by
  unfold Dev.retryStages
  rw [idle, Dev.each_nil]

theorem Dev.applyReleases_settles (state : (d.extent e).state ≠ .promoting) (releases : (d.extent e).releases = [])
    (freeing : (d.extent e).freeing = false) : d.applyReleases e = (d.modExtent e Extent.cleared).settleRefs e := by
  have kept : ((d.modExtent e Extent.cleared).extent e).freeing = false := by
    rw [Dev.extent_modExtent_self]
    exact freeing
  have unheld : (d.modExtent e fun x => { x with releases := [] }) = d.modExtent e Extent.cleared := rfl
  simp only [Dev.applyReleases, state, decide_false, Bool.false_and, Bool.false_eq_true, if_false, releases, Dev.each_nil,
    unheld, kept]

theorem Dev.settleRefs_held (held : (d.extent e).state ≠ .resident ∨ (d.extent e).refs ≠ []) : d.settleRefs e = d := by
  unfold Dev.settleRefs
  refine if_neg fun rests => ?_
  simp only [Bool.and_eq_true, decide_eq_true_eq, List.isEmpty_iff] at rests
  obtain ⟨⟨resident, refs⟩, -⟩ := rests
  exact held.elim (· resident) (· refs)

/-- An extent that is not dropped, with nothing queued on it: its change of state is all that happens. -/
theorem Dev.settled_held (state : (d.extent e).state ≠ .promoting) (releases : (d.extent e).releases = [])
    (freeing : (d.extent e).freeing = false) (held : (d.extent e).state ≠ .resident ∨ (d.extent e).refs ≠ [])
    (idle : d.stageQueue = []) : (d.applyReleases e).retryStages = d.modExtent e Extent.cleared := by
  rw [Dev.applyReleases_settles state releases freeing, Dev.settleRefs_held, Dev.retryStages_idle]
  · exact idle
  · rw [Dev.extent_modExtent_self]
    exact held

end

/-! ### The end of a settlement (R451) -/

/-- An extent whose copy has settled in slots of superblock `n` from `start` on. -/
def Extent.settledAt (contents : List Host.Cell) (n start : Nat) (x : Extent) : Extent :=
  { x with state := .resident, stored := storedUnits contents, superblock := n, startSlot := start, contents := contents
           covered := [], complete := false }

def Extent.unstaged (x : Extent) : Extent := { x with stagers := [] }

/-- A context whose settlement wrote `units` slots (R559). -/
def Context.chargeFlash (units : Nat) (x : Context) : Context := { x with flashUse := x.flashUse + 4608 * units }

/-- The device once a settlement's slots are its extent's, before the commands that waited end: the hub's flash is `g`, the
egress holds `held`. -/
def Dev.mapped (d : Dev) (e : Nat) (g : Flash) (n start : Nat) (held : List Held) : Dev :=
  let contents := d.copyContents (d.extent e)
  ({ (d.modFlash (extentHub e) fun _ => g).modCtx (d.extent e).ctx (Context.chargeFlash (storedUnits contents)) with
      held := held }).modExtent e (Extent.settledAt contents n start)

theorem Dev.mirrorCells_eq (d : Dev) (c : Nat) (cells : List Host.Cell) : ∃ held, d.mirrorCells c cells = { d with held := held } := by
  unfold Dev.mirrorCells
  dsimp only
  split
  · split
    · unfold Dev.holdEgress
      split <;> exact ⟨_, rfl⟩
    · exact ⟨_, rfl⟩
  · exact ⟨_, rfl⟩

section
variable {d : Dev} {e n start : Nat} {f : Flash}

theorem Dev.endSettlement_eq
    (placed : (d.flashOf (extentHub e)).place false e (storedUnits (d.copyContents (d.extent e))) = some (f, n, start)) :
    ∃ g held, d.endSettlement e = (((d.mapped e g n start held).settleStagers e).applyReleases e).retryStages := by
  unfold Dev.endSettlement
  simp only [placed]
  obtain ⟨held, mirrored⟩ := Dev.mirrorCells_eq (((d.modFlash (extentHub e) fun _ => _).modCtx (d.extent e).ctx _).modExtent e _) _ _
  rw [mirrored]
  exact ⟨_, held, rfl⟩

theorem Dev.mem_extents_modExtent {g : Extent → Extent} {y : Nat × Extent} (mem : y ∈ (d.modExtent e g).extents) :
    y = (e, g (d.extent e)) ∨ y ∈ d.extents ∧ y.1 ≠ e := Tab.mem_upd mem

/-- The one command that waited for the settlement succeeds. -/
theorem Dev.settleStagers_one {q k : Nat} {c : Cmd} (waits : (d.extent e).stagers = [(q, k)])
    (alone : ∀ y ∈ d.extents, y.1 ≠ e → (q, k) ∉ y.2.stagers) (stands : d.begunCmd q k = some c) :
    d.settleStagers e = (d.modExtent e Extent.unstaged).succeed q c := by
  have last : (d.modExtent e Extent.unstaged).extents.any (fun x => x.2.stagers.contains (q, k)) = false := by
    refine List.any_eq_false.mpr fun y mem => ?_
    obtain rfl | ⟨mem, other⟩ := Dev.mem_extents_modExtent mem
    · simp [Extent.unstaged]
    · simpa using alone y mem other
  have unstaged : (d.modExtent e fun x => { x with stagers := [] }) = d.modExtent e Extent.unstaged := rfl
  have stays : (d.modExtent e Extent.unstaged).begunCmd q k = some c := stands
  simp only [Dev.settleStagers, waits, unstaged, Dev.each_cons, Dev.each_nil, last, Bool.false_eq_true, if_false, stays]

theorem Dev.mapped_alone {g : Flash} {held : List Held} {q k : Nat} (alone : ∀ y ∈ d.extents, y.1 ≠ e → (q, k) ∉ y.2.stagers) :
    ∀ y ∈ (d.mapped e g n start held).extents, y.1 ≠ e → (q, k) ∉ y.2.stagers := by
  intro y mem other
  unfold Dev.mapped at mem
  obtain rfl | ⟨mem, -⟩ := Dev.mem_extents_modExtent mem
  · exact absurd rfl other
  · exact alone y mem other

/-- A settlement for which one command waited, its extent referenced: the command succeeds, and no more happens. -/
theorem Dev.endSettlement_one {q k : Nat} {c : Cmd}
    (placed : (d.flashOf (extentHub e)).place false e (storedUnits (d.copyContents (d.extent e))) = some (f, n, start))
    (releases : (d.extent e).releases = []) (freeing : (d.extent e).freeing = false) (idle : d.stageQueue = [])
    (refs : (d.extent e).refs ≠ []) (waits : (d.extent e).stagers = [(q, k)])
    (alone : ∀ y ∈ d.extents, y.1 ≠ e → (q, k) ∉ y.2.stagers) (stands : d.begunCmd q k = some c) :
    ∃ g held, d.endSettlement e =
      (((d.mapped e g n start held).modExtent e Extent.unstaged).succeed q c).modExtent e Extent.cleared := by
  obtain ⟨g, held, ends⟩ := Dev.endSettlement_eq placed
  have mapped : (d.mapped e g n start held).extent e = (d.extent e).settledAt (d.copyContents (d.extent e)) n start :=
    Dev.extent_modExtent_self ..
  refine ⟨g, held, ?_⟩
  rw [ends, Dev.settleStagers_one (mapped ▸ waits) (Dev.mapped_alone alone) stands]
  have only := (((d.mapped e g n start held).modExtent e Extent.unstaged).succeed_endsOnly q c [] [])
  have extent : (((d.mapped e g n start held).modExtent e Extent.unstaged).succeed q c).extent e =
      ((d.extent e).settledAt (d.copyContents (d.extent e)) n start).unstaged := by
    rw [only.extent, Dev.extent_modExtent_self, mapped]
  refine Dev.settled_held ?_ ?_ ?_ (.inr ?_) (only.stageQueue.trans idle) <;> rw [extent]
  · exact ExtState.noConfusion
  · exact releases
  · exact freeing
  · exact refs

end

/-! ### Contexts once a settlement is charged (R333, R559) -/

section
variable {d : Dev} {e n start : Nat} {g : Flash} {held : List Held}

theorem Dev.ctxOfTag_modExtent (k : Nat) (f : Extent → Extent) (tag : Nat) :
    (d.modExtent k f).ctxOfTag tag = d.ctxOfTag tag := rfl

theorem Dev.ctxOfTag_mapped (tag : Nat) : (d.mapped e g n start held).ctxOfTag tag =
    ((d.ctxs.upd {} (d.extent e).ctx (Context.chargeFlash (storedUnits (d.copyContents (d.extent e))))).find? fun p =>
      p.2.state != .closed && p.2.tag.toNat == tag).map Prod.fst := rfl

end

/-! ### A context that the table lists twice -/

/-- The STAGE whose fence waits for the settlement: number 4 of queue 7, of tag 5, with fence 2. -/
def waitingStage : Cmd := { opcode := Op.stage, seq := 4, context := 5, signal := some 2, signalSlot := 2, signalValue := 1 }

/-- Hub 0 with one plane of ten blocks of 2,048 slots, superblock 0 open and empty. -/
def roomyHub : Flash :=
  { geom := { channels := [0], slotsPerPage := 16, pagesPerBlock := 128, blocks := 10, endurance := 1000 }
    openStage := some 0, nextSuper := 1, supers := [(0, { written := true, blocks := [0] })], inUse := [0] }

/-- Extent 9 of context 3 settles and queue 7's STAGE waits for it. The context table lists slot 3 twice: first CLOSED with
fences 0 to 63, then open under tag 5. -/
def twiceListed : State :=
  { dev := {
      ctxs := [(3, { fenceCount := 1 }), (3, { tag := 5, state := .opened })]
      queues := [(7, { context := 5, begun := [waitingStage] })]
      extents := [(9, { state := .settling, ctx := 3, refs := [0], stagers := [(7, 4)] })]
      flash := [(0, roomyHub)] }
    pending := [] }

/-- Whatever the contents compress to (log 8), the hub has slots for them. -/
theorem roomyHub_place (contents : List Host.Cell) :
    ∃ f, roomyHub.place false 9 (storedUnits contents) = some (f, 0, 0) := by
  have fits : storedUnits contents ≤ 1024 := max_le (by decide) (min_le_left ..)
  have slots : roomyHub.superSlots = 2048 := by decide
  have empty : (roomyHub.supers.get {} 0).slots = 0 := rfl
  have opened : roomyHub.openStage = some 0 := rfl
  have holds : 0 + storedUnits contents ≤ 2048 := by omega
  simp only [Flash.place, opened, slots, empty, Option.any_some, holds, decide_true, if_true, Option.map_some,
    Bool.false_eq_true, if_false]
  exact ⟨_, rfl⟩

/-- Charged for its flash use, the context is listed once, as CLOSED: no open context has tag 5. -/
theorem twiceListed_charged (units tag : Nat) : ((twiceListed.dev.ctxs.upd {} 3 (Context.chargeFlash units)).find? fun p =>
    p.2.state != .closed && p.2.tag.toNat == tag) = none := by
  refine List.find?_eq_none.mpr fun p mem => ?_
  obtain rfl | ⟨mem, other⟩ := Tab.mem_upd mem
  · have closed : ((twiceListed.dev.ctxs.get {} 3).chargeFlash units).state = .closed := rfl
    dsimp only
    rw [closed]
    exact Bool.false_ne_true
  · have slots : ∀ p ∈ twiceListed.dev.ctxs, p.1 = 3 := by decide
    exact absurd (slots p mem) other

/-- The settlement ends, and the fence of the command that waited reads as before. -/
theorem twiceListed_fence : ((twiceListed.dev.endSettlement 9).fence 2).value = 0 := by
  obtain ⟨f, placed⟩ := roomyHub_place (twiceListed.dev.copyContents (twiceListed.dev.extent 9))
  have alone : ∀ y ∈ twiceListed.dev.extents, y.1 ≠ 9 → (7, 4) ∉ y.2.stagers := by decide
  obtain ⟨g, held, ends⟩ := Dev.endSettlement_one (d := twiceListed.dev) (e := 9) (c := waitingStage) placed rfl rfl rfl
    (by decide) rfl alone rfl
  have slot : (twiceListed.dev.extent 9).ctx = 3 := rfl
  have nobody : ((twiceListed.dev.mapped 9 g 0 0 held).modExtent 9 Extent.unstaged).ctxOfTag 5 = none := by
    rw [Dev.ctxOfTag_modExtent, Dev.ctxOfTag_mapped, slot, twiceListed_charged]
    rfl
  have unsignalled := Dev.succeed_barred (q := 7) (c := waitingStage) nobody 2
  rw [ends, Dev.fence_modExtent, unsignalled.value]
  rfl

/-- Refutes O53: a settlement's charge writes its context's entry. Where the table of contexts lists that slot twice (which no
hypothesis excludes), the open entry that owned the fence is gone before the waiting command ends, and the fence is not
signalled. -/
theorem not_extentsPromoteAndSettle : ¬ Obligations.ExtentsPromoteAndSettle := by
  unfold Obligations.ExtentsPromoteAndSettle
  rintro ⟨-, -, -, -, settles⟩
  obtain ⟨f, placed⟩ := roomyHub_place (twiceListed.dev.copyContents (twiceListed.dev.extent 9))
  obtain ⟨-, signals, -⟩ := settles twiceListed 9 f 0 0 (by decide) rfl rfl placed rfl rfl rfl (by decide)
  obtain ⟨t, answers, value, -⟩ := signals 7 4 waitingStage 2 3 (by decide) rfl (by decide) rfl rfl rfl rfl (by decide)
  have next : exec (.settlementDone 9) twiceListed = .next { twiceListed with dev := twiceListed.dev.endSettlement 9 } := rfl
  rw [next] at answers
  cases answers
  rw [twiceListed_fence] at value
  exact absurd value (by decide)

end Sys2Proof.Machine
end
